-- ==== Sys2Proof/Word.lean ====
section
/-! DEFINITION. The word types of the Plomund and the sparse table type used throughout. -/

namespace Sys2Proof

/-- A scalar register, an address, a control register (03 R96). -/
abbrev Word := BitVec 64

/-- A vector register or a queue entry (01 R19, 03 R103). -/
abbrev VWord := BitVec 128

/-- One byte of memory. -/
abbrev Byte := BitVec 8

/-- A table from numbers to values, held as its entries that differ from the table's default,
keys strictly rising: equal tables are equal data. -/
abbrev FMap (α : Type) := List (Nat × α)

end Sys2Proof
end

