-- ==== Sys2Proof/Config.lean ====
section
/-! DEFINITION. What the spec leaves to the part or to luthier and the model leaves open: constants
with no body, of which no proof can learn a value. -/

namespace Sys2Proof.Config

/-- The bundle number of the retire stub of a task that belongs to no launch (02 R59 names the stub
and gives no address). -/
opaque firmwareStub : Nat

/-- Where luthier puts a launch's overflow area for a fretboard: the launch, the quad's number in its partition (02 R64, R66
give the area's size and no address). -/
opaque overflowArea : Nat → Nat → Nat

/-- The byte at a place of a captured quad image whose layout is internal to the device (20 R500):
the quad, the offset within the image, and the capture's number. -/
opaque shadowByte : Nat → Nat → Nat → BitVec 8

/-- XTS-AES-256 of a 64-byte line: the key, the line's physical address, and the plain line as a number (20 R490). The
result is seen only in a checkpoint stream (23 R552). -/
opaque cipherLine : BitVec 512 → Nat → Nat → Nat

/-- The device key (20 R490): fused, and never readable. -/
opaque deviceKey : BitVec 512

/-- The element that a reconstruction by K1 or K5 takes where no neighbour is present (11 R379), for a format and the
element's index. -/
opaque loneElement : BitVec 6 → Nat → BitVec 64

/-- What the old image writes into the hand-over structure (21 R516): its magic, the version of its layout for an image
version, its size, its physical address, and the bytes after the header of a copy. -/
opaque handMagic : BitVec 32
opaque handVersion : Nat → BitVec 16
opaque handSize : Nat → Nat
opaque handPlace : Nat
opaque handByte : Nat → Nat → BitVec 8


/-- The opcode, counted from 0x20, of the command of a member in another package (10 R361), which its control message does not
carry (19 R469): the member, the group, the number, the launch and the time at which it was accepted. -/
opaque peerOp : Nat → Nat → Nat → Nat → Nat → Nat

/-- The record that a die's temperature sensors post (22 R528): the number of the sensor and its temperature, for the die and the
cycle. -/
opaque sensor : Nat → Nat → BitVec 32 × BitVec 32

/-- A value the spec does not state, told apart by its number. -/
opaque freeWord : Nat → BitVec 64

/-- The measurement of a firmware image that the root of trust reports (21 R516): slot and version. -/
opaque measurement : Nat → Nat → Nat

end Sys2Proof.Config
end

