-- ==== Sys2Proof/Syntax.lean ====
section
/-! DEFINITION. The instructions: every row of the table of operations and events is one
constructor of `Instr`, and the operands that events carry. -/

namespace Sys2Proof

/-- A tile record: tag and locator (02 R30-R31). -/
structure Rec where
  tag : Word
  loc : Word
deriving DecidableEq, Repr

/-- The coverage marks a fretboard holds beside a hole record (11 R375): latched level and audit flag. -/
structure Marks where
  level : Nat
  audit : Bool
deriving DecidableEq, Repr

/-- Where a long-latency result goes (03 R97): nowhere, a scalar or a vector register. -/
inductive Dest where
  | none
  | s (n : Nat)
  | v (n : Nat)
deriving DecidableEq, Repr

/-- What a message asks of the home of its address (08 R250, 09 R303, R307). -/
inductive ReqOp where
  | load (sext : Bool)
  | store
  | amo (op : Nat)
  | ldfe
  | stef
  | ldpw
  | swait (cond : Nat)
  | joinInit
  | joinArrive
  | ssigSet
  | ssigAdd
deriving DecidableEq, Repr

/-- A request travelling to the home of its address. `th` is the issuing context, `seq` the number
of the producer or request within its thread, `lane` the lane of a gather, `cls` the store counter
that holds it, `pa` the physical address once translated, `start` the core cycle of its issue. -/
structure Req where
  op : ReqOp
  th : Nat
  lid : Option Nat
  level : Nat
  xctx : Nat
  addr : Word
  size : Nat
  data : VWord
  cmp : Word
  dst : Dest
  seq : Nat
  lane : Option Nat
  cls : Option Nat
  adaptive : Bool
  pa : Option Nat := none
  start : Nat := 0
deriving DecidableEq, Repr

/-- The access that an answer ends: the core cycle of its issue, its address, its physical address, its kind (0 load, 1
store, 2 atomic, 3 a special function, which has no address), and its launch (17 R416, 22 R528). -/
structure Ended where
  start : Nat
  addr : Word
  pa : Nat
  kind : Nat
  lid : Option Nat
deriving DecidableEq, Repr

/-- What an acknowledgement says: the counter class it lowers and the access it ends, if that
is one a latency filter measures (08 R253, 22 R528). -/
structure Acked where
  cls : Nat
  ends : Option Ended := none
deriving DecidableEq, Repr

/-- The result of a long-latency producer on its way back (03 R97). `conds` are the exception
conditions it adds when it is written (07 R238, 09 R305); `ends` is the access it answers. -/
structure Load where
  th : Nat
  seq : Nat
  dst : Dest
  lane : Option Nat
  size : Nat
  value : VWord
  conds : List Nat
  ends : Option Ended := none
deriving DecidableEq, Repr

/-- A record on its way to its home (02 R36): launch, home quad, logical quad it is for. -/
structure Arrival where
  lid : Nat
  quad : Nat
  lq : Nat
  record : Rec
  marks : Option Marks
deriving DecidableEq, Repr

/-- A dispatched group (02 R46, R58): the members in position order with their arrival numbers,
the home fretboard's firing number, for a reconstruction the hole's marks, and the cycle of the dispatch. -/
structure Firing where
  lid : Nat
  quad : Nat
  lq : Nat
  rule : Nat
  members : List Rec
  arrs : List Nat
  number : Nat
  marks : Option Marks
  since : Nat := 0
deriving DecidableEq, Repr

/-- Who sent a wake message (02 R62): a thread counted in `c`k, an engine, or a join counter. -/
inductive Sender where
  | thread (th k : Nat)
  | engine (th unit seq : Nat)
  | join (die : Nat)
deriving DecidableEq, Repr

/-- A wake message, with the cycle in which it was sent (02 R62, 06 R199). -/
structure Wake where
  core : Nat
  entry : Word
  args : List Word
  level : Nat
  h : Bool
  lid : Option Nat
  sender : Sender
  since : Nat := 0
deriving DecidableEq, Repr

/-- What starts a task: a firing or a wake message (02 R58-R59). -/
inductive Start where
  | firing (f : Firing)
  | wake (w : Wake)
deriving DecidableEq, Repr

/-- An accepted engine command (10 R326-R338): its engine (selector, quad or die), the thread that
pushed it, the launch and level it acts for, its words, and its number among that thread's commands. -/
structure Cmd where
  unit : Nat
  place : Nat
  th : Nat
  lid : Option Nat
  level : Nat
  xctx : Nat
  words : List Word
  seq : Nat
deriving DecidableEq, Repr

/-- How a command ended (10 R334): outcome 0 done, 1 partial, 2 failed or rejected, 3 cancelled. -/
structure CmdResult where
  outcome : Nat
  error : Nat
  detail : Nat
deriving DecidableEq, Repr

/-- An arrival at a barrier (09 R318-R320): level, id, place of its level, the arriving context, its phase and
the record address of a combining arrival. -/
structure BarrierMsg where
  level : Nat
  id : Nat
  inst : Nat
  th : Nat
  lid : Option Nat
  phase : Nat
  comb : Option Word
  counts : Option (List Nat) := none
deriving DecidableEq, Repr

/-- A request record of a hardware queue (19 R451), with the stamp and the number of its acceptance. -/
structure Request where
  queue : Nat
  kind : Nat
  ring : Nat
  handle : Nat
  arg : Word
  compl : Word
  capacity : Nat
  cmbwait : Nat
  deadline : Word
  coll : Word
  takeHandle : Nat
  take : Bool
  stamp : BitVec 96 := 0
  order : Nat := 0
  svc : Nat := 0
  takeOk : Bool := false
deriving DecidableEq, Repr

/-- A hardware error (21 R520-R521): its die, code, location, the thread or command that consumes it, or the tile whose
reconstruction does (the quad of the unit, the launch, the number of the firing, or the arrival number of a hole, and whether
it is a hole), and the launch it touches. `unit` is the kind of the unit of a corrected error; of an uncorrectable one it is 1
more than the quad found failing, or 0. -/
structure HwError where
  die : Nat
  code : Nat
  loc : Word
  detail : BitVec 32
  th : Option Nat
  cmd : Option (Nat × Nat)
  lid : Option Nat
  unit : Nat
  tile : Option (Nat × Nat × Nat × Bool) := none
deriving DecidableEq, Repr

/-- A message to the root of trust's SPDM responder (21 R515-R516, 20 R490). `valid` says whether
the image's signature verifies. -/
inductive Spdm where
  | writeSlot (version secver : Nat) (valid : Bool)
  | tenantKey (tenant : Nat) (key : BitVec 512)
  | measure
deriving DecidableEq, Repr

/-- One instruction, engine command, event or filter instruction: one constructor per row of the
table of operations and events. A core or filter instruction carries the fields of its word; an
engine command the words pushed for it; an event what its message or its cause brings. -/
inductive Instr where
  /-- `add` (R180). -/
  | add (d : BitVec 5) (a : BitVec 5) (t : BitVec 1) (b : BitVec 5) (u : BitVec 1)
  /-- `sub` (R180). -/
  | sub (d : BitVec 5) (a : BitVec 5) (t : BitVec 1) (b : BitVec 5) (u : BitVec 1)
  /-- `and` (R180). -/
  | and (d : BitVec 5) (a : BitVec 5) (t : BitVec 1) (b : BitVec 5) (u : BitVec 1)
  /-- `or` (R180). -/
  | or (d : BitVec 5) (a : BitVec 5) (t : BitVec 1) (b : BitVec 5) (u : BitVec 1)
  /-- `xor` (R180). -/
  | xor (d : BitVec 5) (a : BitVec 5) (t : BitVec 1) (b : BitVec 5) (u : BitVec 1)
  /-- `andn` (R180). -/
  | andn (d : BitVec 5) (a : BitVec 5) (t : BitVec 1) (b : BitVec 5) (u : BitVec 1)
  /-- `sll` (R180). -/
  | sll (d : BitVec 5) (a : BitVec 5) (t : BitVec 1) (b : BitVec 5) (u : BitVec 1)
  /-- `srl` (R180). -/
  | srl (d : BitVec 5) (a : BitVec 5) (t : BitVec 1) (b : BitVec 5) (u : BitVec 1)
  /-- `sra` (R180). -/
  | sra (d : BitVec 5) (a : BitVec 5) (t : BitVec 1) (b : BitVec 5) (u : BitVec 1)
  /-- `slt` (R180). -/
  | slt (d : BitVec 5) (a : BitVec 5) (t : BitVec 1) (b : BitVec 5) (u : BitVec 1)
  /-- `sltn` (R180). -/
  | sltn (d : BitVec 5) (a : BitVec 5) (t : BitVec 1) (b : BitVec 5) (u : BitVec 1)
  /-- `min` (R180). -/
  | min (d : BitVec 5) (a : BitVec 5) (t : BitVec 1) (b : BitVec 5) (u : BitVec 1)
  /-- `max` (R180). -/
  | max (d : BitVec 5) (a : BitVec 5) (t : BitVec 1) (b : BitVec 5) (u : BitVec 1)
  /-- `minn` (R180). -/
  | minn (d : BitVec 5) (a : BitVec 5) (t : BitVec 1) (b : BitVec 5) (u : BitVec 1)
  /-- `maxn` (R180). -/
  | maxn (d : BitVec 5) (a : BitVec 5) (t : BitVec 1) (b : BitVec 5) (u : BitVec 1)
  /-- `lea` (R180). -/
  | lea (d : BitVec 5) (a : BitVec 5) (t : BitVec 1) (b : BitVec 5) (u : BitVec 1) (k : BitVec 3)
  /-- `mul` (R181). -/
  | mul (d : BitVec 5) (a : BitVec 5) (t : BitVec 1) (b : BitVec 5) (u : BitVec 1)
  /-- `mulh` (R181). -/
  | mulh (d : BitVec 5) (a : BitVec 5) (t : BitVec 1) (b : BitVec 5) (u : BitVec 1)
  /-- `mulhn` (R181). -/
  | mulhn (d : BitVec 5) (a : BitVec 5) (t : BitVec 1) (b : BitVec 5) (u : BitVec 1)
  /-- `mulhsn` (R181). -/
  | mulhsn (d : BitVec 5) (a : BitVec 5) (t : BitVec 1) (b : BitVec 5) (u : BitVec 1)
  /-- `div` (R181). -/
  | div (d : BitVec 5) (a : BitVec 5) (t : BitVec 1) (b : BitVec 5) (u : BitVec 1)
  /-- `divn` (R181). -/
  | divn (d : BitVec 5) (a : BitVec 5) (t : BitVec 1) (b : BitVec 5) (u : BitVec 1)
  /-- `rem` (R181). -/
  | rem (d : BitVec 5) (a : BitVec 5) (t : BitVec 1) (b : BitVec 5) (u : BitVec 1)
  /-- `remn` (R181). -/
  | remn (d : BitVec 5) (a : BitVec 5) (t : BitVec 1) (b : BitVec 5) (u : BitVec 1)
  /-- `clz` (R182). -/
  | clz (d : BitVec 5) (a : BitVec 5) (t : BitVec 1)
  /-- `ctz` (R182). -/
  | ctz (d : BitVec 5) (a : BitVec 5) (t : BitVec 1)
  /-- `popc` (R182). -/
  | popc (d : BitVec 5) (a : BitVec 5) (t : BitVec 1)
  /-- `sel` (R182). -/
  | sel (d : BitVec 5) (a : BitVec 5) (t : BitVec 1) (b : BitVec 5) (u : BitVec 1)
  /-- `bext` (R182). -/
  | bext (d : BitVec 5) (a : BitVec 5) (t : BitVec 1) (b : BitVec 5) (u : BitVec 1)
  /-- `bexts` (R182). -/
  | bexts (d : BitVec 5) (a : BitVec 5) (t : BitVec 1) (b : BitVec 5) (u : BitVec 1)
  /-- `bins` (R182). -/
  | bins (d : BitVec 5) (a : BitVec 5) (t : BitVec 1) (b : BitVec 5) (u : BitVec 1)
  /-- `jr` (R191). -/
  | jr (a : BitVec 5) (t : BitVec 1)
  /-- `callr` (R191). -/
  | callr (d : BitVec 5) (a : BitVec 5) (t : BitVec 1)
  /-- `lpset` (R195). -/
  | lpset (a : BitVec 5) (t : BitVec 1)
  /-- `lpidx` (R195). -/
  | lpidx (d : BitVec 5) (l : BitVec 2)
  /-- `lpaddr` (R195). -/
  | lpaddr (d : BitVec 5) (l : BitVec 2)
  /-- `addi` (R184). -/
  | addi (d : BitVec 5) (a : BitVec 5) (t : BitVec 1) (i : BitVec 15)
  /-- `andi` (R184). -/
  | andi (d : BitVec 5) (a : BitVec 5) (t : BitVec 1) (i : BitVec 15)
  /-- `ori` (R184). -/
  | ori (d : BitVec 5) (a : BitVec 5) (t : BitVec 1) (i : BitVec 15)
  /-- `xori` (R184). -/
  | xori (d : BitVec 5) (a : BitVec 5) (t : BitVec 1) (i : BitVec 15)
  /-- `slti` (R184). -/
  | slti (d : BitVec 5) (a : BitVec 5) (t : BitVec 1) (i : BitVec 15)
  /-- `sltni` (R184). -/
  | sltni (d : BitVec 5) (a : BitVec 5) (t : BitVec 1) (i : BitVec 15)
  /-- `slli` (R185). -/
  | slli (d : BitVec 5) (a : BitVec 5) (t : BitVec 1) (n : BitVec 6)
  /-- `srli` (R185). -/
  | srli (d : BitVec 5) (a : BitVec 5) (t : BitVec 1) (n : BitVec 6)
  /-- `srai` (R185). -/
  | srai (d : BitVec 5) (a : BitVec 5) (t : BitVec 1) (n : BitVec 6)
  /-- `cadr` (R187). -/
  | cadr (d : BitVec 5) (a : BitVec 5) (t : BitVec 1) (g : BitVec 3) (x : BitVec 4) (y : BitVec 4) (c : BitVec 2)
  /-- `trap` (R202). -/
  | trap (n : BitVec 15)
  /-- `ctlr` (R204). -/
  | ctlr (d : BitVec 5) (i : BitVec 12)
  /-- `ctlw` (R204). -/
  | ctlw (a : BitVec 5) (t : BitVec 1) (i : BitVec 12)
  /-- `beq` (R190). -/
  | beq (a : BitVec 5) (t : BitVec 1) (b : BitVec 5) (u : BitVec 1) (o : BitVec 14)
  /-- `bne` (R190). -/
  | bne (a : BitVec 5) (t : BitVec 1) (b : BitVec 5) (u : BitVec 1) (o : BitVec 14)
  /-- `blt` (R190). -/
  | blt (a : BitVec 5) (t : BitVec 1) (b : BitVec 5) (u : BitVec 1) (o : BitVec 14)
  /-- `bge` (R190). -/
  | bge (a : BitVec 5) (t : BitVec 1) (b : BitVec 5) (u : BitVec 1) (o : BitVec 14)
  /-- `bltn` (R190). -/
  | bltn (a : BitVec 5) (t : BitVec 1) (b : BitVec 5) (u : BitVec 1) (o : BitVec 14)
  /-- `bgen` (R190). -/
  | bgen (a : BitVec 5) (t : BitVec 1) (b : BitVec 5) (u : BitVec 1) (o : BitVec 14)
  /-- `lpnext` (R195). -/
  | lpnext (l : BitVec 2) (o : BitVec 14)
  /-- `ld.n8` (R258). -/
  | ldN8 (d : BitVec 5) (b : BitVec 5) (t : BitVec 1) (w : BitVec 2) (r : BitVec 1) (p : BitVec 12)
  /-- `ld.n16` (R258). -/
  | ldN16 (d : BitVec 5) (b : BitVec 5) (t : BitVec 1) (w : BitVec 2) (r : BitVec 1) (p : BitVec 12)
  /-- `ld.n32` (R258). -/
  | ldN32 (d : BitVec 5) (b : BitVec 5) (t : BitVec 1) (w : BitVec 2) (r : BitVec 1) (p : BitVec 12)
  /-- `ld.64` (R258). -/
  | ld64 (d : BitVec 5) (b : BitVec 5) (t : BitVec 1) (w : BitVec 2) (r : BitVec 1) (p : BitVec 12)
  /-- `ld.s8` (R258). -/
  | ldS8 (d : BitVec 5) (b : BitVec 5) (t : BitVec 1) (w : BitVec 2) (r : BitVec 1) (p : BitVec 12)
  /-- `ld.s16` (R258). -/
  | ldS16 (d : BitVec 5) (b : BitVec 5) (t : BitVec 1) (w : BitVec 2) (r : BitVec 1) (p : BitVec 12)
  /-- `ld.s32` (R258). -/
  | ldS32 (d : BitVec 5) (b : BitVec 5) (t : BitVec 1) (w : BitVec 2) (r : BitVec 1) (p : BitVec 12)
  /-- `vld` (R258). -/
  | vld (v : BitVec 5) (b : BitVec 5) (t : BitVec 1) (w : BitVec 2) (r : BitVec 1) (x : BitVec 1) (p : BitVec 11)
  /-- `st.8` (R258). -/
  | st8 (d : BitVec 5) (b : BitVec 5) (t : BitVec 1) (w : BitVec 2) (r : BitVec 1) (p : BitVec 12)
  /-- `st.16` (R258). -/
  | st16 (d : BitVec 5) (b : BitVec 5) (t : BitVec 1) (w : BitVec 2) (r : BitVec 1) (p : BitVec 12)
  /-- `st.32` (R258). -/
  | st32 (d : BitVec 5) (b : BitVec 5) (t : BitVec 1) (w : BitVec 2) (r : BitVec 1) (p : BitVec 12)
  /-- `st.64` (R258). -/
  | st64 (d : BitVec 5) (b : BitVec 5) (t : BitVec 1) (w : BitVec 2) (r : BitVec 1) (p : BitVec 12)
  /-- `vst` (R258). -/
  | vst (v : BitVec 5) (b : BitVec 5) (t : BitVec 1) (w : BitVec 2) (r : BitVec 1) (x : BitVec 1) (p : BitVec 11)
  /-- `ld.acq.32` (R263). -/
  | ldAcq32 (d : BitVec 5) (b : BitVec 5) (t : BitVec 1) (s : BitVec 3) (p : BitVec 12)
  /-- `ld.acq.64` (R263). -/
  | ldAcq64 (d : BitVec 5) (b : BitVec 5) (t : BitVec 1) (s : BitVec 3) (p : BitVec 12)
  /-- `st.rel.32` (R263). -/
  | stRel32 (d : BitVec 5) (b : BitVec 5) (t : BitVec 1) (s : BitVec 3) (p : BitVec 12)
  /-- `st.rel.64` (R263). -/
  | stRel64 (d : BitVec 5) (b : BitVec 5) (t : BitVec 1) (s : BitVec 3) (p : BitVec 12)
  /-- `ldfe` (R266). -/
  | ldfe (d : BitVec 5) (b : BitVec 5) (t : BitVec 1) (w : BitVec 2) (r : BitVec 1) (p : BitVec 12)
  /-- `stef` (R266). -/
  | stef (d : BitVec 5) (b : BitVec 5) (t : BitVec 1) (w : BitVec 2) (r : BitVec 1) (p : BitVec 12)
  /-- `ld.pw` (R266). -/
  | ldPw (d : BitVec 5) (b : BitVec 5) (t : BitVec 1) (w : BitVec 2) (r : BitVec 1) (p : BitVec 12)
  /-- `vlds` (R260). -/
  | vlds (v : BitVec 5) (a : BitVec 5) (t : BitVec 1) (b : BitVec 5) (u : BitVec 1) (x : BitVec 1) (w : BitVec 2) (r : BitVec 1) (z : BitVec 2)
  /-- `vldx` (R260). -/
  | vldx (v : BitVec 5) (a : BitVec 5) (t : BitVec 1) (b : BitVec 5) (u : BitVec 1) (x : BitVec 1) (w : BitVec 2) (r : BitVec 1)
  /-- `mwait` (R265). -/
  | mwait (k : BitVec 2)
  /-- `qbind` (R283). -/
  | qbind (a : BitVec 5) (t : BitVec 1) (k : BitVec 2)
  /-- `qunbind` (R283). -/
  | qunbind (k : BitVec 2)
  /-- `qstat` (R284). -/
  | qstat (d : BitVec 5) (k : BitVec 2)
  /-- `qpeek` (R284). -/
  | qpeek (d : BitVec 5) (k : BitVec 2)
  /-- `vqpush` (R285). -/
  | vqpush (v : BitVec 5) (t : BitVec 1) (x : BitVec 1) (k : BitVec 2)
  /-- `vqpop` (R285). -/
  | vqpop (v : BitVec 5) (x : BitVec 1) (k : BitVec 2)
  /-- `qcfgr` (R281). -/
  | qcfgr (d : BitVec 5) (a : BitVec 5) (t : BitVec 1)
  /-- `qcfgw` (R281). -/
  | qcfgw (a : BitVec 5) (t : BitVec 1) (b : BitVec 5) (u : BitVec 1)
  /-- `ttag` (R295). -/
  | ttag (d : BitVec 5) (a : BitVec 5) (t : BitVec 1) (b : BitVec 5) (u : BitVec 1)
  /-- `tfld` (R295). -/
  | tfld (d : BitVec 5) (a : BitVec 5) (t : BitVec 1) (f : BitVec 3)
  /-- `tins` (R298). -/
  | tins (a : BitVec 5) (t : BitVec 1) (b : BitVec 5) (u : BitVec 1)
  /-- `tinsd` (R298). -/
  | tinsd (a : BitVec 5) (t : BitVec 1) (b : BitVec 5) (u : BitVec 1)
  /-- `tgen` (R295). -/
  | tgen (d : BitVec 5)
  /-- `cov.q` (R386). -/
  | covQ (d : BitVec 5) (a : BitVec 5) (t : BitVec 1)
  /-- `cov.rd` (R387). -/
  | covRd (d : BitVec 5) (i : BitVec 3)
  /-- `pool.cnt` (R296). -/
  | poolCnt (d : BitVec 5)
  /-- `amo.add` (R304). -/
  | amoAdd (d : BitVec 5) (a : BitVec 5) (t : BitVec 1) (b : BitVec 5) (u : BitVec 1) (l : BitVec 1) (r : BitVec 1) (w : BitVec 2)
  /-- `amo.and` (R304). -/
  | amoAnd (d : BitVec 5) (a : BitVec 5) (t : BitVec 1) (b : BitVec 5) (u : BitVec 1) (l : BitVec 1) (r : BitVec 1) (w : BitVec 2)
  /-- `amo.or` (R304). -/
  | amoOr (d : BitVec 5) (a : BitVec 5) (t : BitVec 1) (b : BitVec 5) (u : BitVec 1) (l : BitVec 1) (r : BitVec 1) (w : BitVec 2)
  /-- `amo.xor` (R304). -/
  | amoXor (d : BitVec 5) (a : BitVec 5) (t : BitVec 1) (b : BitVec 5) (u : BitVec 1) (l : BitVec 1) (r : BitVec 1) (w : BitVec 2)
  /-- `amo.min` (R304). -/
  | amoMin (d : BitVec 5) (a : BitVec 5) (t : BitVec 1) (b : BitVec 5) (u : BitVec 1) (l : BitVec 1) (r : BitVec 1) (w : BitVec 2)
  /-- `amo.max` (R304). -/
  | amoMax (d : BitVec 5) (a : BitVec 5) (t : BitVec 1) (b : BitVec 5) (u : BitVec 1) (l : BitVec 1) (r : BitVec 1) (w : BitVec 2)
  /-- `amo.minu` (R304). -/
  | amoMinu (d : BitVec 5) (a : BitVec 5) (t : BitVec 1) (b : BitVec 5) (u : BitVec 1) (l : BitVec 1) (r : BitVec 1) (w : BitVec 2)
  /-- `amo.maxu` (R304). -/
  | amoMaxu (d : BitVec 5) (a : BitVec 5) (t : BitVec 1) (b : BitVec 5) (u : BitVec 1) (l : BitVec 1) (r : BitVec 1) (w : BitVec 2)
  /-- `amo.swap` (R304). -/
  | amoSwap (d : BitVec 5) (a : BitVec 5) (t : BitVec 1) (b : BitVec 5) (u : BitVec 1) (l : BitVec 1) (r : BitVec 1) (w : BitVec 2)
  /-- `amo.cas` (R304). -/
  | amoCas (d : BitVec 5) (a : BitVec 5) (t : BitVec 1) (b : BitVec 5) (u : BitVec 1) (l : BitVec 1) (r : BitVec 1) (w : BitVec 2)
  /-- `amo.fadd.f32` (R305). -/
  | amoFaddF32 (d : BitVec 5) (a : BitVec 5) (t : BitVec 1) (b : BitVec 5) (u : BitVec 1) (r : BitVec 1) (w : BitVec 2)
  /-- `amo.inclt` (R304). -/
  | amoInclt (d : BitVec 5) (a : BitVec 5) (t : BitVec 1) (b : BitVec 5) (u : BitVec 1) (l : BitVec 1) (r : BitVec 1) (w : BitVec 2)
  /-- `join.init` (R309). -/
  | joinInit (a : BitVec 5) (t : BitVec 1) (b : BitVec 5) (u : BitVec 1)
  /-- `join.arrive` (R310). -/
  | joinArrive (a : BitVec 5) (t : BitVec 1) (b : BitVec 5) (u : BitVec 1)
  /-- `ssig.set` (R312). -/
  | ssigSet (a : BitVec 5) (t : BitVec 1) (b : BitVec 5) (u : BitVec 1)
  /-- `ssig.add` (R312). -/
  | ssigAdd (a : BitVec 5) (t : BitVec 1) (b : BitVec 5) (u : BitVec 1)
  /-- `swait` (R313). -/
  | swait (d : BitVec 5) (a : BitVec 5) (t : BitVec 1) (b : BitVec 5) (u : BitVec 1) (c : BitVec 3)
  /-- `barr.arr` (R319). -/
  | barrArr (l : BitVec 3) (i : BitVec 6)
  /-- `barr.wait` (R319). -/
  | barrWait (l : BitVec 3) (i : BitVec 6)
  /-- `barr.sync` (R319). -/
  | barrSync (l : BitVec 3) (i : BitVec 6)
  /-- `barr.sync.cmb` (R320). -/
  | barrSyncCmb (a : BitVec 5) (t : BitVec 1) (l : BitVec 3) (i : BitVec 6)
  /-- `repart` (R95). -/
  | repart (m : BitVec 2)
  /-- `slotw` (R209). -/
  | slotw (a : BitVec 5) (t : BitVec 1)
  /-- `sleep` (R211). -/
  | sleep (a : BitVec 5) (t : BitVec 1)
  /-- `xlinv` (R214). -/
  | xlinv (a : BitVec 5) (t : BitVec 1) (b : BitVec 5) (u : BitVec 1)
  /-- `ctxsv` (R215). -/
  | ctxsv (a : BitVec 5) (t : BitVec 1) (b : BitVec 5) (u : BitVec 1)
  /-- `ctxld` (R215). -/
  | ctxld (a : BitVec 5) (t : BitVec 1) (b : BitVec 5) (u : BitVec 1)
  /-- `tel.ev` (R217). -/
  | telEv (a : BitVec 5) (t : BitVec 1) (b : BitVec 5) (u : BitVec 1)
  /-- `lim` (R186). -/
  | lim (d : BitVec 5) (i : BitVec 48)
  /-- `call` (R191). -/
  | call (d : BitVec 5) (o : BitVec 32)
  /-- `vcvt` (R233). -/
  | vcvtScaled (k : BitVec 10) (r : BitVec 2) (d : BitVec 6) (a : BitVec 6) (t : BitVec 1) (g : BitVec 6) (s : BitVec 6) (o : BitVec 1)
  /-- `spawn` (R199). -/
  | spawn (b : BitVec 5) (a : BitVec 5) (t : BitVec 1) (h : BitVec 1) (l : BitVec 2) (o : BitVec 32)
  /-- `vand` (R231). -/
  | vand (d : BitVec 6) (a : BitVec 6) (t : BitVec 1) (b : BitVec 6) (u : BitVec 1)
  /-- `vor` (R231). -/
  | vor (d : BitVec 6) (a : BitVec 6) (t : BitVec 1) (b : BitVec 6) (u : BitVec 1)
  /-- `vxor` (R231). -/
  | vxor (d : BitVec 6) (a : BitVec 6) (t : BitVec 1) (b : BitVec 6) (u : BitVec 1)
  /-- `vandn` (R231). -/
  | vandn (d : BitVec 6) (a : BitVec 6) (t : BitVec 1) (b : BitVec 6) (u : BitVec 1)
  /-- `vsel` (R224). -/
  | vsel (d : BitVec 6) (a : BitVec 6) (t : BitVec 1) (b : BitVec 6) (u : BitVec 1)
  /-- `vmov` (R231). -/
  | vmov (d : BitVec 6) (a : BitVec 6) (t : BitVec 1)
  /-- `vshuf` (R231). -/
  | vshuf (d : BitVec 6) (a : BitVec 6) (t : BitVec 1) (b : BitVec 6) (u : BitVec 1)
  /-- `vcrc` (R232). -/
  | vcrc (d : BitVec 6) (a : BitVec 6) (t : BitVec 1)
  /-- `vadd` (R222). -/
  | vadd (d : BitVec 6) (a : BitVec 6) (t : BitVec 1) (b : BitVec 6) (u : BitVec 1) (y : BitVec 6)
  /-- `vsub` (R222). -/
  | vsub (d : BitVec 6) (a : BitVec 6) (t : BitVec 1) (b : BitVec 6) (u : BitVec 1) (y : BitVec 6)
  /-- `vmul` (R222). -/
  | vmul (d : BitVec 6) (a : BitVec 6) (t : BitVec 1) (b : BitVec 6) (u : BitVec 1) (y : BitVec 6)
  /-- `vmin` (R222). -/
  | vmin (d : BitVec 6) (a : BitVec 6) (t : BitVec 1) (b : BitVec 6) (u : BitVec 1) (y : BitVec 6)
  /-- `vmax` (R222). -/
  | vmax (d : BitVec 6) (a : BitVec 6) (t : BitVec 1) (b : BitVec 6) (u : BitVec 1) (y : BitVec 6)
  /-- `vfma` (R222). -/
  | vfma (d : BitVec 6) (a : BitVec 6) (t : BitVec 1) (b : BitVec 6) (u : BitVec 1) (y : BitVec 6)
  /-- `vfms` (R222). -/
  | vfms (d : BitVec 6) (a : BitVec 6) (t : BitVec 1) (b : BitVec 6) (u : BitVec 1) (y : BitVec 6)
  /-- `vabs` (R222). -/
  | vabs (d : BitVec 6) (a : BitVec 6) (t : BitVec 1) (y : BitVec 6)
  /-- `vneg` (R222). -/
  | vneg (d : BitVec 6) (a : BitVec 6) (t : BitVec 1) (y : BitVec 6)
  /-- `vclamp` (R222). -/
  | vclamp (d : BitVec 6) (a : BitVec 6) (t : BitVec 1) (b : BitVec 6) (u : BitVec 1) (y : BitVec 6)
  /-- `vceq` (R223). -/
  | vceq (d : BitVec 6) (a : BitVec 6) (t : BitVec 1) (b : BitVec 6) (u : BitVec 1) (y : BitVec 6)
  /-- `vcne` (R223). -/
  | vcne (d : BitVec 6) (a : BitVec 6) (t : BitVec 1) (b : BitVec 6) (u : BitVec 1) (y : BitVec 6)
  /-- `vclt` (R223). -/
  | vclt (d : BitVec 6) (a : BitVec 6) (t : BitVec 1) (b : BitVec 6) (u : BitVec 1) (y : BitVec 6)
  /-- `vcle` (R223). -/
  | vcle (d : BitVec 6) (a : BitVec 6) (t : BitVec 1) (b : BitVec 6) (u : BitVec 1) (y : BitVec 6)
  /-- `vdot2.f16` (R225). -/
  | vdot2F16 (d : BitVec 6) (a : BitVec 6) (t : BitVec 1) (b : BitVec 6) (u : BitVec 1) (r : BitVec 2)
  /-- `vdot4.s8` (R226). -/
  | vdot4S8 (d : BitVec 6) (a : BitVec 6) (t : BitVec 1) (b : BitVec 6) (u : BitVec 1)
  /-- `vredadd` (R227). -/
  | vredadd (d : BitVec 6) (a : BitVec 6) (t : BitVec 1) (y : BitVec 6)
  /-- `vredmin` (R227). -/
  | vredmin (d : BitVec 6) (a : BitVec 6) (t : BitVec 1) (y : BitVec 6)
  /-- `vredmax` (R227). -/
  | vredmax (d : BitVec 6) (a : BitVec 6) (t : BitVec 1) (y : BitVec 6)
  /-- `vsll` (R228). -/
  | vsll (d : BitVec 6) (a : BitVec 6) (t : BitVec 1) (y : BitVec 6) (k : BitVec 7)
  /-- `vsrl` (R228). -/
  | vsrl (d : BitVec 6) (a : BitVec 6) (t : BitVec 1) (y : BitVec 6) (k : BitVec 7)
  /-- `vsra` (R228). -/
  | vsra (d : BitVec 6) (a : BitVec 6) (t : BitVec 1) (y : BitVec 6) (k : BitVec 7)
  /-- `vscale` (R229). -/
  | vscale (d : BitVec 6) (a : BitVec 6) (t : BitVec 1) (y : BitVec 6) (k : BitVec 7)
  /-- `vsplat` (R230). -/
  | vsplat (d : BitVec 6) (s : BitVec 5) (t : BitVec 1) (y : BitVec 6)
  /-- `vins` (R230). -/
  | vins (d : BitVec 6) (s : BitVec 5) (t : BitVec 1) (y : BitVec 6) (i : BitVec 5)
  /-- `vext` (R230). -/
  | vext (s : BitVec 5) (a : BitVec 6) (t : BitVec 1) (y : BitVec 6) (i : BitVec 5)
  /-- `vpack` (R235). -/
  | vpack (d : BitVec 6) (a : BitVec 6) (t : BitVec 1) (y : BitVec 6)
  /-- `vunpack` (R236). -/
  | vunpack (d : BitVec 6) (a : BitVec 6) (t : BitVec 1) (h : BitVec 1) (y : BitVec 6)
  /-- `vcvt` (R234). -/
  | vcvt (r : BitVec 2) (d : BitVec 6) (a : BitVec 6) (t : BitVec 1) (g : BitVec 6) (s : BitVec 6) (o : BitVec 1)
  /-- `rcp` (R237). -/
  | rcp (d : BitVec 6) (a : BitVec 6) (t : BitVec 1) (y : BitVec 6)
  /-- `rsqrt` (R237). -/
  | rsqrt (d : BitVec 6) (a : BitVec 6) (t : BitVec 1) (y : BitVec 6)
  /-- `sqrt` (R237). -/
  | sqrt (d : BitVec 6) (a : BitVec 6) (t : BitVec 1) (y : BitVec 6)
  /-- `exp2` (R237). -/
  | exp2 (d : BitVec 6) (a : BitVec 6) (t : BitVec 1) (y : BitVec 6)
  /-- `log2` (R237). -/
  | log2 (d : BitVec 6) (a : BitVec 6) (t : BitVec 1) (y : BitVec 6)
  /-- `tanh` (R237). -/
  | tanh (d : BitVec 6) (a : BitVec 6) (t : BitVec 1) (y : BitVec 6)
  /-- `MX_CFG` (R342). -/
  | mxCfg (c : Cmd)
  /-- `MX_LDST` (R343). -/
  | mxLdst (c : Cmd)
  /-- `MX_SWAP` (R344). -/
  | mxSwap (c : Cmd)
  /-- `MX_STREAM` (R346). -/
  | mxStream (c : Cmd)
  /-- `MX_ZERO` (R347). -/
  | mxZero (c : Cmd)
  /-- `MX_DRAIN` (R348). -/
  | mxDrain (c : Cmd)
  /-- `CP_COPY` (R352). -/
  | cpCopy (c : Cmd)
  /-- `CP_MCAST` (R353). -/
  | cpMcast (c : Cmd)
  /-- `CP_GATHER` (R355). -/
  | cpGather (c : Cmd)
  /-- `CP_SCATTER` (R355). -/
  | cpScatter (c : Cmd)
  /-- `CP_FILL` (R356). -/
  | cpFill (c : Cmd)
  /-- `CP_CRC` (R357). -/
  | cpCrc (c : Cmd)
  /-- `CP_SEND` (R358). -/
  | cpSend (c : Cmd)
  /-- `COLL_REDUCE` (R360). -/
  | collReduce (c : Cmd)
  /-- `COLL_BCAST` (R360). -/
  | collBcast (c : Cmd)
  /-- `COLL_ALLGATHER` (R360). -/
  | collAllgather (c : Cmd)
  /-- `RC_KERN` (R388). -/
  | rcKern (c : Cmd)
  /-- `RC_CMP` (R388). -/
  | rcCmp (c : Cmd)
  /-- `fx` (R539). -/
  | quinudFx (d : BitVec 3) (e : BitVec 3) (l : BitVec 5) (n : BitVec 5)
  /-- `li` (R539). -/
  | quinudLi (d : BitVec 3) (i : BitVec 20)
  /-- `addi` (R539). -/
  | quinudAddi (d : BitVec 3) (a : BitVec 3) (i : BitVec 20)
  /-- `add` (R539). -/
  | quinudAdd (d : BitVec 3) (a : BitVec 3) (b : BitVec 3)
  /-- `sub` (R539). -/
  | quinudSub (d : BitVec 3) (a : BitVec 3) (b : BitVec 3)
  /-- `and` (R539). -/
  | quinudAnd (d : BitVec 3) (a : BitVec 3) (b : BitVec 3)
  /-- `or` (R539). -/
  | quinudOr (d : BitVec 3) (a : BitVec 3) (b : BitVec 3)
  /-- `xor` (R539). -/
  | quinudXor (d : BitVec 3) (a : BitVec 3) (b : BitVec 3)
  /-- `shl` (R539). -/
  | quinudShl (d : BitVec 3) (a : BitVec 3) (b : BitVec 3)
  /-- `shr` (R539). -/
  | quinudShr (d : BitVec 3) (a : BitVec 3) (b : BitVec 3)
  /-- `mul` (R539). -/
  | quinudMul (d : BitVec 3) (a : BitVec 3) (b : BitVec 3)
  /-- `min` (R539). -/
  | quinudMin (d : BitVec 3) (a : BitVec 3) (b : BitVec 3)
  /-- `max` (R539). -/
  | quinudMax (d : BitVec 3) (a : BitVec 3) (b : BitVec 3)
  /-- `cmp` (R539). -/
  | quinudCmp (d : BitVec 3) (a : BitVec 3) (b : BitVec 3) (c : BitVec 3)
  /-- `sel` (R539). -/
  | quinudSel (d : BitVec 3) (a : BitVec 3) (b : BitVec 3) (c : BitVec 3)
  /-- `ld` (R539). -/
  | quinudLd (d : BitVec 3) (k : BitVec 10)
  /-- `st` (R539). -/
  | quinudSt (a : BitVec 3) (k : BitVec 10)
  /-- `kadd` (R539). -/
  | quinudKadd (a : BitVec 3) (k : BitVec 10)
  /-- `kmin` (R539). -/
  | quinudKmin (a : BitVec 3) (k : BitVec 10)
  /-- `kmax` (R539). -/
  | quinudKmax (a : BitVec 3) (k : BitVec 10)
  /-- `ewma` (R539). -/
  | quinudEwma (a : BitVec 3) (k : BitVec 10) (s : BitVec 5)
  /-- `hlin` (R540). -/
  | quinudHlin (d : BitVec 3) (a : BitVec 3) (k : BitVec 10) (m : BitVec 6) (s : BitVec 4)
  /-- `hlog` (R540). -/
  | quinudHlog (a : BitVec 3) (k : BitVec 10) (m : BitVec 6)
  /-- `cms` (R540). -/
  | quinudCms (a : BitVec 3) (k : BitVec 10) (m : BitVec 4)
  /-- `cmq` (R540). -/
  | quinudCmq (d : BitVec 3) (a : BitVec 3) (k : BitVec 10) (m : BitVec 4)
  /-- `bz` (R539). -/
  | quinudBz (a : BitVec 3) (o : BitVec 5)
  /-- `bnz` (R539). -/
  | quinudBnz (a : BitVec 3) (o : BitVec 5)
  /-- `trig` (R539). -/
  | quinudTrig (a : BitVec 3) (t : BitVec 3)
  /-- `COMMAND_COMPLETION` (R335). -/
  | commandCompletion (c : Cmd) (r : CmdResult)
  /-- `RECORD_ARRIVAL` (R45). -/
  | recordArrival (a : Arrival)
  /-- `FIRING_DELIVERY` (R55). -/
  | firingDelivery (core : Nat) (f : Firing)
  /-- `WAKE_MESSAGE` (R62). -/
  | wakeMessage (w : Wake)
  /-- `CONTEXT_FREE_NOTICE` (R57). -/
  | contextFreeNotice (core : Nat) (m : Start)
  /-- `REFUSAL_RETRY` (R56). -/
  | refusalRetry (core : Nat) (m : Start)
  /-- `WITHDRAWAL` (R269). -/
  | withdrawal (r : Req)
  /-- `PRESENCE_REQUEST` (R268). -/
  | presenceRequest (r : Req)
  /-- `PRESENCE_ANSWER` (R267). -/
  | presenceAnswer (th seq : Nat) (x : Word)
  /-- `REMOTE_ACCESS` (R250). -/
  | remoteAccess (r : Req)
  /-- `STORE_ACK` (R253). -/
  | storeAck (th : Nat) (k : Acked)
  /-- `LOAD_RESULT` (R97). -/
  | loadResult (l : Load)
  /-- `SYNC_WORD_UPDATE` (R312). -/
  | syncWordUpdate (r : Req)
  /-- `JOIN_ARRIVAL` (R310). -/
  | joinArrival (r : Req)
  /-- `SWAIT_REQUEST` (R313). -/
  | swaitRequest (r : Req)
  /-- `BARRIER_ARRIVAL` (R318). -/
  | barrierArrival (b : BarrierMsg)
  /-- `CHANNEL_ENTRY` (R103). -/
  | channelEntry (core buf : Nat) (x : VWord)
  /-- `CREDIT_RETURN` (R103). -/
  | creditReturn (th core buf : Nat)
  /-- `BIND_ANSWER` (R283). -/
  | bindAnswer (th win seq : Nat) (word : Word)
  /-- `LAUNCH` (R452). -/
  | launch (r : Request)
  /-- `REPLAY` (R69). -/
  | replay (r : Request)
  /-- `CLOSE_SOURCES` (R452). -/
  | closeSources (r : Request)
  /-- `RELEASE` (R452). -/
  | release (r : Request)
  /-- `DUMP` (R452). -/
  | dump (r : Request)
  /-- `ATTACH_RING` (R452). -/
  | attachRing (r : Request)
  /-- `FRAME_ARRIVAL` (R463). -/
  | frameArrival (port : Nat) (good : Bool) (frame : List Byte)
  /-- `TELEMETRY_RECORD` (R530). -/
  | telemetryRecord (die : Nat) (e : List (BitVec 32))
  /-- `INSTRUCTION_CACHE_FILL` (R414). -/
  | instructionCacheFill (quad xctx line : Nat)
  /-- `COMBINE_TIMEOUT` (R339). -/
  | combineTimeout (quad key : Nat)
  /-- `SPILL_RETURN` (R65). -/
  | spillReturn (quad : Nat)
  /-- `PROCESS_TRIGGER` (R47). -/
  | processTrigger (quad : Nat)
  /-- `CONTEXT_FREE` (R82). -/
  | contextFree (th : Nat)
  /-- `SLOT_TABLE_SWITCH` (R87). -/
  | slotTableSwitch (core : Nat)
  /-- `SLEEP_END` (R211). -/
  | sleepEnd (th : Nat)
  /-- `DEFERRED_TRAP` (R111). -/
  | deferredTrap (th : Nat)
  /-- `QSTALL` (R104). -/
  | qstall (th : Nat)
  /-- `FEWAIT_EXPIRY` (R269). -/
  | fewaitExpiry (th : Nat)
  /-- `PRESENCE_RESEND` (R268). -/
  | presenceResend (th : Nat)
  /-- `STORE_BUFFER_WRITE` (R248). -/
  | storeBufferWrite (core : Nat)
  /-- `TRANSLATION_WALK` (R487). -/
  | translationWalk (die : Nat)
  /-- `FAULT_ANSWER` (R491). -/
  | faultAnswer (die index : Nat) (resume : Bool)
  /-- `WALKER_EMIT` (R368). -/
  | walkerEmit (lid : Nat)
  /-- `RECON_FIRING` (R381). -/
  | reconFiring (quad : Nat)
  /-- `HOLE_UNRESOLVED` (R383). -/
  | holeUnresolved (lid : Nat)
  /-- `STABILITY_WAVE` (R71). -/
  | stabilityWave (lid : Nat)
  /-- `LOGICAL_QUAD_TURN` (R436). -/
  | logicalQuadTurn (quad : Nat)
  /-- `DOORBELL` (R450). -/
  | doorbell (q : Nat) (p : Word)
  /-- `QCFG_WRITE` (R448). -/
  | qcfgWrite (q reg : Nat) (x : Word)
  /-- `REQUEST_ACCEPT` (R454). -/
  | requestAccept (svc : Nat)
  /-- `LAUNCH_START` (R508). -/
  | launchStart (lid : Nat)
  /-- `APERTURE_ACCESS` (R446). -/
  | apertureAccess (fn off size : Nat) (write : Bool) (x : Word)
  /-- `RING_CONFIG_WRITE` (R460). -/
  | ringConfigWrite (ring : Nat) (x : Word)
  /-- `CLASSIFIER_WRITE` (R462). -/
  | classifierWrite (entry word : Nat) (x : Word)
  /-- `EGRESS_FRAME` (R464). -/
  | egressFrame (port : Nat)
  /-- `EGSTAMP_READ` (R464). -/
  | egstampRead (port : Nat)
  /-- `PCS_LOCK` (R466). -/
  | pcsLock (port : Nat) (width : Nat)
  /-- `TRAIN_FLIT` (R466). -/
  | trainFlit (port : Nat)
  /-- `DATA_FLIT_SEND` (R467). -/
  | dataFlitSend (port vc : Nat)
  /-- `FLIT_RECEIVE` (R468). -/
  | flitReceive (port : Nat) (flit : List Byte)
  /-- `NAK_RESEND` (R468). -/
  | nakResend (port : Nat)
  /-- `CLKLATCH_WRITE` (R472). -/
  | clklatchWrite (x : Word)
  /-- `CLKSTEP_WRITE` (R472). -/
  | clkstepWrite (x : Word)
  /-- `PART_WRITE` (R478). -/
  | partWrite (n : Nat) (x : Word)
  /-- `XCONN_WRITE` (R478). -/
  | xconnWrite (p : Nat) (x : Word)
  /-- `XCSEL_WRITE` (R483). -/
  | xcselWrite (x : Word)
  /-- `OWNSET_GO` (R489). -/
  | ownsetGo (x : Word)
  /-- `XFENCE_GO` (R492). -/
  | xfenceGo (x : Word)
  /-- `PREEMPT_DRAIN` (R494). -/
  | preemptDrain (lid : Nat)
  /-- `PREEMPT_SAVE` (R494). -/
  | preemptSave (lid : Nat)
  /-- `SAVE_CAPTURE_COMPLETE` (R495). -/
  | saveCaptureComplete (lid : Nat)
  /-- `PREEMPT_RESET` (R494). -/
  | preemptReset (lid : Nat)
  /-- `PREEMPT_RESTORE` (R497). -/
  | preemptRestore (lid : Nat)
  /-- `TRAP_RECORD` (R512). -/
  | trapRecord (die : Nat)
  /-- `WATCHDOG` (R513). -/
  | watchdog (part : Nat) (cycles : Nat)
  /-- `QUEUE_STEAL` (R511). -/
  | queueSteal (thief q : Nat)
  /-- `MAILBOX_MESSAGE` (R511). -/
  | mailboxMessage (die : Nat) (x : Word)
  /-- `FWCTL_GO` (R516). -/
  | fwctlGo (x : Word)
  /-- `FWBEAT_WRITE` (R517). -/
  | fwbeatWrite (x : Word)
  /-- `SYNCOVF_WRITE` (R582). -/
  | syncovfWrite (die : Nat) (x : Word)
  /-- `UNCORRECTABLE_ERROR` (R521). -/
  | uncorrectableError (e : HwError)
  /-- `CORRECTED_ERROR` (R521). -/
  | correctedError (e : HwError)
  /-- `HOP_CRC_ERROR` (R521). -/
  | hopCrcError (die : Nat) (unit : Nat) (msg : Nat)
  /-- `CHANNEL_RETIRED` (R524). -/
  | channelRetired (group : Nat)
  /-- `FILTER_EVENT` (R541). -/
  | filterEvent (die : Nat)
  /-- `TATTACH_WRITE` (R534). -/
  | tattachWrite (fn : Nat) (x : Word)
  /-- `TDETACH_WRITE` (R534). -/
  | tdetachWrite (fn : Nat) (x : Word)
  /-- `TBUDGET_WRITE` (R535). -/
  | tbudgetWrite (die tenant : Nat) (x : Word)
  /-- `BUDGET_WINDOW` (R535). -/
  | budgetWindow (die : Nat)
  /-- `EXPORT` (R544). -/
  | exportSnap (die slot : Nat)
  /-- `SLOTS` (R528). -/
  | slots (core : Nat)
  /-- `THERM` (R528). -/
  | therm (die sensor : Nat) (temp : BitVec 32)
  /-- `THROTTLE_UPDATE` (R549). -/
  | throttleUpdate (watts hottest : Nat)
  /-- `CKPT_GO` (R553). -/
  | ckptGo (x : Word)
  /-- `REGISTER_WRITE` (R5). -/
  | registerWrite (off : Nat) (level : Nat) (x : Word)
  /-- `PORT_DOWN` (R358). -/
  | portDown (port : Nat)
  /-- `LINK_WIDTH_CHANGE` (R524). -/
  | linkWidthChange (link width : Nat)
  /-- `SPDM_MESSAGE` (R515). -/
  | spdmMessage (m : Spdm)
  /-- `ret` (R191). -/
  | ret
  /-- `retire` (R200). -/
  | retire
  /-- `eret` (R203). -/
  | eret
  /-- `iflush` (R213). -/
  | iflush
  /-- `vnop` (R153). -/
  | vnop
  /-- `FW_ROLLBACK` (R517). -/
  | fwRollback
  /-- `FW_HANG` (R517). -/
  | fwHang
  /-- `RESET` (R523). -/
  | reset
  /-- `THERMTRIP` (R551). -/
  | thermtrip
  /-- `end` (R539). -/
  | quinudEnd
deriving DecidableEq, Repr

end Sys2Proof
end

