-- ==== Sys2Proof/Machine/State.lean ====
section
/-! DEFINITION. The state of the package as plain data, and the state right after reset. Every piece
of state the spec names is here; the fields `cur`, `latch`, `turns`, `net`, `inbox`, `focus`, `beat`, `served`,
`grant` and `out` of `State` are the model's own. -/

namespace Sys2Proof.Machine

/-- Why the machine stands still. -/
inductive Fault where
  /-- Raised by `step` after a thermal trip, when the next turn is no reset: every clock of the package
  is stopped (23 R551). Safe: the hardware does nothing either. -/
  | clocksStopped
deriving DecidableEq, Repr

/-- Why a row is not executed. -/
inductive Refusal where
  /-- Raised by an arm of `exec` whose row has no meaning yet. Safe: nothing is claimed of it. -/
  | notModelled (mnemonic : String)
deriving DecidableEq, Repr

/-! ### Contexts (03) -/

/-- The state of a context (03 R80). -/
inductive Status where
  | free | ready | blocked | sleeping | retiring | halted
deriving DecidableEq, Repr

/-- A bound queue window (03 R100, 08 R282-R283): endpoint word, credits of an outbound channel,
whether its bind has been answered, and the number that tells this bind from others of the context. -/
structure Window where
  word : Word
  credits : Nat := 0
  answered : Bool := true
  bind : Nat := 0
deriving DecidableEq, Repr

/-- An outstanding long-latency producer (03 R97): its number, destination, results still missing,
the lanes gathered so far, and whether later accesses wait for it (08 R263). -/
structure Prod where
  seq : Nat
  dst : Dest
  left : Nat
  acc : VWord
  acquire : Bool
deriving DecidableEq, Repr

/-- A trap waiting for the thread's next slot, or being taken (03 R110-R113). -/
structure TrapInfo where
  cause : Nat
  tval : Word
  seq : Nat := 0
  deferred : Bool := false
  vsyl : Bool := false
  vreg : Bool := false
  reg : Nat := 0
  field : Nat := 0
deriving DecidableEq, Repr

/-- A presence form or `swait` that holds its thread (08 R267-R271, 09 R313): its bundle's address, the
request, the core cycle of its first slot, whether it was refused, its withdrawal sent or the request
dropped, its answer, and the cycle in which its home performed it (17 R417). -/
structure Held where
  pc : Word
  req : Req
  start : Nat
  refused : Bool := false
  withdrawn : Bool := false
  dropped : Bool := false
  answer : Option Word := none
  done : Nat := 0
deriving DecidableEq, Repr

/-- What a thread knows of an engine command that its task pushed, or, where it is not its `own`, of a chained successor (09
R298, 10 R337). -/
structure CmdNote where
  th : Nat
  seq : Nat
  status : Option Word
  ok : Bool
  own : Bool := true
deriving DecidableEq, Repr

/-- The result queue of a context at one engine (10 R335): entries and reserved places. -/
structure ResQueue where
  entries : List Word := []
  reserved : Nat := 0
deriving DecidableEq, Repr

/-- A hardware context. `lostAt` is the core cycle in which its bundle first lost a bank, `dispatched` the cycle in which
the start of its task was sent, when a context was free for it at once (17 R417), `ran` how many cycles its task had run
when it was saved. `binds` are the numbers of the binds whose answer is on its way (08 R283); `outer` keeps `ctl.cause`,
`ctl.epc`, `ctl.tval` and `ctl.tstate` as they were before PREEMPT, for the handler that it interrupts (03 R116). -/
structure Ctx where
  status : Status := .free
  before : Status := .free
  s : FMap Word := []
  sEmpty : BitVec 32 := 0
  v : FMap VWord := []
  vEmpty : Word := 0
  c0 : Nat := 0
  c1 : Nat := 0
  c2 : Nat := 0
  c3 : Nat := 0
  pc : Word := 0
  cause : Word := 0
  epc : Word := 0
  tval : Word := 0
  tstate : Word := 0
  outer : Option (Word × Word × Word × Word) := none
  hbase : Word := 0
  hmask : Word := 0
  qstall : Word := 0x100000
  fewait : Word := 0x10000
  stack : Word := 0
  level : Nat := 0
  hflag : Bool := false
  byWake : Bool := false
  stub : Option Word := none
  lid : Option Nat := none
  lq : BitVec 15 := 0
  rule : Option Nat := none
  lpBase : Word := 0
  lpTrip : FMap Word := []
  lpStride : FMap Word := []
  lpIdx : FMap Word := []
  rgnb : FMap Word := []
  rgnl : FMap Word := []
  win : FMap (Option Window) := []
  binds : List Nat := []
  leads : FMap Nat := []
  held : List Held := []
  synced : Option Word := none
  prods : List Prod := []
  nextSeq : Nat := 0
  deferred : List TrapInfo := []
  sleepUntil : Nat := 0
  winWait : Option Nat := none
  waitKind : Nat := 0
  notes : List CmdNote := []
  partialCmd : FMap (List Word) := []
  resq : FMap ResQueue := []
  order : Nat := 0
  issued : Nat := 0
  forfeits : Nat := 0
  firstIssue : Option Nat := none
  ran : Nat := 0
  lastIssue : Option Nat := none
  lostAt : Option Nat := none
  dispatched : Option Nat := none
deriving DecidableEq, Repr

/-! ### Cores (03, 08) -/

/-- An entry of a core's store buffer, with the core cycle in which it entered (08 R248, 17 R412). -/
structure StEntry where
  th : Nat
  off : Nat
  size : Nat
  data : VWord
  since : Nat := 0
deriving DecidableEq, Repr

/-- A channel buffer (03 R103, 08 R280): configuration word and entries. -/
structure Chan where
  conf : Word := 0
  entries : List VWord := []
deriving DecidableEq, Repr

/-- An open `slotw` round (06 R209): members, and the operand of each that has arrived. -/
structure SlotwRound where
  members : List Nat
  arrived : List (Nat × Word)
deriving DecidableEq, Repr

/-- A message in flight. `pair` is set on the ordered route: messages of one pair keep their send order
(08 R251). `hop` is the hop that retries it, die and unit, and how often it has failed there (21 R521). `due` is the
cycle before which it does not arrive: a start refused by a full list comes again after 256 cycles (02 R56). -/
structure Flight where
  pair : Option (Nat × Nat)
  ev : Instr
  hop : Option (Nat × Nat × Nat) := none
  due : Nat := 0
deriving DecidableEq, Repr

/-- The default slot table of a mode (03 R88): entry e is type 1 with context e mod n. -/
def defaultSlots (n : Nat) : List Byte := (List.range 32).map fun e => BitVec.ofNat 8 (64 + e % n)

/-- A core. `heldFor` are the contexts held for retries, in refusal order, with the start each is held for and whether
its retry has arrived (02 R56, R63). -/
structure Core where
  mode : Nat := 0
  slots : List Byte := defaultSlots 16
  nextSlots : Option (List Byte) := none
  quiet : Nat := 0
  round : Option SlotwRound := none
  repart : Option (Nat × Nat) := none
  cycle : Nat := 0
  donate : Bool := false
  ex : FMap (BitVec 32) := []
  evc : FMap (BitVec 32) := []
  stbuf : List StEntry := []
  refusal : List Start := []
  heldFor : List (Nat × Start × Bool) := []
  waits : List Req := []
  chans : FMap Chan := []
  claims : List (Nat × Nat) := []
  order : Nat := 0
  ivIssued : Nat := 0
  ivForfeit : Nat := 0
  ivBank : Nat := 0
deriving DecidableEq, Repr

/-! ### Quads -/

/-- A line of the instruction cache: context id, line number, 128 bytes, the launches that pin it, and whether it is being
read afresh (17 R414-R415, 06 R213). -/
structure Line where
  xctx : Nat
  line : Nat
  bytes : List Byte
  pins : List Nat := []
  stale : Bool := false
deriving DecidableEq, Repr

/-- A locked range (08 R274-R276): its command, bounds, destination or source, and for a range in
global space the translation context. -/
structure Lock where
  th : Nat
  seq : Nat
  lo : Nat
  hi : Nat
  dst : Bool
  xctx : Option Nat
deriving DecidableEq, Repr

/-- A cached translation (20 R487-R488). -/
structure Tlb where
  xctx : Nat
  va : Nat
  size : Nat
  pa : Nat
  write : Bool
deriving DecidableEq, Repr

/-- An open key of the combining node (10 R339), and the cycle of its first arrival. -/
structure CombKey where
  key : Nat
  expected : Nat
  since : Nat
  reqs : List Cmd
deriving DecidableEq, Repr

/-- A record in a fretboard (02 R45-R65): launch, logical quad, arrival number, place (`none` when spilled), its slot of the
overflow area when spilled, whether its own trigger has been processed, the `triggerCount` at which it became waiting,
whether it waits to be processed as a trigger, whether a refused firing reserves it, its marks, and the cycle in which it
arrived or was presented again (17 R417). -/
structure FRec where
  record : Rec
  lid : Nat
  lq : Nat
  arr : Nat
  entry : Option Nat
  slot : Option Nat := none
  processed : Bool
  since : Option Nat
  pending : Bool
  reserved : Bool
  marks : Option Marks
  came : Nat := 0
deriving DecidableEq, Repr

/-- A fretboard. `agelimit` is `ctl.agelimit` by half, half 0 standing for a whole quad (02 R52, R64); the
arrival and trigger counters are each launch's own (02 R45, R47). -/
structure Fret where
  agelimit : FMap Nat := []
  arrCount : FMap Nat := []
  trigCount : FMap Nat := []
  recs : List FRec := []
  firings : FMap Nat := []
  refused : List Firing := []
deriving DecidableEq, Repr

/-- A matrix engine or half (10 R341): formats, active plane, plane scales, tile scales. -/
structure Mx where
  afmt : Option (BitVec 6) := none
  sfmt : Option (BitVec 6) := none
  active : Nat := 0
  kstat : FMap Int := []
  scales : FMap Int := []
deriving DecidableEq, Repr

/-- A parked slot that is not empty (10 R338). -/
inductive Parked where
  | parked (c : Cmd)
  | released (th seq : Nat)
  | cancelled
deriving DecidableEq, Repr

/-- Where a multicast stands at one destination: its next step, what it has read for it, whether it waits for a page
(10 R353). -/
structure Way where
  next : Nat := 0
  hold : List Nat := []
  waits : Bool := false
deriving DecidableEq, Repr

/-- A started command and its next step: a read, or the write of an element, for which `hold` is what it has read; of a multicast,
where it stands at each destination, and the destinations that failed, with the error and the element (10 R353-R354); of a CRC,
its value so far; of a collective, its sequence number, whether it reads, exchanges or writes, and the elements it holds (10
R359-R360); `hop` is the hop that retries an element of it (21 R521); `paused` says that others move before its next step (10
R364), `full` that a memory home has no room for its request now (23 R550). -/
structure Running where
  cmd : Cmd
  progress : Nat
  hold : List Nat := []
  ways : List Way := []
  fails : List (Nat × Nat × Nat) := []
  acc : Nat := 0
  phase : Nat := 0
  data : List Nat := []
  hop : Option (Nat × Nat × Nat) := none
  paused : Bool := false
  full : Bool := false
deriving DecidableEq, Repr

/-- The time that a command of a reserved launch has to start, or, once it `runs`, to end: from the cycle `since`, within `limit`
where the spec gives its time; `seen` are the other queues whose commands its start may wait for (17 R417). -/
structure CmdClock where
  lid : Option Nat
  th : Nat
  seq : Nat
  since : Nat
  limit : Option Nat
  runs : Bool := false
  seen : List Nat := []
deriving DecidableEq, Repr

/-- An engine (10 R326-R338): accepted commands per issuing context, started parked commands, running
commands, the parked slots of each launch, the queue served last, the clocks of reserved launches' commands. -/
structure Engine where
  queues : FMap (List Cmd) := []
  loose : List Cmd := []
  running : List Running := []
  slots : FMap (Option Parked) := []
  last : Nat := 0
  clocks : List CmdClock := []
deriving DecidableEq, Repr

/-- Where the reconstruction unit stands in a tile (11 R378): the launch, the firing's number or the arrival number of the
hole, which of the two, the next step of the tile, the error so far, what it has read for its element, and whether a memory
home has no room for its request now (23 R550). -/
structure ReconAt where
  lid : Nat
  number : Nat
  hole : Bool
  next : Nat
  err : Nat
  hold : List Nat := []
  full : Bool := false
deriving DecidableEq, Repr

/-- The reconstruction unit (11 R377): held firings, refusal list, and the tiles it has begun. -/
structure Recon where
  held : List Firing := []
  refusal : List Firing := []
  begun : List ReconAt := []
deriving DecidableEq, Repr

/-- The matrix state, parked slots and combining node of a logical quad that is not running its turn
(18 R436). -/
structure TurnSave where
  mx : FMap Mx
  acc : List Host.Cell
  slots : FMap (FMap (Option Parked))
  comb : List CombKey
deriving DecidableEq, Repr

/-- What waits for a translation, or is parked on a page fault (20 R487, R491); `host` is an aperture access, `own` a write of n
bytes by luthier, with the interrupt that follows it, `ownRead` bytes that luthier is to read. -/
inductive XItem where
  | access (r : Req)
  | insert (src th lid level : Nat) (r : Rec) (marks : Option Marks)
  | engine (c : Cmd) (progress : Nat) (va : Word) (write : Bool)
  | fetch (quad xctx line : Nat)
  | host (fn va size : Nat) (write : Bool) (x : Word)
  | own (xctx va n x : Nat) (irq : Option (Nat × Nat))
  | ownRead (xctx va n : Nat)
deriving DecidableEq, Repr

/-- What a save takes out of a quad for one launch (20 R495): the quad and its partition quad number, contexts and core parts by
their place in the quad, fretboard, age limit and time-out of the combining node, the matrix state and slots of the turn
that runs, engine queues, locks, held reconstructions, the turn and the other turns, the messages parked in inboxes, and the
accesses pending. `slot` are the bytes of the quad's save slot once another launch of the partition has been saved there
(log 116). `image` are the records of its contexts by their offsets in the slot, `capture` the number of the capture, and `left`
the lines of the slot that are still to be written, or read for a restore (20 R497). -/
structure Shadow where
  lid : Nat
  quad : Nat
  no : Nat
  ctxs : List (Nat × Ctx)
  cores : List (Nat × Core)
  fret : Fret
  agelimit : Nat
  cmbwait : Nat
  matrix : TurnSave
  eng : FMap Engine
  locks : List Lock
  recon : Recon
  turn : Option Nat
  turnSaves : List (Nat × TurnSave)
  inbox : List Flight
  pend : List XItem
  slot : Option (List Host.Cell) := none
  image : List Host.Cell := []
  capture : Nat := 0
  left : Nat := 0
deriving DecidableEq, Repr

/-- A quad. `fillBuf` holds the last line filled into a set of the cache whose ways are all pinned (log 100). -/
structure Quad where
  icache : List Line := []
  fillBuf : Option Line := none
  locks : List Lock := []
  tlb : List Tlb := []
  comb : List CombKey := []
  cmbwait : Nat := 0x400
  fret : Fret := {}
  mx : FMap Mx := []
  eng : FMap Engine := []
  recon : Recon := {}
  turn : FMap (Option Nat) := []
  turnSaves : List (Nat × TurnSave) := []
  memlat : Nat := 0
deriving DecidableEq, Repr

/-! ### Dies -/

/-- A parked access with its fault record (20 R491). -/
structure ParkedFault where
  item : XItem
  va : Word
  xctx : Nat
  kind : Nat
  access : Nat
  requester : Nat
deriving DecidableEq, Repr

/-- One barrier place (09 R317-R321): completed phases, the arrivals of each phase still open, the arrivals
that other packages have announced (phase, package, count), and the counters that combining arrivals have
sampled (phase, core, six counts). -/
structure Barrier where
  phases : Nat := 0
  arrivals : List BarrierMsg := []
  remote : List (Nat × Nat × Nat) := []
  samples : List (Nat × Nat × List Nat) := []
deriving DecidableEq, Repr

/-- A trap record routed to the die scheduler (03 R113, 21 R512): the context, its launch and logical quad, the trap. -/
structure TrapRec where
  th : Nat
  lid : Option Nat
  lq : Nat
  trap : TrapInfo
deriving DecidableEq, Repr

/-- A die's error log registers (21 R519). -/
structure ErrLog where
  head : Nat := 0
  lost : Nat := 0
  base : Nat := 0
  en : Bool := false
  seq : Nat := 0
deriving DecidableEq, Repr

/-- An attached filter (22 R533-R544). `fn` is the attaching function: a virtual function's number, or 1,024 or 1,025 for a
physical function. `k` is the state block, `words` status words 1 to 6, `stamps` and `stampHead` the stamp ring, `lastTrig`
the cycle of its last performed trigger, `exportAt` that in which its export period ends; `leaving` says that it goes after
the event it runs, `exportDue` that a snapshot is taken then. -/
structure Filter where
  tenant : Nat
  fn : Nat
  cls : Nat
  prog : List (BitVec 32)
  trigs : List Word
  period : Nat
  clear : Bool
  host : Word
  k : FMap (BitVec 32) := []
  words : FMap Word := []
  queue : List (List (BitVec 32)) := []
  stamps : FMap (List Byte) := []
  stampHead : Nat := 0
  lastTrig : Option Nat := none
  exportAt : Nat := 0
  leaving : Bool := false
  exportDue : Bool := false
deriving DecidableEq, Repr

/-- The filter event a coprocessor is running (22 R537, R541): slot, next instruction, working
registers, record, instructions still to skip, and whether `end` has stopped effects. -/
structure FilterRun where
  slot : Nat
  ip : Nat
  w : FMap (BitVec 32)
  e : List (BitVec 32)
  skip : Nat
  ended : Bool
deriving DecidableEq, Repr

/-- A trace ring (22 R545). -/
structure TraceRing where
  en : Bool := false
  frozen : Bool := false
  head : Nat := 0
  tenant : Nat := 0
  mask : BitVec 32 := 0
  recs : FMap (List (BitVec 32)) := []
deriving DecidableEq, Repr

/-- A telemetry coprocessor (22 R529-R545): filters by slot, counts by class, limits and spent cycles by tenant, the
event it runs, and the slot after the last one served. -/
structure Tel where
  filters : FMap (Option Filter) := []
  clsPosted : FMap Nat := []
  clsDrops : FMap Nat := []
  limit : FMap Nat := []
  spent : FMap Nat := []
  tcfg : Nat := 10
  rings : FMap TraceRing := []
  run : Option FilterRun := none
  last : Nat := 0
deriving DecidableEq, Repr

/-- A message that a collective engine holds for a command (10 R359, 19 R469): class 1 data or 2 control, its
group, number and step, the member it comes from (package + 256 × die), and its body. A message of this package names
its launch and opcode too. -/
structure CollMsg where
  lid : Option Nat
  op : Option Nat
  cls : Nat
  group : Nat
  number : Nat
  step : Nat
  src : Nat
  body : List Byte
deriving DecidableEq, Repr

/-- A die, the hub (die 4) included. `mail` is its scheduler's inbox and `mailWait` the words that wait for room in it
(21 R511). `tlb` is the cache of its walker (log 102); the first 64 of `walks` are in flight
(20 R487), and `got` says how many requests memory has admitted for one (23 R550). `collIn` are the messages that its collective
engine holds, `collWay` those on their way to it (10 R359). -/
structure Die where
  waiters : List Req := []
  barriers : FMap Barrier := []
  tlb : List Tlb := []
  walks : List XItem := []
  got : List (XItem × Nat) := []
  parked : List ParkedFault := []
  trapq : List TrapRec := []
  mail : List Word := []
  mailWait : List Word := []
  err : ErrLog := {}
  tel : Tel := {}
  coll : Engine := {}
  collSeq : FMap Nat := []
  collIn : List CollMsg := []
  collWay : List CollMsg := []
deriving DecidableEq, Repr

/-- What a save takes out of a die for one launch (20 R495, 09 R322, 10 R363): the counts of its barrier nodes, its
commands and messages at the collective engine, and the accesses of those commands that wait for a page. -/
structure DieShadow where
  lid : Nat
  die : Nat
  barriers : List (Nat × Barrier)
  coll : Engine
  collSeq : List (Nat × Nat)
  collIn : List CollMsg
  pend : List XItem
deriving DecidableEq, Repr

/-! ### Launches (02, 11, 18) -/

/-- A tensor descriptor (18 R428). -/
structure Tensor where
  fmt : BitVec 6
  dims : Nat
  base : Int
  ext : List Nat
  strides : List Nat
deriving DecidableEq, Repr

/-- A kind (18 R429): descriptor, by-page home, key fields and shifts (field 3 is none), class. -/
structure Kind where
  td : Nat
  page : Bool
  f1 : Nat
  h1 : Nat
  f2 : Nat
  h2 : Nat
  cls : Nat
deriving DecidableEq, Repr

/-- A key condition (02 R40, 18 R432). -/
inductive Cond where
  | any
  | eq (c : Nat)
  | same (pos field : Nat)
  | range (lo hi : Nat)
deriving DecidableEq, Repr

/-- A pattern (18 R431): generation mode 0 current, 1 previous, 2 any. -/
structure Pat where
  kind : Nat
  cat : Bool
  gen : Nat
  conds : List Cond
deriving DecidableEq, Repr

/-- A rule (18 R430). -/
structure Rule where
  index : Nat
  prio : Nat
  recon : Bool
  kernel : Nat
  byKey : Bool
  keyField : Nat
  entry : Nat
  pats : List Pat
deriving DecidableEq, Repr

/-- The walk section (18 R438). -/
structure Walk where
  work : Nat
  out : Nat
  scale : Nat
  window : Nat
  nx : Nat
  ny : Nat
  nz : Nat
  base : Nat
  space : Nat
  sx : Nat
  sy : Nat
  sz : Nat
deriving DecidableEq, Repr

/-- The coverage section (18 R439). -/
structure Cover where
  hole : Nat
  nk : Nat
  rate : Nat
  ladder : List (BitVec 96)
  start : Nat
  floor : Nat
  ceil : Nat
  holdN : Nat
  upd : Nat
  fallK0 : Bool
  axisY : Bool
  near : Nat
  mask : Bool
  hi : BitVec 32
  lo : BitVec 32
deriving DecidableEq, Repr

/-- The coverage controller and the counts `cov.rd` returns (11 R384, R387). -/
structure Control where
  level : Nat := 0
  e : BitVec 32 := 0
  lastE : BitVec 32 := 0
  audits : Nat := 0
  epochAudits : Nat := 0
  run : Nat := 0
  kept : Nat := 0
  skipped : Nat := 0
  unresolved : Nat := 0
  declUnresolved : Nat := 0
  decl : List Nat := []
deriving DecidableEq, Repr

/-- The state of a launch (02 R43); `pending` is a launch accepted but not yet started (21 R508). -/
inductive LState where
  | installing | pending | seeding | running | complete | failed
deriving DecidableEq, Repr

/-- Where the pre-emption ladder stands (20 R494). -/
inductive Ladder where
  | none | drain | save | saved
deriving DecidableEq, Repr

/-- A launch: its queue's data, its tables, and where it stands; `holding` says that its partition's quads are its own;
`svc` is the service core that accepted it, `closing` that its sources are being closed, `since` the cycle in which it
reached its rung, `faultKeys` the keys of the hole of a RECON_FAULT (log 67). `latches` are the runs of planes of one level,
`planes` the planes latched in this generation (11 R385). `unbound` says that the bounds of the reserved class do not hold
for it, `lastRetire` is the cycle in which a task of it last retired (17 R416-R417). A saved launch that is `holding` is still being
written to its slots, or, when it is `reading`, read back from them (20 R497). -/
structure Launch where
  queue : Nat
  handle : Nat
  state : LState
  part : Nat
  xctx : Nat
  prio : Nat
  rsv : Bool
  order : Nat
  ordered : Bool := false
  isOpen : Bool := false
  agelimit : Nat := 0
  fewait : Nat := 0x10000
  qstall : Nat := 0x100000
  spill : Nat := 16384
  z : Nat := 0
  cmbwait : Nat := 0x400
  deadline : Word := 0
  codeBase : Nat := 0
  codeSize : Nat := 0
  tds : List (Option Tensor) := []
  kinds : List (Nat × Kind) := []
  rules : List Rule := []
  gx : Nat := 1
  gy : Nat := 1
  map : List Nat := []
  walk : Option Walk := none
  cover : Option Cover := none
  seeds : List Rec := []
  barriers : List (Nat × Nat × Nat) := []
  groups : List (List Nat) := []
  collNo : FMap Nat := []
  gen : Nat := 0
  compl : Word := 0
  taken : List Rec := []
  seedPos : Nat := 0
  walkPos : Nat := 0
  walkDone : Bool := true
  unfinished : List Nat := []
  ctl : Control := {}
  latches : List (Nat × Nat) := []
  planes : Nat := 0
  sent : Nat := 0
  received : Nat := 0
  firings : Nat := 0
  inserts : Nat := 0
  lastWave : Option (Nat × Nat × Bool) := none
  holesDue : Bool := false
  closed : Bool := false
  rings : List Nat := []
  requests : List Request := []
  rung : Nat := 0
  stepped : Bool := false
  missed : Bool := false
  accepted : BitVec 96 := 0
  firstFiring : Option (BitVec 96) := none
  ladder : Ladder := .none
  error : Nat := 0
  holding : Bool := false
  svc : Nat := 0
  closing : Bool := false
  since : Nat := 0
  faultKeys : Option (Nat × Nat × Nat) := none
  unbound : Bool := false
  lastRetire : Option Nat := none
  reading : Bool := false
deriving DecidableEq, Repr

/-! ### The hub (19-23) -/

/-- A hardware queue (19 R448-R449). -/
structure Queue where
  cfg : Word := 0
  base : Word := 0
  pre : Word := 0
  prod : BitVec 32 := 0
  cons : BitVec 32 := 0
  dbbad : Nat := 0
  ovf : Bool := false
  rung : Nat := 0
  stolenBy : Option Nat := none
  begun : Bool := false
deriving DecidableEq, Repr

/-- A function's page registers (19 R446, 22 R533). -/
structure Fn where
  apbase : Word := 0
  apfault : Nat := 0
  attst : Word := 0
  rdsel : Word := 0
deriving DecidableEq, Repr

/-- A packet ring (19 R460). -/
structure Ring where
  word : Word := 0
  head : Nat := 0
  att : Option Nat := none
deriving DecidableEq, Repr

/-- A classifier entry (19 R462). -/
structure ClsEntry where
  control : Word := 0
  mask : Word := 0
  value : Word := 0
  action : Word := 0
deriving DecidableEq, Repr

/-- A classifier group in effect: its first entry, and its entries as they were when it took effect (19 R462, log 131). -/
structure ClsGroup where
  first : Nat
  entries : List ClsEntry
deriving DecidableEq, Repr

/-- An egress queue (19 R464): configuration word and the frames waiting in it, with their port. -/
structure Egress where
  conf : Word := 0
  frames : List (Nat × List Byte) := []
deriving DecidableEq, Repr

/-- A Galsol message on its way out of a port (19 R467, R469): its header, the bytes not yet sent, and the launch that sends it, of
this package. -/
structure TxMsg where
  head : List Byte
  rest : List Byte
  lid : Option Nat := none
deriving DecidableEq, Repr

/-- A data flit in a replay buffer (19 R468): sequence number, times sent, the flit, the header and the launch of its message. -/
structure Sent where
  seq : Nat
  times : Nat
  flit : List Byte
  head : List Byte
  lid : Option Nat := none
deriving DecidableEq, Repr

/-- A network port (19 R459, R464-R470): whether its mode has been chosen, the mode, link, stamps, credits, sequence
numbers, replay and receive state; `losses` counts how often its link has gone down. -/
structure Port where
  moded : Bool := false
  galsol : Bool := false
  locked : Bool := false
  up : Bool := false
  down : Bool := false
  width : Nat := 0
  offered : Nat := 0
  ppkg : Nat := 0
  pport : Nat := 0
  retrains : Nat := 0
  trainSent : Nat := 0
  trainGood : Nat := 0
  peer : List Byte := []
  credits : FMap Nat := []
  freed : FMap Nat := []
  txSeq : Nat := 0
  rxSeq : Nat := 0
  acked : Nat := 0
  replay : List Sent := []
  txq : FMap (List TxMsg) := []
  rxbuf : FMap (List Byte) := []
  nakking : Bool := false
  lastVc : Nat := 0
  lastEg : Nat := 0
  stamps : List (Nat × BitVec 96) := []
  stampsLost : Nat := 0
  losses : Nat := 0
  drops : FMap Nat := []
  gdrops : FMap Nat := []
deriving DecidableEq, Repr

/-- A translation context entry (20 R482). -/
structure Xctx where
  valid : Bool := false
  part : Nat := 0
  tenant : Nat := 0
  root : Nat := 0
deriving DecidableEq, Repr

/-- A firmware image slot (21 R515-R517, 23 R555). -/
structure ImageSlot where
  version : Nat := 0
  secver : Nat := 0
  valid : Bool := false
deriving DecidableEq, Repr

/-- Live update (21 R515-R517). `running` is false while luthier is down; `heard` says that the running image has sent a
heartbeat, `since` is the cycle of the last one, or of the image's start; `copies` numbers the hand-over structures. -/
structure Firmware where
  busy : Bool := false
  state : Nat := 0
  slot : Nat := 0
  running : Bool := true
  since : Nat := 0
  heard : Bool := false
  copies : Nat := 0
  slots : FMap ImageSlot := []
  minSec : Nat := 0
  rot : Nat := 0
  measured : List Nat := []
  grants : List (Nat × Nat) := [(0, 2 ^ 64)]
deriving DecidableEq, Repr

/-- What the clock brings about at a telemetry coprocessor (22 R528, R535, R544): a window of the budget of a die, its sensor's
record, a core's SLOTS record, the end of an export period of a slot. -/
inductive Timed where
  | window (die : Nat)
  | therm (die sensor : Nat) (temp : BitVec 32)
  | slots (core : Nat)
  | snap (die slot : Nat)
deriving DecidableEq, Repr

/-- One of the two streams of a checkpoint, of the near or of the bulk tier (23 R552-R554): the descriptor list and the
number of its entries, the next one, and of the range being sent its start, length and sink, the bytes sent, the CRC so far
and the lines of an unfinished frame; `done` are the CRC and the status of a range that has ended, still to be written. -/
structure Stream where
  bulk : Bool
  list : Nat
  count : Nat
  next : Nat := 0
  start : Nat := 0
  len : Nat := 0
  sink : Nat := 0
  off : Nat := 0
  crc : Nat := 0
  buf : List Byte := []
  done : Option (Nat × Nat) := none
deriving DecidableEq, Repr

/-- A transfer that a hop may fail to carry, besides the messages in flight and the elements of engine commands (01 R12, 21 R521):
the access and the table reads of what waits at a die's walker; the next step of a tile of a reconstruction; the next line of the
slots of a save or restore, told by how many are left; a spilled record that comes back; a message on its way to a die's collective
engine; the next line of a checkpoint, told by its descriptor and its place in the range. -/
inductive Transfer where
  | walk (die : Nat) (x : XItem)
  | tile (quad : Nat) (a : ReconAt)
  | slot (lid left : Nat)
  | spill (quad lid arr : Nat)
  | coll (die : Nat) (m : CollMsg)
  | line (bulk : Bool) (next off : Nat)
deriving DecidableEq, Repr

/-- Something handed to the outside. -/
inductive Output where
  | interrupt (fn vec : Nat)
  | pin (n : Nat)
  | tripPin
  | frame (port : Nat) (bytes : List Byte)
  | flit (port : Nat) (bytes : List Byte)
  | hostWrite (fn : Nat) (addr : Word) (bytes : List Byte)
  | network (queue : Nat) (bytes : List Byte)
  | spdm (values : List Nat)
  | apertureData (fn : Nat) (x : Option Word)
  | egstamp (port : Nat) (x : Word)
deriving DecidableEq, Repr

/-- The hub. `groups` are the classifier groups in effect, by first entry; `clsErr` and `clsBad` are `CLSERR`, `partErr` and
`partBad` (cause, partition) `PARTERR`; `moved` is the cycle in which the launch of a partition last progressed (21 R513);
`admits` are the cycles of the last requests that each memory port has admitted, with the line of an engine's (23 R550);
`streams` are those of a checkpoint; `spareDue` are the replaced quads whose SPARE_CONSUMED record has not been written;
`hops` are transfers that a hop retries, with its die and unit and how often it has failed; `saved` and `savedDies` is what
luthier keeps of saved launches; `rr` is the queue served last in a priority of a die's run list (21 R508). -/
structure Hub where
  queues : FMap Queue := []
  fns : FMap Fn := []
  rings : FMap Ring := []
  cls : FMap ClsEntry := []
  groups : List ClsGroup := []
  clsErr : Bool := false
  clsBad : Nat := 0
  egress : FMap Egress := []
  ports : FMap Port := []
  groute : FMap Word := []
  pkgnum : Nat := 0
  time : Nat := 0
  cycle : Nat := 0
  clkhi : Word := 0
  clklo : Word := 0
  clkrate : BitVec 40 := 0
  part : FMap Word := []
  xconn : FMap Word := []
  fence : List (Nat × Nat) := []
  partErr : Bool := false
  partBad : Nat × Nat := (0, 0)
  partDrop : Nat := 0
  psave : FMap Word := []
  partFailed : List Nat := []
  xctxs : FMap Xctx := []
  xcsel : Nat := 0
  xcw0 : Word := 0
  xcw1 : Word := 0
  own : FMap (BitVec 16) := []
  ownRange : Word := 0
  ownSet : Word := 0
  wdogLimit : FMap (BitVec 32) := []
  wdogCount : FMap Nat := []
  moved : FMap (Option Nat) := []
  fw : Firmware := {}
  syncOvf : FMap Word := []
  failList : List Nat := []
  spare : List (Nat × Nat) := []
  spareDue : List Nat := []
  hops : List (Transfer × Nat × Nat × Nat) := []
  heldOut : List Nat := []
  retired : List Nat := []
  links : BitVec 6 := 0
  trip : Bool := false
  pwrLevel : Nat := 0
  pwrMode : Nat := 0
  pwrCap : Nat := 1500
  pwrNow : Nat := 0
  tThrottle : Nat := 100
  therm : Bool := false
  ckptList : Word := 0
  ckptDirty : Bool := false
  ckptErr : Bool := false
  streams : List Stream := []
  admits : FMap (List (Nat × Option Nat)) := []
  keys : FMap (BitVec 512) := []
  bells : List (Nat × Nat) := []
  accepts : Nat := 0
  captures : Nat := 0
  saved : List Shadow := []
  savedDies : List DieShadow := []
  rr : FMap Nat := []
  ownDone : List (Nat × Nat × Nat) := []
  due : List Timed := []
deriving DecidableEq, Repr

/-- Who moves next, or what comes from outside. -/
inductive Turn where
  /-- one cycle of a core: its slot table chooses the context -/
  | slot (core : Nat)
  /-- a cycle of a core in which its scratchpad's ports request some banks (17 R412) -/
  | slotLost (core : Nat) (banks : List Nat)
  /-- the k-th message in flight is delivered, or the oldest of its ordered pair -/
  | deliver (k : Nat)
  /-- an engine of a quad (selector 0-3) or die (selector 4) starts its next command -/
  | engine (unit place : Nat)
  /-- it starts its next command, and others move after n steps: reads of elements, and writes (10 R364) -/
  | engineElems (unit place n : Nat)
  /-- the k-th of its started commands goes on for n steps -/
  | resume (unit place k n : Nat)
  /-- the k-th started command of a copy engine, a multicast, goes on for n steps towards its destination d (10 R353) -/
  | resumeDest (place k d n : Nat)
  /-- a reconstruction unit goes on with its firing for n steps (11 R377) -/
  | firing (quad n : Nat)
  /-- the unresolved holes of a launch are filled on, n steps of each (11 R383) -/
  | holes (lid n : Nat)
  /-- a coprocessor runs the next instruction of its filter event -/
  | filter (die : Nat)
  /-- the hub clock advances by n cycles -/
  | clock (n : Nat)
  /-- a live update goes on to its next step (21 R516) -/
  | update
  /-- a checkpoint sends its next line of the near or of the bulk tier (23 R553) -/
  | stream (bulk : Bool)
  /-- a die scheduler takes the oldest word out of its inbox (21 R511) -/
  | mail (die : Nat)
  /-- n lines of the save slots of a launch are moved (20 R497) -/
  | slots (lid n : Nat)
  /-- the k-th message on its way to a die's collective engine arrives, or the oldest of its sender (10 R359) -/
  | coll (die k : Nat)
  /-- an event of the table happens, or an input arrives -/
  | event (i : Instr)
deriving DecidableEq, Repr

/-- The package. `inbox` are the messages a restore has put back, which come before anything else (20 R497); `beat` and
`served` are the turns that the machine takes by itself, and the source served last at each home (02 R78); `grant` bounds
the steps an engine does in its turn, and `aim` names the destination they are for (10 R353, R364). -/
structure State where
  ctxs : FMap Ctx := []
  cores : FMap Core := []
  quads : FMap Quad := []
  dies : FMap Die := []
  hub : Hub := {}
  launches : FMap (Option Launch) := []
  mem : List Host.Cell := []
  pres : FMap Bool := []
  net : List Flight := []
  inbox : List Flight := []
  turns : List Turn := []
  focus : Nat := 0
  cur : Nat := 0
  latch : Option Ctx := none
  taken : List Nat := []
  curDie : Nat := 0
  beat : Nat := 0
  served : FMap Nat := []
  grant : Option Nat := none
  aim : Option Nat := none
  out : List Output := []
deriving DecidableEq, Repr

/-- Core 3 of the control quad of quadrant 0 of die C0, where the monitor runs (21 R504). -/
def monitorCore : Nat := 3

/-- The monitor's context after reset: Ready at level 3 (03 R105). -/
def monitorCtx : Ctx := { status := .ready, level := 3 }

/-- The package right after reset. -/
def State.reset : State :=
  { ctxs := [(monitorCore * 16, monitorCtx)]
    focus := monitorCore
    cur := monitorCore * 16 }

end Sys2Proof.Machine
end

