-- ==== Sys2Proof/WellFormed.lean ====
section
/-! DEFINITION. Static legality: the field values an instruction may carry. A word whose fields break
these conditions raises ILLEGAL with `ctl.tval` 0 (05 R156-R173, 07 R240). -/

namespace Sys2Proof

/-- An integer lane type of 8 to 64 bits (05 R158). -/
def intLane (y : BitVec 6) : Bool :=
  let n := y.toNat
  (1 ≤ n && n ≤ 4) || (9 ≤ n && n ≤ 12)

/-- A signed integer lane type. -/
def sintLane (y : BitVec 6) : Bool := 9 ≤ y.toNat && y.toNat ≤ 12

/-- A float lane type with any rounding field (05 R158). -/
def floatLane (y : BitVec 6) : Bool := 16 ≤ y.toNat && y.toNat < 32 && y.toNat % 4 != 3

/-- A float lane type with rounding field 0. -/
def float0Lane (y : BitVec 6) : Bool := 16 ≤ y.toNat && y.toNat ≤ 18

/-- A binary8 format code (04 R117). -/
def b8Code (y : BitVec 6) : Bool :=
  let n := y.toNat
  (0x21 ≤ n && n ≤ 0x27) || (0x29 ≤ n && n ≤ 0x2F) || (0x32 ≤ n && n ≤ 0x34) ||
  (0x3A ≤ n && n ≤ 0x3C)

/-- An integer format code, 4-bit ones included (04 R117). -/
def intCode (y : BitVec 6) : Bool := y.toNat ≤ 4 || (8 ≤ y.toNat && y.toNat ≤ 12)

/-- A defined format code (04 R117). -/
def fmtCode (y : BitVec 6) : Bool := intCode y || float0Lane y || b8Code y

/-- Width in bits of a format code or lane type (04 R117, 05 R158). -/
def fmtWidth (y : BitVec 6) : Nat :=
  let n := y.toNat
  if n < 16 then 4 * 2 ^ (n % 8)
  else if n < 32 then (if n % 4 = 2 then 32 else 16)
  else 8

/-- A code that a lane move accepts: any code of 8 to 64 bits, rounding field 0 (05 R170). -/
def moveLane (y : BitVec 6) : Bool := intLane y || float0Lane y || b8Code y

/-- A code that `vpack` and `vunpack` accept (07 R235). -/
def packCode (y : BitVec 6) : Bool := b8Code y || y.toNat = 0 || y.toNat = 8

/-- The number of barrier ids of a level (05 R168). -/
def barrierIds (level : Nat) : Nat :=
  if level = 0 then 4 else if level = 1 then 16 else if level = 2 then 64 else if level = 3 then 64 else 16

/-- A scope code (05 R156). -/
def scopeOk (s : BitVec 3) : Bool := s.toNat ≤ 4

/-- State words of a count-min sketch fit the state block (22 R541). -/
def sketchOk (k : BitVec 10) (m : BitVec 4) : Bool :=
  1 ≤ m.toNat && m.toNat ≤ 8 && k.toNat + 2 ^ (m.toNat + 1) ≤ 1024

/-- The static conditions of each row. Commands and events carry none. -/
def Instr.wf : Instr → Bool
  | .repart m => m.toNat ≠ 3
  | .ldAcq32 _ _ _ s _ | .ldAcq64 _ _ _ s _ | .stRel32 _ _ _ s _ | .stRel64 _ _ _ s _ => scopeOk s
  | .tfld _ _ _ f => f.toNat ≤ 4
  | .swait _ _ _ _ _ c => c.toNat ≤ 3
  | .barrArr l i | .barrWait l i | .barrSync l i => l.toNat ≤ 4 && i.toNat < barrierIds l.toNat
  | .barrSyncCmb _ _ l i => l.toNat ≤ 4 && i.toNat < barrierIds l.toNat
  | .spawn b _ _ _ _ _ => b.toNat ≤ 24
  | .vadd _ _ _ _ _ y | .vsub _ _ _ _ _ y | .vmul _ _ _ _ _ y => intLane y || floatLane y
  | .vmin _ _ _ _ _ y | .vmax _ _ _ _ _ y | .vclamp _ _ _ _ _ y => intLane y || float0Lane y
  | .vceq _ _ _ _ _ y | .vcne _ _ _ _ _ y | .vclt _ _ _ _ _ y | .vcle _ _ _ _ _ y =>
    intLane y || float0Lane y
  | .vfma _ _ _ _ _ y | .vfms _ _ _ _ _ y => floatLane y
  | .vabs _ _ _ y | .vneg _ _ _ y => sintLane y || float0Lane y
  | .vredadd _ _ _ y => intLane y || floatLane y
  | .vredmin _ _ _ y | .vredmax _ _ _ y => intLane y || float0Lane y
  | .vsll _ _ _ y k | .vsrl _ _ _ y k | .vsra _ _ _ y k => intLane y && k.toNat < fmtWidth y
  | .vscale _ _ _ y _ => float0Lane y
  | .vsplat _ _ _ y => moveLane y
  | .vins _ _ _ y i => moveLane y && i.toNat * fmtWidth y < 128
  | .vext _ _ _ y i => moveLane y && i.toNat * fmtWidth y < 128
  | .vpack _ _ _ y => packCode y
  | .vunpack _ _ _ _ y => packCode y
  | .vcvt _ _ _ _ g s o => fmtCode g && fmtCode s && !(o == 1 && intCode g)
  | .vcvtScaled _ _ _ _ _ g s o => fmtCode g && fmtCode s && !(o == 1 && intCode g)
  | .rcp _ _ _ y | .rsqrt _ _ _ y | .sqrt _ _ _ y | .exp2 _ _ _ y | .log2 _ _ _ y
  | .tanh _ _ _ y => floatLane y
  | .quinudCmp _ _ _ c => c.toNat ≤ 5
  | .quinudHlin _ _ k m _ => k.toNat + m.toNat ≤ 1023
  | .quinudHlog _ k m => k.toNat + m.toNat ≤ 1023
  | .quinudCms _ k m => sketchOk k m
  | .quinudCmq _ _ k m => sketchOk k m
  | .quinudBz _ o | .quinudBnz _ o => o.toNat ≠ 0
  | _ => true

end Sys2Proof
end

