-- ==== Sys2Proof/Machine/Ops.lean ====
section
/-! DEFINITION. The named operations over the state: tables, memory, the numbering of the parts,
stamps, messages, telemetry and error records, taking a trap and returning from one, and the
entry and the end of a task. -/

namespace Sys2Proof.Machine

/-! ### Sparse tables -/

/-- The entry of key `i`, or the default `d`. -/
def get {α : Type} (d : α) : FMap α → Nat → α
  | [], _ => d
  | (k, x) :: m, i => if i = k then x else get d m i

/-- The table with `x` at key `i`; an entry equal to the default is not listed. -/
def put {α : Type} [DecidableEq α] (d : α) : FMap α → Nat → α → FMap α
  | [], i, x => if x = d then [] else [(i, x)]
  | (k, y) :: m, i, x =>
    if i < k then (if x = d then (k, y) :: m else (i, x) :: (k, y) :: m)
    else if i = k then (if x = d then m else (i, x) :: m)
    else (k, y) :: put d m i x

/-- A table is in canonical form: keys strictly rising, no entry equal to the default. -/
def FMap.wf {α : Type} [DecidableEq α] (d : α) : FMap α → Bool
  | [] => true
  | [(_, x)] => !decide (x = d)
  | (k, x) :: (k', y) :: m => !decide (x = d) && decide (k < k') && FMap.wf d ((k', y) :: m)

/-! ### Memory -/

/-- What a byte reads as that nothing has written (log 1). -/
def emptyByte : Byte := 0

/-- A place that holds a byte (01 R25): the tiers by physical address, scratchpads by core, the
accumulators and planes by quad, the sync-space SRAM by die. -/
inductive Place where
  | tier (pa : Nat)
  | scratch (core off : Nat)
  | acc (quad off : Nat)
  | plane (quad off : Nat)
  | sync (die off : Nat)
deriving DecidableEq, Repr

/-- The key of a place in the one byte table. -/
def Place.key : Place → Nat
  | .tier pa => pa
  | .scratch c o => 2 ^ 44 + c * 2 ^ 18 + o
  | .acc q o => 2 * 2 ^ 44 + q * 2 ^ 16 + o
  | .plane q o => 3 * 2 ^ 44 + q * 2 ^ 14 + o
  | .sync d o => 4 * 2 ^ 44 + d * 2 ^ 23 + o

/-- The form memory is kept in: keys strictly rising, no listed byte equal to what an unlisted one
reads as. -/
def Memory.wf (m : List Host.Cell) : Bool := FMap.wf emptyByte m

/-- The byte of key `k`. -/
def Memory.byte (m : List Host.Cell) (k : Nat) : Byte := get emptyByte m k

/-- Memory with byte `b` at key `k`. -/
def Memory.setByte (m : List Host.Cell) (k : Nat) (b : Byte) : List Host.Cell := put emptyByte m k b

/-- `n` bytes from key `k` upward, as a number, little-endian (00 R3). -/
def Memory.read (m : List Host.Cell) (k : Nat) : Nat → Nat
  | 0 => 0
  | n + 1 => (Memory.byte m k).toNat + 256 * Memory.read m (k + 1) n

/-- Memory with the `n` low bytes of `x` from key `k` upward, little-endian (00 R3). -/
def Memory.write (m : List Host.Cell) (k : Nat) : Nat → Nat → List Host.Cell
  | 0, _ => m
  | n + 1, x => Memory.write (Memory.setByte m k (BitVec.ofNat 8 x)) (k + 1) n (x / 256)

/-- Every byte of keys `lo` to `hi - 1` set to zero. -/
def Memory.clear (m : List Host.Cell) (lo hi : Nat) : List Host.Cell :=
  m.filter fun c => !(lo ≤ c.1 && c.1 < hi)

/-- `n` bytes from key `k` upward. -/
def Memory.bytes (m : List Host.Cell) (k : Nat) : Nat → List Byte
  | 0 => []
  | n + 1 => Memory.byte m k :: Memory.bytes m (k + 1) n

/-- Memory with a list of bytes from key `k` upward. -/
def Memory.setBytes (m : List Host.Cell) (k : Nat) : List Byte → List Host.Cell
  | [] => m
  | b :: bs => Memory.setBytes (Memory.setByte m k b) (k + 1) bs

/-- The byte at a place. -/
def State.byteAt (s : State) (p : Place) : Byte := Memory.byte s.mem p.key

/-- `n` bytes from a place upward. -/
def State.rd (s : State) (p : Place) (n : Nat) : Nat := Memory.read s.mem p.key n

/-- The state with `n` bytes of `x` from a place upward. -/
def State.wr (s : State) (p : Place) (n x : Nat) : State :=
  { s with mem := Memory.write s.mem p.key n x }

/-- A write performed at the home of tier bytes, inside a range of which a checkpoint has sent the first line and not
the last, sets dirty (23 R554). -/
def State.noteWrite (s : State) (p : Place) (n : Nat) : State :=
  match p with
  | .tier pa =>
    if s.hub.streams.any fun x => 0 < x.off && x.off < x.len && pa < x.start + x.len && x.start < pa + n then
      { s with hub := { s.hub with ckptDirty := true } }
    else s
  | _ => s

/-- `n` bytes of `x` written at the home of a place. -/
def State.wrHome (s : State) (p : Place) (n x : Nat) : State := (s.wr p n x).noteWrite p n

/-- The presence bit of the 32-bit word `w` of a core's scratchpad; full at reset (08 R581). -/
def State.full (s : State) (core w : Nat) : Bool := get true s.pres (core * 65536 + w)

/-- The state with that bit set or cleared. -/
def State.setFull (s : State) (core w : Nat) (b : Bool) : State :=
  { s with pres := put true s.pres (core * 65536 + w) b }

/-! ### The parts of the machine -/

/-- The core of a thread, which has 16 contexts (01 R24), its number within the core, the quad of a core, which has 4 cores, the
die of a quad (08 R242). -/
def coreOf (th : Nat) : Nat := th / 16
def ctxOf (th : Nat) : Nat := th % 16
def quadOf (core : Nat) : Nat := core / 4
def dieOf (quad : Nat) : Nat := quad / 256
def quadX (quad : Nat) : Nat := quad % 256 / 16
def quadY (quad : Nat) : Nat := quad % 16

/-- The die of a thread. -/
def dieOfTh (th : Nat) : Nat := th / 16384

/-- The quad at die, x, y. -/
def quadAt (die x y : Nat) : Nat := die * 256 + x * 16 + y

/-- The quadrant of a quad (01 R13). -/
def quadrantOf (quad : Nat) : Nat := 2 * (quadY quad / 8) + quadX quad / 8

/-- The control quads stand at the mesh corners (01 R14). -/
def isControl (quad : Nat) : Bool :=
  (quadX quad = 0 || quadX quad = 15) && (quadY quad = 0 || quadY quad = 15)

/-- The control quad of a quadrant of a die (01 R14). -/
def controlQuad (die quadrant : Nat) : Nat :=
  quadAt die (15 * (quadrant % 2)) (15 * (quadrant / 2))

/-- Spares of a quadrant at reset, in the order of the table of 01 R14. -/
def sparesOf (die quadrant : Nat) : List Nat :=
  let x := fun k : Nat => if quadrant % 2 = 0 then k else 15 - k
  let y := fun k : Nat => if quadrant / 2 = 0 then k else 15 - k
  [quadAt die (x 1) (y 0), quadAt die (x 0) (y 1), quadAt die (x 1) (y 1)]

/-- The 60 compute positions of a quadrant at reset, y the major key (01 R15); they are 240 of a die and 960 of the package
(01 R24). -/
def computeAtReset (die quadrant : Nat) : List Nat :=
  let ys := List.range 8
  let all := ys.flatMap fun y => (List.range 8).map fun x =>
    quadAt die (8 * (quadrant % 2) + x) (8 * (quadrant / 2) + y)
  all.filter fun q => !isControl q && !(sparesOf die quadrant).contains q

/-- The physical quad that holds a logical index of a die, spares counted (01 R15, 21 R526). -/
def physicalOf (s : State) (die l : Nat) : Nat :=
  let q := (computeAtReset die (l / 60)).getD (l % 60) 0
  match s.hub.spare.find? (fun p => p.1 = q) with
  | some p => p.2
  | none => q

/-- The logical index of a physical quad on its die, where it is in compute use (01 R15). -/
def logicalOf (s : State) (quad : Nat) : Option Nat :=
  let q := match s.hub.spare.find? (fun p => p.2 = quad) with
    | some p => p.1
    | none => quad
  let replaced := s.hub.spare.any fun p => p.1 = quad
  let l := computeAtReset (dieOf quad) (quadrantOf quad)
  if replaced then none
  else match l.findIdx? (· = q) with
    | some k => some (60 * quadrantOf quad + k)
    | none => none

/-- The number of contexts of a core in each mode, and of vector registers (01 R19). -/
def ctxCount (mode : Nat) : Nat := if mode = 0 then 16 else if mode = 1 then 8 else 4
def vregCount (mode : Nat) : Nat := if mode = 0 then 16 else if mode = 1 then 32 else 64

def State.ctx (s : State) (th : Nat) : Ctx := get {} s.ctxs th
def State.core (s : State) (c : Nat) : Core := get {} s.cores c
def State.quad (s : State) (q : Nat) : Quad := get {} s.quads q
def State.die (s : State) (d : Nat) : Die := get {} s.dies d
def State.launch (s : State) (l : Nat) : Option Launch := get none s.launches l

/-- The state with one context, core, quad, die, hub or launch changed. -/
def State.modCtx (s : State) (th : Nat) (f : Ctx → Ctx) : State :=
  { s with ctxs := put {} s.ctxs th (f (s.ctx th)) }
def State.modCore (s : State) (c : Nat) (f : Core → Core) : State :=
  { s with cores := put {} s.cores c (f (s.core c)) }
def State.modQuad (s : State) (q : Nat) (f : Quad → Quad) : State :=
  { s with quads := put {} s.quads q (f (s.quad q)) }
def State.modDie (s : State) (d : Nat) (f : Die → Die) : State :=
  { s with dies := put {} s.dies d (f (s.die d)) }
def State.modHub (s : State) (f : Hub → Hub) : State := { s with hub := f s.hub }
def State.modLaunch (s : State) (l : Nat) (f : Launch → Launch) : State :=
  match s.launch l with
  | some x => { s with launches := put none s.launches l (some (f x)) }
  | none => s

/-- The contexts of a core, by number. -/
def State.coreCtxs (s : State) (core : Nat) : List Nat :=
  (List.range (ctxCount (s.core core).mode)).map fun k => core * 16 + k

/-- The threads that hold a context which is not Free. -/
def State.allocated (s : State) : List Nat :=
  (s.ctxs.filter fun p => p.2.status ≠ .free).map Prod.fst

/-- Something for the outside. -/
def State.emit (s : State) (o : Output) : State := { s with out := s.out ++ [o] }

/-! ### Time (19 R472) -/

/-- The clock counts in units of 2^-40/11 ns; one cycle adds 10 (2^40 + k). -/
def cycleUnits (k : BitVec 40) : Nat := (10 * ((2 : Int) ^ 40 + k.toInt)).toNat

/-- The 96-bit stamp of a clock count. -/
def stampOf (t : Nat) : BitVec 96 :=
  let u := t / (11 * 2 ^ 24)
  let ns := u / 65536
  BitVec.ofNat 96 ((ns / 10 ^ 9) * 2 ^ 48 + (ns % 10 ^ 9) * 2 ^ 16 + u % 65536)

/-- The stamp of now. -/
def State.stamp (s : State) : BitVec 96 := stampOf s.hub.time

/-- Arithmetic cycles since reset (00 R4). -/
def State.cycles (s : State) : Nat := s.hub.cycle

/-! ### Messages -/

/-- Ends of the ordered route (08 R251): a core is itself, and the other homes and senders are
numbered above the cores. -/
def endMatrix (quad : Nat) : Nat := 10000 + quad
def endFret (quad : Nat) : Nat := 20000 + quad
def endSync (die : Nat) : Nat := 30000 + die
def endPort (port : Nat) : Nat := 31000 + port
def endHub : Nat := 32000
def endEngine (unit place : Nat) : Nat := 40000 + place * 8 + unit
def endTel (die : Nat) : Nat := 60000 + die
def endBarrier (die : Nat) : Nat := 62000 + die
def endChan (core buf : Nat) : Nat := 100000 + core * 16 + buf

/-- A message is sent: it joins the messages in flight, on the ordered route when `pair` is given. -/
def State.send (s : State) (pair : Option (Nat × Nat)) (ev : Instr) : State :=
  { s with net := s.net ++ [{ pair := pair, ev := ev }] }

/-- A message is sent that does not arrive for n cycles (02 R56). -/
def State.sendLater (s : State) (n : Nat) (ev : Instr) : State :=
  { s with net := s.net ++ [{ pair := none, ev := ev, due := s.hub.cycle + n }] }

/-! ### Telemetry (22 R527-R529) -/

/-- A saturating 32-bit value. -/
def sat32 (n : Nat) : BitVec 32 := if n < 2 ^ 32 then BitVec.ofNat 32 n else BitVec.allOnes 32

/-- The words of an event record (22 R527). -/
def eventWords (s : State) (cls tenant part core ctx : Nat) (e5 e6 e7 : BitVec 32) :
    List (BitVec 32) :=
  let t := s.stamp.toNat
  [BitVec.ofNat 32 (cls % 256 + tenant % 256 * 256 + part % 32 * 65536),
   BitVec.ofNat 32 (core % 8192 + ctx % 16 * 8192),
   BitVec.ofNat 32 t, BitVec.ofNat 32 (t / 2 ^ 32), BitVec.ofNat 32 (t / 2 ^ 64), e5, e6, e7]

/-- The tenant and partition of a launch, 0 where there is none (22 R527). -/
def State.tenantOf (s : State) (lid : Option Nat) : Nat × Nat :=
  match lid.bind s.launch with
  | some l => ((get {} s.hub.xctxs l.xctx).tenant, l.part)
  | none => (0, 0)

/-- A unit posts an event record to a die's coprocessor (22 R528-R529). -/
def State.post (s : State) (die cls : Nat) (lid : Option Nat) (core ctx : Nat)
    (e5 e6 e7 : BitVec 32) : State :=
  let tp := s.tenantOf lid
  s.send (some (endTel 8 + core, endTel die))
    (.telemetryRecord die (eventWords s cls tp.1 tp.2 core ctx e5 e6 e7))

/-- A core's event counter counts one, saturating (22 R532). -/
def State.evc (s : State) (core k : Nat) : State :=
  s.modCore core fun c =>
    let x := get (0 : BitVec 32) c.evc k
    { c with evc := put 0 c.evc k (if x = BitVec.allOnes 32 then x else x + 1) }

/-! ### Error records (21 R519-R520) -/

/-- The place of record `i` of a die's error log. -/
def errPlace (e : ErrLog) (i : Nat) : Place := .tier (e.base + 32 * i)

/-- The unit of a location, as an event names its source: the core of a window address, else the die (22 R527). -/
def unitOfLoc (die : Nat) (loc : Word) : Nat :=
  if loc.toNat / 2 ^ 62 = 1 then loc.toNat / 2 ^ 23 % 8192 else die * 1024

/-- The queue and partition of a launch, for an error record. -/
def State.queuePart (s : State) (lid : Option Nat) : Option Nat × Option Nat :=
  match lid.bind s.launch with
  | some l => (some l.queue, some l.part)
  | none => (none, none)

/-- An error that touches a launch, or none: while the log of the die is on, a record is written at its head, and posted as
an ERROR event (21 R519, 22 R528). The index of the record is the head before. -/
def State.logError (s : State) (die code sev : Nat) (loc : Word) (lid : Option Nat) (detail : BitVec 32) : State :=
  let e := (s.die die).err
  let p := errPlace e e.head
  let lost := if (s.rd p 1) ≠ 0 then min 255 (e.lost + 1) else e.lost
  let t := s.stamp.toNat
  let lo := code % 256 + sev % 256 * 2 ^ 8 + e.seq % 65536 * 2 ^ 16 + t * 2 ^ 32
  let hi := loc.toNat + (s.queuePart lid).1.getD 0xFFFF % 65536 * 2 ^ 64 +
    (s.queuePart lid).2.getD 0xFFFF % 65536 * 2 ^ 80 + detail.toNat * 2 ^ 96
  if !e.en then s
  else
    (((s.wrHome p 16 lo).wrHome (.tier (e.base + 32 * e.head + 16)) 16 hi).modDie die fun d =>
      { d with err := { d.err with head := (e.head + 1) % 256, lost := lost, seq := (e.seq + 1) % 65536 } }).post die 0x12 lid
        (unitOfLoc die loc) 0 (BitVec.ofNat 32 (code + 256 * sev)) detail (loc.extractLsb' 0 32)

/-- Codes of error records (21 R520). -/
def errMemUe : Nat := 0x01
def errPresParity : Nat := 0x02
def errFretParity : Nat := 0x03
def errHopFail : Nat := 0x04
def errLinkDegraded : Nat := 0x05
def errJoinUnderflow : Nat := 0x06
def errJoinAction : Nat := 0x07
def errBarrierMismatch : Nat := 0x08
def errSecurity : Nat := 0x09
def errWatchdog : Nat := 0x0A
def errFwRollback : Nat := 0x0B
def errFwHang : Nat := 0x0C
def errSpareConsumed : Nat := 0x0D
def errChannelRetired : Nat := 0x0E
def errSaveOwner : Nat := 0x0F

/-- The severity of a code (21 R520). -/
def errSev (code : Nat) : Nat :=
  if (1 ≤ code && code ≤ 4) || code = 0x0F then 2
  else if code = 5 || code = 0x0D || code = 0x0E then 3
  else if code = 7 || code = 0x0A then 1 else 0

/-- An error that touches a launch, or none, is recorded. -/
def State.logErr (s : State) (die code : Nat) (loc : Word) (lid : Option Nat) (detail : BitVec 32) : State :=
  s.logError die code (errSev code) loc lid detail

/-- A security event is recorded (21 R520 code 0x09). -/
def State.security (s : State) (die : Nat) (loc : Word) (lid : Option Nat) : State :=
  s.logErr die errSecurity loc lid 0

/-! ### Traps (03 R110-R115) -/

/-- Trap causes (03 R110). -/
def cILLEGAL : Nat := 0x01
def cVREG : Nat := 0x02
def cMISALIGN : Nat := 0x03
def cACCESS : Nat := 0x04
def cPAGE : Nat := 0x05
def cRANGELOCK : Nat := 0x06
def cFETIMEOUT : Nat := 0x07
def cQSTALL : Nat := 0x08
def cREGEMPTY : Nat := 0x09
def cENGINE : Nat := 0x0A
def cSOFT : Nat := 0x0B
def cBREAK : Nat := 0x0C
def cPREEMPT : Nat := 0x0D
def cMACHINE : Nat := 0x0E

/-- The bits of `ctl.hmask` that name causes a task-level handler may take (03 R110, R114). -/
def hmaskBits : Word := 0xFC0

/-- `ctl.tstate` as trap entry writes it, `inh` aside (03 R113). -/
def tstateOf (t : TrapInfo) : Word :=
  BitVec.ofNat 64 ((if t.deferred then 2 ^ 14 else 0) + (if t.vsyl then 2 ^ 13 else 0) +
    (if t.vreg then 2 ^ 12 else 0) + t.reg % 64 * 64 + t.field % 8 * 8)

/-- `ctl.tstate.inh`. -/
def Ctx.inh (c : Ctx) : Bool := c.tstate.getLsbD 15

/-- The trap goes to the thread's own handler (03 R113, R115). -/
def Ctx.handles (c : Ctx) (t : TrapInfo) : Bool :=
  6 ≤ t.cause && t.cause ≤ 11 && c.hmask.getLsbD t.cause && !c.inh

/-- A `slotw` round without a member (06 R209 rule 3). DESIGN CHOICE (log 104): a round that its last member leaves has
ended, and the table stays as it is. -/
def SlotwRound.without (r : SlotwRound) (th : Nat) : Option SlotwRound :=
  let members := r.members.filter (· ≠ th)
  if members.isEmpty then none else some { members := members, arrived := r.arrived.filter (·.1 ≠ th) }

/-- What a halt undoes besides (06 R209 rule 3, 17 R412): the context leaves the open `slotw` round and
its bank claims end. PREEMPT and MACHINE abandon the round (06 R210). -/
def leaveCore (th : Nat) (abandon : Bool) (c : Core) : Core :=
  { c with
    round := c.round.bind fun r => if r.members.contains th then (if abandon then none else r.without th) else some r
    claims := c.claims.filter (·.1 ≠ th) }

/-- A member of a round whose `slotw` is left for its handler has not issued it, and arrives anew when the bundle re-executes
(03 R111, 06 R209, log 104). -/
def unarrive (th : Nat) (c : Core) : Core :=
  { c with round := c.round.map fun r => { r with arrived := r.arrived.filter (·.1 ≠ th) } }

/-- TAKING A TRAP, the one operation for all of them (03 R113). The trap registers are written, and a request
that has timed out is forgotten, so that its bundle sends it afresh. The
thread continues at `ctl.hbase` with `inh` set where its handler takes the cause; otherwise the context
is halted and its record goes to the die's queue for the die scheduler (21 R512). -/
def State.takeTrap (s : State) (th : Nat) (t : TrapInfo) : State :=
  let c := s.ctx th
  let regs : Ctx := { c with
    held := if t.cause = cFETIMEOUT then c.held.filter fun h => h.pc ≠ c.pc else c.held
    cause := BitVec.ofNat 64 (t.cause % 256)
    epc := c.pc &&& ~~~7#64
    tval := t.tval
    winWait := none
    lostAt := none }
  if c.handles t then
    (s.modCtx th fun _ => { regs with
      tstate := tstateOf t ||| 0x8000#64
      pc := c.hbase &&& ~~~7#64
      status := .ready }).modCore (coreOf th) (unarrive th)
  else
    let s1 := s.modCtx th fun _ => { regs with
      outer := if t.cause = cPREEMPT then some (c.cause, c.epc, c.tval, c.tstate) else c.outer
      tstate := tstateOf t ||| (c.tstate &&& 0x8000#64)
      before := c.status
      status := .halted }
    let s2 := s1.modCore (coreOf th) (leaveCore th (t.cause = cPREEMPT || t.cause = cMACHINE))
    s2.modDie (dieOfTh th) fun d => { d with trapq := d.trapq ++ [{ th := th, lid := c.lid, lq := c.lq.toNat, trap := t }] }

/-- RETURNING FROM A TRAP (03 R115, 06 R203): `inh` is cleared and the thread continues at `ctl.epc`. -/
def State.returnTrap (s : State) (th : Nat) : State :=
  s.modCtx th fun c => { c with
    tstate := c.tstate &&& ~~~0x8000#64
    pc := c.epc &&& ~~~7#64 }

/-- A deferred trap is noted for the thread's next slot (03 R111). A thread that has none yet keeps its
list in producers' order. -/
def insertTrap (t : TrapInfo) : List TrapInfo → List TrapInfo
  | [] => [t]
  | u :: l => if t.seq < u.seq then t :: u :: l else u :: insertTrap t l

def State.defer (s : State) (th : Nat) (t : TrapInfo) : State :=
  let c := s.ctx th
  if c.status = .free then s
  else s.modCtx th fun c => { c with deferred := insertTrap { t with deferred := true } c.deferred }

/-- The deferred trap that is taken first (03 R112): MACHINE, then PREEMPT, then in producers' order. -/
def firstTrap (l : List TrapInfo) : Option TrapInfo :=
  match l.find? (fun t => t.cause = cMACHINE) with
  | some t => some t
  | none => match l.find? (fun t => t.cause = cPREEMPT) with
    | some t => some t
    | none => l.head?

/-! ### Launches of threads -/

def State.lidOf (s : State) (th : Nat) : Option Nat := (s.ctx th).lid
def State.launchOf (s : State) (th : Nat) : Option Launch := (s.lidOf th).bind s.launch

/-- The translation context of a thread: its launch's, or firmware's context 0 (08 R241, log 12). -/
def State.xctxOf (s : State) (th : Nat) : Nat := match s.launchOf th with
  | some l => l.xctx
  | none => 0

/-! ### The entry and the end of a task (02 R58-R60, R583) -/

/-- Partition register fields (20 R476). -/
def partEn (x : Word) : Bool := x.getLsbD 63
def partShared (x : Word) : Bool := x.getLsbD 62
def partPeer (x : Word) : Nat := (x.extractLsb' 57 5).toNat
def partReq (x : Word) : BitVec 32 := x.extractLsb' 0 32

/-- The requester port of a compute quad (20 R474). -/
def portOf (quad : Nat) : Nat := 8 * dieOf quad + 2 * quadrantOf quad + quadY quad % 8 / 4

/-- A quad is a compute quad of a partition (20 R476). -/
def State.quadInPart (s : State) (n quad : Nat) : Bool :=
  dieOf quad < 4 && (logicalOf s quad).isSome &&
    (partReq (get 0 s.hub.part n)).getLsbD (portOf quad)

/-- The half of each quad that a partition of a shared pair holds, none in whole-quad mode (20 R480). -/
def State.halfOf (s : State) (n : Nat) : Option Nat :=
  let p := get 0 s.hub.part n
  if partShared p then some (if n < partPeer p then 0 else 1) else none

/-- The launch's cores of a quad (02 R53, 20 R480). -/
def State.partCores (s : State) (n quad : Nat) : List Nat :=
  match s.halfOf n with
  | none => (List.range 4).map (quad * 4 + ·)
  | some h => (List.range 2).map (quad * 4 + 2 * h + ·)

/-- A partition holds a die when it holds a quad of it. -/
def State.dieInPart (s : State) (n die : Nat) : Bool :=
  die < 4 && ((partReq (get 0 s.hub.part n)).extractLsb' (8 * die) 8) ≠ 0

/-- The compute quads of a partition in partition quad number order: dies ascending, logical indices
ascending (18 R435). -/
def State.partQuads (s : State) (n : Nat) : List Nat :=
  (List.range 4).flatMap fun d => ((List.range 240).map (physicalOf s d)).filter (s.quadInPart n)

/-- The partition quad number of a quad (18 R435). -/
def State.partQuadNo (s : State) (n quad : Nat) : Option Nat :=
  (s.partQuads n).findIdx? (· = quad)

/-- The physical quad of a logical quad of a launch: the placement map gives its partition quad number
(18 R434-R435). -/
def State.quadOfLq (s : State) (l : Launch) (lq : Nat) : Nat :=
  (s.partQuads l.part).getD (l.map.getD lq 0) 0

/-- The logical quads that the map places on a quad, ascending. -/
def State.lqsOn (s : State) (l : Launch) (quad : Nat) : List Nat :=
  (List.range l.map.length).filter fun k => s.quadOfLq l k = quad

/-- The quad identity of `s14` [14:0] (02 R583). `lq` is the logical quad of a firing. -/
def State.quadIdentity (s : State) (lid : Option Nat) (quad : Nat) (lq : Option (BitVec 15)) :
    BitVec 15 :=
  match lq with
  | some x => x
  | none =>
    let outside : BitVec 15 :=
      let pos := match logicalOf s quad with
        | some k => k
        | none => 240 + quadrantOf quad
      BitVec.ofNat 15 (dieOf quad * 4096 + 2 * 1024 + pos)
    match lid.bind s.launch with
    | none => outside
    | some l =>
      match s.lqsOn l quad with
      | k :: _ => BitVec.ofNat 15 k
      | [] => match s.partQuadNo l.part quad with
        | some k => BitVec.ofNat 15 (1024 + k)
        | none => outside

/-- The address of the launch's retire stub: the bundle after its code region (log 13). -/
def State.stubOf (s : State) (lid : Option Nat) : Word :=
  match lid.bind s.launch with
  | some l => BitVec.ofNat 64 (l.codeBase + l.codeSize)
  | none => BitVec.ofNat 64 (8 * Config.firmwareStub)

/-- The window address of a core, region and offset (08 R242). -/
def windowAddr (core region off : Nat) : Word :=
  BitVec.ofNat 64 (2 ^ 62 + core % 8192 * 2 ^ 23 + region % 8 * 2 ^ 20 + off % 2 ^ 20)

/-- `ctl.stack` at task entry (17 R422-R423). -/
def State.stackOf (s : State) (lid : Option Nat) (th : Nat) : Word :=
  match lid.bind s.launch with
  | some l => if l.z = 0 then 0 else windowAddr (coreOf th) 0 0 + BitVec.ofNat 64 (0x40000 - ctxOf th * l.z)
  | none => 0

/-- The tag and locator words of the members of a group, as `s1` to `s12` hold them (02 R58). -/
def pairWords : Nat → List Rec → FMap Word → FMap Word
  | _, [], m => m
  | k, r :: l, m => pairWords (k + 2) l (put 0 (put 0 m k r.tag) (k + 1) r.loc)

def listWords : Nat → List Word → FMap Word → FMap Word
  | _, [], m => m
  | k, x :: l, m => listWords (k + 1) l (put 0 m k x)

/-- The state of a context at the entry of any task (02 R60), before its arguments. What no task entry
names stays: the region registers, the numbers that tell its producers and commands apart, and the cycle in which the
context last issued (03 R92). -/
def entryCtx (s : State) (th : Nat) (lid : Option Nat) : Ctx :=
  let c := s.ctx th
  let o := (s.core (coreOf th)).order
  { ({} : Ctx) with
    status := .ready
    lid := lid
    stub := some (s.stubOf lid)
    qstall := BitVec.ofNat 64 ((lid.bind s.launch).elim 0x100000 (·.qstall))
    fewait := BitVec.ofNat 64 ((lid.bind s.launch).elim 0x10000 (·.fewait))
    stack := s.stackOf lid th
    rgnb := c.rgnb
    rgnl := c.rgnl
    nextSeq := c.nextSeq
    lastIssue := c.lastIssue
    order := o }

/-- A firing starts its task in a context (02 R58). -/
def State.startFiring (s : State) (th : Nat) (f : Firing) : State :=
  let l := s.launch f.lid
  let r := l.bind fun l => l.rules.find? (·.index = f.rule)
  let ordered := (l.elim false (·.ordered))
  let idq := s.quadIdentity (some f.lid) f.quad (some (BitVec.ofNat 15 f.lq))
  let s13 : Nat := (if ordered then 0 else f.number % 2 ^ 48 * 65536) + f.rule % 256
  let c := entryCtx s th (some f.lid)
  let regs := pairWords 1 f.members []
  let regs := put 0 regs 13 (BitVec.ofNat 64 s13)
  let regs := put 0 regs 14 (idq.setWidth 64)
  let regs := put 0 regs 15 (s.stubOf (some f.lid))
  let pc := match l, r with
    | some l, some r => BitVec.ofNat 64 (l.codeBase + r.entry)
    | _, _ => 0
  let s1 := s.modCtx th fun _ => { c with
    s := regs, pc := pc, level := 0, rule := some f.rule, lq := BitVec.ofNat 15 f.lq }
  (s1.modCore (coreOf th) fun k => { k with order := k.order + 1 }).evc (coreOf th) 8

/-- A wake message starts its task in a context (02 R59). -/
def State.startWake (s : State) (th : Nat) (w : Wake) : State :=
  let c := entryCtx s th w.lid
  let idq := s.quadIdentity w.lid (quadOf w.core) none
  let regs := listWords 1 w.args []
  let regs := put 0 regs 14 (BitVec.ofNat 64 (2 ^ 63 + idq.toNat))
  let regs := put 0 regs 15 (s.stubOf w.lid)
  let s1 := s.modCtx th fun _ => { c with
    s := regs, pc := w.entry, level := w.level, hflag := w.h, byWake := true, lq := idq }
  (s1.modCore (coreOf th) fun k => { k with order := k.order + 1 }).evc (coreOf th) 9

def State.startTask (s : State) (th : Nat) (m : Start) : State :=
  match m with
  | .firing f => s.startFiring th f
  | .wake w => s.startWake th w

/-! ### Borders (20 R479) -/

/-- MESSAGE DROP: counted, and a security event; nothing acknowledges it. -/
def State.dropAt (s : State) (die : Nat) (loc : Word) (lid : Option Nat) : State :=
  (s.modHub fun h => { h with partDrop := min (2 ^ 32 - 1) (h.partDrop + 1) }).security die loc lid

/-- A message of a launch would enter a quad that its partition does not hold; control quads are never filtered. -/
def State.strays (s : State) (lid : Option Nat) (quad : Nat) : Bool :=
  match lid.bind s.launch with
  | some l => !isControl quad && !s.quadInPart l.part quad
  | none => false

/-- A message of a launch at the quad it is for: dropped at the border, or received. -/
def State.unlessStray (s : State) (lid : Option Nat) (quad : Nat) (f : State → State) : State :=
  if s.strays lid quad then s.dropAt (dieOf quad) (windowAddr (4 * quad) 0 0) lid else f s

/-- A store counter of a thread (08 R252). -/
def Ctx.counter (c : Ctx) (k : Nat) : Nat :=
  if k = 0 then c.c0 else if k = 1 then c.c1 else if k = 2 then c.c2 else c.c3

def Ctx.setCounter (c : Ctx) (k n : Nat) : Ctx :=
  if k = 0 then { c with c0 := n } else if k = 1 then { c with c1 := n }
  else if k = 2 then { c with c2 := n } else { c with c3 := n }

/-- An operation of class `k` is counted, or acknowledged (08 R252-R253). -/
def State.count (s : State) (th k : Nat) : State :=
  s.modCtx th fun c => c.setCounter k (c.counter k + 1)

def State.uncount (s : State) (th k : Nat) : State :=
  s.modCtx th fun c => c.setCounter k (c.counter k - 1)

/-- Every counter of the thread is zero. -/
def Ctx.counterZero (c : Ctx) : Bool := c.c0 = 0 && c.c1 = 0 && c.c2 = 0 && c.c3 = 0

/-- The store buffer of the thread's core holds a store of it (08 R248). -/
def State.buffered (s : State) (th : Nat) : Bool :=
  (s.core (coreOf th)).stbuf.any fun e => e.th = th

/-- A context owns an entry of its core's slot table (02 R81). -/
def ownsSlot (c : Core) (k : Nat) : Bool := c.slots.any fun b => b = BitVec.ofNat 8 (64 + k)

/-- The context that a core would allocate (03 R81): the lowest free one that owns an entry and that is
held for no sender. -/
def State.freeCtx (s : State) (core : Nat) : Option Nat :=
  (s.coreCtxs core).find? fun th =>
    (s.ctx th).status = .free && ownsSlot (s.core core) (ctxOf th) &&
      !((s.core core).heldFor.any fun p => p.1 = th)

end Sys2Proof.Machine
end

