-- ==== Sys2Proof/Machine/Numbers.lean ====
section
/-! DEFINITION. Number formats and arithmetic (04): the exact value of a code, the one rounding of an
exact value, conversions, and the exact special functions. -/

namespace Sys2Proof.Machine

/-! ### Exact values -/

/-- An exact value: NaN, an infinity, or (−1)^neg × m × 2^e, where zeros keep their sign. A value with
`more` lies strictly between m and m + 1 units of 2^e; it stands for a real that no finite m reaches. -/
inductive Val where
  | nan
  | inf (neg : Bool)
  | fin (neg : Bool) (m : Nat) (e : Int) (more : Bool)
deriving DecidableEq, Repr

/-- Exception conditions, by the order of the counters of 04 R146. -/
def kINV : Nat := 0
def kOVF : Nat := 1
def kUNF : Nat := 2
def kINX : Nat := 3
def kSAT : Nat := 4
def kNAN : Nat := 5

/-- A float or binary8 format: width, trailing significand bits, bias, greatest finite magnitude code,
code of infinity, whether signed, code of the NaN. -/
structure FloatFmt where
  bits : Nat
  t : Nat
  bias : Int
  maxCode : Nat
  infCode : Option Nat
  signed : Bool
  nanCode : Nat
deriving DecidableEq, Repr

/-- An integer format. -/
structure IntFmt where
  bits : Nat
  signed : Bool
deriving DecidableEq, Repr

def f16 : FloatFmt := ⟨16, 10, 15, 0x7BFF, some 0x7C00, true, 0x7E00⟩
def bf16 : FloatFmt := ⟨16, 7, 127, 0x7F7F, some 0x7F80, true, 0x7FC0⟩
def f32 : FloatFmt := ⟨32, 23, 127, 0x7F7FFFFF, some 0x7F800000, true, 0x7FC00000⟩

/-- The float or binary8 format of a code, its rounding bits set aside (04 R117, R121-R126). -/
def floatFmt (c : BitVec 6) : Option FloatFmt :=
  let n := c.toNat
  if n = 0x10 then some f16
  else if n = 0x11 then some bf16
  else if n = 0x12 then some f32
  else if b8Code c then
    let p := n % 8
    let x := n / 8 % 2 = 1
    if n < 0x30 then
      some ⟨8, p - 1, (2 : Int) ^ (7 - p), if x then 0x7E else 0x7F, if x then some 0x7F else none, true, 0x80⟩
    else
      some ⟨8, p - 1, (2 : Int) ^ (8 - p), if x then 0xFD else 0xFE, if x then some 0xFE else none, false, 0xFF⟩
  else none

/-- The integer format of a code (04 R117, R119). -/
def intFmt (c : BitVec 6) : Option IntFmt :=
  if intCode c then some ⟨4 * 2 ^ (c.toNat % 8), 8 ≤ c.toNat⟩ else none

/-- The float format and the rounding mode of a lane type (05 R158). -/
def laneFloat (y : BitVec 6) : Option (FloatFmt × Nat) :=
  if floatLane y then (floatFmt (BitVec.ofNat 6 (16 + y.toNat % 4))).map fun f => (f, y.toNat / 4 % 4)
  else none

/-- `Val(c, fmt)` for a float or binary8 format (04 R121, R124-R126). -/
def valFloat (f : FloatFmt) (c : Nat) : Val :=
  let neg := f.signed && c / 2 ^ (f.bits - 1) % 2 = 1
  let mag := if f.signed then c % 2 ^ (f.bits - 1) else c
  if f.bits = 8 && c = f.nanCode then .nan
  else if f.infCode = some mag then .inf neg
  else if f.bits ≠ 8 && mag > f.maxCode then .nan
  else
    let e := mag / 2 ^ f.t
    let m := mag % 2 ^ f.t
    if e = 0 then .fin neg m (1 - f.bias - f.t) false
    else .fin neg (2 ^ f.t + m) (e - f.bias - f.t) false

/-- A two's complement or natural code as an integer (04 R119). -/
def valInt (f : IntFmt) (c : Nat) : Int :=
  let c := c % 2 ^ f.bits
  if f.signed && 2 ^ (f.bits - 1) ≤ c then (c : Int) - 2 ^ f.bits else c

/-- An integer as an exact value. -/
def ofInt (x : Int) : Val := .fin (x < 0) x.natAbs 0 false

/-- `Val(c, fmt)` for any format. -/
def valOf (c : BitVec 6) (x : Nat) : Val :=
  match floatFmt c with
  | some f => valFloat f x
  | none => match intFmt c with
    | some f => ofInt (valInt f x)
    | none => .nan

/-- x × 2^k (04 R128). -/
def Val.scale (k : Int) : Val → Val
  | .fin n m e b => .fin n m (e + k) b
  | v => v

def Val.neg : Val → Val
  | .nan => .nan
  | .inf n => .inf (!n)
  | .fin n m e b => .fin (!n) m e b

def Val.abs : Val → Val
  | .nan => .nan
  | .inf _ => .inf false
  | .fin _ m e b => .fin false m e b

def Val.isNan : Val → Bool
  | .nan => true
  | _ => false

/-- The sign of a value, zeros and infinities included. -/
def Val.sign : Val → Bool
  | .nan => false
  | .inf n => n
  | .fin n _ _ _ => n

def Val.isZero : Val → Bool
  | .fin _ m _ b => m = 0 && !b
  | _ => false

/-! ### Rounding (04 R130-R135) -/

/-- The rounded magnitude code of m × 2^e, exponents unbounded above, and whether it is inexact
(04 R131). `more` is as in `Val`. -/
def roundMag (t : Nat) (bias : Int) (mode : Nat) (neg : Bool) (m : Nat) (e : Int) (more : Bool) :
    Nat × Bool :=
  if m = 0 && !more then (0, false)
  else
    let top : Int := e + Nat.log2 m
    let low : Int := 1 - bias
    let sub := m = 0 || top < low
    let step : Int := (if sub then low else top) - t
    let d : Int := step - e
    let q := if d ≤ 0 then m * 2 ^ (-d).toNat else m / 2 ^ d.toNat
    let r := if d ≤ 0 then 0 else m % 2 ^ d.toNat
    let inexact := r ≠ 0 || more
    let code : Nat := if sub then q else ((top + bias).toNat - 1) * 2 ^ t + q
    let half := if d ≤ 0 then 0 else 2 ^ (d.toNat - 1)
    let up :=
      if mode = 0 then
        if d ≤ 0 then false
        else half < r || (half = r && (more || code % 2 = 1))
      else if mode = 1 then false
      else if mode = 2 then !neg && inexact
      else neg && inexact
    (if up then code + 1 else code, inexact)

/-- The exact value is nonzero and below the smallest normal of the format (04 R145). -/
def tiny (f : FloatFmt) (m : Nat) (e : Int) (more : Bool) : Bool :=
  if m = 0 then more else e + Nat.log2 m < 1 - f.bias

/-- A magnitude code with its sign; binary8 has one zero (04 R123-R124). -/
def encMag (f : FloatFmt) (neg : Bool) (code : Nat) : Nat :=
  if f.signed && neg && !(f.bits = 8 && code = 0) then code + 2 ^ (f.bits - 1) else code

/-- The largest finite value goes with the mode's side of an overflow (04 R135). -/
def overflowsToMax (mode : Nat) (neg : Bool) : Bool :=
  mode = 1 || (mode = 2 && neg) || (mode = 3 && !neg)

/-- The code of a value where IEEE 754 decides overflow (04 R135), with the conditions of 04 R145. -/
def roundIeee (f : FloatFmt) (mode : Nat) : Val → Nat × List Nat
  | .nan => (f.nanCode, [])
  | .inf n => (encMag f n (f.infCode.getD f.maxCode), [])
  | .fin n m e b =>
    let (code, inexact) := roundMag f.t f.bias mode n m e b
    if f.maxCode < code then
      if overflowsToMax mode n then (encMag f n f.maxCode, [kOVF, kINX])
      else (encMag f n (f.infCode.getD f.maxCode), [kOVF, kINX])
    else (encMag f n code, if inexact then (if tiny f m e b then [kUNF, kINX] else [kINX]) else [])

/-- `Convert` to a float or binary8 format (04 R132-R133, R579). -/
def convertFloat (f : FloatFmt) (mode : Nat) (ovf : Bool) : Val → Nat × List Nat
  | .nan => (f.nanCode, [])
  | .inf n =>
    if n && !f.signed then (if ovf then (f.nanCode, [kNAN]) else (0, [kSAT]))
    else match f.infCode with
      | some c => (encMag f n c, [])
      | none => if ovf then (f.nanCode, [kNAN]) else (encMag f n f.maxCode, [kSAT])
  | .fin n m e b =>
    let (code, inexact) := roundMag f.t f.bias mode n m e b
    if n && !f.signed && code ≠ 0 then (0, [kINX, kSAT])
    else if f.maxCode < code then
      if !ovf then (encMag f n f.maxCode, [kOVF, kINX, kSAT])
      else if overflowsToMax mode n then (encMag f n f.maxCode, [kOVF, kINX])
      else match f.infCode with
        | some c => (encMag f n c, [kOVF, kINX])
        | none => (f.nanCode, [kOVF, kINX, kNAN])
    else (encMag f (n && f.signed) code,
      if inexact then (if tiny f m e b then [kUNF, kINX] else [kINX]) else [])

/-- The integer that a value rounds to (04 R134), and whether it is inexact. -/
def roundInt (mode : Nat) (n : Bool) (m : Nat) (e : Int) (more : Bool) : Int × Bool :=
  let q := if 0 ≤ e then m * 2 ^ e.toNat else m / 2 ^ (-e).toNat
  let r := if 0 ≤ e then 0 else m % 2 ^ (-e).toNat
  let half := if 0 ≤ e then 0 else 2 ^ ((-e).toNat - 1)
  let inexact := r ≠ 0 || more
  let up :=
    if mode = 0 then (if 0 ≤ e then false else half < r || (half = r && (more || q % 2 = 1)))
    else if mode = 1 then false
    else if mode = 2 then !n && inexact
    else n && inexact
  let q := if up then q + 1 else q
  (if n then -(q : Int) else q, inexact)

/-- The bounds of an integer format (04 R119). -/
def IntFmt.lo (f : IntFmt) : Int := if f.signed then -(2 ^ (f.bits - 1)) else 0
def IntFmt.hi (f : IntFmt) : Int := if f.signed then 2 ^ (f.bits - 1) - 1 else 2 ^ f.bits - 1

/-- The code of an integer, wrapped (04 R120). -/
def wrapInt (bits : Nat) (x : Int) : Nat := (x % (2 ^ bits : Int)).toNat

/-- `Sat(x, fmt)`. -/
def satInt (f : IntFmt) (x : Int) : Int := if x < f.lo then f.lo else if f.hi < x then f.hi else x

/-- `Convert` to an integer format (04 R134, R579). -/
def convertInt (f : IntFmt) (mode : Nat) : Val → Nat × List Nat
  | .nan => (0, [kINV])
  | .inf n => (wrapInt f.bits (if n then f.lo else f.hi), [kINV, kSAT])
  | .fin n m e b =>
    let (x, inexact) := roundInt mode n m e b
    if x < f.lo || f.hi < x then
      (wrapInt f.bits (satInt f x),
        if n && !f.signed then [kINX, kSAT] else [kOVF, kINX, kSAT])
    else (wrapInt f.bits x, if inexact then [kINX] else [])

/-- `Convert` to the format of a code. -/
def convert (c : BitVec 6) (mode : Nat) (ovf : Bool) (v : Val) : Nat × List Nat :=
  match floatFmt c with
  | some f => convertFloat f mode ovf v
  | none => match intFmt c with
    | some f => convertInt f mode v
    | none => (0, [])

/-! ### Exact sums and products -/

/-- The sign of an exact zero sum (04 R123). -/
def zeroSum (mode : Nat) (a b : Bool) : Bool := if a = b then a else mode = 3

/-- The exact sum of two finite values, its zero signed as the mode says. -/
def addFin (mode : Nat) (n1 : Bool) (m1 : Nat) (e1 : Int) (n2 : Bool) (m2 : Nat) (e2 : Int) : Val :=
  let e := min e1 e2
  let a : Int := m1 * 2 ^ (e1 - e).toNat
  let b : Int := m2 * 2 ^ (e2 - e).toNat
  let x := (if n1 then -a else a) + (if n2 then -b else b)
  if x = 0 then
    .fin (if m1 = 0 && m2 = 0 then zeroSum mode n1 n2 else mode = 3) 0 e false
  else .fin (x < 0) x.natAbs e false

/-- The exact sum of two values and whether it is an invalid operation (04 R145). -/
def Val.add (mode : Nat) : Val → Val → Val × Bool
  | .nan, _ => (.nan, false)
  | _, .nan => (.nan, false)
  | .inf a, .inf b => if a = b then (.inf a, false) else (.nan, true)
  | .inf a, _ => (.inf a, false)
  | _, .inf b => (.inf b, false)
  | .fin n1 m1 e1 _, .fin n2 m2 e2 _ => (addFin mode n1 m1 e1 n2 m2 e2, false)

/-- The exact product of two values and whether it is an invalid operation (04 R145). -/
def Val.mul : Val → Val → Val × Bool
  | .nan, _ => (.nan, false)
  | _, .nan => (.nan, false)
  | .inf a, .inf b => (.inf (a != b), false)
  | .inf a, .fin n m _ _ => if m = 0 then (.nan, true) else (.inf (a != n), false)
  | .fin n m _ _, .inf a => if m = 0 then (.nan, true) else (.inf (a != n), false)
  | .fin n1 m1 e1 _, .fin n2 m2 e2 _ => (.fin (n1 != n2) (m1 * m2) (e1 + e2) false, false)

/-- The conditions of an invalid operation: it counts when no operand was a NaN, and NaN produced with
it (04 R145, 07 R225). -/
def invalidConds (invalid nanIn : Bool) : List Nat :=
  if invalid && !nanIn then [kINV, kNAN] else []

/-- One rounding of an exact result, with the conditions of the operation. -/
def roundOp (f : FloatFmt) (mode : Nat) (r : Val × Bool) (nanIn : Bool) : Nat × List Nat :=
  let (code, cs) := roundIeee f mode r.1
  (code, invalidConds r.2 nanIn ++ cs)

/-- a + b, a − b, a × b, a × b + c in one rounding (04 R138). -/
def fAdd (f : FloatFmt) (mode : Nat) (a b : Nat) : Nat × List Nat :=
  let x := valFloat f a
  let y := valFloat f b
  roundOp f mode (x.add mode y) (x.isNan || y.isNan)

def fSub (f : FloatFmt) (mode : Nat) (a b : Nat) : Nat × List Nat :=
  let x := valFloat f a
  let y := valFloat f b
  roundOp f mode (x.add mode y.neg) (x.isNan || y.isNan)

def fMul (f : FloatFmt) (mode : Nat) (a b : Nat) : Nat × List Nat :=
  let x := valFloat f a
  let y := valFloat f b
  roundOp f mode (x.mul y) (x.isNan || y.isNan)

def fFma (f : FloatFmt) (mode : Nat) (minus : Bool) (a b c : Nat) : Nat × List Nat :=
  let x := valFloat f a
  let y := valFloat f b
  let z := if minus then (valFloat f c).neg else valFloat f c
  let p := x.mul y
  let r := p.1.add mode z
  roundOp f mode (r.1, p.2 || r.2) (x.isNan || y.isNan || z.isNan)

/-- The order of two values that are no NaN: less, where zeros are equal. -/
def Val.lt : Val → Val → Bool
  | .nan, _ => false
  | _, .nan => false
  | .inf a, .inf b => a && !b
  | .inf a, _ => a
  | _, .inf b => !b
  | .fin n1 m1 e1 _, .fin n2 m2 e2 _ =>
    let e := min e1 e2
    let a : Int := m1 * 2 ^ (e1 - e).toNat
    let b : Int := m2 * 2 ^ (e2 - e).toNat
    (if n1 then -a else a) < (if n2 then -b else b)

/-- Equality of values: zeros are equal, a NaN equals nothing (04 R144). -/
def Val.eq (a b : Val) : Bool := !a.isNan && !b.isNan && !a.lt b && !b.lt a

/-- min and max: a NaN gives the canonical NaN, and −0 is below +0 (04 R144). -/
def fMin (f : FloatFmt) (a b : Nat) : Nat :=
  let x := valFloat f a
  let y := valFloat f b
  if x.isNan || y.isNan then f.nanCode
  else if x.lt y then a else if y.lt x then b else if x.sign then a else b

def fMax (f : FloatFmt) (a b : Nat) : Nat :=
  let x := valFloat f a
  let y := valFloat f b
  if x.isNan || y.isNan then f.nanCode
  else if x.lt y then b else if y.lt x then a else if x.sign then b else a

/-! ### Special functions (04 R142-R143), and the activation of a drain (10 R349)

Reals that no finite m reaches are carried as 320-bit fixed-point numbers, rounded down (log 14). -/

/-- The integer square root of n, found bit by bit from bit `k` down. -/
def isqrtFrom (n : Nat) : Nat → Nat → Nat
  | 0, r => r
  | k + 1, r => let c := r + 2 ^ k; isqrtFrom n k (if c * c ≤ n then c else r)

def isqrt (n : Nat) : Nat := isqrtFrom n (Nat.log2 n / 2 + 1) 0

/-- Fraction bits of the working precision. -/
def fixBits : Nat := 320

/-- ⌊ln 2 × 2^320⌋ and ⌊√(2/π) × 2^320⌋. -/
def fixLn2 : Nat := 0xb17217f7d1cf79abc9e3b39803f2f6af40f343267298b62d8a0d175b8baafa2be7b876206debac98
def fixSqrt2OverPi : Nat := 0xcc42299ea1b284687e59e2805d5c717fa7053e60a24e0db1808e369004c73a5d3bf158aa88fa7b6e

/-- Σ y^k / k! from k upward, y below 1 in fixed point. -/
def expSeries (y : Nat) : Nat → Nat → Nat → Nat
  | 0, _, _ => 0
  | fuel + 1, k, term => term + expSeries y fuel (k + 1) (term * y / 2 ^ fixBits / (k + 1))

/-- 2^f for f in [0, 1), in fixed point. -/
def fixExp2 (f : Nat) : Nat := expSeries (f * fixLn2 / 2 ^ fixBits) 90 0 (2 ^ fixBits)

/-- Σ y^(2k+1) / (2k+1), in fixed point. -/
def atanhSeries (y2 : Nat) : Nat → Nat → Nat → Nat
  | 0, _, _ => 0
  | fuel + 1, k, p => p / (2 * k + 1) + atanhSeries y2 fuel (k + 1) (p * y2 / 2 ^ fixBits)

/-- log2 of u in [1, 2), both in fixed point. -/
def fixLog2 (u : Nat) : Nat :=
  let one := 2 ^ fixBits
  let y := (u - one) * one / (u + one)
  2 * atanhSeries (y * y / one) 110 0 y * one / fixLn2

/-- A finite value times 2^320, rounded down in magnitude. -/
def toFix (m : Nat) (e : Int) : Nat :=
  let d := e + fixBits
  if 0 ≤ d then m * 2 ^ d.toNat else m / 2 ^ (-d).toNat

/-- `rcp`. -/
def sfRcp : Val → Val × List Nat
  | .nan => (.nan, [])
  | .inf n => (.fin n 0 0 false, [])
  | .fin n m e _ =>
    if m = 0 then (.inf n, [kOVF])
    else
      let k := Nat.log2 m + 80
      (.fin n (2 ^ k / m) (-(k : Int) - e) (2 ^ k % m ≠ 0), [])

/-- `sqrt`. -/
def sfSqrt : Val → Val × List Nat
  | .nan => (.nan, [])
  | .inf n => if n then (.nan, [kINV, kNAN]) else (.inf false, [])
  | .fin n m e _ =>
    if m = 0 then (.fin n 0 0 false, [])
    else if n then (.nan, [kINV, kNAN])
    else
      let odd := e % 2 ≠ 0
      let m := (if odd then 2 * m else m) * 2 ^ 160
      let e := (if odd then e - 1 else e) - 160
      let r := isqrt m
      (.fin false r (e / 2) (r * r ≠ m), [])

/-- `rsqrt`. -/
def sfRsqrt : Val → Val × List Nat
  | .nan => (.nan, [])
  | .inf n => if n then (.nan, [kINV, kNAN]) else (.fin false 0 0 false, [])
  | .fin n m e _ =>
    if m = 0 then (.inf n, [kOVF])
    else if n then (.nan, [kINV, kNAN])
    else
      let odd := e % 2 ≠ 0
      let m := if odd then 2 * m else m
      let e := if odd then e - 1 else e
      let k := 2 * (Nat.log2 m + 80)
      let r := isqrt (2 ^ k / m)
      (.fin false r (-((k : Int) / 2) - e / 2) (r * r * m ≠ 2 ^ k), [])

/-- `exp2`. -/
def sfExp2 : Val → Val × List Nat
  | .nan => (.nan, [])
  | .inf n => if n then (.fin false 0 0 false, []) else (.inf false, [])
  | .fin n m e _ =>
    if m = 0 then (.fin false 1 0 false, [])
    else if 11 ≤ e + Nat.log2 m then
      if n then (.fin false 1 (-2000) true, []) else (.fin false 1 2000 false, [])
    else
      let x := toFix m e
      let one := 2 ^ fixBits
      let whole : Int := if n then -((x + one - 1) / one : Nat) else (x / one : Nat)
      let frac := if n then (one - x % one) % one else x % one
      if frac = 0 then (.fin false 1 whole false, [])
      else (.fin false (fixExp2 frac) (whole - fixBits) true, [])

/-- `log2`. -/
def sfLog2 : Val → Val × List Nat
  | .nan => (.nan, [])
  | .inf n => if n then (.nan, [kINV, kNAN]) else (.inf false, [])
  | .fin n m e _ =>
    if m = 0 then (.inf true, [kOVF])
    else if n then (.nan, [kINV, kNAN])
    else
      let k := Nat.log2 m
      let top : Int := e + k
      if m = 2 ^ k then (if top = 0 then .fin false 0 0 false else ofInt top, [])
      else
        let x : Int := top * 2 ^ fixBits + fixLog2 (m * 2 ^ fixBits / 2 ^ k)
        if 0 ≤ x then (.fin false x.toNat (-fixBits) true, [])
        else (.fin true ((-x).toNat - 1) (-fixBits) true, [])

/-- e^(−z) for z ≥ 0 in fixed point. -/
def fixExpNeg (z : Nat) : Nat :=
  let one := 2 ^ fixBits
  let y := z * one / fixLn2
  let whole := y / one
  let frac := y % one
  if fixBits < whole then 0
  else if frac = 0 then one / 2 ^ whole
  else fixExp2 (one - frac) / 2 ^ (whole + 1)

/-- `tanh`. -/
def sfTanh : Val → Val × List Nat
  | .nan => (.nan, [])
  | .inf n => (.fin n 1 0 false, [])
  | .fin n m e _ =>
    if m = 0 then (.fin n 0 0 false, [])
    else if e + Nat.log2 m < -30 then (.fin n (m * 2 ^ 64 - 1) (e - 64) true, [])
    else
      let one := 2 ^ fixBits
      let u := if 8 ≤ e + Nat.log2 m then 0 else fixExpNeg (2 * toFix m e)
      if u = 0 then (.fin n (one - 1) (-fixBits) true, [])
      else (.fin n ((one - u) * one / (one + u)) (-fixBits) true, [])

/-- G(x) = 0.5 x (1 + tanh(√(2/π)(x + 0.044715 x³))), which equals x / (1 + e^(−2z)) (10 R349). -/
def sfGelu : Val → Val
  | .nan => .nan
  | .inf n => if n then .fin true 0 0 false else .inf false
  | .fin n m e _ =>
    if m = 0 then .fin n 0 0 false
    else if 7 ≤ e + Nat.log2 m then
      if n then .fin true 1 (-2000) true else .fin false (m * 2 ^ 64 - 1) (e - 64) true
    else
      let one := 2 ^ fixBits
      let x := toFix m e
      let inner := x + x * x / one * x / one * 44715 / 1000000
      let w := fixExpNeg (2 * (fixSqrt2OverPi * inner / one))
      if n then .fin true (m * (w * one / (one + w))) (e - fixBits) true
      else .fin false (m * (one * one / (one + w))) (e - fixBits) true

/-- The rounded result of a special function: correctly rounded with nearest-even, whatever the rounding
field (04 R142). -/
def sfResult (f : FloatFmt) (r : Val × List Nat) : Nat × List Nat :=
  let (code, cs) := roundIeee f 0 r.1
  (code, r.2 ++ cs)

end Sys2Proof.Machine
end

