-- ==== Sys2Proof/Machine/Flags.lean ====
section
/-! DEFINITION. The exception counters of a core (04 R145-R149): the machine's flags. -/

namespace Sys2Proof.Machine

/-- One more on a saturating 32-bit counter (04 R146). -/
def satInc (x : BitVec 32) : BitVec 32 := if x = BitVec.allOnes 32 then x else x + 1

/-- `Count(name)` for one condition (05 R174). -/
def countOne (k : Nat) (m : FMap (BitVec 32)) : FMap (BitVec 32) := put 0 m k (satInc (get 0 m k))

/-- The conditions of an operation are added to a core's counters (04 R145, R147). -/
def State.addConds (s : State) (core : Nat) (conds : List Nat) : State :=
  match conds with
  | [] => s
  | l => s.modCore core fun c => { c with ex := l.foldl (fun m k => countOne k m) c.ex }

/-- The matrix engine counts only invalid, overflow and NaN produced for its accumulation (04 R147). -/
def accumConds (conds : List Nat) : List Nat := conds.filter fun k => k = kINV || k = kOVF || k = kNAN

/-- Saturating addition of two counts (04 R149). -/
def satAdd32 (a b : BitVec 32) : BitVec 32 := sat32 (a.toNat + b.toNat)

/-- The six counters of a core, in order. -/
def Core.sixCounts (c : Core) : List (BitVec 32) := (List.range 6).map fun k => get 0 c.ex k

end Sys2Proof.Machine
end

