-- ==== Sys2Proof/Machine/Address.lean ====
section
/-! DEFINITION. Addresses: spaces and regions (08 R241-R245), the checks of an access (08 R246), homes
and store-counter classes, translation and ownership (20 R484-R488), range locks (08 R274-R276), and the
control registers of a core (03 R107). -/

namespace Sys2Proof.Machine

/-! ### Spaces -/

/-- What an address names (08 R241-R245, 21 R505). `win` carries the core number of bits [35:23]. -/
inductive Addr where
  | global (va : Nat)
  | win (core region off : Nat)
  | hub (off : Nat)
  | sync (die off : Nat)
  | bad
deriving DecidableEq, Repr

/-- The space, and the fields that must be zero. -/
def decodeAddr (a : Word) : Addr :=
  let n := a.toNat
  if n / 2 ^ 62 = 0 then
    if n / 2 ^ 52 % 1024 = 0 then .global (n % 2 ^ 52) else .bad
  else if n / 2 ^ 62 = 1 then
    let die := n / 2 ^ 33 % 8
    if n / 2 ^ 36 % 2 ^ 26 ≠ 0 then .bad
    else if die < 4 then .win (n / 2 ^ 23 % 8192) (n / 2 ^ 20 % 8) (n % 2 ^ 20)
    else if die = 4 then .hub (n % 2 ^ 33)
    else .bad
  else if n / 2 ^ 62 = 2 then
    let die := n / 2 ^ 24 % 8
    if n / 2 ^ 27 % 2 ^ 35 = 0 && die < 4 then .sync die (n % 2 ^ 24) else .bad
  else .bad

/-- What an access does at its home. -/
inductive Acc where
  | load
  | store
  | atomic
  | presence (writes : Bool)
deriving DecidableEq, Repr

/-- An access that changes the word. -/
def Acc.writes : Acc → Bool
  | .load => false
  | .presence w => w
  | _ => true

/-- On whose behalf an access is made: the thread, its launch, level and translation context. -/
structure Who where
  th : Nat
  lid : Option Nat
  level : Nat
  xctx : Nat
deriving DecidableEq, Repr

/-- A thread on its own behalf. -/
def State.who (s : State) (th : Nat) : Who :=
  { th := th, lid := s.lidOf th, level := (s.ctx th).level, xctx := s.xctxOf th }

/-- A command on behalf of the thread that pushed it. -/
def whoCmd (c : Cmd) : Who := { th := c.th, lid := c.lid, level := c.level, xctx := c.xctx }

/-! ### Control registers (03 R107, 06 R204-R205) -/

/-- The lowest level that may write a control register; `none` names no register, and 4 no writer. -/
def ctlWriteLevel (i : Nat) : Option Nat :=
  if i ≤ 1 then some 4
  else if 0x008 ≤ i && i ≤ 0x00B then some 4
  else if i = 0x00C then some 2
  else if i = 0x010 || i = 0x011 then some 0
  else if i = 0x012 then some 4
  else if i = 0x013 || i = 0x014 || i = 0x015 then some 2
  else if i = 0x018 || i = 0x01A || i = 0x01B then some 2
  else if i = 0x019 || i = 0x01C || i = 0x01D then some 0
  else if 0x020 ≤ i && i ≤ 0x025 then some 0
  else if 0x040 ≤ i && i ≤ 0x04C then some 0
  else if 0x060 ≤ i && i ≤ 0x067 then some 2
  else if 0x070 ≤ i && i ≤ 0x07F then some 2
  else none

/-- The slot-table bytes of `ctl.slots`n (03 R84). -/
def slotWord (c : Core) (n : Nat) : Word :=
  BitVec.ofNat 64 ((List.range 8).foldl (fun a k => a + (c.slots.getD (8 * n + k) 0).toNat * 256 ^ k) 0)

/-- `ctl.ctxid` (03 R108). -/
def ctxidOf (s : State) (th : Nat) : Word :=
  BitVec.ofNat 64 ((s.ctx th).level * 2 ^ 14 + (s.core (coreOf th)).mode * 2 ^ 12 +
    coreOf th % 4 * 2 ^ 10 + ctxOf th)

/-- `ctl.stcnt` (08 R255). -/
def stcntOf (c : Ctx) : Word :=
  BitVec.ofNat 64 (c.c0 % 4096 + c.c1 % 4096 * 2 ^ 12 + c.c2 % 4096 * 2 ^ 24 + c.c3 % 4096 * 2 ^ 36)

/-- A core is one of the launch's (02 R53, 20 R480). -/
def State.coreInPart (s : State) (n core : Nat) : Bool :=
  s.quadInPart n (quadOf core) && (s.partCores n (quadOf core)).contains core

/-- A core gives forfeited slots away: no launch that holds it is ordered or reserved (03 R91, R109). -/
def State.mayDonate (s : State) (core : Nat) : Bool :=
  s.launches.all fun p => match p.2 with
    | some l => !(l.holding && (l.ordered || l.rsv) && s.coreInPart l.part core)
    | none => true

/-- The half of the quad's fretboard that a thread's launch holds, 0 for a whole quad (02 R64). A thread of no launch
reads and writes half 0's age limit in shared-quad mode too: the spec does not say which (DESIGN CHOICE, log 101). -/
def State.fretHalf (s : State) (th : Nat) : Nat := match s.launchOf th with
  | some l => (s.halfOf l.part).getD 0
  | none => 0

/-- The value of control register `i` as context `th` sees it. -/
def State.ctlRead (s : State) (th i : Nat) : Word :=
  let c := s.ctx th
  let k := s.core (coreOf th)
  if i = 0x000 then ctxidOf s th
  else if i = 0x001 then BitVec.ofNat 64 k.cycle
  else if 0x008 ≤ i && i ≤ 0x00B then slotWord k (i - 8)
  else if i = 0x00C then (if k.donate && s.mayDonate (coreOf th) then 1 else 0)
  else if i = 0x010 then c.qstall
  else if i = 0x011 then c.fewait
  else if i = 0x012 then stcntOf c
  else if i = 0x013 then c.stack
  else if i = 0x014 then BitVec.ofNat 64 (s.quad (quadOf (coreOf th))).cmbwait
  else if i = 0x015 then BitVec.ofNat 64 (get 0 (s.quad (quadOf (coreOf th))).fret.agelimit (s.fretHalf th))
  else if i = 0x018 then c.cause
  else if i = 0x019 then c.epc
  else if i = 0x01A then c.tval
  else if i = 0x01B then c.tstate
  else if i = 0x01C then c.hbase
  else if i = 0x01D then c.hmask
  else if 0x020 ≤ i && i ≤ 0x025 then (get 0 k.ex (i - 0x020)).setWidth 64
  else if i = 0x040 then c.lpBase
  else if 0x041 ≤ i && i ≤ 0x044 then get 0 c.lpTrip (i - 0x041)
  else if 0x045 ≤ i && i ≤ 0x048 then get 0 c.lpStride (i - 0x045)
  else if 0x049 ≤ i && i ≤ 0x04C then get 0 c.lpIdx (i - 0x049)
  else if 0x060 ≤ i && i ≤ 0x063 then get 0 c.rgnb (i - 0x060)
  else if 0x064 ≤ i && i ≤ 0x067 then get 0 c.rgnl (i - 0x064)
  else if 0x070 ≤ i && i ≤ 0x07F then (get 0 k.evc (i - 0x070)).setWidth 64
  else 0

/-- A write of control register `i`, field by field: reserved bits keep reading zero (00 R5-R6). -/
def State.ctlWrite (s : State) (th i : Nat) (x : Word) : State :=
  let q := quadOf (coreOf th)
  if i = 0x00C then
    if s.mayDonate (coreOf th) then s.modCore (coreOf th) fun k => { k with donate := x.getLsbD 0 } else s
  else if i = 0x010 then s.modCtx th fun c => { c with qstall := x &&& 0xFFFFFF }
  else if i = 0x011 then s.modCtx th fun c => { c with fewait := x &&& 0xFFFFFF }
  else if i = 0x013 then s.modCtx th fun c => { c with stack := x &&& ~~~15#64 }
  else if i = 0x014 then s.modQuad q fun k => { k with cmbwait := x.toNat % 65536 }
  else if i = 0x015 then s.modQuad q fun k => { k with fret := { k.fret with agelimit := put 0 k.fret.agelimit (s.fretHalf th) (x.toNat % 65536) } }
  else if i = 0x018 then s.modCtx th fun c => { c with cause := x &&& 0xFF }
  else if i = 0x019 then s.modCtx th fun c => { c with epc := x &&& ~~~7#64 }
  else if i = 0x01A then s.modCtx th fun c => { c with tval := x }
  else if i = 0x01B then s.modCtx th fun c => { c with tstate := x &&& 0xFFF8 }
  else if i = 0x01C then s.modCtx th fun c => { c with hbase := x &&& ~~~7#64 }
  else if i = 0x01D then s.modCtx th fun c => { c with hmask := x &&& hmaskBits }
  else if 0x020 ≤ i && i ≤ 0x025 then
    s.modCore (coreOf th) fun k => { k with ex := put 0 k.ex (i - 0x020) (x.setWidth 32) }
  else if i = 0x040 then s.modCtx th fun c => { c with lpBase := x }
  else if 0x041 ≤ i && i ≤ 0x044 then s.modCtx th fun c => { c with lpTrip := put 0 c.lpTrip (i - 0x041) x }
  else if 0x045 ≤ i && i ≤ 0x048 then s.modCtx th fun c => { c with lpStride := put 0 c.lpStride (i - 0x045) x }
  else if 0x049 ≤ i && i ≤ 0x04C then s.modCtx th fun c => { c with lpIdx := put 0 c.lpIdx (i - 0x049) x }
  else if 0x060 ≤ i && i ≤ 0x063 then
    s.modCtx th fun c => { c with rgnb := put 0 c.rgnb (i - 0x060) (x &&& ~~~0xFF8#64) }
  else if 0x064 ≤ i && i ≤ 0x067 then
    s.modCtx th fun c => { c with rgnl := put 0 c.rgnl (i - 0x064) (x &&& ~~~0xFFF#64) }
  else if 0x070 ≤ i && i ≤ 0x07F then
    s.modCore (coreOf th) fun k => { k with evc := put 0 k.evc (i - 0x070) (x.setWidth 32) }
  else s

/-! ### Region faults (08 R243-R245) -/

/-- The size of a die's sync overflow area (21 R582). -/
def State.overflowSize (s : State) (die : Nat) : Nat := (get 0 s.hub.syncOvf die).toNat % 256 * 65536

/-- The other tenant's half of a shared quad, for the launch of an access (08 R244). -/
def State.otherHalf (s : State) (lid : Option Nat) : Option Nat :=
  match lid.bind s.launch with
  | some l => (s.halfOf l.part).map fun h => 1 - h
  | none => none

/-- The item that an offset of region 2 names: its context, and its size when the offset lies in an item
(08 R244). -/
def regionTwoSize (mode off : Nat) : Option Nat :=
  let r := off % 2048
  if ctxCount mode ≤ off / 2048 then none
  else if r < 256 then some 8
  else if 1024 ≤ r && r < 1024 + 16 * vregCount mode then some 16
  else none

/-- A region fault (08 R243-R245). -/
def State.regionFault (s : State) (w : Who) (a : Word) (n : Nat) (k : Acc) : Bool :=
  match decodeAddr a with
  | .bad => true
  | .global _ => false
  | .hub _ => n ≠ 8 || w.level < 2 || k = .atomic
  | .sync d off => (n ≠ 4 && n ≠ 8) || 0x800000 + s.overflowSize d ≤ off
  | .win core r off =>
    let mode := (s.core core).mode
    if k ≠ .load && k ≠ .store && r ≠ 0 then true
    else if r = 0 then !(off + 1 ≤ 0x40000) || 16 < n
    else if r = 1 then !(off < 0x2000) || 8 < n
    else if r = 2 then !(off < 0x8000) || regionTwoSize mode off ≠ some n
    else if r = 3 then
      w.level < 2 || n ≠ 8 || !(off < 0x80000) || ctxCount mode ≤ off / 0x8000 ||
        (match ctlWriteLevel (off % 0x8000 / 8) with
         | none => true
         | some l => k = .store && (l = 4 || w.level < l))
    else if r = 4 then
      !(off < 0x10000) || (n ≠ 4 && n ≠ 16) || s.otherHalf w.lid = some (off % 256 / 4 / 32)
    else if r = 5 then
      !(off < 0x4000) || (n ≠ 2 && n ≠ 4 && n ≠ 8 && n ≠ 16) ||
        s.otherHalf w.lid = some (off % 128 / 2 / 32)
    else if r = 6 then
      w.level < 2 || n ≠ 16 || !(off < 0x10000) || k = .store || s.otherHalf w.lid = some (off / 16 / 2048)
    else true

/-! ### Partitions and ports (20 R474-R480) -/

/-- The memory-side port of a physical address (20 R475): the near tier's 32 groups and the bulk tier's (01 R24). -/
def memPort (pa : Nat) : Nat :=
  if 2 ^ 40 ≤ pa then 32 + pa % 2 ^ 40 / 2 ^ 37
  else 4 * (pa / 2 ^ 36) + min 3 (pa % 2 ^ 36 / 16000000000)

/-- A physical address that names a byte of a tier: 4 dies of 2 stacks of 64 GB near, 1 TiB bulk (01 R24, 20 R484, log 15). -/
def paExists (pa : Nat) : Bool :=
  pa < 2 ^ 41 && (2 ^ 40 ≤ pa || (pa / 2 ^ 36 < 8 && pa % 2 ^ 36 < 64000000000))

/-! ### Translation and ownership (20 R484-R488) -/

/-- The ownership check of a physical address (20 R488). -/
def State.owned (s : State) (pa tenant level : Nat) : Bool :=
  let e := get (0 : BitVec 16) s.hub.own (pa / 65536)
  paExists pa && e.getLsbD 15 &&
    (if e.getLsbD 14 then 2 ≤ level else (e.toNat % 256 = tenant || 2 ≤ level))

/-- A granule that the walker may read: the context's tenant's, or luthier's (20 R487). -/
def State.tableOwned (s : State) (pa tenant : Nat) : Bool :=
  let e := get (0 : BitVec 16) s.hub.own (pa / 65536)
  paExists pa && e.getLsbD 15 && (e.getLsbD 14 || e.toNat % 256 = tenant || e.toNat % 256 = 0)

/-- The kinds of a page fault (20 R491). -/
inductive PageFault where
  | absent | write | format
deriving DecidableEq, Repr

/-- How a translation ends: a page, a page fault, or a failed ownership check. -/
inductive Walked where
  | page (va size pa : Nat) (write : Bool)
  | fault (k : PageFault)
  | denied (pa : Nat)
deriving DecidableEq, Repr

/-- Index bits, page size and table size of a level (20 R485). -/
def levelShift (level : Nat) : Nat := if level = 3 then 39 else if level = 2 then 30 else if level = 1 then 21 else 16
def levelEntries (level : Nat) : Nat := if level = 3 then 8192 else if level = 0 then 32 else 512

/-- One table of the walk; `down` continues at the next table (20 R487). -/
def State.walkStep (s : State) (tenant va : Nat) (write : Bool) (level t : Nat)
    (down : Option (Nat → Walked)) : Walked :=
  let p := t + 8 * (va / 2 ^ levelShift level % levelEntries level)
  if !s.tableOwned p tenant then .denied p
  else
    let e := s.rd (.tier p) 8
    let leaf := e / 2 ^ 62 % 2 = 1
    let addr := e / 256 % 2 ^ 44 * 256
    let size := 2 ^ levelShift level
    if e / 2 ^ 63 = 0 || e / 2 ^ 60 % 2 = 1 then .fault .absent
    else if e / 2 ^ 52 % 256 ≠ 0 || (leaf && level = 3) || (!leaf && level = 0) ||
        addr % (if leaf then size else 8 * levelEntries (level - 1)) ≠ 0 then .fault .format
    else if leaf then
      if write && e / 2 ^ 61 % 2 = 0 then .fault .write
      else .page (va / size * size) size addr (e / 2 ^ 61 % 2 = 1)
    else match down with
      | some f => f addr
      | none => .fault .format

/-- The walk from a table of a level down (20 R487). -/
def State.walkFrom (s : State) (tenant va : Nat) (write : Bool) : Nat → Nat → Walked
  | 0, t => s.walkStep tenant va write 0 t none
  | level + 1, t =>
    s.walkStep tenant va write (level + 1) t (some (s.walkFrom tenant va write level))

/-- The page that a context's tables give, its granule not yet checked (20 R487). -/
def State.pageOf (s : State) (xctx va : Nat) (write : Bool) : Walked :=
  let x := get {} s.hub.xctxs xctx
  if !x.valid then .fault .absent else s.walkFrom x.tenant va write 3 (x.root * 65536)

/-- A walk of a context's tables, and the check of the granule it reaches (20 R487-R488). -/
def State.walk (s : State) (xctx level va : Nat) (write : Bool) : Walked :=
  let x := get {} s.hub.xctxs xctx
  match s.pageOf xctx va write with
    | .page v size pa w =>
      if s.owned (pa + (va - v)) x.tenant level then .page v size pa w else .denied (pa + (va - v))
    | r => r

/-- The entries that a walk reads, by their physical addresses (20 R487). -/
def State.readsFrom (s : State) (va : Nat) : Nat → Nat → List Nat
  | 0, t => [t + 8 * (va / 2 ^ levelShift 0 % levelEntries 0)]
  | level + 1, t =>
    let p := t + 8 * (va / 2 ^ levelShift (level + 1) % levelEntries (level + 1))
    let e := s.rd (.tier p) 8
    p :: if e / 2 ^ 63 = 0 || e / 2 ^ 62 % 2 = 1 then [] else s.readsFrom va level (e / 256 % 2 ^ 44 * 256)

def State.walkReads (s : State) (xctx va : Nat) : List Nat :=
  let x := get {} s.hub.xctxs xctx
  if x.valid then s.readsFrom va 3 (x.root * 65536) else []

/-! ### Requests that memory homes admit (23 R550) -/

/-- What a memory port has admitted in the last 16 cycles: the cycle of each request, and the line of an engine's. -/
def State.admitted (s : State) (port : Nat) : List (Nat × Option Nat) :=
  (get [] s.hub.admits port).filter fun t => s.hub.cycle < t.1 + 16

/-- A home agent of a tier has room for a request: 16 - n in any 16 cycles, at level n; with slots only, as at level 0. -/
def State.portAdmits (s : State) (port : Nat) : Bool :=
  (s.admitted port).length < 16 - (if s.hub.pwrMode = 1 then 0 else s.hub.pwrLevel)

/-- A home agent has admitted a request. -/
def State.letLine (s : State) (port : Nat) (line : Option Nat) : State :=
  s.modHub fun h => { h with admits := put [] h.admits port (s.admitted port ++ [(h.cycle, line)]) }

def State.letIn (s : State) (port : Nat) : State := s.letLine port none

/-- The line is that of a request which an engine has made there in these cycles. -/
def State.lineIn (s : State) (port line : Nat) : Bool := (s.admitted port).any fun t => t.2 = some line

/-! ### What a launch may reach (20 R477-R480) -/

/-- The quad may reach a memory-side port (20 R477, R479). Control quads are never filtered. -/
def State.portAllowed (s : State) (quad pa : Nat) : Bool :=
  isControl quad || (get 0 s.hub.xconn (portOf quad)).getLsbD (memPort pa)

/-- The cached translation of an address (20 R487). -/
def State.cached (s : State) (quad xctx va : Nat) (write : Bool) : Option Tlb :=
  (s.quad quad).tlb.find? fun t =>
    t.xctx = xctx && t.va ≤ va && va < t.va + t.size && (t.write || !write)

/-- The partition and connection check of an access (08 R246): only tasks of a launch are filtered. A global access
that misses in the cache is checked for the page its tables give it at issue, before the ownership check of that page (20
R479, log 47). -/
def State.partFault (s : State) (w : Who) (a : Word) (k : Acc) : Bool :=
  match w.lid.bind s.launch with
  | none => false
  | some l =>
    match decodeAddr a with
    | .win core r _ =>
      if r ≤ 3 then !s.coreInPart l.part core else !s.quadInPart l.part (quadOf core)
    | .sync d _ => !s.dieInPart l.part d
    | .global va =>
      let q := quadOf (coreOf w.th)
      match s.cached q w.xctx va k.writes with
      | some t => !s.portAllowed q (t.pa + (va - t.va))
      | none => match s.pageOf w.xctx va k.writes with
        | .page v _ pa _ => !s.portAllowed q (pa + (va - v))
        | _ => false
    | _ => false

/-- The region registers of a level-1 thread allow an access of `n` bytes (21 R507). `bit` is 0 read,
1 write, 2 execute. -/
def Ctx.regionAllows (c : Ctx) (a : Word) (n bit : Nat) : Bool :=
  (List.range 4).any fun k =>
    let b := get 0 c.rgnb k
    let l := get 0 c.rgnl k
    b.getLsbD bit && b.toNat / 4096 * 4096 ≤ a.toNat &&
      a.toNat + n ≤ l.toNat / 4096 * 4096 + 4096

/-- A plug-in's access that no region allows. -/
def State.plugFault (s : State) (w : Who) (a : Word) (n : Nat) (k : Acc) : Bool :=
  let c := s.ctx w.th
  w.level = 1 && !(match k with
    | .load => c.regionAllows a n 0
    | .store => c.regionAllows a n 1
    | _ => c.regionAllows a n 0 && c.regionAllows a n 1)

/-! ### Range locks (08 R274-R276) -/

/-- The address that locks compare: the core field of a quad region is ignored (08 R243). -/
def lockAddr (a : Word) : Nat :=
  match decodeAddr a with
  | .win core r off => if 4 ≤ r then (windowAddr (core / 4 * 4) r off).toNat else a.toNat
  | _ => a.toNat

/-- An access of `n` bytes conflicts with a locked range of the quad's table (08 R275-R276). -/
def State.lockHit (s : State) (quad xctx : Nat) (a : Word) (n : Nat) (writes : Bool) : Bool :=
  let x := lockAddr a
  (s.quad quad).locks.any fun l =>
    (writes || l.dst) && x ≤ l.hi && l.lo < x + n && (l.xctx = none || l.xctx = some xctx)

/-! ### The checks made at issue, in the order of 08 R246 -/

/-- The first failing check of an access of `n` bytes that must be a multiple of `align` and lie where
`ok` allows: cause and `ctl.tval`. -/
def State.accessFaultAt (s : State) (w : Who) (a : Word) (n align : Nat) (k : Acc) (ok : Addr → Bool) :
    Option (Nat × Word) :=
  if !ok (decodeAddr a) || s.regionFault w a n k then some (cACCESS, a)
  else if a.toNat % align ≠ 0 then some (cMISALIGN, a)
  else if s.partFault w a k || s.plugFault w a n k then some (cACCESS, a)
  else if s.lockHit (quadOf (coreOf w.th)) w.xctx a n k.writes then some (cRANGELOCK, a)
  else none

/-- The first failing check of an access: cause and `ctl.tval`. -/
def State.accessFault (s : State) (w : Who) (a : Word) (n : Nat) (k : Acc) : Option (Nat × Word) :=
  s.accessFaultAt w a n n k fun _ => true

/-- Where presence forms, gathers, atomics and sync operations may go. -/
def inScratch : Addr → Bool
  | .win _ r _ => r = 0
  | _ => false
def inScratchOrGlobal : Addr → Bool
  | .win _ r _ => r = 0
  | .global _ => true
  | _ => false
def inAtomicSpace : Addr → Bool
  | .win _ r _ => r = 0
  | .global _ => true
  | .sync _ _ => true
  | _ => false
def inSync : Addr → Bool
  | .sync _ _ => true
  | _ => false

/-! ### Homes and classes -/

/-- The access is local: region 0 of the issuing core (08 R247). -/
def isLocal (th : Nat) (a : Word) : Bool :=
  match decodeAddr a with
  | .win core r _ => core = coreOf th && r = 0
  | _ => false

/-- The store counter of a destination (08 R252). -/
def classOf (th : Nat) (a : Word) : Nat :=
  match decodeAddr a with
  | .win core _ _ =>
    if quadOf core = quadOf (coreOf th) then 0
    else if dieOf (quadOf core) = dieOfTh th then 1 else 2
  | .sync d _ => if d = dieOfTh th then 1 else 2
  | .hub _ => 2
  | .global _ => 3
  | .bad => 2

/-- The end of the ordered route that performs an access; a global one by its physical address
(08 R250-R251, 20 R475). -/
def homeOf (a : Word) (pa : Option Nat) : Nat :=
  match decodeAddr a with
  | .win core r _ =>
    if r ≤ 3 then core else if r = 6 then endFret (quadOf core) else endMatrix (quadOf core)
  | .sync d _ => endSync d
  | .hub _ => endHub
  | .global _ => endPort (memPort (pa.getD 0))
  | .bad => endHub

/-- The place of a byte of region 0, 4, 5, of sync space, or of a translated global address. -/
def State.placeOf (s : State) (a : Word) (pa : Option Nat) : Option Place :=
  match decodeAddr a with
  | .win core r off =>
    if r = 0 then some (.scratch core off)
    else if r = 4 then some (.acc (quadOf core) off)
    else if r = 5 then some (.plane (quadOf core) off)
    else none
  | .sync d off =>
    if off < 0x800000 then some (.sync d off)
    else some (.tier ((get 0 s.hub.syncOvf d).toNat / 65536 % 2 ^ 25 * 65536 + (off - 0x800000)))
  | .global _ => pa.map .tier
  | _ => none

/-! ### The translation caches and the walker (20 R487) -/

/-- A translation enters a cache of 256 entries, the oldest leaving (20 R487). -/
def fillTlb (t : Tlb) (l : List Tlb) : List Tlb := ((l.filter (· ≠ t)) ++ [t]).drop ((l.filter (· ≠ t)).length + 1 - 256)

/-- A translation enters a quad's cache. -/
def State.cacheFill (s : State) (quad : Nat) (t : Tlb) : State :=
  s.modQuad quad fun q => { q with tlb := fillTlb t q.tlb }

/-- The physical address of a global access that its quad's cache translates and whose granule passes
the ownership check (20 R487-R488). -/
def State.translated (s : State) (w : Who) (va : Nat) (write : Bool) : Option Nat :=
  match s.cached (quadOf (coreOf w.th)) w.xctx va write with
  | some t =>
    let pa := t.pa + (va - t.va)
    if s.owned pa (get {} s.hub.xctxs w.xctx).tenant w.level then some pa else none
  | none => none

/-- A translation that the walker of a die keeps for requesters which have no quad (log 102). -/
def State.dieCached (s : State) (die xctx va : Nat) (write : Bool) : Option Tlb :=
  (s.die die).tlb.find? fun t => t.xctx = xctx && t.va ≤ va && va < t.va + t.size && (t.write || !write)

/-- A page that a cache gives, with the ownership check of its granule. -/
def State.ofTlb (s : State) (t : Tlb) (level va : Nat) : Walked :=
  let pa := t.pa + (va - t.va)
  if s.owned pa (get {} s.hub.xctxs t.xctx).tenant level then .page t.va t.size t.pa t.write else .denied pa

/-- The page that a walk has given enters a cache. -/
def tlbOf (xctx : Nat) : Walked → Option Tlb
  | .page v size pa w => some { xctx := xctx, va := v, size := size, pa := pa, write := w }
  | _ => none

/-- A translation for a requester without a quad: the cache of the die's walker, or a walk that fills it. -/
def State.resolveDie (s : State) (die xctx level va : Nat) (write : Bool) : State × Walked :=
  match s.dieCached die xctx va write with
  | some t => (s, s.ofTlb t level va)
  | none =>
    let r := s.walk xctx level va write
    ((tlbOf xctx r).elim s fun t => s.modDie die fun d => { d with tlb := fillTlb t d.tlb }, r)

/-- An address within global space. -/
def globalVa (a : Word) : Nat := a.toNat % 2 ^ 52

/-- An operation that writes its word, for translation (20 R485). -/
def opWrites : ReqOp → Bool
  | .load _ => false
  | .ldfe => false
  | .ldpw => false
  | .swait _ => false
  | _ => true

/-- A queue, and the translation context that its configuration names (19 R448). -/
def qXctx (x : Word) : Nat := x.toNat / 2 ^ 34 % 65536
def State.queueOf (s : State) (q : Nat) : Queue := get {} s.hub.queues q

/-- The translation context of a function: a virtual function's comes from its queue 16v; a physical function (1,024 and
1,025) acts for tenant 0 in context 0 (19 R446, 22 R533). -/
def State.fnXctx (s : State) (fn : Nat) : Nat := if fn < 1024 then qXctx (s.queueOf (16 * fn)).cfg else 0

/-- The level of a function's own accesses: luthier's for a physical function. -/
def fnLevel (fn : Nat) : Nat := if fn < 1024 then 0 else 2

/-- What an item that waits for the walker translates: context, level, address, and whether it writes. -/
def State.itemTarget (s : State) : XItem → Option (Nat × Nat × Nat × Bool)
  | .access r => some (r.xctx, r.level, globalVa r.addr, opWrites r.op)
  | .insert _ _ lid level r _ => (s.launch lid).bind fun l =>
    if r.loc.toNat / 2 ^ 54 % 4 = 0 && (l.kinds.any fun k => k.1 = r.tag.toNat / 2 ^ 56 && k.2.page) then
      some (l.xctx, level, globalVa r.loc, false)
    else none
  | .engine c _ a write => some (c.xctx, c.level, globalVa a, write)
  | .fetch _ xctx line => some (xctx, if xctx = 0 then 2 else 0, line * 128 % 2 ^ 52, false)
  | .host fn a _ write _ => match decodeAddr (BitVec.ofNat 64 a) with
    | .global va => some (s.fnXctx fn, fnLevel fn, va, write)
    | _ => none
  | .own xctx va _ _ _ => some (xctx, 2, va % 2 ^ 52, true)
  | .ownRead xctx va _ => some (xctx, 2, va % 2 ^ 52, false)

/-- The quad that an item's access comes from; the host's and luthier's come from no quad. -/
def itemQuad : XItem → Option Nat
  | .access r => some (quadOf (coreOf r.th))
  | .insert _ th _ _ _ _ => some (quadOf (coreOf th))
  | .engine c _ _ _ => some (quadOf (coreOf c.th))
  | .fetch quad _ _ => some quad
  | .host .. | .own .. | .ownRead .. => none

/-- The sources of luthier's writes, and of a function's accesses, among the ordered sources. -/
def ownSource : Nat := 2 * 99999
def hostSource (fn : Nat) : Nat := 2 * (100000 + fn)

/-- The ordered source that an item belongs to: the accesses of a core, the records of one sender (08 R251,
02 R580), luthier's writes, the accesses of a function. -/
def itemSource : XItem → Option Nat
  | .access r => if r.adaptive then none else some (2 * coreOf r.th)
  | .insert src _ _ _ _ _ => some (2 * src + 1)
  | .host fn .. => some (hostSource fn)
  | .own .. => some ownSource
  | _ => none

/-- What waits at a die for a page, oldest first: of one ordered source, what is parked comes before what waits for a walk. -/
def Die.pending (d : Die) : List XItem := d.parked.map (·.item) ++ d.walks

/-- An item of an ordered source waits for its walk, or is parked on a page fault. -/
def State.sourceWaits (s : State) (die source : Nat) : Bool :=
  (s.die die).walks.any (fun x => itemSource x = some source) ||
    (s.die die).parked.any fun p => itemSource p.item = some source

end Sys2Proof.Machine
end

