-- ==== Sys2Proof/Machine/Bounds.lean ====
section
/-! DEFINITION. The bounds of the reserved class, and the OVERRUN events that count what exceeds them (17 R408-R410,
R416-R417, 22 R528). -/

namespace Sys2Proof.Machine

/-- The die of a physical address; the hub's pages are homed on die C0 (02 R38, 20 R484). -/
def dieOfPa (pa : Nat) : Nat := if 2 ^ 40 ≤ pa then 0 else pa / 2 ^ 37 % 4

/-- The mesh hops between two quads (17 R408). -/
def hopsBetween (p q : Nat) : Nat :=
  max (quadX p) (quadX q) - min (quadX p) (quadX q) + (max (quadY p) (quadY q) - min (quadY p) (quadY q))

/-- The launch is of the reserved class. -/
def State.reserved (s : State) (lid : Option Nat) : Bool := (lid.bind s.launch).any (·.rsv)

/-- A launch whose bounds hold: of the reserved class, in whole-quad mode, and nothing has happened to it that R416 rules out. Its
code is pinned from its installation on (17 R415-R416). -/
def State.bounded (s : State) (lid : Option Nat) : Bool :=
  (lid.bind s.launch).any fun l => l.rsv && !l.unbound && (s.halfOf l.part).isNone

/-- Something that R416 rules out happens to a launch: a page fault, an `xlinv` that reaches it, a spill, a home of it that serves
more than 8 source ports. From then on its bounds do not hold. -/
def State.loseBound (s : State) (lid : Option Nat) : State :=
  match lid with
  | some l => if s.reserved lid then s.modLaunch l fun x => { x with unbound := true } else s
  | none => s

/-- OVERRUN: an operation of a bounded launch, by its row of R417 from 0, has taken n cycles, more than its bound (22 R528). -/
def State.overrun (s : State) (lid : Option Nat) (th row n bound : Nat) : State :=
  if s.bounded lid && bound < n then
    s.post (dieOfTh th) 0x13 lid (coreOf th) (ctxOf th) (BitVec.ofNat 32 row) (sat32 n) (BitVec.ofNat 32 bound)
  else s

/-- The cycles from a slot of a context to its next own slot. -/
def State.slotGap (s : State) (th from_ : Nat) : Nat :=
  ((List.range 32).find? fun d =>
    (s.core (coreOf th)).slots.getD ((from_ + 1 + d) % 32) 0 = BitVec.ofNat 8 (64 + ctxOf th)).elim 32 (· + 1)

/-- The row of an access that its thread has sent to another home, or of a special function (kind 3), and its bound (17 R417). -/
def accessBound (th : Nat) (a : Ended) : Nat × Nat :=
  let q := quadOf (coreOf th)
  if a.kind = 3 then (1, 24)
  else match decodeAddr a.addr with
    | .win core r _ =>
      if quadOf core = q then (if core ≠ coreOf th && r < 4 then 3 else 4, 40)
      else if dieOf (quadOf core) = dieOf q then (5, 120 + 4 * hopsBetween q (quadOf core))
      else (6, 600 + 4 * hopsBetween q (quadOf core))
    | .sync d _ => if d = dieOf q then (5, 120) else (6, 600)
    | .global _ => (7, if 2 ^ 40 ≤ a.pa then 2400 else if dieOfPa a.pa = dieOf q then 900 else 1300)
    | _ => (6, 600)

/-- The bound of a load to the home of an address, which the answer of a presence form or `swait` has too (17 R417). -/
def State.loadBound (s : State) (th : Nat) (a : Word) : Nat :=
  if isLocal th a then 4 + s.slotGap th (s.core (coreOf th)).cycle
  else (accessBound th { start := 0, addr := a, pa := 0, kind := 0, lid := none }).2

/-- The latency of an access from a quad: within the quad, or to global space in a context (17 R408). -/
def State.latencyTo (s : State) (quad xctx : Nat) (a : Word) : Nat :=
  match decodeAddr a with
  | .global va => match s.pageOf xctx (va % 2 ^ 52) false with
    | .page v _ pa _ =>
      let x := pa + (va % 2 ^ 52 - v)
      if 2 ^ 40 ≤ x then 400 else if dieOfPa x = dieOf quad then 180 else 260
    | _ => 400
  | _ => 10

end Sys2Proof.Machine
end

