-- ==== Sys2Proof/Machine/Command.lean ====
section
/-! DEFINITION. Engine command words (10 R326-R338): headers, the acceptance checks, the ranges a command
locks, result queues, parked slots, and the push of a word through a command window. -/

namespace Sys2Proof

/-! ### Header fields (10 R328) -/

def hdr (c : Cmd) : Nat := (c.words.headD 0).toNat
def Cmd.op (c : Cmd) : Nat := hdr c / 2 ^ 58
def Cmd.len (c : Cmd) : Nat := hdr c / 2 ^ 54 % 16
def Cmd.trap (c : Cmd) : Bool := hdr c / 2 ^ 53 % 2 = 1
def Cmd.report (c : Cmd) : Bool := hdr c / 2 ^ 52 % 2 = 1
def Cmd.park (c : Cmd) : Bool := hdr c / 2 ^ 51 % 2 = 1
def Cmd.pslot (c : Cmd) : Nat := hdr c / 2 ^ 47 % 16
def Cmd.chain (c : Cmd) : Bool := hdr c / 2 ^ 46 % 2 = 1
def Cmd.nsel (c : Cmd) : Nat := hdr c / 2 ^ 42 % 16
def Cmd.nslot (c : Cmd) : Nat := hdr c / 2 ^ 38 % 16
def Cmd.spec (c : Cmd) : Nat := hdr c % 2 ^ 32
/-- Word `k` of the command, the header being word 0. -/
def Cmd.word (c : Cmd) (k : Nat) : Nat := (c.words.getD k 0).toNat
/-- Bits [hi:lo] of a number. -/
def bits (x hi lo : Nat) : Nat := x / 2 ^ lo % 2 ^ (hi + 1 - lo)
/-- Bits [hi:lo] as a signed field. -/
def sbits (x hi lo : Nat) : Int :=
  let n := hi + 1 - lo
  let v := bits x hi lo
  if 2 ^ (n - 1) ≤ v then (v : Int) - 2 ^ n else v

/-- A `cp.copy` that combines, and its key (10 R339, R351). -/
def Cmd.combines (c : Cmd) : Bool := c.op = 0x10 && bits c.spec 15 15 = 1
def Cmd.key (c : Cmd) : Nat := bits (c.word 3) 31 16

/-- All words but the destination address (10 R339). -/
def Cmd.combineWords (c : Cmd) : List Word := c.words.set 2 0

end Sys2Proof

namespace Sys2Proof.Machine

/-- Error codes (10 R336). -/
def eBAD_OPCODE : Nat := 0x01
def eBAD_LENGTH : Nat := 0x02
def eRESERVED : Nat := 0x03
def eFORMAT : Nat := 0x04
def eMISMATCH : Nat := 0x05
def eACCESS : Nat := 0x06
def ePAGE : Nat := 0x07
def eMISALIGN : Nat := 0x08
def eSCALE : Nat := 0x09
def eCONFIG : Nat := 0x0A
def eSLOT_BUSY : Nat := 0x0B
def eCANCELLED : Nat := 0x0C
def eMACHINE : Nat := 0x0D
def eDEST_FAULT : Nat := 0x0E
def eSHAPE : Nat := 0x0F
def ePORT : Nat := 0x10
def eCOLL : Nat := 0x11
def eCOMBINE : Nat := 0x12

/-- Opcodes of an engine by its selector (10 R329, 11 R388). -/
def unitHasOp (unit op : Nat) : Bool :=
  if unit ≤ 1 then 1 ≤ op && op ≤ 6
  else if unit = 2 then 0x10 ≤ op && op ≤ 0x16
  else if unit = 3 then op = 0x30 || op = 0x31
  else 0x20 ≤ op && op ≤ 0x22

/-- The length of a command, where its specific field fixes one (10 R342-R360, 11 R388). -/
def cmdLen (c : Cmd) : Option Nat :=
  let sp := c.spec
  match c.op with
  | 0x01 => some 0
  | 0x02 => some 1
  | 0x03 => some 0
  | 0x04 => some 1
  | 0x05 => some 0
  | 0x06 =>
    let b := bits sp 27 27
    match bits sp 26 25 with
    | 0 => some (2 + b)
    | 1 => some (2 + b + 5)
    | 2 => some (2 + b + 2)
    | _ => none
  | 0x10 => some 3
  | 0x11 => if 3 ≤ c.len then some c.len else some 3
  | 0x12 => some 5
  | 0x13 => some 5
  | 0x14 => some 2
  | 0x15 => some 2
  | 0x16 => some 2
  | 0x20 => some 3
  | 0x21 => some 3
  | 0x22 => some 3
  | 0x30 => some 6
  | 0x31 => some 3
  | _ => none

/-- A zero or reserved field of the command is nonzero, or a field holds a value its entry rejects with
RESERVED_FIELD (10 R330). DESIGN CHOICE (log 137): the op 3 of a collective is rejected so; 10 R360 names no code for it. -/
def reservedField (c : Cmd) : Bool :=
  let sp := c.spec
  bits (hdr c) 37 32 ≠ 0 || (!c.park && c.pslot ≠ 0) || (!c.chain && (c.nsel ≠ 0 || c.nslot ≠ 0)) ||
  match c.op with
  | 0x01 => bits sp 31 12 ≠ 0
  | 0x02 => bits sp 31 14 ≠ 0
  | 0x03 => sp ≠ 0
  | 0x04 => bits sp 31 27 ≠ 0
  | 0x05 => bits sp 31 4 ≠ 0
  | 0x06 => bits sp 31 28 ≠ 0 || bits sp 24 23 = 3 || bits (c.word 2) 63 26 ≠ 0
  | 0x14 => bits sp 31 12 ≠ 0 || bits sp 5 0 ≠ 0
  | 0x15 => sp ≠ 0
  | 0x16 => sp ≠ 0 || bits (c.word 2) 63 23 ≠ 0
  | 0x20 | 0x21 | 0x22 => bits sp 31 12 ≠ 0 || bits sp 1 0 = 3 || bits (c.word 3) 63 48 ≠ 0
  | 0x30 =>
    let mask := bits sp 19 16
    bits sp 31 20 ≠ 0 || bits sp 5 0 ≠ 0 || 5 < bits sp 15 12 || bits (c.word 6) 63 40 ≠ 0 ||
      (bits sp 15 12 = 2 && mask % 4 ≠ 0 && mask / 4 ≠ 0)
  | 0x31 => bits sp 31 6 ≠ 0 || bits (c.word 3) 63 16 ≠ 0
  | _ =>
    let comb := bits sp 15 15 = 1
    bits sp 31 26 ≠ 0 || bits (c.word 3) 63 36 ≠ 0 ||
      ((c.op ≠ 0x10 || !comb) && (comb || bits (c.word 3) 35 16 ≠ 0)) ||
      ((c.op = 0x12 || c.op = 0x13) && bits (c.word 5) 63 16 ≠ 0)

/-- The descriptor of a launch by number. -/
def State.td (s : State) (lid : Option Nat) (k : Nat) : Option Tensor :=
  (lid.bind s.launch).bind fun l => (l.tds.getD k none)

/-- Element width in bits, and the stride of dimension `d` in bits (18 R428). -/
def Tensor.width (t : Tensor) : Nat := fmtWidth t.fmt
def Tensor.stride (t : Tensor) (d : Nat) : Nat := if d = 0 then t.width else 8 * t.strides.getD (d - 1) 0
def Tensor.extent (t : Tensor) (d : Nat) : Nat := t.ext.getD d 1
/-- The number of elements, and the bit offset of element `k` in row-major order (10 R352). -/
def Tensor.count (t : Tensor) : Nat := t.extent 0 * t.extent 1 * t.extent 2 * t.extent 3
def Tensor.bitOff (t : Tensor) (k : Nat) : Nat :=
  let a := t.extent 0
  let b := t.extent 1
  let c := t.extent 2
  k % a * t.stride 0 + k / a % b * t.stride 1 + k / (a * b) % c * t.stride 2 + k / (a * b * c) * t.stride 3
/-- Bytes from the lowest to the highest element. -/
def Tensor.span (t : Tensor) : Nat :=
  ((t.extent 0 - 1) * t.stride 0 + (t.extent 1 - 1) * t.stride 1 + (t.extent 2 - 1) * t.stride 2 +
    (t.extent 3 - 1) * t.stride 3 + t.width + 7) / 8

/-- Matrix formats (04 R117, 10 R342). -/
def matrixFormat (y : BitVec 6) : Bool :=
  b8Code y || y.toNat = 0x10 || y.toNat = 0x11 || y.toNat = 0 || y.toNat = 1 || y.toNat = 8 || y.toNat = 9

/-- A code that a command may not carry: reserved, an integer destination with `.ovf`, or a format that a collective
does not accept (04 R117, R133, 10 R360). DESIGN CHOICE (log 137): 10 R360 names no code for a defined format that is not one of
its five; FORMAT_RESERVED rejects it here. -/
def formatReserved (s : State) (c : Cmd) : Bool :=
  let sp := c.spec
  let f := fun hi lo => BitVec.ofNat 6 (bits sp hi lo)
  match c.op with
  | 0x01 => !fmtCode (f 5 0) || !fmtCode (f 11 6)
  | 0x06 =>
    let o := f 19 14
    !fmtCode o || o.toNat = 4 || o.toNat = 12 || (bits sp 22 22 = 1 && intCode o)
  | 0x10 | 0x11 | 0x12 | 0x13 =>
    bits sp 14 14 = 1 && (match s.td c.lid (bits sp 11 6) with | some t => intCode t.fmt | none => false)
  | 0x20 | 0x21 | 0x22 => !(f 7 2 = 0x10 || f 7 2 = 0x11 || f 7 2 = 0x12 || f 7 2 = 0x0B || f 7 2 = 0x03)
  | _ => false

/-- A float or binary8 code. -/
def isFloatCode (y : BitVec 6) : Bool := float0Lane y || b8Code y

/-- The number of columns an engine owns, and the first (10 R341). -/
def State.mxCols (s : State) (lid : Option Nat) : Nat × Nat :=
  match (lid.bind s.launch).bind fun l => s.halfOf l.part with
  | some h => (32 * h, 32)
  | none => (0, 64)

/-- A descriptor that is missing, or a geometry that the command forbids (10 R330). DESIGN CHOICE: SHAPE rejects the element count
0 of a collective (log 137), and a length of 0 or above 16,384 of `cp.send` (log 138); 10 R360 and R358 name no code for them. -/
def shapeError (s : State) (c : Cmd) : Bool :=
  let sp := c.spec
  let td := fun hi lo => s.td c.lid (bits sp hi lo)
  match c.op with
  | 0x02 => match td 5 0 with
    | none => true
    | some t => (s.mxCols c.lid).2 < t.extent 0 || 64 < t.extent 1
  | 0x04 => match td 18 13 with
    | none => true
    | some t =>
      let n := bits sp 8 0 + 1
      t.extent 0 ≠ 64 || t.extent 1 < n || 4 < bits sp 10 9 + (n + 63) / 64
  | 0x06 =>
    let m := bits sp 7 2 + 1
    let stride := bits (c.word 2) 15 0
    let row := (s.mxCols c.lid).2 * fmtWidth (BitVec.ofNat 6 (bits sp 19 14)) / 8
    64 < bits sp 13 8 + m || stride % 16 ≠ 0 || stride < row
  | 0x10 | 0x11 => match td 5 0, td 11 6 with
    | some a, some b =>
      (List.range 4).any (fun d => a.extent d ≠ b.extent d) ||
        (c.op = 0x10 && bits sp 15 15 = 1 &&
          (bits (c.word 3) 35 32 = 0 || 13 < bits (c.word 3) 35 32))
    | _, _ => true
  | 0x12 | 0x13 => match td 5 0, td 11 6 with
    | some a, some b => a.width = 4 || b.width = 4
    | _, _ => true
  | 0x14 => (td 11 6).isNone
  | 0x15 => bits (c.word 2) 63 32 = 0
  | 0x16 => bits (c.word 2) 14 0 = 0 || 16384 < bits (c.word 2) 14 0
  | 0x20 | 0x21 | 0x22 =>
    let g := (c.lid.bind s.launch).elim [] fun l => l.groups.getD (bits sp 11 8) []
    g.length ≤ bits (c.word 3) 47 32 || bits (c.word 3) 31 0 = 0
  | 0x30 => (td 11 6).isNone
  | 0x31 => (td 5 0).isNone
  | _ => false

/-- The selector names an engine that the launch holds (10 R324, R330). -/
def State.selectorHeld (s : State) (lid : Option Nat) (sel : Nat) : Bool :=
  match (lid.bind s.launch).bind fun l => s.halfOf l.part with
  | some h => sel = h || (2 ≤ sel && sel ≤ 4)
  | none => sel = 0 || (2 ≤ sel && sel ≤ 4)

/-- The check that rejects a command at acceptance, 0 for none, in the order of 10 R330. -/
def State.cmdError (s : State) (c : Cmd) : Nat :=
  if !unitHasOp c.unit c.op then eBAD_OPCODE
  else match cmdLen c with
    | none => eRESERVED
    | some n =>
      if c.len ≠ n then eBAD_LENGTH
      else if reservedField c then eRESERVED
      else if formatReserved s c then eFORMAT
      else if shapeError s c then eSHAPE
      else if c.chain && !s.selectorHeld c.lid c.nsel then eRESERVED
      else 0

/-! ### Range locks of a command (10 R332) -/

/-- A range of `n` bytes from an address, as a lock of a command. -/
def mkLock (c : Cmd) (a n : Nat) (dst : Bool) : Lock :=
  let w : Word := BitVec.ofNat 64 a
  { th := c.th, seq := c.seq, lo := lockAddr w, hi := lockAddr w + (n - 1), dst := dst
    xctx := match decodeAddr w with | .global _ => some c.xctx | _ => none }

/-- The bytes from the first to the last element of the first plane of a tensor. -/
def Tensor.planeSpan (t : Tensor) : Nat := ((t.extent 0 - 1) * t.stride 0 + (t.extent 1 - 1) * t.stride 1 + t.width + 7) / 8

/-- The element size in bytes of a collective format. -/
def collSize (c : Cmd) : Nat := fmtWidth (BitVec.ofNat 6 (bits c.spec 7 2)) / 8

/-- The tiles that a kernel reads, of those present in slot order: K0 none, K1 and K5 the first (11 R379, R388). -/
def usedTiles {α : Type} (kernel : Nat) (l : List α) : List α :=
  if kernel = 0 then [] else if kernel = 1 || kernel = 5 then l.take 1 else l

/-- The slots of the tiles that an `rc.kern` reads. -/
def kernSlots (c : Cmd) : List Nat :=
  usedTiles (bits c.spec 15 12) ((List.range 4).filter fun k => bits c.spec (16 + k) (16 + k) = 1)

/-- The source and destination ranges of a command (10 R332, 11 R388). -/
def State.cmdLocks (s : State) (c : Cmd) : List Lock :=
  let sp := c.spec
  let td := fun hi lo => s.td c.lid (bits sp hi lo)
  let span := fun (t : Option Tensor) => t.elim 1 Tensor.span
  let cols := s.mxCols c.lid
  let accAddr := fun (t i j : Nat) => (windowAddr (c.place * 4) 4 (0x4000 * t + 256 * i + 4 * j)).toNat
  match c.op with
  | 0x02 => [mkLock c (c.word 1) ((td 5 0).elim 1 Tensor.planeSpan) false]
  | 0x04 =>
    let t := td 18 13
    let n := bits sp 8 0 + 1
    let st := t.elim 0 fun t => t.stride 1 / 8
    let row := t.elim 8 fun t => t.width * 8
    let t0 := bits sp 10 9
    [mkLock c (c.word 1) ((n - 1) * st + row) false,
     mkLock c (accAddr t0 0 cols.1)
       (accAddr (t0 + (n - 1) / 64) ((n - 1) % 64) (cols.1 + cols.2 - 1) + 4 - accAddr t0 0 cols.1) true]
  | 0x06 =>
    let row0 := bits sp 13 8
    let m := bits sp 7 2 + 1
    let t := bits sp 1 0
    let w := fmtWidth (BitVec.ofNat 6 (bits sp 19 14))
    [mkLock c (accAddr t row0 cols.1) (256 * (m - 1) + 4 * cols.2) false] ++
      (if bits sp 27 27 = 1 then [mkLock c (c.word 3 + 4 * cols.1) (4 * cols.2) false] else []) ++
      [mkLock c (c.word 1) ((m - 1) * bits (c.word 2) 15 0 + cols.2 * w / 8) true]
  | 0x10 => [mkLock c (c.word 1) (span (td 5 0)) false, mkLock c (c.word 2) (span (td 11 6)) true]
  | 0x11 =>
    [mkLock c (c.word 1) (span (td 5 0)) false, mkLock c (c.word 2) (span (td 11 6)) true] ++
      (List.range (c.len - 3)).map fun k => mkLock c (c.word (4 + k)) (span (td 11 6)) true
  | 0x12 =>
    let n := bits (c.word 5) 15 0 + 1
    [mkLock c (c.word 4) (4 * n) false,
     mkLock c (c.word 2) (n * ((td 11 6).elim 8 Tensor.width) / 8) true]
  | 0x13 =>
    let n := bits (c.word 5) 15 0 + 1
    [mkLock c (c.word 1) (n * ((td 5 0).elim 8 Tensor.width) / 8) false, mkLock c (c.word 4) (4 * n) false]
  | 0x14 => [mkLock c (c.word 1) (span (td 11 6)) true]
  | 0x15 => [mkLock c (c.word 1) (bits (c.word 2) 63 32) false]
  | 0x16 => [mkLock c (c.word 1) (bits (c.word 2) 14 0) false]
  | 0x20 | 0x21 =>
    let n := bits (c.word 3) 31 0 * collSize c
    [mkLock c (c.word 1) n false, mkLock c (c.word 2) n true]
  | 0x22 =>
    let n := bits (c.word 3) 31 0 * collSize c
    let g := (c.lid.bind s.launch).elim [] fun l => l.groups.getD (bits sp 11 8) []
    [mkLock c (c.word 1) n false, mkLock c (c.word 2) (n * g.length) true]
  | 0x30 =>
    ((kernSlots c).map fun k => mkLock c (c.word (1 + k)) (span (td 11 6)) false) ++ [mkLock c (c.word 5) (span (td 11 6)) true]
  | 0x31 => [mkLock c (c.word 1) (span (td 5 0)) false, mkLock c (c.word 2) (span (td 5 0)) false]
  | _ => []

/-! ### Engines -/

/-- The engine at a selector and place: a quad's, or a die's collective engine (10 R324). -/
def State.engine (s : State) (unit place : Nat) : Engine :=
  if unit = 4 then (s.die place).coll else get {} (s.quad place).eng unit

def State.modEngine (s : State) (unit place : Nat) (f : Engine → Engine) : State :=
  if unit = 4 then s.modDie place fun d => { d with coll := f d.coll }
  else s.modQuad place fun q => { q with eng := put {} q.eng unit (f (get {} q.eng unit)) }

/-- The place of the engine a thread's window names (10 R324). -/
def placeOfUnit (th unit : Nat) : Nat := if unit = 4 then dieOfTh th else quadOf (coreOf th)

/-- Words that a thread has in its command queue at an engine: accepted commands not yet taken, and the
words of the command being pushed (10 R326). -/
def State.queuedWords (s : State) (th unit : Nat) : Nat :=
  ((get [] (s.engine unit (placeOfUnit th unit)).queues th).map fun c => c.words.length).foldl (· + ·) 0 +
    (get [] (s.ctx th).partialCmd unit).length

/-- The result queue of a thread at an engine (10 R335). -/
def Ctx.results (c : Ctx) (unit : Nat) : ResQueue := get {} c.resq unit

/-- The command that a thread's next word completes, if it does. -/
def State.completes (s : State) (th unit : Nat) (w : Word) : Option Cmd :=
  let c := s.ctx th
  let ws := get [] c.partialCmd unit ++ [w]
  let cmd : Cmd := { unit := unit, place := placeOfUnit th unit, th := th, lid := c.lid, level := c.level
                     xctx := s.xctxOf th, words := ws, seq := c.nextSeq }
  if ws.length = cmd.len + 1 then some cmd else none

/-- The open key of a command at its quad's combining node; a key that has been issued expects 0. DEDUCED (log 127): launches
that share a quad have keys of their own, since each is checked against its own partition (10 R324). -/
def State.openKey (s : State) (c : Cmd) : Option CombKey :=
  (s.quad c.place).comb.find? fun k => k.key = c.key && k.expected ≠ 0 && k.reqs.all fun r => r.lid = c.lid

/-- Two states of one open key of the combining node. -/
def CombKey.same (a b : CombKey) : Bool := a.key = b.key && (a.reqs.map (·.lid)).head? = (b.reqs.map (·.lid)).head?

/-- The push of a word must wait (10 R101, R326, R335, R339, 08 R273-R274). -/
def State.pushWaits (s : State) (th unit : Nat) (w : Word) : Bool :=
  16 ≤ s.queuedWords th unit ||
  match s.completes th unit w with
  | none => false
  | some c =>
    let r := (s.ctx th).results unit
    s.buffered th || 8 ≤ r.entries.length + r.reserved ||
      (s.cmdError c = 0 &&
        (64 < (s.quad (quadOf (coreOf th))).locks.length + (s.cmdLocks c).length ||
          (c.combines && (s.openKey c).isNone && 8 ≤ ((s.quad c.place).comb.filter fun k => k.expected ≠ 0).length)))

/-! ### The times of commands (17 R410, R417) -/

/-- The time of a command, where the spec gives one: `mx.ldst`, `mx.stream`, `mx.drain`, and a copy, fill or CRC within the quad. -/
def State.cmdTime (s : State) (c : Cmd) : Option Nat :=
  let sp := c.spec
  let m := get {} (s.quad c.place).mx c.unit
  let wide := max (m.afmt.elim 0 fmtWidth) (m.sfmt.elim 0 fmtWidth)
  let near := fun k : Nat => match decodeAddr (BitVec.ofNat 64 (c.word k)) with
    | .win core _ _ => quadOf core = c.place
    | _ => false
  let moved := fun t : Option Tensor => t.elim 0 fun t => (t.count * t.width + 511) / 512
  let late := s.latencyTo c.place c.xctx (BitVec.ofNat 64 (c.word 1))
  match c.op with
  | 0x02 => (s.td c.lid (bits sp 5 0)).map fun t => t.extent 1 * t.width / 16 + late
  | 0x04 => some (((bits sp 8 0 + 1) * wide + 7) / 8 + 40)
  | 0x06 => some (2 * (bits sp 7 2 + 1) + late)
  | 0x10 => if near 1 && near 2 then some (max (moved (s.td c.lid (bits sp 5 0))) (moved (s.td c.lid (bits sp 11 6)))) else none
  | 0x14 => if near 1 then some (moved (s.td c.lid (bits sp 11 6))) else none
  | 0x15 => if near 1 then some ((bits (c.word 2) 63 32 + 63) / 64) else none
  | _ => none

/-- The time of one command of a queue is added to a limit, once for each queue. -/
def addQueue (l : Option Nat × List Nat) (th : Nat) (t : Option Nat) : Option Nat × List Nat :=
  if l.2.contains th then l else (l.1.bind fun a => t.map (a + ·), l.2 ++ [th])

/-- The clock of a command that waits at an engine: 64 cycles, and the time of one command from each other queue. -/
def State.waitClock (s : State) (c : Cmd) : CmdClock :=
  let e := s.engine c.unit c.place
  let others := (e.running.map (·.cmd) ++ e.loose ++ e.queues.filterMap fun p => p.2.head?).filter fun d => d.th ≠ c.th
  let l := others.foldl (fun l d => addQueue l d.th (s.cmdTime d)) (some 64, [])
  { lid := c.lid, th := c.th, seq := c.seq, since := s.hub.cycle, limit := l.1, seen := l.2 }

/-- A command of a reserved launch begins to wait for its start. -/
def State.clockWait (s : State) (c : Cmd) : State :=
  if s.reserved c.lid then s.modEngine c.unit c.place fun e => { e with clocks := e.clocks ++ [s.waitClock c] } else s

/-- What a clock has measured is held to its limit. -/
def State.clockEnds (s : State) (x : CmdClock) (row : Nat) : State :=
  x.limit.elim s fun n => s.overrun x.lid x.th row (s.hub.cycle - x.since) n

/-- A command starts: its wait is over, its run has twice its time and that of its status entry (log 111); those that wait in other
queues may wait for it. -/
def State.clockStart (s : State) (c : Cmd) : State :=
  let e := s.engine c.unit c.place
  if e.clocks.isEmpty && !s.reserved c.lid then s
  else
    let mine := fun x : CmdClock => x.th = c.th && x.seq = c.seq
    let run : CmdClock := { lid := c.lid, th := c.th, seq := c.seq, since := s.hub.cycle
                            limit := (s.cmdTime c).map fun t => 2 * (t + 8), runs := true }
    ((e.clocks.filter mine).foldl (fun s x => s.clockEnds x 9) s).modEngine c.unit c.place fun e => { e with
      clocks := ((e.clocks.filter fun x => !mine x).map fun x =>
        if x.runs || x.th = c.th then x
        else
          let l := addQueue (x.limit, x.seen) c.th (s.cmdTime c)
          { x with limit := l.1, seen := l.2 }) ++ if s.reserved c.lid then [run] else [] }

/-- A command has ended: its run is over, and the wait of the next one of its queue begins now (log 111). -/
def State.clockDone (s : State) (c : Cmd) (ok : Bool) : State :=
  let e := s.engine c.unit c.place
  if e.clocks.isEmpty then s
  else
    let mine := fun x : CmdClock => x.th = c.th && x.seq = c.seq
    ((e.clocks.filter fun x => mine x && x.runs && ok).foldl (fun s x => s.clockEnds x 10) s).modEngine c.unit c.place fun e => { e with
      clocks := (e.clocks.filter fun x => !mine x).map fun x =>
        if x.th = c.th && !x.runs then
          let y := s.waitClock c
          { x with since := y.since, limit := y.limit, seen := y.seen }
        else x }

/-- The status word of an outcome (10 R334). An outcome of 4 stands for a rejection, which reads 2. -/
def statusWord (c : Cmd) (r : CmdResult) : Word :=
  BitVec.ofNat 64 (c.op * 2 ^ 58 + (if r.outcome = 4 then 2 else r.outcome) * 2 ^ 56 + r.error % 256 * 2 ^ 48 +
    c.unit % 16 * 2 ^ 44 + (if c.park then c.pslot else 0) * 2 ^ 40 + r.detail % 2 ^ 32)

/-- A command's end is reported by a COMMAND_COMPLETION. -/
def State.complete (s : State) (c : Cmd) (r : CmdResult) : State :=
  s.send none (.commandCompletion c r)

/-- The key of a launch's parked slot, and the launch's part of a table of slots (10 R338). -/
def slotKey (lid : Option Nat) (k : Nat) : Nat := lid.elim 0 (· + 1) * 16 + k
def slotsOf (lid : Nat) (m : FMap (Option Parked)) : FMap (Option Parked) := m.filter fun p => p.1 / 16 = lid + 1

/-- A parked slot of a launch at an engine. -/
def Engine.slot (e : Engine) (lid : Option Nat) (k : Nat) : Option Parked := get none e.slots (slotKey lid k)
def Engine.setSlot (e : Engine) (lid : Option Nat) (k : Nat) (p : Option Parked) : Engine :=
  { e with slots := put none e.slots (slotKey lid k) p }

/-- The locks of a command are released: its last read and write have been performed (08 R274). -/
def State.unlockCmd (s : State) (th seq : Nat) : State :=
  s.modQuad (quadOf (coreOf th)) fun q => { q with locks := q.locks.filter fun l => !(l.th = th && l.seq = seq) }

/-- The combining node issues one `cp.mcast` for the requests that a key has (10 R339). The multicast carries its requests'
destinations in arrival order; each request completes with its outcome. DESIGN CHOICE (log 119): its conditions count at the
core of the first request, for every destination (the spec names none for it). -/
def State.issueCombined (s : State) (quad : Nat) (k : CombKey) : State :=
  match k.reqs with
  | [] => s
  | c :: _ =>
    let rest := k.reqs.drop 1
    let h : Nat := 0x11 * 2 ^ 58 + (3 + rest.length) * 2 ^ 54 + (if c.park then 2 ^ 51 else 0) + bits c.spec 25 16 * 65536 + bits c.spec 14 0
    let ws := [BitVec.ofNat 64 h, c.words.getD 1 0, c.words.getD 2 0, BitVec.ofNat 64 (bits (c.word 3) 15 0)] ++
      rest.map fun r => r.words.getD 2 0
    let m : Cmd := { c with words := ws }
    (s.modQuad quad fun q => { q with comb := q.comb.map fun x => if x.same k && x.expected ≠ 0 then { k with expected := 0 } else x }).modEngine
      2 quad fun e => { e with loose := e.loose ++ [m] }

/-- The note of a successor stands just behind that of the command whose chain released it, and nowhere else (09 R298). -/
def noteAfter (pth pseq : Nat) (n : CmdNote) (l : List CmdNote) : List CmdNote :=
  let same := fun x : CmdNote => x.th = n.th && x.seq = n.seq
  if l.any fun x => x.th = pth && x.seq = pseq then
    (l.filter fun x => !same x).flatMap fun x =>
      if x.th = pth && x.seq = pseq then [x, { n with own := l.any fun y => same y && y.own }] else [x]
  else l

/-- A successor is noted by every thread that notes its predecessor; it is a command of the thread's own task where it was
noted as one. -/
def State.noteSuccessor (s : State) (pth pseq : Nat) (c : Cmd) : State :=
  { s with ctxs := s.ctxs.map fun p =>
      (p.1, { p.2 with notes := noteAfter pth pseq { th := c.th, seq := c.seq, status := none, ok := false } p.2.notes }) }

/-- The open key of a request, changed. -/
def State.setKey (s : State) (quad : Nat) (k : CombKey) : State :=
  s.modQuad quad fun q => { q with comb := q.comb.map fun x => if x.same k && x.expected ≠ 0 then k else x }

/-- A request reaches its quad's combining node: it opens a key, joins an open one, or is rejected (10 R339). DESIGN CHOICE
(log 120): a parked request that a chain releases has no push to block, and opens a ninth key. -/
def State.combine (s : State) (c : Cmd) : State :=
  match s.openKey c with
  | none =>
    let k : CombKey := { key := c.key, expected := bits (c.word 3) 35 32, since := s.hub.cycle, reqs := [c] }
    let s1 := s.modQuad c.place fun q => { q with comb := q.comb ++ [k] }
    if k.expected = 1 then s1.issueCombined c.place k else s1
  | some k =>
    if (k.reqs.head?).any fun c0 => c0.combineWords = c.combineWords then
      let k := { k with reqs := k.reqs ++ [c] }
      if k.expected = k.reqs.length then (s.setKey c.place k).issueCombined c.place k else s.setKey c.place k
    else (s.unlockCmd c.th c.seq).complete c ⟨4, eCOMBINE, 0⟩

/-- A parked command leaves its slot to start: at the combining node, or as a queue of its own (10 R338-R339). -/
def State.release (s : State) (c : Cmd) : State :=
  if c.combines then s.combine c else s.modEngine c.unit c.place fun e => { e with loose := e.loose ++ [c] }

/-- COMMAND ACCEPTANCE (10 R330, R335, R338-R339): the command's number is taken, its result entry
reserved and its ranges locked; it is queued, parked, combined, started, cancelled or rejected. -/
def State.acceptCmd (s : State) (c : Cmd) : State :=
  let s := s.modCtx c.th fun x => { x with
    nextSeq := c.seq + 1
    partialCmd := put [] x.partialCmd c.unit []
    resq := put {} x.resq c.unit { x.results c.unit with reserved := (x.results c.unit).reserved + 1 }
    notes := x.notes ++ [{ th := c.th, seq := c.seq, status := none, ok := false }] }
  let err := s.cmdError c
  if err ≠ 0 then s.complete c ⟨4, err, 0⟩
  else
    let locked := s.modQuad (quadOf (coreOf c.th)) fun q => { q with locks := q.locks ++ s.cmdLocks c }
    let e := s.engine c.unit c.place
    if c.park then
      let set := fun p => locked.modEngine c.unit c.place fun e => e.setSlot c.lid c.pslot p
      match e.slot c.lid c.pslot with
      | none => set (some (.parked c))
      | some (.parked _) => s.complete c ⟨4, eSLOT_BUSY, 0⟩
      | some (.released th seq) => ((set none).noteSuccessor th seq c).release c
      | some .cancelled => (set none).complete c ⟨3, eCANCELLED, 0⟩
    else if c.combines then locked.combine c
    else (locked.clockWait c).modEngine c.unit c.place fun e => { e with
      queues := put [] e.queues c.th (get [] e.queues c.th ++ [c]) }

/-- A word enters a command queue (10 R326, R330). -/
def State.pushWord (s : State) (th unit : Nat) (w : Word) : State :=
  let s := s.evc (coreOf th) 13
  match s.completes th unit w with
  | some c => s.acceptCmd c
  | none => s.modCtx th fun x => { x with
      partialCmd := put [] x.partialCmd unit (get [] x.partialCmd unit ++ [w]) }

end Sys2Proof.Machine
end

