-- ==== Sys2Proof/Machine/Operands.lean ====
section
/-! DEFINITION. Operands: the register and window fields of every instruction, what they read, and the
writes of destinations (03 R96-R104, 05 R152-R160). -/

namespace Sys2Proof.Machine

/-- A source field: register number, trap bit, `ctl.tstate.field` code (1 d, 2 a, 3 b, 4 base), vector or
scalar, and whether encodings 28 to 31 may name a window. -/
structure Src where
  reg : Nat
  trap : Bool := false
  field : Nat
  vec : Bool := false
  win : Bool := true
deriving DecidableEq, Repr

/-- A destination field. -/
structure Dst where
  reg : Nat
  vec : Bool := false
  win : Bool := true
deriving DecidableEq, Repr

/-- The instruction is a V-syllable. -/
def isVSyl : Instr → Bool
  | .vand .. | .vor .. | .vxor .. | .vandn .. | .vsel .. | .vmov .. | .vshuf .. | .vcrc .. | .vadd ..
  | .vsub .. | .vmul .. | .vmin .. | .vmax .. | .vfma .. | .vfms .. | .vabs .. | .vneg .. | .vclamp ..
  | .vceq .. | .vcne .. | .vclt .. | .vcle .. | .vdot2F16 .. | .vdot4S8 .. | .vredadd .. | .vredmin ..
  | .vredmax .. | .vsll .. | .vsrl .. | .vsra .. | .vscale .. | .vsplat .. | .vins .. | .vext ..
  | .vpack .. | .vunpack .. | .vcvt .. | .rcp .. | .rsqrt .. | .sqrt .. | .exp2 .. | .log2 .. | .tanh ..
  | .vnop => true
  | _ => false

/-- A fault in the bits of a V-syllable, for `ctl.tstate.vsyl`: the V-syllables, and the V half of the
scaled conversion (05 R169, R172). -/
def vsylOf : Instr → Bool
  | .vcvtScaled .. => true
  | i => isVSyl i

/-- The lowest level at which an instruction executes (05 R163). -/
def levelOf : Instr → Nat
  | .repart .. | .iflush | .xlinv .. | .ctxsv .. | .ctxld .. => 2
  | _ => 0

def srcA (a : BitVec 5) (t : BitVec 1) : Src := { reg := a.toNat, trap := t = 1, field := 2 }
def srcB (b : BitVec 5) (u : BitVec 1) : Src := { reg := b.toNat, trap := u = 1, field := 3 }
def srcBase (b : BitVec 5) (t : BitVec 1) : Src := { reg := b.toNat, trap := t = 1, field := 4 }
def srcD (d : BitVec 5) : Src := { reg := d.toNat, field := 1 }
def srcVA (a : BitVec 6) (t : BitVec 1) : Src := { reg := a.toNat, trap := t = 1, field := 2, vec := true }
def srcVB (b : BitVec 6) (u : BitVec 1) : Src := { reg := b.toNat, trap := u = 1, field := 3, vec := true }
def srcVD (n : Nat) : Src := { reg := n, field := 1, vec := true }
/-- The vector register of a 5-bit field and an extension bit (05 R160). -/
def vreg (v : BitVec 5) (x : BitVec 1) : Nat := x.toNat * 32 + v.toNat

/-- The source fields of an instruction. -/
def srcsOf : Instr → List Src
  | .add _ a t b u | .sub _ a t b u | .and _ a t b u | .or _ a t b u | .xor _ a t b u | .andn _ a t b u
  | .sll _ a t b u | .srl _ a t b u | .sra _ a t b u | .slt _ a t b u | .sltn _ a t b u
  | .min _ a t b u | .max _ a t b u | .minn _ a t b u | .maxn _ a t b u | .lea _ a t b u _
  | .mul _ a t b u | .mulh _ a t b u | .mulhn _ a t b u | .mulhsn _ a t b u | .div _ a t b u
  | .divn _ a t b u | .rem _ a t b u | .remn _ a t b u | .bext _ a t b u | .bexts _ a t b u
  | .beq a t b u _ | .bne a t b u _ | .blt a t b u _ | .bge a t b u _ | .bltn a t b u _ | .bgen a t b u _
  | .vlds _ a t b u _ _ _ _ | .qcfgw a t b u | .ttag _ a t b u | .tins a t b u | .tinsd a t b u
  | .amoAdd _ a t b u _ _ _ | .amoAnd _ a t b u _ _ _ | .amoOr _ a t b u _ _ _ | .amoXor _ a t b u _ _ _
  | .amoMin _ a t b u _ _ _ | .amoMax _ a t b u _ _ _ | .amoMinu _ a t b u _ _ _ | .amoMaxu _ a t b u _ _ _
  | .amoSwap _ a t b u _ _ _ | .amoFaddF32 _ a t b u _ _ | .amoInclt _ a t b u _ _ _
  | .joinInit a t b u | .joinArrive a t b u | .ssigSet a t b u | .ssigAdd a t b u
  | .swait _ a t b u _ | .xlinv a t b u | .ctxsv a t b u | .ctxld a t b u | .telEv a t b u =>
    [srcA a t, srcB b u]
  | .sel d a t b u | .bins d a t b u | .amoCas d a t b u _ _ _ => [srcD d, srcA a t, srcB b u]
  | .clz _ a t | .ctz _ a t | .popc _ a t | .jr a t | .callr _ a t | .lpset a t
  | .addi _ a t _ | .andi _ a t _ | .ori _ a t _ | .xori _ a t _ | .slti _ a t _ | .sltni _ a t _
  | .slli _ a t _ | .srli _ a t _ | .srai _ a t _ | .cadr _ a t _ _ _ _ | .ctlw a t _
  | .qbind a t _ | .qcfgr _ a t | .tfld _ a t _ | .covQ _ a t | .barrSyncCmb a t _ _ | .slotw a t
  | .sleep a t => [srcA a t]
  | .ldN8 _ b t _ _ _ | .ldN16 _ b t _ _ _ | .ldN32 _ b t _ _ _ | .ld64 _ b t _ _ _ | .ldS8 _ b t _ _ _
  | .ldS16 _ b t _ _ _ | .ldS32 _ b t _ _ _ | .ldAcq32 _ b t _ _ | .ldAcq64 _ b t _ _
  | .ldfe _ b t _ _ _ | .ldPw _ b t _ _ _ | .vld _ b t _ _ _ _ => [srcBase b t]
  | .st8 d b t _ _ _ | .st16 d b t _ _ _ | .st32 d b t _ _ _ | .st64 d b t _ _ _ | .stRel32 d b t _ _
  | .stRel64 d b t _ _ | .stef d b t _ _ _ => [srcD d, srcBase b t]
  | .vst v b t _ _ x _ => [srcVD (vreg v x), srcBase b t]
  | .vldx _ a t b u _ _ _ => [srcA a t, { reg := b.toNat, trap := u = 1, field := 3, vec := true }]
  | .vqpush v t x _ => [{ reg := vreg v x, trap := t = 1, field := 2, vec := true }]
  | .spawn b a t _ _ _ =>
    srcA a t :: (List.range 4).map fun k => { reg := b.toNat + k, field := 3 }
  | .ret => [{ reg := 15, field := 2 }]
  | .vand _ a t b u | .vor _ a t b u | .vxor _ a t b u | .vandn _ a t b u | .vshuf _ a t b u
  | .vadd _ a t b u _ | .vsub _ a t b u _ | .vmul _ a t b u _ | .vmin _ a t b u _ | .vmax _ a t b u _
  | .vceq _ a t b u _ | .vcne _ a t b u _ | .vclt _ a t b u _ | .vcle _ a t b u _ => [srcVA a t, srcVB b u]
  | .vsel d a t b u | .vfma d a t b u _ | .vfms d a t b u _ | .vclamp d a t b u _ | .vdot2F16 d a t b u _
  | .vdot4S8 d a t b u => [srcVD d.toNat, srcVA a t, srcVB b u]
  | .vmov _ a t | .vabs _ a t _ | .vneg _ a t _ | .vredadd _ a t _ | .vredmin _ a t _ | .vredmax _ a t _
  | .vsll _ a t _ _ | .vsrl _ a t _ _ | .vsra _ a t _ _ | .vscale _ a t _ _ | .vext _ a t _ _
  | .vunpack _ a t _ _ | .vcvt _ _ a t _ _ _ | .vcvtScaled _ _ _ a t _ _ _
  | .rcp _ a t _ | .rsqrt _ a t _ | .sqrt _ a t _ | .exp2 _ a t _ | .log2 _ a t _ | .tanh _ a t _ =>
    [srcVA a t]
  | .vcrc d a t | .vpack d a t _ => [srcVD d.toNat, srcVA a t]
  | .vsplat _ r t _ => [{ reg := r.toNat, trap := t = 1, field := 2, win := false }]
  | .vins d r t _ _ => [srcVD d.toNat, { reg := r.toNat, trap := t = 1, field := 2, win := false }]
  | _ => []

def dstS (d : BitVec 5) : Dst := { reg := d.toNat }
def dstV (d : BitVec 6) : Dst := { reg := d.toNat, vec := true }

/-- The destination fields of an instruction. -/
def dstsOf : Instr → List Dst
  | .add d .. | .sub d .. | .and d .. | .or d .. | .xor d .. | .andn d .. | .sll d .. | .srl d ..
  | .sra d .. | .slt d .. | .sltn d .. | .min d .. | .max d .. | .minn d .. | .maxn d .. | .lea d ..
  | .mul d .. | .mulh d .. | .mulhn d .. | .mulhsn d .. | .div d .. | .divn d .. | .rem d .. | .remn d ..
  | .clz d .. | .ctz d .. | .popc d .. | .sel d .. | .bext d .. | .bexts d .. | .bins d .. | .callr d ..
  | .lpidx d .. | .lpaddr d .. | .addi d .. | .andi d .. | .ori d .. | .xori d .. | .slti d ..
  | .sltni d .. | .slli d .. | .srli d .. | .srai d .. | .cadr d .. | .ctlr d .. | .ldN8 d .. | .ldN16 d ..
  | .ldN32 d .. | .ld64 d .. | .ldS8 d .. | .ldS16 d .. | .ldS32 d .. | .ldAcq32 d .. | .ldAcq64 d ..
  | .ldfe d .. | .ldPw d .. | .qstat d .. | .qpeek d .. | .qcfgr d .. | .ttag d .. | .tfld d ..
  | .tgen d | .covQ d .. | .covRd d .. | .poolCnt d | .amoAdd d .. | .amoAnd d .. | .amoOr d ..
  | .amoXor d .. | .amoMin d .. | .amoMax d .. | .amoMinu d .. | .amoMaxu d .. | .amoSwap d ..
  | .amoCas d .. | .amoFaddF32 d .. | .amoInclt d .. | .swait d .. | .lim d .. | .call d .. => [dstS d]
  | .vld v _ _ _ _ x _ => [{ reg := vreg v x, vec := true }]
  | .vlds v _ _ _ _ x _ _ _ => [{ reg := vreg v x, vec := true }]
  | .vldx v _ _ _ _ x _ _ => [{ reg := vreg v x, vec := true }]
  | .vqpop v x _ => [{ reg := vreg v x, vec := true }]
  | .vand d .. | .vor d .. | .vxor d .. | .vandn d .. | .vsel d .. | .vmov d .. | .vshuf d .. | .vcrc d ..
  | .vadd d .. | .vsub d .. | .vmul d .. | .vmin d .. | .vmax d .. | .vfma d .. | .vfms d .. | .vabs d ..
  | .vneg d .. | .vclamp d .. | .vceq d .. | .vcne d .. | .vclt d .. | .vcle d .. | .vdot2F16 d ..
  | .vdot4S8 d .. | .vredadd d .. | .vredmin d .. | .vredmax d .. | .vsll d .. | .vsrl d .. | .vsra d ..
  | .vscale d .. | .vsplat d .. | .vins d .. | .vpack d .. | .vunpack d .. | .rcp d .. | .rsqrt d ..
  | .sqrt d .. | .exp2 d .. | .log2 d .. | .tanh d .. => [dstV d]
  | .vcvt _ d .. => [dstV d]
  | .vcvtScaled _ _ d .. => [dstV d]
  | .vext d .. => [{ reg := d.toNat, win := false }]
  | _ => []

/-- A window that an instruction names by number, and whether it reads it, writes it or neither
(08 R283-R285). -/
def windowOpOf : Instr → Option (Nat × Option Bool)
  | .qpeek _ k => some (k.toNat, some false)
  | .vqpop _ _ k => some (k.toNat, some false)
  | .vqpush _ _ _ k => some (k.toNat, some true)
  | .qstat _ k => some (k.toNat, none)
  | .qbind _ _ k => some (k.toNat, none)
  | .qunbind k => some (k.toNat, none)
  | _ => none

/-! ### Windows (03 R100-R104, 08 R280-R284) -/

/-- The window that scalar encoding `r` names while it is bound. -/
def Ctx.window (c : Ctx) (k : Nat) : Option Window := get none c.win k
def Ctx.winOf (c : Ctx) (r : Nat) : Option Window := if 28 ≤ r then c.window (r - 28) else none

/-- Fields of an endpoint word (08 R282). -/
def Window.kind (w : Window) : Nat := w.word.toNat / 2 ^ 62
def Window.target (w : Window) : Nat := w.word.toNat / 2 ^ 23 % 8192
def Window.sel (w : Window) : Nat := w.word.toNat / 2 ^ 8 % 16
def Window.buf (w : Window) : Nat := w.word.toNat % 16
/-- Types 0 and 3 are read, types 1 and 2 written. -/
def Window.reads (w : Window) : Bool := w.kind = 0 || w.kind = 3

/-- The entries that a window of a thread can read (08 R284). -/
def State.winEntries (s : State) (th : Nat) (w : Window) : List VWord :=
  if w.kind = 0 then (get {} (s.core (coreOf th)).chans w.buf).entries
  else if w.kind = 3 then ((s.ctx th).results w.sel).entries.map (·.setWidth 128)
  else []

/-- The count of `qstat`: entries ready to read, or credits to write (08 R284). -/
def State.winCount (s : State) (th : Nat) (w : Window) : Nat :=
  if w.reads then (s.winEntries th w).length
  else if w.kind = 1 then (if w.answered then w.credits else 0)
  else 16 - s.queuedWords th w.sel

/-- A push would wait: no credit, or a full command queue (03 R101, 10 R326). -/
def State.winFull (s : State) (th : Nat) (w : Window) (x : Word) : Bool :=
  if w.kind = 1 then !w.answered || w.credits = 0 else s.pushWaits th w.sel x

/-- One entry leaves a read window; a channel's pop returns its credit to the writer (03 R103). -/
def State.popWin (s : State) (th : Nat) (w : Window) : State :=
  if w.kind = 0 then
    let core := coreOf th
    let ch := get {} (s.core core).chans w.buf
    let writer := ch.conf.toNat / 2 ^ 23 % 8192 * 16 + ch.conf.toNat % 16
    (s.modCore core fun c => { c with chans := put {} c.chans w.buf { ch with entries := ch.entries.drop 1 } }).send
      (some (core, coreOf writer)) (.creditReturn writer core w.buf)
  else s.modCtx th fun c => { c with
    resq := put {} c.resq w.sel { c.results w.sel with entries := (c.results w.sel).entries.drop 1 } }

/-- One entry enters a written window: a channel entry travels to the reader's core and spends one credit,
and a word enters the command queue (03 R101, R103, 10 R326). The entries of one writer to one buffer keep their order, and are
ordered with no access to memory (08 R285, 24 R558). -/
def State.pushWin (s : State) (th k : Nat) (w : Window) (x : VWord) : State :=
  if w.kind = 1 then
    (s.modCtx th fun c => { c with win := put none c.win k (some { w with credits := w.credits - 1 }) }).send
      (some (coreOf th, endChan w.target w.buf)) (.channelEntry w.target w.buf x)
  else s.pushWord th w.sel (x.setWidth 64)

/-! ### Reading and writing registers (05 R174) -/

/-- The registers as they stand at issue of the bundle (05 R152). -/
def State.atIssue (s : State) : Ctx := s.latch.getD (s.ctx s.cur)

/-- A scalar register, `s0` reading zero (03 R96). -/
def Ctx.sreg (c : Ctx) (r : Nat) : Word := if r = 0 then 0 else get 0 c.s r
/-- A vector register. -/
def Ctx.vreg (c : Ctx) (r : Nat) : VWord := get 0 c.v r

/-- `S(i)` of an S-syllable: the head of a bound window, or the register. The pop comes at the end of the
bundle. -/
def State.S (s : State) (r : BitVec 5) : Word :=
  match (s.ctx s.cur).winOf r.toNat with
  | some w => ((s.winEntries s.cur w).headD 0).setWidth 64
  | none => s.atIssue.sreg r.toNat

/-- `S(i)` of a V-syllable, which names no window (05 R159). -/
def State.SV (s : State) (r : BitVec 5) : Word := s.atIssue.sreg r.toNat

/-- `V(i)`. -/
def State.V (s : State) (r : Nat) : VWord := s.atIssue.vreg r

/-- A register of a context is written and full. -/
def Ctx.setS (c : Ctx) (r : Nat) (x : Word) : Ctx :=
  if r = 0 then c else { c with s := put 0 c.s r x, sEmpty := c.sEmpty &&& ~~~(1#32 <<< r) }
def Ctx.setV (c : Ctx) (r : Nat) (x : VWord) : Ctx :=
  { c with v := put 0 c.v r x, vEmpty := c.vEmpty &&& ~~~(1#64 <<< r) }

/-- `SetS(i, x)` of an S-syllable: a push to a bound window, or the register; a write to `s0` is
discarded. -/
def State.setS (s : State) (r : BitVec 5) (x : Word) : State :=
  match (s.ctx s.cur).winOf r.toNat with
  | some w => s.pushWin s.cur (r.toNat - 28) w (x.setWidth 128)
  | none => s.modCtx s.cur fun c => c.setS r.toNat x

/-- `SetS` of `vext`, which names no window. -/
def State.setSV (s : State) (r : Nat) (x : Word) : State := s.modCtx s.cur fun c => c.setS r x

/-- `SetV(i, x)`. -/
def State.setV (s : State) (r : Nat) (x : VWord) : State := s.modCtx s.cur fun c => c.setV r x

/-- The destination of a long-latency result (03 R97): a write to `s0` is discarded. -/
def Dst.dest (d : Dst) : Dest := if d.vec then .v d.reg else if d.reg = 0 then .none else .s d.reg

/-- `MarkEmpty`: the presence bit of a destination is cleared at issue; a bound window has none. -/
def Ctx.markEmpty (c : Ctx) (d : Dest) : Ctx :=
  match d with
  | .none => c
  | .s r => if (c.winOf r).isSome then c else { c with sEmpty := c.sEmpty ||| (1#32 <<< r) }
  | .v r => { c with vEmpty := c.vEmpty ||| (1#64 <<< r) }

/-- A long-latency producer issues: its number, its destination, the results it waits for (03 R97). -/
def State.addProd (s : State) (d : Dest) (left : Nat) (acc : VWord) (acquire : Bool) : State :=
  s.modCtx s.cur fun c => { c.markEmpty d with
    prods := c.prods ++ [{ seq := c.nextSeq, dst := d, left := left, acc := acc, acquire := acquire }]
    nextSeq := c.nextSeq + 1 }

/-- The number that the issuing thread's next producer or posted operation takes. -/
def State.seqNow (s : State) : Nat := (s.ctx s.cur).nextSeq

/-- That number is taken. -/
def State.takeSeq (s : State) : State := s.modCtx s.cur fun c => { c with nextSeq := c.nextSeq + 1 }

/-- The address of the bundle being executed: the pc has moved on to the next one. -/
def State.PC (s : State) : Word := (s.ctx s.cur).pc - 8

/-- NPC ← t (06 R177). -/
def State.goto (s : State) (t : Word) : State := s.modCtx s.cur fun c => { c with pc := t }

end Sys2Proof.Machine
end

