-- ==== Sys2Proof/Machine/Records.lean ====
section
/-! DEFINITION. Tile records: tag and locator fields, the checks made where a record is made, its home,
and its journey there (02 R30-R38, R45, 09 R298-R300). -/

namespace Sys2Proof

/-- Fields of a tag (02 R30). Field 0 to 2 is key a to c. -/
def Rec.kind (r : Rec) : Nat := r.tag.toNat / 2 ^ 56
def Rec.gen (r : Rec) : Nat := r.tag.toNat / 2 ^ 48 % 256
def Rec.key (r : Rec) (f : Nat) : Nat := r.tag.toNat / 2 ^ (16 * (2 - f)) % 65536

/-- Fields of a locator (02 R31). -/
def Rec.scale (r : Rec) : Int := (r.loc.extractLsb' 56 8).toInt
def Rec.space (r : Rec) : Nat := r.loc.toNat / 2 ^ 54 % 4
def Rec.data (r : Rec) : Nat := r.loc.toNat % 2 ^ 54

/-- The full address of a global or window locator (02 R32). -/
def Rec.addr (r : Rec) : Word := BitVec.ofNat 64 (r.space * 2 ^ 62 + r.data)

/-- A locator of space 3, or an inline one with a nonzero bit of [53:48] (02 R33). -/
def Rec.badLoc (r : Rec) : Bool := r.space = 3 || (r.space = 2 && 2 ^ 48 ≤ r.data)

/-- A tag of four fields. -/
def mkTag (kind gen a b c : Nat) : Word :=
  BitVec.ofNat 64 (kind % 256 * 2 ^ 56 + gen % 256 * 2 ^ 48 + a % 65536 * 2 ^ 32 + b % 65536 * 2 ^ 16 + c % 65536)

end Sys2Proof

namespace Sys2Proof.Machine

/-- The entry of a launch's kind table (02 R35). -/
def Launch.kind (l : Launch) (k : Nat) : Option Kind := (l.kinds.find? fun p => p.1 = k).map Prod.snd

/-- The home of a by-keys kind as a logical quad (02 R37). Field 3 is none. -/
def Launch.keyHome (l : Launch) (k : Kind) (r : Rec) : Nat :=
  (r.key k.f1 >>> k.h1) % l.gx + l.gx * (if k.f2 = 3 then 0 else (r.key k.f2 >>> k.h2) % l.gy)

/-- The home quad of a global page of a by-page kind (02 R38). -/
def State.pageHome (s : State) (l : Launch) (va pa : Nat) : Nat :=
  let all := s.partQuads l.part
  let here := all.filter fun q => dieOf q = dieOfPa pa
  let k := va / 65536
  match here with
  | [] => all.getD (k % all.length) 0
  | q :: _ => here.getD (k % here.length) q

/-- The logical quad that a record homed by page on a quad belongs to (02 R583). -/
def State.pageLq (s : State) (lid quad : Nat) : Nat := (s.quadIdentity (some lid) quad none).toNat

/-- Where a record goes: a home quad and logical quad, or a page that must be translated first. -/
inductive HomeOf where
  | quad (q lq : Nat)
  | page (va : Nat)
  | bad
deriving DecidableEq, Repr

/-- The home of a record of a defined kind (02 R37-R38). -/
def State.homeOfRec (s : State) (lid : Nat) (l : Launch) (k : Kind) (r : Rec) : HomeOf :=
  if !k.page then .quad (s.quadOfLq l (l.keyHome k r)) (l.keyHome k r)
  else if r.space = 0 then .page (r.data % 2 ^ 52)
  else if r.space = 1 then
    match decodeAddr r.addr with
    | .win core _ _ =>
      if s.quadInPart l.part (quadOf core) then .quad (quadOf core) (s.pageLq lid (quadOf core)) else .bad
    | _ => .bad
  else .bad

/-- The fault of a record at the place that makes it, with its `ctl.tval` (09 R298, R300-R301); hole and notice
kinds are the device's (11 R369). -/
def State.recordFault (s : State) (lid : Option Nat) (r : Rec) : Option Word :=
  match lid with
  | none => some r.tag
  | some id => match s.launch id with
    | none => some r.tag
    | some l => match l.kind r.kind with
      | none => some r.tag
      | some k =>
        if k.cls ≠ 0 then some r.tag
        else if r.badLoc then some r.loc
        else if k.page && r.space = 2 then some r.loc
        else match s.homeOfRec id l k r with
          | .bad => some r.loc
          | .page _ => if r.data / 2 ^ 52 = 0 then none else some r.loc
          | .quad _ _ => none

/-- A record is sent to its home (02 R36, R580), counted as sent (02 R71). -/
def State.sendRecord (s : State) (src : Nat) (lid quad lq : Nat) (r : Rec) (marks : Option Marks) : State :=
  (s.modLaunch lid fun l => { l with sent := l.sent + 1 }).send (some (src, endFret quad))
    (.recordArrival { lid := lid, quad := quad, lq := lq, record := r, marks := marks })

/-- A checked record of a launch starts its journey from an end of the ordered route. One homed by a page that is not
translated yet waits for the walk of its die (09 R300), and a record whose source has another waiting there waits
behind it: the records of one source reach a home in the order it posts them (02 R580, 09 R299). -/
def State.insertRecord (s : State) (src die th : Nat) (w : Who) (lid : Nat) (r : Rec) (marks : Option Marks) :
    State :=
  let later := s.modDie die fun d => { d with walks := d.walks ++ [.insert src th lid w.level r marks] }
  match s.launch lid with
  | none => s
  | some l => match l.kind r.kind with
    | none => s
    | some k =>
      if s.sourceWaits die (2 * src + 1) then later
      else match s.homeOfRec lid l k r with
        | .quad q lq => s.sendRecord src lid q lq r marks
        | .page va => match s.translated w va false with
          | some pa => let q := s.pageHome l va pa; s.sendRecord src lid q (s.pageLq lid q) r marks
          | none => later
        | .bad => s

end Sys2Proof.Machine
end

