-- ==== Sys2Proof/Machine/Issue.lean ====
section
/-! DEFINITION. The issue of a bundle (03 R89-R90, R98-R104, R110-R112, 05 R152, R173): every check and
every wait that comes before its effects, in the order of 03 R112, and what a bundle that issues, blocks,
waits for an answer or traps does. -/

namespace Sys2Proof.Machine

/-- What becomes of a bundle at its slot: it issues; it forfeits the slot, with the event counter of
22 R532 that counts it; it starts a wait that it then blocks in; or it raises a trap. -/
inductive Verdict where
  | go
  | block (counter : Nat)
  | hold
  | trap (t : TrapInfo)
deriving DecidableEq, Repr

/-- The first verdict that is no `go`. -/
def Verdict.and (a : Verdict) (b : Verdict) : Verdict :=
  match a with
  | .go => b
  | v => v

def trapIf (o : Option TrapInfo) : Verdict := match o with
  | some t => .trap t
  | none => .go

def blockIf (b : Bool) (k : Nat) : Verdict := if b then .block k else .go

/-- Counters of 22 R532 for a forfeited slot. -/
def onRegister : Nat := 2
def onWindow : Nat := 3
def onWait : Nat := 4
def onBank : Nat := 5

/-! ### ILLEGAL (03 R102, R105-R106, R112, 05 R152, R172-R173) -/

/-- The windows that an instruction names while they are bound, with what it does: read, write, neither. -/
def windowUses (c : Ctx) (i : Instr) : List (Nat × Option Bool) :=
  ((srcsOf i).filter fun x => !x.vec && x.win && (c.winOf x.reg).isSome).map (fun x => (x.reg - 28, some false)) ++
  ((dstsOf i).filter fun x => !x.vec && x.win && (c.winOf x.reg).isSome).map (fun x => (x.reg - 28, some true)) ++
  (match windowOpOf i with
   | some (k, d) => if (c.window k).isSome then [(k, d)] else []
   | none => [])

/-- A window named in two fields, or used against its direction (03 R102). -/
def windowMisuse (c : Ctx) (i : Instr) : Bool :=
  let l := windowUses c i
  !decide ((l.map Prod.fst).Nodup) || l.any fun p =>
    match c.window p.1, p.2 with
    | some w, some true => w.reads
    | some w, some false => !w.reads
    | _, _ => false

/-- The source field is empty: an empty register, or a bound window with no entry (03 R98, R101). -/
def State.srcEmpty (s : State) (x : Src) : Bool :=
  let c := s.ctx s.cur
  if x.vec then c.vEmpty.getLsbD x.reg
  else match (if x.win then c.winOf x.reg else none) with
    | some w => (s.winEntries s.cur w).isEmpty
    | none => x.reg ≠ 0 && c.sEmpty.getLsbD x.reg

def ill (v : Nat) (i : Instr) : TrapInfo := { cause := cILLEGAL, tval := BitVec.ofNat 64 v, vsyl := vsylOf i }

/-- The reserved class refuses `slotw` below level 2 (06 R208). -/
def State.inReserved (s : State) (th : Nat) : Bool := match s.launchOf th with
  | some l => l.rsv
  | none => false

def State.inOrdered (s : State) (th : Nat) : Bool := match s.launchOf th with
  | some l => l.ordered
  | none => false

/-- A window of some context is bound to a channel buffer, as endpoint type 0 or 1 (08 R281, R283). -/
def State.bufferBound (s : State) (kind core buf : Nat) : Bool :=
  s.ctxs.any fun p => p.2.win.any fun q => match q.2 with
    | some w => w.kind = kind && w.target = core && w.buf = buf
    | none => false

/-- ILLEGAL causes of one instruction in the context it issues in, and the value of `ctl.tval`. A cause that depends on
a source's value is there once that source is full, whatever the other source holds (03 R112). Where one syllable has
several of these causes the spec does not say which value `ctl.tval` takes: a fault of its encoding comes first, then
its level, then the misuse of a window, then its own (DESIGN CHOICE, log 103). -/
def State.illegal (s : State) (i : Instr) : Option Nat :=
  let c := s.ctx s.cur
  let some0 := fun b : Bool => if b then some 0 else none
  if !i.wf then some 0
  else if c.level < levelOf i then some 1
  else if windowMisuse c i then some 0
  else match i with
    | .ctlr _ x => some0 (ctlWriteLevel x.toNat).isNone
    | .ctlw _ _ x => match ctlWriteLevel x.toNat with
      | none => some 0
      | some l => if l = 4 || c.level < l then some 1 else none
    | .eret => some0 (!c.inh && c.level = 0)
    | .spawn _ _ _ _ l _ => if c.level < l.toNat then some 1 else none
    | .slotw _ _ => if s.inReserved s.cur && c.level < 2 then some 1 else none
    | .repart _ =>
      if (s.coreCtxs (coreOf s.cur)).any fun t => t ≠ s.cur && (s.ctx t).status ≠ .free then some 2 else none
    | .qbind a _ k =>
      some0 ((c.window k.toNat).isSome ||
        (!(srcsOf i).any s.srcEmpty && 2 ≤ (s.S a).toNat / 2 ^ 62 && 5 ≤ (s.S a).toNat / 2 ^ 8 % 16))
    | .qpeek _ k => some0 (c.window k.toNat).isNone
    | .vqpop _ _ k => some0 (c.window k.toNat).isNone
    | .vqpush _ _ _ k => some0 (match c.window k.toNat with
      | none => true
      | some w => w.kind = 2)
    | .qcfgw a t _ _ =>
      if s.srcEmpty (srcA a t) then none
      else if (s.bufferBound 0 (coreOf s.cur) ((s.S a).toNat % 16)) ||
        (s.bufferBound 1 (coreOf s.cur) ((s.S a).toNat % 16)) then some 2 else none
    | .joinInit _ _ b u =>
      if s.srcEmpty (srcB b u) then none
      else
        let x := (s.S b).toNat
        if x / 2 ^ 37 ≠ 0 || x / 2 ^ 32 % 4 = 3 then some 0
        else if c.level < x / 2 ^ 34 % 4 then some 1 else none
    | _ => none

/-- Both syllables write one register (05 R152), `s0` and the register behind a bound window aside
(07 R230). -/
def destClash (c : Ctx) (i j : Instr) : Bool :=
  (dstsOf i).any fun x => (dstsOf j).any fun y =>
    x.vec = y.vec && x.reg = y.reg && (x.vec || (x.reg ≠ 0 && (c.winOf x.reg).isNone))

/-- The ILLEGAL of a bundle. Two syllables that write one register are charged to the S-syllable (05 R152); a cause that this has
of its own comes before that (DESIGN CHOICE, log 103). -/
def State.illegalAll (s : State) : List Instr → Option TrapInfo
  | [] => none
  | [i] => (s.illegal i).map (ill · i)
  | i :: j :: _ => match s.illegal i with
    | some v => some (ill v i)
    | none => if destClash (s.ctx s.cur) i j then some (ill 0 i) else (s.illegal j).map (ill · j)

/-! ### Registers and windows (03 R98-R101, 05 R160) -/

/-- The first vector field beyond the mode's registers. -/
def State.vregFault (s : State) (i : Instr) : Option TrapInfo :=
  let n := vregCount (s.core (coreOf s.cur)).mode
  let regs := ((dstsOf i).filter (·.vec)).map (·.reg) ++ ((srcsOf i).filter (·.vec)).map (·.reg)
  (regs.find? fun r => n ≤ r).map fun r =>
    { cause := cVREG, tval := BitVec.ofNat 64 r, vsyl := vsylOf i }

/-- An empty source whose trap bit is set. DESIGN CHOICE (log 40): of two in one syllable REG_EMPTY reports the first in field
order (03 R98). -/
def State.emptyTrap (s : State) (i : Instr) : Option TrapInfo :=
  ((srcsOf i).find? fun x => x.trap && s.srcEmpty x).map fun x =>
    { cause := cREGEMPTY, tval := BitVec.ofNat 64 x.reg, vsyl := vsylOf i, vreg := x.vec, reg := x.reg
      field := x.field }

def Src.isWin (c : Ctx) (x : Src) : Bool := !x.vec && x.win && (c.winOf x.reg).isSome

/-- A window that a source reads is empty, or one that a destination writes is full. A command queue's room
depends on the word pushed, and is seen at the push. -/
def State.windowWait (s : State) (i : Instr) : Bool :=
  let c := s.ctx s.cur
  (srcsOf i).any (fun x => x.isWin c && s.srcEmpty x) ||
  (dstsOf i).any (fun x => !x.vec && x.win && (match c.winOf x.reg with
    | some w => if w.kind = 1 then s.winFull s.cur w 0 else 16 ≤ s.queuedWords s.cur w.sel
    | none => false)) ||
  (match windowOpOf i with
   | some (k, some false) => match c.window k with
     | some w => (s.winEntries s.cur w).isEmpty
     | none => false
   | some (k, some true) => match c.window k with
     | some w => s.winFull s.cur w 0
     | none => false
   | _ => false)

/-- A source register is empty, or a destination is empty from an earlier producer. -/
def State.registerWait (s : State) (i : Instr) : Bool :=
  let c := s.ctx s.cur
  (srcsOf i).any (fun x => !x.isWin c && s.srcEmpty x) ||
  (dstsOf i).any (fun x =>
    if x.vec then c.vEmpty.getLsbD x.reg
    else !(x.win && (c.winOf x.reg).isSome) && x.reg ≠ 0 && c.sEmpty.getLsbD x.reg)

/-! ### Memory accesses -/

/-- One access an instruction makes: its address, size, alignment, kind, and where it may go. -/
structure Access where
  addr : Word
  size : Nat
  align : Nat
  kind : Acc
  ok : Addr → Bool := fun _ => true

/-- The address of a memory operand: base plus displacement times size (08 R258). -/
def State.ea (s : State) (b : BitVec 5) (disp : Int) (n : Nat) : Word :=
  s.S b + BitVec.ofInt 64 (disp * n)

/-- Places of one core, and of the issuing core's scratchpad (06 R196, R208). -/
def inOwn (core n : Nat) : Addr → Bool
  | .win c r off => c = core && r = 0 && off + n ≤ 0x40000
  | _ => false

/-- The home lies within the scope's group of the issuing thread (08 R262). Scopes 0 to 4 are core, quad,
die, package and pod. -/
def inScope (th scope : Nat) : Addr → Bool
  | .global _ => 3 ≤ scope
  | .win c r _ =>
    3 ≤ scope || (scope = 2 && c / 1024 = dieOfTh th) || (scope = 1 && quadOf c = quadOf (coreOf th)) ||
      (scope = 0 && r ≤ 3 && c = coreOf th)
  | .sync d _ => 3 ≤ scope || (scope = 2 && d = dieOfTh th)
  | .hub _ => 3 ≤ scope
  | .bad => true

/-- Lane `k` of 32 bits, signed. -/
def lane32 (x : VWord) (k : Nat) : Int := (x.extractLsb' (32 * k) 32).toInt

/-- The lanes of a gather, with their addresses (08 R260). -/
def State.gatherLanes (s : State) : Instr → List (Word × Nat)
  | .vlds _ a _ b _ _ _ _ z =>
    let n := 2 ^ z.toNat
    (List.range (16 / n)).map fun (k : Nat) => (s.S a + BitVec.ofInt 64 ((k : Int) * (s.S b).toInt), n)
  | .vldx _ a _ b _ _ _ _ =>
    (List.range 4).map fun k => (s.S a + BitVec.ofInt 64 (lane32 (s.V b.toNat) k), 4)
  | _ => []

/-- The accesses of an instruction that are checked at issue, in order. -/
def State.accesses (s : State) (i : Instr) : List Access :=
  let core := coreOf s.cur
  let sm := fun (b : BitVec 5) (p : BitVec 12) (n : Nat) (k : Acc) =>
    [({ addr := s.ea b p.toInt n, size := n, align := n, kind := k } : Access)]
  let scopeAcc := fun (b : BitVec 5) (p : BitVec 12) (n : Nat) (k : Acc) (sc : BitVec 3) =>
    [({ addr := s.ea b p.toInt n, size := n, align := n, kind := k, ok := inScope s.cur sc.toNat } : Access)]
  let pres := fun (b : BitVec 5) (p : BitVec 12) (w : Bool) =>
    [({ addr := s.ea b p.toInt 4, size := 4, align := 4, kind := .presence w, ok := inScratch } : Access)]
  let amo := fun (a : BitVec 5) (l : BitVec 1) =>
    let n := if l = 1 then 8 else 4
    [({ addr := s.S a, size := n, align := n, kind := .atomic, ok := inAtomicSpace } : Access)]
  let sync := fun (a : BitVec 5) (al : Nat) (k : Acc) =>
    [({ addr := s.S a, size := 8, align := al, kind := k, ok := inSync } : Access)]
  match i with
  | .ldN8 _ b _ _ _ p | .ldS8 _ b _ _ _ p => sm b p 1 .load
  | .ldN16 _ b _ _ _ p | .ldS16 _ b _ _ _ p => sm b p 2 .load
  | .ldN32 _ b _ _ _ p | .ldS32 _ b _ _ _ p => sm b p 4 .load
  | .ld64 _ b _ _ _ p => sm b p 8 .load
  | .st8 _ b _ _ _ p => sm b p 1 .store
  | .st16 _ b _ _ _ p => sm b p 2 .store
  | .st32 _ b _ _ _ p => sm b p 4 .store
  | .st64 _ b _ _ _ p => sm b p 8 .store
  | .vld _ b _ _ _ _ p => [{ addr := s.ea b p.toInt 16, size := 16, align := 16, kind := .load }]
  | .vst _ b _ _ _ _ p => [{ addr := s.ea b p.toInt 16, size := 16, align := 16, kind := .store }]
  | .ldAcq32 _ b _ sc p => scopeAcc b p 4 .load sc
  | .ldAcq64 _ b _ sc p => scopeAcc b p 8 .load sc
  | .stRel32 _ b _ sc p => scopeAcc b p 4 .store sc
  | .stRel64 _ b _ sc p => scopeAcc b p 8 .store sc
  | .ldfe _ b _ _ _ p => pres b p false
  | .ldPw _ b _ _ _ p => pres b p false
  | .stef _ b _ _ _ p => pres b p true
  | .vlds .. | .vldx .. => (s.gatherLanes i).map fun l =>
      { addr := l.1, size := l.2, align := l.2, kind := .load, ok := inScratchOrGlobal }
  | .amoAdd _ a _ _ _ l _ _ | .amoAnd _ a _ _ _ l _ _ | .amoOr _ a _ _ _ l _ _ | .amoXor _ a _ _ _ l _ _
  | .amoMin _ a _ _ _ l _ _ | .amoMax _ a _ _ _ l _ _ | .amoMinu _ a _ _ _ l _ _ | .amoMaxu _ a _ _ _ l _ _
  | .amoSwap _ a _ _ _ l _ _ | .amoCas _ a _ _ _ l _ _ | .amoInclt _ a _ _ _ l _ _ => amo a l
  | .amoFaddF32 _ a _ _ _ _ _ => amo a 0
  | .joinInit a _ _ _ | .joinArrive a _ _ _ => sync a 64 .store
  | .ssigSet a _ _ _ | .ssigAdd a _ _ _ => sync a 8 .store
  | .swait _ a _ _ _ _ => sync a 8 .load
  | .barrSyncCmb a _ _ _ => [{ addr := s.S a, size := 8, align := 32, kind := .store, ok := inSync }]
  | .lpset a _ => (List.range 9).map fun k =>
      { addr := s.S a + BitVec.ofNat 64 (8 * k), size := 8, align := 8, kind := .load
        ok := fun x => k ≠ 0 || inOwn core 72 x }
  | .slotw a _ => (List.range 4).map fun k =>
      { addr := s.S a + BitVec.ofNat 64 (8 * k), size := 8, align := if k = 0 then 32 else 8, kind := .load
        ok := fun x => k ≠ 0 || inOwn core 32 x }
  | _ => []

/-- The first access that fails a check of 08 R246. -/
def State.checkAccesses (s : State) (l : List Access) : Option TrapInfo :=
  (l.findSome? fun a => s.accessFaultAt (s.who s.cur) a.addr a.size a.align a.kind a.ok).map fun p =>
    { cause := p.1, tval := p.2 }

/-- The store counter that a memory instruction waits for, 0 for none (08 R155, R254, 09 R304). -/
def waitOf : Instr → Nat
  | .ldN8 _ _ _ w _ _ | .ldN16 _ _ _ w _ _ | .ldN32 _ _ _ w _ _ | .ld64 _ _ _ w _ _ | .ldS8 _ _ _ w _ _
  | .ldS16 _ _ _ w _ _ | .ldS32 _ _ _ w _ _ | .st8 _ _ _ w _ _ | .st16 _ _ _ w _ _ | .st32 _ _ _ w _ _
  | .st64 _ _ _ w _ _ | .ldfe _ _ _ w _ _ | .stef _ _ _ w _ _ | .ldPw _ _ _ w _ _ => w.toNat
  | .vld _ _ _ w _ _ _ | .vst _ _ _ w _ _ _ => w.toNat
  | .vlds _ _ _ _ _ _ w _ _ | .vldx _ _ _ _ _ _ w _ => w.toNat
  | .amoAdd _ _ _ _ _ _ _ w | .amoAnd _ _ _ _ _ _ _ w | .amoOr _ _ _ _ _ _ _ w | .amoXor _ _ _ _ _ _ _ w
  | .amoMin _ _ _ _ _ _ _ w | .amoMax _ _ _ _ _ _ _ w | .amoMinu _ _ _ _ _ _ _ w
  | .amoMaxu _ _ _ _ _ _ _ w | .amoSwap _ _ _ _ _ _ _ w | .amoCas _ _ _ _ _ _ _ w
  | .amoInclt _ _ _ _ _ _ _ w => w.toNat
  | .amoFaddF32 _ _ _ _ _ _ w => w.toNat
  | _ => 0

/-- The instruction releases: it waits for the thread's stores (08 R263, 09 R298, R310, R319). -/
def releases : Instr → Bool
  | .stRel32 .. | .stRel64 .. | .joinArrive .. | .tins .. | .tinsd .. => true
  | _ => false

/-- A plain store. -/
def isStore : Instr → Bool
  | .st8 .. | .st16 .. | .st32 .. | .st64 .. | .vst .. | .stRel32 .. | .stRel64 .. => true
  | _ => false

/-- Sync-word operations that are posted and counted (09 R307). -/
def isPostedSync : Instr → Bool
  | .joinInit .. | .joinArrive .. | .ssigSet .. | .ssigAdd .. => true
  | _ => false

/-- A memory access for the acquire rule (08 R263). -/
def State.isMemAccess (s : State) (i : Instr) : Bool :=
  !(s.accesses i).isEmpty ||
  (match i with
   | .tins .. | .tinsd .. | .spawn .. => true
   | _ => false) ||
  (dstsOf i).any fun x => !x.vec && x.win && (match (s.ctx s.cur).winOf x.reg with
    | some w => w.kind = 2
    | none => false)

/-- The counter that a posted operation of an instruction raises (08 R252, 09 R307). -/
def State.counts (s : State) (i : Instr) : Option Nat :=
  if isStore i || isPostedSync i then
    match s.accesses i with
    | a :: _ => if isStore i && isLocal s.cur a.addr then none else some (classOf s.cur a.addr)
    | [] => none
  else none

/-- Entries up to the last that a thread has stored, or that overlaps n bytes at an offset. -/
def entriesBefore (l : List StEntry) (th off n : Nat) : Nat :=
  ((List.range l.length).zip l).foldl (fun k p =>
    if p.2.th = th || (p.2.off < off + n && off < p.2.off + p.2.size) then p.1 + 1 else k) 0

/-- A local store that finds the store buffer full (08 R248). -/
def State.bufferFull (s : State) (i : Instr) : Bool :=
  isStore i && (match s.accesses i with
    | a :: _ => isLocal s.cur a.addr && 32 ≤ (s.core (coreOf s.cur)).stbuf.length
    | [] => false)

/-- An atomic or a presence request of an instruction to the own scratchpad has stores before it in the store buffer: of its thread,
or to its bytes. Its place among the core's local accesses is behind them, so it loses bank arbitration until they are written (08
R249, 09 R304, 17 R412, log 42). -/
def State.storesBefore (s : State) (i : Instr) : Bool :=
  (s.accesses i).any fun a => isLocal s.cur a.addr && (match a.kind with
    | .atomic | .presence _ => 0 < entriesBefore (s.core (coreOf s.cur)).stbuf s.cur (a.addr.toNat % 2 ^ 20) a.size
    | _ => false)

/-- A byte of the scratchpad as a thread of its core reads it: the youngest store in the store buffer that
holds it, or the bank (08 R248). -/
def State.localByte (s : State) (core off : Nat) : Byte :=
  match (s.core core).stbuf.reverse.find? fun x => x.off ≤ off && off < x.off + x.size with
  | some x => x.data.extractLsb' (8 * (off - x.off)) 8
  | none => s.byteAt (.scratch core off)

/-- `n` bytes from an offset of the own scratchpad upward. -/
def State.localRead (s : State) (core off : Nat) : Nat → Nat
  | 0 => 0
  | n + 1 => (s.localByte core off).toNat + 256 * s.localRead core (off + 1) n

/-! ### Checks and waits of single instructions -/

/-- The core that a thread of a launch and level may wake at a window address (06 R199). -/
def State.wakeTarget (s : State) (lid : Option Nat) (level : Nat) (w : Word) : Option Nat :=
  match decodeAddr w with
  | .win core _ _ =>
    if 2 ≤ level then some core
    else match lid.bind s.launch with
      | some l => if s.coreInPart l.part core then some core else none
      | none => none
  | _ => none

/-- The destination class of a core as a thread sees it (06 R199). -/
def classOfCore (th core : Nat) : Nat :=
  if quadOf core = quadOf (coreOf th) then 0 else if core / 1024 = dieOfTh th then 1 else 2

/-- The per arrivals of a barrier that the thread's launch declares (09 R294, R316). -/
def State.barrierPer (s : State) (lid : Option Nat) (level id : Nat) : Option Nat :=
  (lid.bind s.launch).bind fun l =>
    (l.barriers.find? fun b => b.1 = level && b.2.1 = id).map fun b => b.2.2

/-- The key of a barrier id in a context's leads. -/
def leadKey (level id : Nat) : Nat := level * 64 + id
def Ctx.lead (c : Ctx) (level id : Nat) : Nat := get 0 c.leads (leadKey level id)

/-- A context that a window address names for `ctxsv` and `ctxld` (06 R215-R216). -/
def State.ctxTarget (s : State) (a : Word) : Option Nat :=
  match decodeAddr a with
  | .win core _ off =>
    if off % 16 < ctxCount (s.core core).mode then some (core * 16 + off % 16) else none
  | _ => none

/-- The held request of the bundle the thread stands at. -/
def Ctx.heldHere (c : Ctx) : Option Held := c.held.find? fun h => h.pc = c.pc

/-- Raised with ACCESS, MISALIGN or another cause by the S-syllable. -/
def trapS (cause : Nat) (v : Word) : Verdict := .trap { cause := cause, tval := v }

/-- The answer to a waiting request of a thread is on its way: the request has been performed (08 R271). -/
def State.answerComing (s : State) (th : Nat) : Bool := s.net.any fun f => match f.ev with
  | .presenceAnswer t seq _ => t = th && (s.ctx th).held.any fun h => h.req.seq = seq && h.answer.isNone && !h.dropped
  | _ => false

/-- The endpoint that `qbind` names fails a check made at issue (08 R283, 10 R325). DESIGN CHOICE (log 140): for a thread of
no launch the partition is the whole package, every core of the dies 0 to 3, and it holds the engines of its whole quad
(selectors 0, 2, 3 and 4). -/
def State.bindFault (s : State) (w : Word) : Bool :=
  let n := w.toNat
  let win : Window := { word := w }
  let core := coreOf s.cur
  let ch := get {} (s.core core).chans win.buf
  n / 2 ^ 36 % 2 ^ 26 ≠ 0 || n / 2 ^ 12 % 2 ^ 11 ≠ 0 || n / 2 ^ 4 % 16 ≠ 0 ||
  (if win.kind ≤ 1 then win.sel ≠ 0 else win.buf ≠ 0) ||
  (if win.kind = 0 then
    win.target ≠ core || !ch.conf.getLsbD 63 || ch.conf.toNat / 2 ^ 36 % 16 ≠ ctxOf s.cur ||
      s.bufferBound 0 core win.buf
  else if win.kind = 1 then
    match s.launchOf s.cur with
    | some l => !s.coreInPart l.part win.target
    | none => 4096 ≤ win.target
  else !s.selectorHeld (s.lidOf s.cur) win.sel ||
    (if win.sel = 4 then win.target / 1024 ≠ dieOfTh s.cur else quadOf win.target ≠ quadOf core))

/-- A quad is within the reach of an `xlinv` of the issuing thread (06 R214). -/
def State.xlReach (s : State) (u quad : Nat) : Bool :=
  let r := u / 2 ^ 18 % 4
  if r = 0 then quad = quadOf (coreOf s.cur) else if r = 1 then dieOf quad = dieOfTh s.cur else true

/-- A walk in flight may end in a translation that an `xlinv` drops: of its context, and for one address of the same
GiB, which is the largest page (06 R214, 20 R485). -/
def State.walksFor (s : State) (u a : Nat) : Bool :=
  s.dies.any fun d => (d.2.walks.take 64).any fun x => (s.itemTarget x).any fun (xctx, _, va, _) =>
    (itemQuad x).elim (2 ≤ u / 2 ^ 18 % 4) (s.xlReach u) &&
      (2 ≤ u / 2 ^ 16 % 4 || (xctx = u % 65536 && (u / 2 ^ 16 % 4 = 1 || va / 2 ^ 30 = a / 2 ^ 30)))

/-- The notes of the commands that `tinsd` waits for: pending, and the first that failed (09 R298). -/
def Ctx.notesPending (c : Ctx) : Bool := c.notes.any fun n => n.status.isNone
def Ctx.noteFailed (c : Ctx) : Option Word :=
  (c.notes.find? fun n => n.status.isSome && !n.ok).bind fun n => n.status

/-! #### `slotw` (06 R208-R210, 03 R86-R87) -/

/-- An entry that breaks one of the first three conditions of 03 R86. -/
def badEntry (mode : Nat) (b : Byte) : Bool :=
  let n := b.toNat
  n / 64 = 3 || n / 16 % 4 ≠ 0 || (if n / 64 = 1 then ctxCount mode ≤ n % 16 else n % 16 ≠ 0)

/-- Two entries that name one context stand closer than four, directly or across the wrap. -/
def badPair (l : List Byte) (i j : Nat) : Bool :=
  let a := (l.getD i 0).toNat
  let b := (l.getD j 0).toNat
  i < j && a / 64 = 1 && b / 64 = 1 && a % 16 = b % 16 && (j - i < 4 || 32 - (j - i) < 4)

/-- The lowest offending entry of a table (03 R87). -/
def tableFault (mode : Nat) (l : List Byte) : Option Nat :=
  (List.range 32).find? fun i =>
    badEntry mode (l.getD i 0) || (List.range 32).any fun j => badPair l i j || badPair l j i

/-- The open round of the core with the arrival of the issuing context; the first arrival opens it. A context that is
Retiring or Halted by then has left the round already (DESIGN CHOICE, log 104). -/
def State.slotwRound (s : State) (a : Word) : SlotwRound :=
  let core := coreOf s.cur
  let r := match (s.core core).round with
    | some r => r
    | none => { members := (s.coreCtxs core).filter fun t =>
      (s.ctx t).status ≠ .free && (s.ctx t).status ≠ .retiring && (s.ctx t).status ≠ .halted, arrived := [] }
  if r.members.contains s.cur && !(r.arrived.any fun p => p.1 = s.cur) then
    { r with arrived := r.arrived ++ [(s.cur, a)] } else r

/-- Every remaining member of a round has arrived. -/
def SlotwRound.full (r : SlotwRound) : Bool := r.members.all fun t => r.arrived.any fun p => p.1 = t

/-- The table that a full round writes: the image of its lowest-numbered member. -/
def State.slotwTable (s : State) (core : Nat) (r : SlotwRound) : List Byte :=
  let a := ((r.arrived.find? fun p => some p.1 = r.members.head?).map Prod.snd).getD 0
  (List.range 32).map fun e => s.localByte core (a.toNat % 2 ^ 20 + e)

/-- What is wrong with it: an entry of the table, or 32 where a member owns none. -/
def State.slotwFault (s : State) (core : Nat) (r : SlotwRound) : Option Nat :=
  let tbl := s.slotwTable core r
  match tableFault (s.core core).mode tbl with
  | some e => some e
  | none => if r.members.all fun th => tbl.any fun b => b = BitVec.ofNat 8 (64 + ctxOf th) then none else some 32

/-- The arrival of the issuing context ends its round, and the table is accepted: the bundle issues. -/
def State.slotwCloses (s : State) (a : Word) : Bool :=
  let r := s.slotwRound a
  r.full && (s.slotwFault (coreOf s.cur) r).isNone

/-- A round that is full: the table is accepted, and the other members issue at their next slots; or every member
traps. -/
def State.slotwComplete (s : State) (core : Nat) (r : SlotwRound) : State :=
  let s1 := s.modCore core fun k => { k with round := none }
  match s.slotwFault core r with
  | none =>
    (r.members.filter (· ≠ s.cur)).foldl (fun s th => s.modCtx th fun c => { c with synced := some c.pc })
      (s1.modCore core fun k => { k with nextSlots := some (s.slotwTable core r) })
  | some e => r.members.foldl (fun s th => s.takeTrap th { cause := cILLEGAL, tval := BitVec.ofNat 64 e }) s1

/-- A member arrives in `slotw`. -/
def State.slotwArrive (s : State) (a : Word) : State :=
  let core := coreOf s.cur
  let r := s.slotwRound a
  let s1 := s.modCore core fun k => { k with round := some r }
  if r.full then s1.slotwComplete core r else s1

/-! #### `iflush` (06 R213) -/

/-- Lines pinned in a quad's cache, and whether one of them is still being read afresh. -/
def Quad.pinned (q : Quad) : List Line := q.icache.filter fun l => !l.pins.isEmpty
def Quad.refetching (q : Quad) : Bool := q.icache.any (·.stale)

/-- The invalidation of `iflush`: every unpinned line leaves, and the pinned ones, which stay, are read afresh from memory; until
then they are missing (06 R213, 17 R414-R415). -/
def State.flushQuad (s : State) (quad : Nat) : State :=
  (s.quad quad).pinned.foldl (fun s l => s.send none (.instructionCacheFill quad l.xctx l.line))
    (s.modQuad quad fun q => { q with fillBuf := none, icache := q.pinned.map fun l => { l with stale := true } })

/-- The checks and waits that only one instruction has. DESIGN CHOICE (log 132): an ACCESS of `qbind` or `qcfgw`, which name no
address, puts the endpoint or configuration word into `ctl.tval` (03 R110, 08 R283). -/
def State.ownChecks (s : State) (i : Instr) : Verdict :=
  let th := s.cur
  let c := s.ctx th
  let misaligned := fun t : Word => if t.toNat % 8 ≠ 0 then trapS cMISALIGN t else .go
  match i with
  | .jr a _ => misaligned (s.S a)
  | .callr _ a _ => misaligned (s.S a)
  | .ret => if c.sreg 15 = c.stub.getD 0 && c.stub.isSome then .go else misaligned (s.S 15)
  | .trap n => trapS cSOFT (n.setWidth 64)
  | .mwait k => blockIf (c.counter k.toNat ≠ 0) onWait
  | .iflush => (blockIf (!c.counterZero) onWait).and
    (if c.synced = some c.pc then blockIf (s.quad (quadOf (coreOf th))).refetching onWait
    else if (s.quad (quadOf (coreOf th))).pinned.isEmpty then .go else .hold)
  | .xlinv a _ b _ => blockIf (s.walksFor (s.S b).toNat (s.S a).toNat) onWait
  | .amoFaddF32 _ a _ _ _ _ _ => if s.inOrdered th then trapS cACCESS (s.S a) else .go
  | .spawn _ a _ _ _ _ => match s.wakeTarget c.lid c.level (s.S a) with
    | none => trapS cACCESS (s.S a)
    | some core => blockIf (4095 ≤ c.counter (classOfCore th core)) onWait
  | .tins a _ b _ => match s.recordFault c.lid ⟨s.S a, s.S b⟩ with
    | some v => trapS cACCESS v
    | none => .go
  | .tinsd a _ b _ =>
    (blockIf c.notesPending onWait).and (match s.recordFault c.lid ⟨s.S a, s.S b⟩ with
      | some v => trapS cACCESS v
      | none => match c.noteFailed with
        | some w => trapS cENGINE w
        | none => .go)
  | .qcfgw _ _ b _ =>
    let w := s.S b
    if w.getLsbD 63 && (match s.launchOf th with
      | some l => !s.coreInPart l.part (w.toNat / 2 ^ 23 % 8192)
      | none => 4096 ≤ w.toNat / 2 ^ 23 % 8192) then trapS cACCESS w else .go
  | .qbind a _ _ => if s.bindFault (s.S a) then trapS cACCESS (s.S a) else .go
  | .barrArr l k =>
    if (s.barrierPer c.lid l.toNat k.toNat).isNone then trapS cACCESS 0
    else (blockIf (s.buffered th || !c.counterZero) onWait).and (blockIf (c.lead l.toNat k.toNat = 3) onWait)
  | .barrWait l k =>
    if (s.barrierPer c.lid l.toNat k.toNat).isNone then trapS cACCESS 0
    else blockIf (c.lead l.toNat k.toNat ≠ 0) onWait
  | .barrSync l k =>
    if (s.barrierPer c.lid l.toNat k.toNat).isNone then trapS cACCESS 0
    else if c.synced = some c.pc then blockIf (c.lead l.toNat k.toNat ≠ 0) onWait
    else ((blockIf (s.buffered th || !c.counterZero) onWait).and
      (blockIf (c.lead l.toNat k.toNat = 3) onWait)).and .hold
  | .barrSyncCmb _ _ l k =>
    if (s.barrierPer c.lid l.toNat k.toNat).isNone then trapS cACCESS 0
    else if c.synced = some c.pc then blockIf (c.lead l.toNat k.toNat ≠ 0) onWait
    else ((blockIf (s.buffered th || !c.counterZero || !c.prods.isEmpty || c.notesPending) onWait).and
      (blockIf (c.lead l.toNat k.toNat = 3) onWait)).and .hold
  | .slotw a _ => if c.synced = some c.pc || s.slotwCloses (s.S a) then .go else .hold
  | .ldfe .. | .stef .. | .ldPw .. | .swait .. => .hold
  | .ctxsv a _ b _ => match s.ctxTarget (s.S a) with
    | none => trapS cACCESS (s.S a)
    | some t =>
      if (s.S b).toNat / 2 ^ 41 ≠ 0 then trapS cACCESS (s.S b)
      else if (s.S b).toNat % 2048 ≠ 0 then trapS cMISALIGN (s.S b)
      else if (s.ctx t).status ≠ .halted then trapS cILLEGAL 2
      else blockIf (!(s.ctx t).counterZero || !(s.ctx t).prods.isEmpty || s.answerComing t) onWait
  | .ctxld a _ b _ => match s.ctxTarget (s.S a) with
    | none => trapS cACCESS (s.S a)
    | some t =>
      if (s.S b).toNat / 2 ^ 41 ≠ 0 then trapS cACCESS (s.S b)
      else if (s.S b).toNat % 2048 ≠ 0 then trapS cMISALIGN (s.S b)
      else if (s.ctx t).status ≠ .halted && (s.ctx t).status ≠ .free then trapS cILLEGAL 2
      else .go
  | _ => .go

/-- The instruction waits for an answer at its home (08 R267, 09 R313). -/
def waitsForAnswer : Instr → Bool
  | .ldfe .. | .stef .. | .ldPw .. | .swait .. => true
  | _ => false

/-- The waits and checks of one instruction after its registers, in program text order (08 R258, R266-R271,
09 R298-R319). A form whose request has been sent waits for its answer alone. -/
def State.opChecks (s : State) (i : Instr) : Verdict :=
  let c := s.ctx s.cur
  match (if waitsForAnswer i then c.heldHere else none) with
  | some h =>
    if h.dropped then trapS cFETIMEOUT h.req.addr
    else blockIf h.answer.isNone onWait
  | none =>
    (blockIf (s.isMemAccess i && c.prods.any (·.acquire)) onWait).and <|
    (blockIf (waitOf i ≠ 0 && c.counter (waitOf i) ≠ 0) onWait).and <|
    (blockIf (releases i && (s.buffered s.cur || !c.counterZero)) onWait).and <|
    (trapIf (s.checkAccesses (s.accesses i))).and <|
    (s.ownChecks i).and <|
    (blockIf (s.bufferFull i || s.storesBefore i) onBank).and
    (blockIf ((s.counts i).elim false fun k => 4095 ≤ c.counter k) onWait)

/-! ### The verdict -/

/-- The number of the core's current cycle. -/
def State.now (s : State) : Nat := (s.core (coreOf s.cur)).cycle

/-- The thread has waited longer than its limit on a window (03 R104). -/
def State.stalled (s : State) : Bool :=
  let c := s.ctx s.cur
  match c.winWait with
  | some t => c.qstall ≠ 0 && c.qstall.toNat < s.now - t
  | none => false

/-- The sources that the checked addresses of an instruction come from; the others are data. -/
def addressSrcs (i : Instr) : List Src :=
  (srcsOf i).filter fun x => x.field = 2 || x.field = 4 || (x.field = 3 && (match i with
    | .vlds .. | .vldx .. | .tins .. | .tinsd .. | .ctxsv .. | .ctxld .. | .qcfgw .. => true
    | _ => false))

/-- The fault of an instruction's addresses, which comes before QSTALL in one slot (03 R112), where the registers they
come from are full. -/
def State.addressTrap (s : State) (i : Instr) : Option TrapInfo :=
  if (addressSrcs i).any s.srcEmpty || (waitsForAnswer i && (s.ctx s.cur).heldHere.isSome) then none
  else match s.checkAccesses (s.accesses i) with
    | some t => some t
    | none => match s.ownChecks i with
      | .trap t => if t.cause ≤ cACCESS then some t else none
      | _ => none

/-- The verdict on the instructions of a bundle, the S-syllable first (03 R112). A bundle that waits for data, or for a
window, does not issue: a fault of its addresses is taken in the slot in which it could issue, and not before, but for
the slot of its QSTALL (DESIGN CHOICE, log 105). -/
def State.verdict (s : State) (l : List Instr) : Verdict :=
  (trapIf (s.illegalAll l)).and <|
  (trapIf (l.findSome? s.vregFault)).and <|
  (trapIf (l.findSome? s.emptyTrap)).and <|
  (if l.any s.windowWait then
    (if s.stalled then trapIf (l.findSome? s.addressTrap) else .go).and (.block onWindow)
  else .go).and <|
  (blockIf (l.any s.registerWait) onRegister).and <|
  l.foldl (fun v i => v.and (s.opChecks i)) .go

/-! ### Issuing, forfeiting, starting a wait -/

/-- The window that a wait on a window is for, which QSTALL and QWAIT report. DESIGN CHOICE (log 130): of several that an
instruction waits on it is the first, sources before destinations (03 R104, R110). -/
def State.waitWindow (s : State) (i : Instr) : Nat :=
  let l := windowUses (s.ctx s.cur) i
  ((l.find? fun p => match (s.ctx s.cur).window p.1 with
    | some w => if w.reads then (s.winEntries s.cur w).isEmpty else s.winFull s.cur w 0
    | none => false).getD ((l.find? fun p => p.2 ≠ none).getD (0, none))).1

/-- A QWAIT event (22 R528). -/
def State.postQwait (s : State) (cycles window trapped : Nat) : State :=
  s.post (dieOfTh s.cur) 0x04 (s.lidOf s.cur) (coreOf s.cur) (ctxOf s.cur) (sat32 cycles)
    (BitVec.ofNat 32 window) (BitVec.ofNat 32 trapped)

/-- The slot is forfeited (03 R89): the thread is Blocked, and the slot is counted (22 R532). -/
def State.forfeit (s : State) (k : Nat) : State :=
  let t := s.now
  ((s.modCtx s.cur fun c => { c with
    status := .blocked
    forfeits := c.forfeits + 1
    waitKind := k
    winWait := if k = onWindow then some (c.winWait.getD t) else c.winWait }).modCore (coreOf s.cur) fun k' =>
      { k' with ivForfeit := k'.ivForfeit + 1, ivBank := if k = onBank then k'.ivBank + 1 else k'.ivBank }).evc
    (coreOf s.cur) k

/-- The slot is forfeited to a local access that lost bank arbitration; the first such slot is kept (17 R412, R417). -/
def State.forfeitBank (s : State) : State :=
  (s.forfeit onBank).modCtx s.cur fun c => { c with lostAt := some (c.lostAt.getD s.now) }

/-- A wait on a window past its limit raises QSTALL, and QWAIT is posted (03 R104). -/
def State.stallOrForfeit (s : State) (window k : Nat) : State :=
  if k = onWindow && s.stalled then
    (s.postQwait (s.now - (s.ctx s.cur).winWait.getD 0) window 1).takeTrap s.cur
      { cause := cQSTALL, tval := BitVec.ofNat 64 window }
  else if k = onBank then s.forfeitBank else s.forfeit k

/-- The bundle leaves its slot: the thread's next bundle is the one after it (06 R177). -/
def State.advance (s : State) (i : Instr) : State :=
  let t := s.now
  let c := s.ctx s.cur
  let s1 := match c.winWait with
    | some w => if 256 ≤ t - w then s.postQwait (t - w) (s.waitWindow i) 0 else s
    | none => s
  ((s1.modCtx s.cur fun c => { c with
    status := .ready
    pc := c.pc + 8
    issued := c.issued + 1
    winWait := none
    held := c.held.filter fun h => h.pc ≠ c.pc
    synced := if c.synced = some c.pc then none else c.synced
    firstIssue := some (c.firstIssue.getD t)
    lastIssue := some t }).modCore (coreOf s.cur) fun k => { k with ivIssued := k.ivIssued + 1 }).evc
    (coreOf s.cur) 0

/-- The windows that an instruction reads as operands give up their heads (03 R101). -/
def State.popSources (s : State) (c : Ctx) (i : Instr) : State :=
  (srcsOf i).foldl (fun s x => match (if x.vec || !x.win then none else c.winOf x.reg) with
    | some w => s.popWin s.cur w
    | none => s) s

/-- A push of `x` to the bound command window of encoding `d` would wait (10 R326, R335). -/
def State.pushHolds (s : State) (d : BitVec 5) (x : Word) : Bool :=
  match (s.ctx s.cur).winOf d.toNat with
  | some w => w.kind = 2 && s.pushWaits s.cur w.sel x
  | none => false

/-- A request on behalf of the issuing thread. -/
def State.request (s : State) (op : ReqOp) (a : Word) (n : Nat) (data : VWord) (dst : Dest) (seq : Nat)
    (cls : Option Nat) (adaptive : Bool) : Req :=
  { op := op, th := s.cur, lid := s.lidOf s.cur, level := (s.ctx s.cur).level, xctx := s.xctxOf s.cur, addr := a
    size := n, data := data, cmp := 0, dst := dst, seq := seq, lane := none, cls := cls, adaptive := adaptive
    start := s.now }

/-- A message of the issuing core goes to the home of an address. -/
def routeOf (r : Req) : Option (Nat × Nat) :=
  if r.adaptive then none else some (coreOf r.th, homeOf r.addr r.pa)

/-- The request of a presence form or `swait` (08 R267, 09 R313). -/
def State.waitRequest (s : State) : Instr → Option Req
  | .ldfe _ b _ _ r p => some (s.request .ldfe (s.ea b p.toInt 4) 4 0 .none (s.ctx s.cur).nextSeq none (r = 1))
  | .ldPw _ b _ _ r p => some (s.request .ldpw (s.ea b p.toInt 4) 4 0 .none (s.ctx s.cur).nextSeq none (r = 1))
  | .stef d b _ _ r p =>
    some (s.request .stef (s.ea b p.toInt 4) 4 ((s.S d).setWidth 128) .none (s.ctx s.cur).nextSeq none (r = 1))
  | .swait _ a _ b _ c =>
    some (s.request (.swait c.toNat) (s.S a) 8 ((s.S b).setWidth 128) .none (s.ctx s.cur).nextSeq none false)
  | _ => none

/-- A presence or `swait` request is sent to its home, and counted: a presence form of the core's own scratchpad as a
local access, any other as a remote access sent (22 R532). -/
def State.sendWait (s0 : State) (r : Req) : State :=
  let s := s0.evc (coreOf r.th) (if isLocal r.th r.addr then 11 else 12)
  match r.op with
  | .swait _ => s.send (routeOf r) (.swaitRequest r)
  | _ => s.send (routeOf r) (.presenceRequest r)

/-- The key of a barrier place, and the die that keeps it; places of a package and of the pod are the hub's
(09 R317). The place of a quad is that of a logical quad on it: physical quad × 32768 + logical quad (18 R435). -/
def barrierKey (lid level id inst : Nat) : Nat := ((lid * 8 + level) * 64 + id) * 2 ^ 28 + inst
def barrierOwner (key : Nat) : Nat := key / (8 * 64 * 2 ^ 28)
def barrierDie (level inst : Nat) : Nat :=
  if level = 0 then inst / 1024 else if level = 1 then dieOf (inst / 32768) else if level = 2 then inst else 4

/-- The node of a barrier place. -/
def State.barrierNode (s : State) (lid level id inst : Nat) : Barrier :=
  get {} (s.die (barrierDie level inst)).barriers (barrierKey lid level id inst)

/-- An arrival to the same phase of the same place. -/
def samePhase (a b : BarrierMsg) : Bool :=
  a.lid = b.lid && a.level = b.level && a.id = b.id && a.inst = b.inst && a.phase = b.phase

/-- The arrivals to the phase of one that are still on their way to its node. -/
def State.arriving (s : State) (m : BarrierMsg) : List BarrierMsg := s.net.filterMap fun f => match f.ev with
  | .barrierArrival x => if samePhase m x then some x else none
  | _ => none

/-- The arrivals of one core to a phase. -/
def Barrier.ofCore (b : Barrier) (phase core : Nat) : Nat :=
  (b.arrivals.filter fun a => a.phase = phase && coreOf a.th = core).length

/-- The six counters of a core, sampled when the last of its member threads arrives with the combine flag (04 R149). -/
def State.sampled (s : State) (m : BarrierMsg) : Option (List Nat) :=
  let core := coreOf m.th
  let before := (s.barrierNode (m.lid.getD 0) m.level m.id m.inst).ofCore m.phase core +
    ((s.arriving m).filter fun x => coreOf x.th = core).length
  if m.comb.isSome && s.barrierPer m.lid m.level m.id = some (before + 1) then
    some ((s.core core).sixCounts.map (·.toNat))
  else none

/-- An arrival of the issuing context at a barrier (09 R318): its lead rises, and the arrival travels to the
node of its level, behind the core's earlier ones, so that a phase does not complete before the arrival that carries its core's
sample (04 R149, log 60). `inst` is the core, logical quad or die of the issuing thread by the level; a package has one. -/
def State.arrive (s : State) (level id : Nat) (comb : Option Word) : State :=
  let c := s.ctx s.cur
  let core := coreOf s.cur
  let inst := if level = 0 then core else if level = 1 then quadOf core * 32768 + c.lq.toNat
    else if level = 2 then dieOfTh s.cur else 0
  let lead := c.lead level id
  let done := (s.barrierNode (c.lid.getD 0) level id inst).phases
  let m : BarrierMsg := { level := level, id := id, inst := inst, th := s.cur, lid := c.lid, phase := done + lead, comb := comb }
  (s.modCtx s.cur fun c => { c with leads := put 0 c.leads (leadKey level id) (lead + 1) }).send
    (some (coreOf s.cur, endBarrier (barrierDie level inst))) (.barrierArrival { m with counts := s.sampled m })

/-- A wait starts, and the thread forfeits the slot. -/
def State.startWait (s : State) (i : Instr) : State :=
  match i with
  | .barrSync l k =>
    ((s.arrive l.toNat k.toNat none).modCtx s.cur fun c => { c with synced := some c.pc }).forfeit onWait
  | .barrSyncCmb a _ l k =>
    ((s.arrive l.toNat k.toNat (some (s.S a))).modCtx s.cur fun c => { c with synced := some c.pc }).forfeit onWait
  | .slotw a _ => (s.forfeit onWait).slotwArrive (s.S a)
  | .iflush => ((s.flushQuad (quadOf (coreOf s.cur))).modCtx s.cur fun c => { c with synced := some c.pc }).forfeit onWait
  | _ => match s.waitRequest i with
    | some r =>
      ((s.sendWait r).modCtx s.cur fun c => { c with
        held := c.held ++ [{ pc := c.pc, req := r, start := s.now }]
        nextSeq := c.nextSeq + 1 }).forfeit onWait
    | none => s

/-- THE ISSUE OF ONE SYLLABLE. Within a bundle the S-syllable issues first, on the verdict of the whole
bundle, and the V-syllable then takes effect on the registers as they stood at issue (05 R152). -/
def issue (i : Instr) (eff : State → State) (s : State) : Host.Outcome State Fault Refusal :=
  match s.latch with
  | some _ => .next (eff s)
  | none =>
    match s.verdict [i] with
    | .go => .next ((eff (s.advance i)).popSources (s.ctx s.cur) i)
    | .block k => .next (s.stallOrForfeit (s.waitWindow i) k)
    | .hold => .next (s.startWait i)
    | .trap t => .next (s.takeTrap s.cur t)

/-- The issue of an instruction with a scalar destination `d` of the S-syllable, the value `val` that it
writes there, and its whole effect: a push that must wait holds the bundle at its slot (03 R101). -/
def issueD (i : Instr) (d : BitVec 5) (val : State → Word) (eff : State → State) (s : State) :
    Host.Outcome State Fault Refusal :=
  if s.latch.isNone && s.verdict [i] = .go && s.pushHolds d (val (s.advance i)) then
    .next (s.stallOrForfeit (d.toNat - 28) onWindow)
  else issue i eff s

/-- The issue of an instruction whose one effect is its scalar result. -/
def issueS (i : Instr) (d : BitVec 5) (val : State → Word) (s : State) : Host.Outcome State Fault Refusal :=
  issueD i d val (fun s => s.setS d (val s)) s

/-- The issue of an instruction whose result goes to the vector register `d`. -/
def issueV (i : Instr) (d : Nat) (val : State → VWord) (s : State) : Host.Outcome State Fault Refusal :=
  issue i (fun s => s.setV d (val s)) s

end Sys2Proof.Machine
end

