-- ==== Sys2Proof/Machine/Vector.lean ====
section
/-! DEFINITION. Vector instructions of the V-syllable and the scaled conversion (07 R219-R236). -/

namespace Sys2Proof.Machine

/-! ### Lanes (04 R118) -/

/-- Element `i` of width `w`. -/
def lane (w : Nat) (x : VWord) (i : Nat) : Nat := x.toNat / 2 ^ (w * i) % 2 ^ w

/-- A value of elements of width `w`, from element 0 upward. -/
def ofLanes (w : Nat) (l : List Nat) : VWord :=
  BitVec.ofNat 128 (l.foldr (fun x a => x % 2 ^ w + 2 ^ w * a) 0)

/-- The elements of a value. -/
def lanes (w : Nat) (x : VWord) : List Nat := (List.range (128 / w)).map (lane w x)

/-- One element replaced. -/
def setLane (w : Nat) (x : VWord) (i y : Nat) : VWord :=
  ofLanes w ((lanes w x).set i y)

/-- An integer lane as its type reads it, and a result stored in it (07 R221). -/
def laneS (f : IntFmt) (c : Nat) : Int := valInt f c

/-- A lane operation: codes in, code and conditions out. -/
abbrev LaneOp := List Nat → Nat × List Nat

/-- The lane operation of a type: the integer one, the float one, or none. -/
def laneOp (y : BitVec 6) (int : IntFmt → List Nat → Nat) (flt : FloatFmt → Nat → LaneOp) : LaneOp :=
  match laneFloat y with
  | some (f, m) => flt f m
  | none => match intFmt y with
    | some f => fun l => (int f l, [])
    | none => fun _ => (0, [])

/-- An operation on every lane of some vectors, with the conditions of all lanes (07 R220). -/
def eachLane (y : BitVec 6) (op : LaneOp) (vs : List VWord) : VWord × List Nat :=
  let w := fmtWidth y
  let r := (List.range (128 / w)).map fun i => op (vs.map fun v => lane w v i)
  (ofLanes w (r.map Prod.fst), r.flatMap Prod.snd)

/-- The issue of a vector operation whose result raises conditions. -/
def issueVC (i : Instr) (d : BitVec 6) (val : State → VWord × List Nat) (s : State) :
    Host.Outcome State Fault Refusal :=
  issue i (fun s => (s.setV d.toNat (val s).1).addConds (coreOf s.cur) (val s).2) s

/-- Two operands of a lane operation, and three. -/
def op2 (f : Nat → Nat → Nat × List Nat) : LaneOp := fun l => f (l.getD 0 0) (l.getD 1 0)
def op3 (f : Nat → Nat → Nat → Nat × List Nat) : LaneOp := fun l => f (l.getD 0 0) (l.getD 1 0) (l.getD 2 0)
def int1 (f : IntFmt → Nat → Nat) : IntFmt → List Nat → Nat := fun k l => f k (l.getD 0 0)
def int2 (f : IntFmt → Nat → Nat → Nat) : IntFmt → List Nat → Nat := fun k l => f k (l.getD 0 0) (l.getD 1 0)
def noInt : IntFmt → List Nat → Nat := fun _ _ => 0
def quiet (x : Nat) : Nat × List Nat := (x, [])

/-- Integer lane results (07 R222). -/
def iAdd (f : IntFmt) (a b : Nat) : Nat := wrapInt f.bits ((a : Int) + b)
def iSub (f : IntFmt) (a b : Nat) : Nat := wrapInt f.bits ((a : Int) - b)
def iMul (f : IntFmt) (a b : Nat) : Nat := wrapInt f.bits ((a : Int) * b)
def iMin (f : IntFmt) (a b : Nat) : Nat := if laneS f b < laneS f a then b else a
def iMax (f : IntFmt) (a b : Nat) : Nat := if laneS f a < laneS f b then b else a
def iAbs (f : IntFmt) (a : Nat) : Nat := wrapInt f.bits (laneS f a).natAbs
def iNeg (f : IntFmt) (a : Nat) : Nat := wrapInt f.bits (-laneS f a)

/-- A float lane with its sign cleared, or inverted; a NaN gives the canonical NaN (07 R222). -/
def fAbs (f : FloatFmt) (a : Nat) : Nat := if (valFloat f a).isNan then f.nanCode else a % 2 ^ (f.bits - 1)
def fNeg (f : FloatFmt) (a : Nat) : Nat :=
  if (valFloat f a).isNan then f.nanCode else (a + 2 ^ (f.bits - 1)) % 2 ^ f.bits

/-! ### Elementwise arithmetic (07 R222) -/

/-- `vadd` (07 R222). -/
def execVadd (d a : BitVec 6) (t : BitVec 1) (b : BitVec 6) (u : BitVec 1) (y : BitVec 6) (s : State) :
    Host.Outcome State Fault Refusal :=
  issueVC (.vadd d a t b u y) d (fun s => eachLane y (laneOp y (int2 iAdd) (fun f m => op2 (fAdd f m))) [s.V a.toNat, s.V b.toNat]) s

/-- `vsub` (07 R222). -/
def execVsub (d a : BitVec 6) (t : BitVec 1) (b : BitVec 6) (u : BitVec 1) (y : BitVec 6) (s : State) :
    Host.Outcome State Fault Refusal :=
  issueVC (.vsub d a t b u y) d (fun s => eachLane y (laneOp y (int2 iSub) (fun f m => op2 (fSub f m))) [s.V a.toNat, s.V b.toNat]) s

/-- `vmul` (07 R222). -/
def execVmul (d a : BitVec 6) (t : BitVec 1) (b : BitVec 6) (u : BitVec 1) (y : BitVec 6) (s : State) :
    Host.Outcome State Fault Refusal :=
  issueVC (.vmul d a t b u y) d (fun s => eachLane y (laneOp y (int2 iMul) (fun f m => op2 (fMul f m))) [s.V a.toNat, s.V b.toNat]) s

/-- `vmin` (07 R222). -/
def execVmin (d a : BitVec 6) (t : BitVec 1) (b : BitVec 6) (u : BitVec 1) (y : BitVec 6) (s : State) :
    Host.Outcome State Fault Refusal :=
  issueVC (.vmin d a t b u y) d (fun s => eachLane y (laneOp y (int2 iMin) (fun f _ => op2 fun x z => quiet (fMin f x z))) [s.V a.toNat, s.V b.toNat]) s

/-- `vmax` (07 R222). -/
def execVmax (d a : BitVec 6) (t : BitVec 1) (b : BitVec 6) (u : BitVec 1) (y : BitVec 6) (s : State) :
    Host.Outcome State Fault Refusal :=
  issueVC (.vmax d a t b u y) d (fun s => eachLane y (laneOp y (int2 iMax) (fun f _ => op2 fun x z => quiet (fMax f x z))) [s.V a.toNat, s.V b.toNat]) s

/-- `vfma`: the addend is the old value of vd (07 R222). -/
def execVfma (d a : BitVec 6) (t : BitVec 1) (b : BitVec 6) (u : BitVec 1) (y : BitVec 6) (s : State) :
    Host.Outcome State Fault Refusal :=
  issueVC (.vfma d a t b u y) d (fun s => eachLane y (laneOp y noInt (fun f m => op3 (fFma f m false))) [s.V a.toNat, s.V b.toNat, s.V d.toNat]) s

/-- `vfms`: the addend is the old value of vd (07 R222). -/
def execVfms (d a : BitVec 6) (t : BitVec 1) (b : BitVec 6) (u : BitVec 1) (y : BitVec 6) (s : State) :
    Host.Outcome State Fault Refusal :=
  issueVC (.vfms d a t b u y) d (fun s => eachLane y (laneOp y noInt (fun f m => op3 (fFma f m true))) [s.V a.toNat, s.V b.toNat, s.V d.toNat]) s

/-- `vabs` (07 R222). -/
def execVabs (d a : BitVec 6) (t : BitVec 1) (y : BitVec 6) (s : State) :
    Host.Outcome State Fault Refusal :=
  issueVC (.vabs d a t y) d (fun s => eachLane y (laneOp y (int1 iAbs) (fun f _ l => quiet (fAbs f (l.getD 0 0)))) [s.V a.toNat]) s

/-- `vneg` (07 R222). -/
def execVneg (d a : BitVec 6) (t : BitVec 1) (y : BitVec 6) (s : State) :
    Host.Outcome State Fault Refusal :=
  issueVC (.vneg d a t y) d (fun s => eachLane y (laneOp y (int1 iNeg) (fun f _ l => quiet (fNeg f (l.getD 0 0)))) [s.V a.toNat]) s

/-- `vclamp`: the lane of vd between those of va and vb (07 R222). -/
def execVclamp (d a : BitVec 6) (t : BitVec 1) (b : BitVec 6) (u : BitVec 1) (y : BitVec 6) (s : State) :
    Host.Outcome State Fault Refusal :=
  issueVC (.vclamp d a t b u y) d (fun s => eachLane y (laneOp y (fun f l => iMin f (iMax f (l.getD 2 0) (l.getD 0 0)) (l.getD 1 0)) (fun f _ => op3 fun x z w => quiet (fMin f (fMax f w x) z))) [s.V a.toNat, s.V b.toNat, s.V d.toNat]) s

/-! ### Compares, selects and dot products (07 R223-R226) -/

/-- All ones where a relation holds, else zero. -/
def mask (y : BitVec 6) (b : Bool) : Nat := if b then 2 ^ fmtWidth y - 1 else 0

/-- A compare: the relation of integers, and of float values with its answer for a NaN operand. -/
def compare (y : BitVec 6) (int : Int → Int → Bool) (flt : Val → Val → Bool) : LaneOp :=
  laneOp y (int2 fun f a b => mask y (int (laneS f a) (laneS f b)))
    (fun f _ => op2 fun a b => quiet (mask y (flt (valFloat f a) (valFloat f b))))

/-- `vceq` (07 R223). -/
def execVceq (d a : BitVec 6) (t : BitVec 1) (b : BitVec 6) (u : BitVec 1) (y : BitVec 6) (s : State) :
    Host.Outcome State Fault Refusal :=
  issueVC (.vceq d a t b u y) d (fun s => eachLane y (compare y (fun p q => p = q) (Val.eq)) [s.V a.toNat, s.V b.toNat]) s

/-- `vcne` (07 R223). -/
def execVcne (d a : BitVec 6) (t : BitVec 1) (b : BitVec 6) (u : BitVec 1) (y : BitVec 6) (s : State) :
    Host.Outcome State Fault Refusal :=
  issueVC (.vcne d a t b u y) d (fun s => eachLane y (compare y (fun p q => p ≠ q) (fun p q => !p.eq q)) [s.V a.toNat, s.V b.toNat]) s

/-- `vclt` (07 R223). -/
def execVclt (d a : BitVec 6) (t : BitVec 1) (b : BitVec 6) (u : BitVec 1) (y : BitVec 6) (s : State) :
    Host.Outcome State Fault Refusal :=
  issueVC (.vclt d a t b u y) d (fun s => eachLane y (compare y (fun p q => p < q) (Val.lt)) [s.V a.toNat, s.V b.toNat]) s

/-- `vcle` (07 R223). -/
def execVcle (d a : BitVec 6) (t : BitVec 1) (b : BitVec 6) (u : BitVec 1) (y : BitVec 6) (s : State) :
    Host.Outcome State Fault Refusal :=
  issueVC (.vcle d a t b u y) d (fun s => eachLane y (compare y (fun p q => p ≤ q) (fun p q => p.lt q || p.eq q)) [s.V a.toNat, s.V b.toNat]) s

/-- `vsel`: vd is the mask (07 R224). -/
def execVsel (d a : BitVec 6) (t : BitVec 1) (b : BitVec 6) (u : BitVec 1) (s : State) :
    Host.Outcome State Fault Refusal :=
  issueV (.vsel d a t b u) d.toNat (fun s =>
    (s.V a.toNat &&& s.V d.toNat) ||| (s.V b.toNat &&& ~~~s.V d.toNat)) s

/-- The exact sum of three terms with its conditions (04 R138, 07 R225): invalid when a product or the sum
is invalid and no term was a NaN. -/
def sum3 (f : FloatFmt) (m : Nat) (p q : Val × Bool) (c : Val) (nanIn : Bool) : Nat × List Nat :=
  let x := p.1.add m q.1
  let r := x.1.add m c
  roundOp f m (r.1, p.2 || q.2 || x.2 || r.2) nanIn

/-- One lane of `vdot2.f16`. -/
def dot2 (m : Nat) (a0 b0 a1 b1 c : Nat) : Nat × List Nat :=
  let v := valFloat f16
  let z := valFloat f32 c
  sum3 f32 m ((v a0).mul (v b0)) ((v a1).mul (v b1)) z
    ((v a0).isNan || (v b0).isNan || (v a1).isNan || (v b1).isNan || z.isNan)

/-- `vdot2.f16` (07 R225). -/
def execVdot2F16 (d a : BitVec 6) (t : BitVec 1) (b : BitVec 6) (u : BitVec 1) (r : BitVec 2) (s : State) :
    Host.Outcome State Fault Refusal :=
  issueVC (.vdot2F16 d a t b u r) d (fun s =>
    let x := s.V a.toNat
    let y := s.V b.toNat
    let l := (List.range 4).map fun i =>
      dot2 r.toNat (lane 16 x (2 * i)) (lane 16 y (2 * i)) (lane 16 x (2 * i + 1)) (lane 16 y (2 * i + 1))
        (lane 32 (s.V d.toNat) i)
    (ofLanes 32 (l.map Prod.fst), l.flatMap Prod.snd)) s

/-- The signed 8-bit and 32-bit integer formats. -/
def s8 : IntFmt := ⟨8, true⟩
def s32 : IntFmt := ⟨32, true⟩

/-- `vdot4.s8`: a lane that saturates counts overflow (07 R226). -/
def execVdot4S8 (d a : BitVec 6) (t : BitVec 1) (b : BitVec 6) (u : BitVec 1) (s : State) :
    Host.Outcome State Fault Refusal :=
  issueVC (.vdot4S8 d a t b u) d (fun s =>
    let l := (List.range 4).map fun i =>
      let sum := (List.range 4).foldl (fun acc j =>
        acc + valInt s8 (lane 8 (s.V a.toNat) (4 * i + j)) * valInt s8 (lane 8 (s.V b.toNat) (4 * i + j)))
        (valInt s32 (lane 32 (s.V d.toNat) i))
      (wrapInt 32 (satInt s32 sum), if satInt s32 sum = sum then [] else [kOVF])
    (ofLanes 32 (l.map Prod.fst), l.flatMap Prod.snd)) s

/-! ### Reductions (07 R227, 04 R139) -/

/-- One level of the pairwise tree. -/
def pairUp (op : LaneOp) : List Nat → List Nat × List Nat
  | a :: b :: l =>
    let x := op [a, b]
    let r := pairUp op l
    (x.1 :: r.1, x.2 ++ r.2)
  | l => (l, [])

/-- The tree over up to 2^n lanes, with the conditions of every node. -/
def tree (op : LaneOp) : Nat → List Nat → Nat × List Nat
  | 0, l => (l.headD 0, [])
  | n + 1, l =>
    let x := pairUp op l
    let r := tree op n x.1
    (r.1, x.2 ++ r.2)

/-- A reduction of the lanes of a vector into lane 0. -/
def reduce (y : BitVec 6) (op : LaneOp) (x : VWord) : VWord × List Nat :=
  let r := tree op 4 (lanes (fmtWidth y) x)
  (ofLanes (fmtWidth y) [r.1], r.2)

/-- `vredadd` (07 R227). -/
def execVredadd (d a : BitVec 6) (t : BitVec 1) (y : BitVec 6) (s : State) : Host.Outcome State Fault Refusal :=
  issueVC (.vredadd d a t y) d (fun s => reduce y (laneOp y (int2 iAdd) (fun f m => op2 (fAdd f m))) (s.V a.toNat)) s

/-- `vredmin` (07 R227). -/
def execVredmin (d a : BitVec 6) (t : BitVec 1) (y : BitVec 6) (s : State) : Host.Outcome State Fault Refusal :=
  issueVC (.vredmin d a t y) d (fun s => reduce y (laneOp y (int2 iMin) (fun f _ => op2 fun x z => quiet (fMin f x z))) (s.V a.toNat)) s

/-- `vredmax` (07 R227). -/
def execVredmax (d a : BitVec 6) (t : BitVec 1) (y : BitVec 6) (s : State) : Host.Outcome State Fault Refusal :=
  issueVC (.vredmax d a t y) d (fun s => reduce y (laneOp y (int2 iMax) (fun f _ => op2 fun x z => quiet (fMax f x z))) (s.V a.toNat)) s

/-! ### Shifts, scale and lane moves (07 R228-R230) -/

/-- `vsll` (07 R228). -/
def execVsll (d a : BitVec 6) (t : BitVec 1) (y : BitVec 6) (k : BitVec 7) (s : State) :
    Host.Outcome State Fault Refusal :=
  issueVC (.vsll d a t y k) d (fun s => eachLane y (laneOp y (int1 fun f c => c * 2 ^ k.toNat % 2 ^ f.bits) (fun _ _ _ => (0, []))) [s.V a.toNat]) s

/-- `vsrl` (07 R228). -/
def execVsrl (d a : BitVec 6) (t : BitVec 1) (y : BitVec 6) (k : BitVec 7) (s : State) :
    Host.Outcome State Fault Refusal :=
  issueVC (.vsrl d a t y k) d (fun s => eachLane y (laneOp y (int1 fun _ c => c / 2 ^ k.toNat) (fun _ _ _ => (0, []))) [s.V a.toNat]) s

/-- `vsra` (07 R228). -/
def execVsra (d a : BitVec 6) (t : BitVec 1) (y : BitVec 6) (k : BitVec 7) (s : State) :
    Host.Outcome State Fault Refusal :=
  issueVC (.vsra d a t y k) d (fun s => eachLane y (laneOp y (int1 fun f c => wrapInt f.bits (valInt ⟨f.bits, true⟩ c / 2 ^ k.toNat)) (fun _ _ _ => (0, []))) [s.V a.toNat]) s

/-- `vscale` (07 R229). -/
def execVscale (d a : BitVec 6) (t : BitVec 1) (y : BitVec 6) (k : BitVec 7) (s : State) :
    Host.Outcome State Fault Refusal :=
  issueVC (.vscale d a t y k) d (fun s =>
    eachLane y (laneOp y noInt fun f _ l => roundIeee f 0 ((valFloat f (l.getD 0 0)).scale k.toInt)) [s.V a.toNat]) s

/-- `vsplat`: the scalar field names no window (07 R230, 05 R159). -/
def execVsplat (d : BitVec 6) (r : BitVec 5) (t : BitVec 1) (y : BitVec 6) (s : State) :
    Host.Outcome State Fault Refusal :=
  issueV (.vsplat d r t y) d.toNat (fun s =>
    ofLanes (fmtWidth y) (List.replicate (128 / fmtWidth y) (s.SV r).toNat)) s

/-- `vins` (07 R230). -/
def execVins (d : BitVec 6) (r : BitVec 5) (t : BitVec 1) (y : BitVec 6) (i : BitVec 5) (s : State) :
    Host.Outcome State Fault Refusal :=
  issueV (.vins d r t y i) d.toNat (fun s => setLane (fmtWidth y) (s.V d.toNat) i.toNat (s.SV r).toNat) s

/-- The scalar that `vext` takes out: sign-extended for a signed integer type (07 R230). -/
def extracted (y : BitVec 6) (x : VWord) (i : Nat) : Word :=
  match intFmt y with
  | some f => BitVec.ofInt 64 (valInt f (lane (fmtWidth y) x i))
  | none => BitVec.ofNat 64 (lane (fmtWidth y) x i)

/-- `vext`: the scalar field names no window (07 R230, 05 R159). -/
def execVext (r : BitVec 5) (a : BitVec 6) (t : BitVec 1) (y : BitVec 6) (i : BitVec 5) (s : State) :
    Host.Outcome State Fault Refusal :=
  issue (.vext r a t y i) (fun s => s.setSV r.toNat (extracted y (s.V a.toNat) i.toNat)) s

/-! ### Bitwise and byte operations (07 R231-R232) -/

/-- `vand` (07 R231). -/
def execVand (d a : BitVec 6) (t : BitVec 1) (b : BitVec 6) (u : BitVec 1) (s : State) :
    Host.Outcome State Fault Refusal :=
  issueV (.vand d a t b u) d.toNat (fun s => s.V a.toNat &&& s.V b.toNat) s

/-- `vor` (07 R231). -/
def execVor (d a : BitVec 6) (t : BitVec 1) (b : BitVec 6) (u : BitVec 1) (s : State) :
    Host.Outcome State Fault Refusal :=
  issueV (.vor d a t b u) d.toNat (fun s => s.V a.toNat ||| s.V b.toNat) s

/-- `vxor` (07 R231). -/
def execVxor (d a : BitVec 6) (t : BitVec 1) (b : BitVec 6) (u : BitVec 1) (s : State) :
    Host.Outcome State Fault Refusal :=
  issueV (.vxor d a t b u) d.toNat (fun s => s.V a.toNat ^^^ s.V b.toNat) s

/-- `vandn` (07 R231). -/
def execVandn (d a : BitVec 6) (t : BitVec 1) (b : BitVec 6) (u : BitVec 1) (s : State) :
    Host.Outcome State Fault Refusal :=
  issueV (.vandn d a t b u) d.toNat (fun s => s.V a.toNat &&& ~~~s.V b.toNat) s

/-- Bytes of x picked by the bytes of y (07 R231). -/
def shuffle (x y : VWord) : VWord :=
  ofLanes 8 ((lanes 8 y).map fun j => if 128 ≤ j then 0 else lane 8 x (j % 16))

/-- `vshuf` (07 R231). -/
def execVshuf (d a : BitVec 6) (t : BitVec 1) (b : BitVec 6) (u : BitVec 1) (s : State) :
    Host.Outcome State Fault Refusal :=
  issueV (.vshuf d a t b u) d.toNat (fun s => shuffle (s.V a.toNat) (s.V b.toNat)) s

/-- `vmov` (07 R231). -/
def execVmov (d a : BitVec 6) (t : BitVec 1) (s : State) : Host.Outcome State Fault Refusal :=
  issueV (.vmov d a t) d.toNat (fun s => s.V a.toNat) s

/-- `vnop` (05 R153). -/
def execVnop (s : State) : Host.Outcome State Fault Refusal := issue .vnop (fun s => s) s

/-- One byte of the CRC of 07 R232. -/
def crcStep (c : Nat) (b : Nat) : Nat :=
  (List.range 8).foldl (fun c _ => if c % 2 = 1 then (c / 2) ^^^ 0x82F63B78 else c / 2) (c ^^^ b)

/-- `vcrc` (07 R232). -/
def execVcrc (d a : BitVec 6) (t : BitVec 1) (s : State) : Host.Outcome State Fault Refusal :=
  issueV (.vcrc d a t) d.toNat (fun s =>
    BitVec.ofNat 128 ((lanes 8 (s.V a.toNat)).foldl crcStep (lane 32 (s.V d.toNat) 0))) s

/-! ### Conversion, pack and unpack (07 R233-R236) -/

/-- One converted element (07 R234): a NaN gives the NaN of the destination, or 0. -/
def convertElem (dst : BitVec 6) (mode : Nat) (ovf : Bool) (k : Int) (src : BitVec 6) (c : Nat) : Nat × List Nat :=
  convert dst mode ovf ((valOf src c).scale k)

/-- All elements of a vector, converted (07 R234). -/
def convertVec (dst src : BitVec 6) (mode : Nat) (ovf : Bool) (k : Int) (x : VWord) : VWord × List Nat :=
  let m := 128 / max (fmtWidth dst) (fmtWidth src)
  let l := (List.range m).map fun i => convertElem dst mode ovf k src (lane (fmtWidth src) x i)
  (ofLanes (fmtWidth dst) (l.map Prod.fst), l.flatMap Prod.snd)

/-- `vcvt` (07 R233-R234). -/
def execVcvt (r : BitVec 2) (d a : BitVec 6) (t : BitVec 1) (g f : BitVec 6) (o : BitVec 1) (s : State) :
    Host.Outcome State Fault Refusal :=
  issueVC (.vcvt r d a t g f o) d (fun s => convertVec g f r.toNat (o = 1) 0 (s.V a.toNat)) s

/-- `vcvt` with a scale (05 R169, 07 R233-R234). -/
def execVcvtScaled (k : BitVec 10) (r : BitVec 2) (d a : BitVec 6) (t : BitVec 1) (g f : BitVec 6) (o : BitVec 1)
    (s : State) : Host.Outcome State Fault Refusal :=
  issueVC (.vcvtScaled k r d a t g f o) d (fun s => convertVec g f r.toNat (o = 1) k.toInt (s.V a.toNat)) s

/-- The wide type of a narrow code (07 R235). -/
def wideOf (y : BitVec 6) : BitVec 6 := if y.toNat = 0 then 1 else if y.toNat = 8 then 9 else 0x11

/-- `vpack`: the lanes of the old vd, then those of va (07 R235). -/
def execVpack (d a : BitVec 6) (t : BitVec 1) (y : BitVec 6) (s : State) : Host.Outcome State Fault Refusal :=
  issueVC (.vpack d a t y) d (fun s =>
    let w := fmtWidth (wideOf y)
    let l := (lanes w (s.V d.toNat) ++ lanes w (s.V a.toNat)).map (convertElem y 0 false 0 (wideOf y))
    (ofLanes (fmtWidth y) (l.map Prod.fst), l.flatMap Prod.snd)) s

/-- `vunpack`: half h of the narrow elements, exactly, raising no counter (07 R236). -/
def execVunpack (d a : BitVec 6) (t : BitVec 1) (h : BitVec 1) (y : BitVec 6) (s : State) : Host.Outcome State Fault Refusal :=
  issueV (.vunpack d a t h y) d.toNat (fun s =>
    let w := fmtWidth (wideOf y)
    let n := 128 / w
    ofLanes w ((List.range n).map fun i =>
      (convertElem (wideOf y) 0 false 0 y (lane (fmtWidth y) (s.V a.toNat) (h.toNat * n + i))).1)) s

end Sys2Proof.Machine
end

