-- ==== Sys2Proof/Machine/Engine.lean ====
section
/-! DEFINITION. How an engine performs a command: its accesses, its element order, its stops and its end
(10 R330-R338), and the matrix engine's and the copy engine's commands (10 R341-R358). A command runs from
its start to its end at one turn, unless one of its accesses waits for a translation, or the turn grants it fewer steps: a step is
one read, or the write of an element, so that others may move between any two accesses (10 R364, log 11). -/

namespace Sys2Proof.Machine

/-! ### Accesses of an engine -/

/-- Why a command stops at a step (10 R333): an error, a page of another owner, a page that must be walked, a memory home that
admits no more requests for now (23 R550). -/
inductive Stop where
  | err (code : Nat)
  | denied (pa : Nat)
  | page (va : Word) (write : Bool)
  | busy
deriving DecidableEq, Repr

/-- The cached translation of an engine's access: the cache of its quad, or that of the die's walker (20 R487, log
102). -/
def State.engCached (s : State) (c : Cmd) (va : Nat) (write : Bool) : Option Tlb :=
  if c.unit = 4 then s.dieCached c.place c.xctx va write else s.cached c.place c.xctx va write

/-- A translation that an engine waited for enters that cache. -/
def State.engFill (s : State) (c : Cmd) (t : Tlb) : State :=
  if c.unit = 4 then s.modDie c.place fun d => { d with tlb := fillTlb t d.tlb } else s.cacheFill c.place t

/-- The page of an engine's access; one that is in no cache waits for a walk, but for a granule it may not touch. -/
def State.engPage (s : State) (c : Cmd) (va : Nat) (write : Bool) : Walked :=
  match s.engCached c va write with
  | some t => s.ofTlb t c.level va
  | none => match s.walk c.xctx c.level va write with
    | .denied pa => .denied pa
    | .fault k => .fault k
    | .page .. => .fault .absent

/-- The place an engine's access of `n` bytes reaches, after the checks of 08 R246; ranges of commands do not
conflict with commands (08 R276). -/
def State.engPlace (s : State) (c : Cmd) (ok : Addr → Bool) (a : Word) (n : Nat) (write : Bool) :
    Except Stop Place :=
  let w := whoCmd c
  let k : Acc := if write then .store else .load
  if !ok (decodeAddr a) || s.regionFault w a n k then .error (.err eACCESS)
  else if a.toNat % n ≠ 0 then .error (.err eMISALIGN)
  else if s.partFault w a k || s.plugFault w a n k then .error (.err eACCESS)
  else match decodeAddr a with
    | .global va => match s.engPage c va write with
      | .page v _ pa _ =>
        if w.lid.isNone || s.portAllowed (quadOf (coreOf c.th)) (pa + (va - v)) then .ok (.tier (pa + (va - v)))
        else .error (.err eACCESS)
      | .fault _ => .error (.page a write)
      | .denied pa => .error (.denied pa)
    | _ => match s.placeOf a none with
      | some p => .ok p
      | none => .error (.err eACCESS)

/-- Region 0 of a core of a quad, or global space (10 R343, R346). -/
def nearOrGlobal (quad : Nat) : Addr → Bool
  | .win core r _ => quadOf core = quad && r = 0
  | .global _ => true
  | _ => false

/-- Region 0 of a core of a quad (10 R348, R355). -/
def nearQuad (quad : Nat) : Addr → Bool
  | .win core r _ => quadOf core = quad && r = 0
  | _ => false

/-- Where the copy engine goes: regions 0, 4 and 5, and global space (10 R351). -/
def inCopy : Addr → Bool
  | .win _ r _ => r = 0 || r = 4 || r = 5
  | .global _ => true
  | _ => false

/-- An engine's access is admitted at its home: elsewhere than in the tiers always, and there when it belongs to the request of a
line that has been admitted, or when the home admits one more (23 R550, log 111). -/
def State.engAdmit (s : State) : Place → Except Stop State
  | .tier pa =>
    if s.lineIn (memPort pa) (pa / 64) then .ok s
    else if s.portAdmits (memPort pa) then .ok (s.letLine (memPort pa) (some (pa / 64)))
    else .error .busy
  | _ => .ok s

/-- An element of `w` bits at a bit offset from an address; a 4-bit element is half of its byte (04 R118). -/
def State.rdElem (s : State) (c : Cmd) (ok : Addr → Bool) (base : Word) (bit w : Nat) : Except Stop (State × Nat) := do
  let p ← s.engPlace c ok (base + BitVec.ofNat 64 (bit / 8)) (w / 8 + (if w < 8 then 1 else 0)) false
  let u ← s.engAdmit p
  return (u, if w = 4 then u.rd p 1 / 2 ^ (bit % 8) % 16 else u.rd p (w / 8))

/-- That element written. -/
def State.wrElem (s : State) (c : Cmd) (ok : Addr → Bool) (base : Word) (bit w x : Nat) : Except Stop State := do
  let p ← s.engPlace c ok (base + BitVec.ofNat 64 (bit / 8)) (w / 8 + (if w < 8 then 1 else 0)) true
  let u ← s.engAdmit p
  return if w = 4 then
      let b := u.rd p 1
      u.wrHome p 1 (if bit % 8 = 0 then b / 16 * 16 + x % 16 else b % 16 + x % 16 * 16)
    else u.wrHome p (w / 8) x

/-! ### The run of a command (10 R331, R333) -/

/-- The run state of a command that has started. -/
def State.started (s : State) (c : Cmd) : Option Running :=
  (s.engine c.unit c.place).running.find? fun r => r.cmd = c

/-- The run state of a command is set. -/
def State.setRun (s : State) (r : Running) : State :=
  s.modEngine r.cmd.unit r.cmd.place fun e => { e with running := (e.running.filter fun x => x.cmd ≠ r.cmd) ++ [r] }

/-- A command's run state is changed. -/
def State.modRun (s : State) (c : Cmd) (f : Running → Running) : State :=
  s.modEngine c.unit c.place fun e => { e with running := e.running.map fun x => if x.cmd = c then f x else x }

/-- The requests that a command of a combining node stands for (10 R339). -/
def State.combined (s : State) (c : Cmd) : Option CombKey :=
  if c.unit = 2 && c.op = 0x11 then
    (s.quad c.place).comb.find? fun k => k.expected = 0 && k.reqs.head?.any fun r => r.th = c.th && r.seq = c.seq
  else none

/-- A command ends. A combined multicast gives its outcome to every request it stands for (10 R339). -/
def State.endCmd (s : State) (c : Cmd) (r : CmdResult) : State :=
  let s1 := s.modEngine c.unit c.place fun e => { e with running := e.running.filter fun x => x.cmd ≠ c }
  match s.combined c with
  | some k =>
    k.reqs.foldl (fun s q => (s.unlockCmd q.th q.seq).complete q r)
      (s1.modQuad c.place fun q => { q with comb := q.comb.filter (· ≠ k) })
  | none => (s1.unlockCmd c.th c.seq).complete c r

/-- The first column the command's engine owns, and their number (10 R341). -/
def colsOf (s : State) (c : Cmd) : Nat × Nat := s.mxCols c.lid

/-- The steps that read, for an element that a further step writes: of a drain the bias and the accumulator, of a gather or
scatter the index and the source, of a reconstruction its neighbours (10 R343-R355, 11 R388). -/
def cmdReads (c : Cmd) : Nat :=
  match c.op with
  | 0x02 | 0x10 | 0x11 | 0x31 => 1
  | 0x06 => 1 + bits c.spec 27 27
  | 0x12 | 0x13 => 2
  | 0x30 => (kernSlots c).length
  | _ => 0

/-- The steps of a command of `n` elements; a row of a stream is 64 reads and a step for each column owned. -/
def cmdTotal (c : Cmd) (n : Nat) : Nat := n * (cmdReads c + 1)

/-- The element that a step belongs to: the first not written when it fails (10 R333); of a stream, the first of its row; of a
collective, whose reads of its source all come before its writes, the first until it writes its result. -/
def State.elemOf (s : State) (c : Cmd) (k : Nat) : Nat :=
  if c.op = 4 then k / (64 + (colsOf s c).2) * 64
  else if c.unit = 4 then (s.started c).elim 0 fun r => if r.phase = 3 then k else 0
  else k / (cmdReads c + 1)

/-- The run state of a command that stands before step `k`: what it holds for a hop has got through when the step is a later
one (21 R521). -/
def Running.goes (r : Running) (k : Nat) : Running :=
  { r with progress := k, hop := if r.progress < k then none else r.hop, full := false }

/-- A command is to go on from step `k` at a later turn. -/
def State.pauseAt (s : State) (c : Cmd) (k : Nat) : State := s.modRun c fun r => { r.goes k with paused := true }

/-- A command stops before step `k`. -/
def State.stopCmd (s : State) (c : Cmd) (k : Nat) : Stop → State
  | .err e => s.endCmd c ⟨2, e, s.elemOf c k⟩
  | .denied pa => (s.security (dieOfTh c.th) (BitVec.ofNat 64 pa) c.lid).endCmd c ⟨2, eACCESS, s.elemOf c k⟩
  | .page va write => (s.modRun c fun r => r.goes k).modDie (dieOfTh c.th) fun d =>
      { d with walks := d.walks ++ [.engine c k va write] }
  | .busy => (s.pauseAt c k).modRun c fun r => { r with full := true }

/-- Steps `k`, `k` + 1, … of a run, until one stops. -/
def steps (f : Nat → State → Except Stop State) : Nat → Nat → State → State × Nat × Option Stop
  | 0, k, s => (s, k, none)
  | n + 1, k, s => match f k s with
    | .ok s' => steps f n (k + 1) s'
    | .error e => (s, k, some e)

/-- The steps that a command may do now, of those left. -/
def State.granted (s : State) (left : Nat) : Nat := s.grant.elim left (min left)

/-- The steps of a started command from step `k` on: as far as it is granted, to a stop, or to its end. -/
def State.runFrom (s : State) (c : Cmd) (n k : Nat) (f : Nat → State → Except Stop State) (fin : State → State) : State :=
  match steps f (s.granted (n - k)) k s with
  | (s', j, none) => if j < n then s'.pauseAt c j else fin s'
  | (s', j, some x) => s'.stopCmd c j x

/-- THE RUN OF A COMMAND: the checks of its start and its start, unless it has started and waited for a
translation or for its next turn; then its `n` steps; then its end. -/
def State.runCmd (s : State) (c : Cmd) (check : State → Nat) (start : State → State) (n : Nat)
    (f : Nat → State → Except Stop State) (fin : State → State) : State :=
  let e := check s
  match s.started c with
  | none =>
    if e ≠ 0 then s.endCmd c ⟨2, e, 0⟩
    else (start (s.setRun { cmd := c, progress := 0 })).runFrom c n 0 f fin
  | some r => (s.modRun c fun r => { r with paused := false }).runFrom c n r.progress f fin

/-- What a command has read for the element it stands at. -/
def State.heldOf (s : State) (c : Cmd) : List Nat := (s.started c).elim [] (·.hold)

/-- The j-th read of an element is kept until its write. -/
def State.hold (s : State) (c : Cmd) (j x : Nat) : State :=
  s.modRun c fun r => { r with hold := r.hold.take j ++ [x] }

/-- Step `k` of a command each of whose elements takes `p` reads, `rd`, and then the step `put` with what was read. -/
def State.elemStep (s : State) (c : Cmd) (p : Nat) (rd : Nat → Nat → Except Stop (State × Nat))
    (put : Nat → List Nat → Except Stop State) (k : Nat) : Except Stop State :=
  let e := k / (p + 1)
  let j := k % (p + 1)
  if j < p then (rd e j).map fun x => x.1.hold c j x.2 else put e (s.heldOf c)

/-- A command that ends well. -/
def State.doneCmd (s : State) (c : Cmd) : State := s.endCmd c ⟨0, 0, 0⟩

/-- The conditions of an element are counted at the core of the issuing thread (04 R147). -/
def State.countCmd (s : State) (c : Cmd) (l : List Nat) : State := s.addConds (coreOf c.th) l.eraseDups

/-! ### Matrix engine (10 R341-R350) -/

/-- The state of a matrix engine or half. -/
def State.mx (s : State) (c : Cmd) : Mx := get {} (s.quad c.place).mx c.unit

def State.modMx (s : State) (c : Cmd) (f : Mx → Mx) : State :=
  s.modQuad c.place fun q => { q with mx := put {} q.mx c.unit (f (get {} q.mx c.unit)) }

/-- A descriptor of a command that acceptance has checked. -/
def State.tdOf (s : State) (c : Cmd) (k : Nat) : Tensor := (s.td c.lid k).getD ⟨0, 0, 0, [], []⟩

/-- Element (k, j) of plane p, and element (i, j) of tile t (08 R244). -/
def planePlace (quad p k j : Nat) : Place := .plane quad (0x2000 * p + 128 * k + 2 * j)
def accPlace (quad t i j : Nat) : Place := .acc quad (0x4000 * t + 256 * i + 4 * j)

/-- The formats that `mx.cfg` may set (10 R342). -/
def mxCfgCheck (c : Cmd) : Nat :=
  let a := BitVec.ofNat 6 (bits c.spec 5 0)
  let b := BitVec.ofNat 6 (bits c.spec 11 6)
  if matrixFormat a && matrixFormat b && intCode a = intCode b then 0 else eCONFIG

/-- `mx.cfg` (10 R342). -/
def State.runMxCfg (s : State) (c : Cmd) : State :=
  s.runCmd c (fun _ => mxCfgCheck c) id 0 (fun _ s => .ok s) fun s =>
    (s.modMx c fun m => { m with
      afmt := some (BitVec.ofNat 6 (bits c.spec 5 0)), sfmt := some (BitVec.ofNat 6 (bits c.spec 11 6)) }).doneCmd c

/-- Element (k, j) of the shadow plane lies within the source of an `mx.ldst`. -/
def State.ldstInside (s : State) (c : Cmd) (e : Nat) : Bool :=
  let t := s.tdOf c (bits c.spec 5 0)
  e % (colsOf s c).2 < t.extent 0 && e / (colsOf s c).2 < t.extent 1

/-- Element (k, j) of the source is read; outside it, zero (10 R343). -/
def State.ldstRead (s : State) (c : Cmd) (e : Nat) : Except Stop (State × Nat) :=
  let t := s.tdOf c (bits c.spec 5 0)
  let n := (colsOf s c).2
  if s.ldstInside c e then
    s.rdElem c (nearOrGlobal c.place) (BitVec.ofNat 64 (c.word 1)) (e / n * t.stride 1 + e % n * t.width) t.width
  else .ok (s, 0)

/-- Element (k, j) of the shadow plane is written (10 R343). -/
def State.ldstElem (s : State) (c : Cmd) (e x : Nat) : State :=
  let cols := colsOf s c
  let m := s.mx c
  let y := if s.ldstInside c e then (convert (m.sfmt.getD 0) 0 false (valOf (s.tdOf c (bits c.spec 5 0)).fmt x)).1 else 0
  s.wr (planePlace c.place (1 - m.active) (e / cols.2) (cols.1 + e % cols.2)) 2 y

/-- `mx.ldst` (10 R343). -/
def State.runMxLdst (s : State) (c : Cmd) : State :=
  s.runCmd c (fun s => if (s.mx c).sfmt.isNone then eCONFIG else 0) id (cmdTotal c (64 * (colsOf s c).2))
    (fun k s => s.elemStep c 1 (fun e _ => s.ldstRead c e) (fun e l => .ok (s.ldstElem c e (l.headD 0))) k) fun s =>
      (s.modMx c fun m => { m with
        kstat := put 0 m.kstat (1 - m.active) ((s.tdOf c (bits c.spec 5 0)).base + sbits c.spec 13 6) }).doneCmd c

/-- The planes change places (10 R344). -/
def State.swapPlanes (s : State) (c : Cmd) : State := s.modMx c fun m => { m with active := 1 - m.active }

/-- `mx.swap` (10 R344). -/
def State.runMxSwap (s : State) (c : Cmd) : State :=
  s.runCmd c (fun _ => 0) id 0 (fun _ s => .ok s) fun s => (s.swapPlanes c).doneCmd c

/-- One accumulator element of float operands: the exact sum of the products, one rounding, and the
accumulation (04 R136), with the conditions that count (04 R147). -/
def macFloat (af sf : BitVec 6) (k : Int) (acts stats : List Nat) (old : Option Nat) : Nat × List Nat :=
  let terms := (acts.zip stats).map fun p => (valOf af p.1, valOf sf p.2)
  let prods := terms.map fun p => p.1.mul p.2
  let nanIn := terms.any fun p => p.1.isNan || p.2.isNan
  let sum : Val := prods.foldl (fun v p => (Val.add 0 v p.1).1) (Val.fin false 0 0 false)
  let invalid := prods.any (·.2) || (sum.isNan && !prods.any fun p => p.1.isNan)
  let p := roundIeee f32 0 (sum.scale k)
  let conds := (if invalid then [kINV] else []) ++ (if sum.isNan && !nanIn then [kNAN] else []) ++ p.2
  match old with
  | none => (p.1, accumConds conds)
  | some x => let r := fAdd f32 0 x p.1; (r.1, accumConds (conds ++ r.2))

/-- One accumulator element of integer operands (04 R137). -/
def macInt (af sf : BitVec 6) (acts stats : List Nat) (old : Option Nat) : Nat × List Nat :=
  let val := fun (y : BitVec 6) (x : Nat) => (intFmt y).elim 0 fun f => valInt f x
  let sum := (acts.zip stats).foldl (fun z p => z + val af p.1 * val sf p.2) 0
  match old with
  | none => (wrapInt 32 sum, [])
  | some x =>
    let y := valInt ⟨32, true⟩ x + sum
    (wrapInt 32 (satInt ⟨32, true⟩ y), if satInt ⟨32, true⟩ y = y then [] else [kOVF])

/-- kAct + kStat of a stream, the swap it makes included (10 R346). -/
def State.streamScale (s : State) (c : Cmd) (active : Nat) : Int :=
  (s.tdOf c (bits c.spec 18 13)).base + sbits c.spec 26 19 + get 0 (s.mx c).kstat active

/-- The tiles that a stream touches. -/
def streamTiles (c : Cmd) : List Nat :=
  (List.range ((bits c.spec 8 0 + 64) / 64)).map (bits c.spec 10 9 + ·)

/-- The checks a stream makes when it starts (10 R330, R346, 04 R129). -/
def State.streamCheck (s : State) (c : Cmd) : Nat :=
  let m := s.mx c
  let plane := if bits c.spec 12 12 = 1 then 1 - m.active else m.active
  match m.afmt with
  | none => eCONFIG
  | some a =>
    if (s.tdOf c (bits c.spec 18 13)).fmt ≠ a then eMISMATCH
    else if intCode a && bits c.spec 11 11 = 1 &&
        (streamTiles c).any (fun t => get 0 m.scales t ≠ s.streamScale c plane) then eSCALE
    else 0

/-- Element j of row i of a stream's operands is read (10 R346). -/
def State.streamRead (s : State) (c : Cmd) (i j : Nat) : Except Stop (State × Nat) :=
  let t := s.tdOf c (bits c.spec 18 13)
  s.rdElem c (nearOrGlobal c.place) (BitVec.ofNat 64 (c.word 1) + BitVec.ofNat 64 (i * t.stride 1 / 8)) (j * t.width) t.width

/-- Column j0 of the row of accumulators that row i of a stream makes (10 R346). -/
def State.streamAcc (s : State) (c : Cmd) (i j0 : Nat) (acts : List Nat) : State :=
  let m := s.mx c
  let a := m.afmt.getD 0
  let b := m.sfmt.getD 0
  let j := (colsOf s c).1 + j0
  let stats := (List.range 64).map fun k => s.rd (planePlace c.place m.active k j) 2
  let p := accPlace c.place (bits c.spec 10 9 + i / 64) (i % 64) j
  let old := if bits c.spec 11 11 = 1 then some (s.rd p 4) else none
  let r := if intCode a then macInt a b acts stats old
    else macFloat a b (s.streamScale c m.active) acts stats old
  (s.wr p 4 r.1).countCmd c r.2

/-- Step k of a stream: a read of its row's 64 operands, or one of the columns. -/
def State.streamStep (s : State) (c : Cmd) (k : Nat) : Except Stop State :=
  let p := 64 + (colsOf s c).2
  if k % p < 64 then (s.streamRead c (k / p) (k % p)).map fun x => x.1.hold c (k % p) x.2
  else .ok (s.streamAcc c (k / p) (k % p - 64) (s.heldOf c))

/-- `mx.stream` (10 R346). -/
def State.runMxStream (s : State) (c : Cmd) : State :=
  s.runCmd c (fun s => s.streamCheck c) (fun s => if bits c.spec 12 12 = 1 then s.swapPlanes c else s)
    ((bits c.spec 8 0 + 1) * (64 + (colsOf s c).2)) (fun k s => s.streamStep c k) fun s =>
      let m := s.mx c
      let s1 := if intCode (m.afmt.getD 0) && bits c.spec 11 11 = 0 then
          s.modMx c fun m => { m with
            scales := (streamTiles c).foldl (fun z t => put 0 z t (s.streamScale c m.active)) m.scales }
        else s
      s1.doneCmd c

/-- The tiles that an `mx.zero` names. -/
def zeroTiles (c : Cmd) : List Nat := (List.range 4).filter fun t => bits c.spec t t = 1

/-- Element k of those tiles, within the columns owned, becomes zero (10 R347). -/
def State.zeroElem (s : State) (c : Cmd) (k : Nat) : State :=
  let cols := colsOf s c
  s.wr (accPlace c.place ((zeroTiles c).getD (k / (64 * cols.2)) 0) (k / cols.2 % 64) (cols.1 + k % cols.2)) 4 0

/-- `mx.zero`: tiles become zero within the columns owned (10 R347). -/
def State.runMxZero (s : State) (c : Cmd) : State :=
  s.runCmd c (fun _ => 0) id ((zeroTiles c).length * (64 * (colsOf s c).2)) (fun k s => .ok (s.zeroElem c k)) fun s =>
    (s.modMx c fun m => { m with scales := (zeroTiles c).foldl (fun z t => put 0 z t 0) m.scales }).doneCmd c

/-- The output code of an accumulator element (10 R349), with its conditions. -/
def epilogue (isInt : Bool) (recorded : Int) (c : Cmd) (x bias : Nat) : Nat × List Nat :=
  let sp := c.spec
  let o := BitVec.ofNat 6 (bits sp 19 14)
  let k := sbits (c.word 2) 25 16
  let act := bits sp 24 23
  let rm := bits sp 21 20
  let hasBias := bits sp 27 27 = 1
  if isInt && intCode o && !hasBias && act ≠ 2 then
    let y := valInt ⟨32, true⟩ x
    let y := if act = 1 && y < 0 then 0 else y
    convert o rm false ((ofInt y).scale (recorded + k))
  else
    let v := if isInt then (ofInt (valInt ⟨32, true⟩ x)).scale (recorded + k) else (valFloat f32 x).scale k
    let b := if hasBias then valFloat f32 bias else .fin false 0 0 false
    let r := roundOp f32 0 (v.add 0 b) (v.isNan || b.isNan)
    let y := valFloat f32 r.1
    let z : Nat × List Nat :=
      if act = 1 then (if y.isNan then (f32.nanCode, []) else if y.sign || y.isZero then (0, []) else (r.1, []))
      else if act = 2 then roundIeee f32 0 (sfGelu y)
      else (r.1, [])
    let out := convert o rm (bits sp 22 22 = 1) (valFloat f32 z.1)
    (out.1, r.2 ++ z.2 ++ out.2)

/-- What element e of a drain reads: its accumulator, and then, where there is one, its bias (10 R349). -/
def State.drainRead (s : State) (c : Cmd) (e j : Nat) : Except Stop (State × Nat) :=
  let cols := colsOf s c
  if j = 0 then .ok (s, s.rd (accPlace c.place (bits c.spec 1 0) (bits c.spec 13 8 + e / cols.2) (cols.1 + e % cols.2)) 4)
  else s.rdElem c (nearQuad c.place) (BitVec.ofNat 64 (c.word 3)) (32 * (cols.1 + e % cols.2)) 32

/-- Element e of a drain, in ascending row and column, from its accumulator and its bias (10 R349). -/
def State.drainElem (s : State) (c : Cmd) (e : Nat) (l : List Nat) : Except Stop State :=
  let n := (colsOf s c).2
  let m := s.mx c
  let w := fmtWidth (BitVec.ofNat 6 (bits c.spec 19 14))
  let r := epilogue (intCode (m.afmt.getD 0)) (get 0 m.scales (bits c.spec 1 0)) c (l.getD 0 0) (l.getD 1 0)
  (s.wrElem c inScratch (BitVec.ofNat 64 (c.word 1) + BitVec.ofNat 64 (e / n * bits (c.word 2) 15 0)) (e % n * w) w r.1).map
    fun u => u.countCmd c r.2

/-- The elements of a drain. -/
def State.drainCount (s : State) (c : Cmd) : Nat := (bits c.spec 7 2 + 1) * (colsOf s c).2

/-- The closure of a drain (10 R350): a wake message, whose acceptance completes the drain, or an insert. -/
def State.drainClosure (s : State) (c : Cmd) (n : Nat) : State :=
  let sp := c.spec
  let k := 3 + bits sp 27 27
  let w := fun i : Nat => BitVec.ofNat 64 (c.word i)
  if bits sp 26 25 = 0 then s.doneCmd c
  else if bits sp 26 25 = 1 then
    match s.wakeTarget c.lid c.level (w 1) with
    | none => s.endCmd c ⟨2, eACCESS, n⟩
    | some core =>
      ((s.modRun c fun r => r.goes (cmdTotal c n)).unlockCmd c.th c.seq).send
        (some (endEngine c.unit c.place, core)) (.wakeMessage {
          core := core, entry := w k, args := [w (k + 1), w (k + 2), w (k + 3), w (k + 4)], level := c.level
          h := false, lid := c.lid, sender := .engine c.th c.unit c.seq, since := s.hub.cycle })
  else
    let r : Rec := ⟨w k, w (k + 1)⟩
    match s.recordFault c.lid r, c.lid with
    | none, some lid =>
      (s.insertRecord (endEngine c.unit c.place) (dieOfTh c.th) c.th (whoCmd c) lid r none).doneCmd c
    | _, _ => s.endCmd c ⟨2, eACCESS, n⟩

/-- `mx.drain` (10 R348-R350). -/
def State.runMxDrain (s : State) (c : Cmd) : State :=
  let n := s.drainCount c
  s.runCmd c (fun s => if (s.mx c).afmt.isNone then eCONFIG else 0) id (cmdTotal c n)
    (fun k s => s.elemStep c (cmdReads c) (fun e j => s.drainRead c e j) (fun e l => s.drainElem c e l) k)
    fun s => s.drainClosure c n

/-! ### Copy engine (10 R351-R358) -/

/-- The converted element (10 R351). -/
def State.copyConv (s : State) (c : Cmd) (x : Nat) : Nat × List Nat :=
  let sp := c.spec
  let a := s.tdOf c (bits sp 5 0)
  let b := s.tdOf c (bits sp 11 6)
  let k := a.base + sbits (c.word 3) 7 0 + sbits sp 25 16 - (b.base + sbits (c.word 3) 15 8)
  convert b.fmt (bits sp 13 12) (bits sp 14 14 = 1) ((valOf a.fmt x).scale k)

/-- A source element of a copy is read. -/
def State.copyRead (s : State) (c : Cmd) (src : Word) (bit : Nat) : Except Stop (State × Nat) :=
  s.rdElem c inCopy src bit (s.tdOf c (bits c.spec 5 0)).width

/-- What was read is converted and written. -/
def State.copyWrite (s : State) (c : Cmd) (dst : Word) (bit x : Nat) : Except Stop State :=
  (s.wrElem c inCopy dst bit (s.tdOf c (bits c.spec 11 6)).width (s.copyConv c x).1).map fun u => u.countCmd c (s.copyConv c x).2

/-- Element e in row-major order of the source tensor, and of the one at `dst` (10 R352). -/
def State.srcAt (s : State) (c : Cmd) (e : Nat) : Except Stop (State × Nat) :=
  s.copyRead c (BitVec.ofNat 64 (c.word 1)) ((s.tdOf c (bits c.spec 5 0)).bitOff e)

def State.dstAt (s : State) (c : Cmd) (dst : Word) (e x : Nat) : Except Stop State :=
  s.copyWrite c dst ((s.tdOf c (bits c.spec 11 6)).bitOff e) x

/-- `cp.copy` (10 R352). -/
def State.runCpCopy (s : State) (c : Cmd) : State :=
  s.runCmd c (fun _ => 0) id (cmdTotal c (s.tdOf c (bits c.spec 5 0)).count)
    (fun k s => s.elemStep c 1 (fun e _ => s.srcAt c e) (fun e l => s.dstAt c (BitVec.ofNat 64 (c.word 2)) e (l.headD 0)) k)
    fun s => s.doneCmd c

/-! A multicast goes on towards each destination by itself (10 R353). -/

/-- The destinations of a multicast (10 R353). -/
def mcastDests (c : Cmd) : List Word := c.words.getD 2 0 :: c.words.drop 4

/-- The steps towards one destination. -/
def State.waySteps (s : State) (c : Cmd) : Nat := cmdTotal c (s.tdOf c (bits c.spec 5 0)).count

/-- The command that the accesses for destination d are made for: that of the request which asked for it, when the multicast
stands for combined ones (10 R324, R339). -/
def State.destCmd (s : State) (c : Cmd) (d : Nat) : Cmd :=
  match (s.combined c).bind (·.reqs[d]?) with
  | some q => { c with th := q.th, lid := q.lid, level := q.level, xctx := q.xctx }
  | none => c

/-- The command that the access of step `k` is made for. -/
def State.stepCmd (s : State) (c : Cmd) (k : Nat) : Cmd := if c.op = 0x11 then s.destCmd c (k / s.waySteps c) else c

/-- Destination d of a multicast has failed. -/
def State.mcastFail (s : State) (c : Cmd) (d e k : Nat) : State :=
  s.modRun c fun r => { r with fails := r.fails ++ [(d, e, k)] }

/-- Where a multicast stands at destination d is changed. -/
def State.modWay (s : State) (c : Cmd) (d : Nat) (f : Way → Way) : State :=
  s.modRun c fun r => { r with ways := (r.ways.take d) ++ ((r.ways.drop d).take 1).map f ++ r.ways.drop (d + 1) }

/-- A destination has not failed, and is not written in full. -/
def Running.wayLeft (r : Running) (n d : Nat) : Bool :=
  (r.ways[d]?).any (fun w => w.next < n) && !r.fails.any fun f => f.1 = d

/-- It does not wait for a page either. -/
def Running.wayOpen (r : Running) (n d : Nat) : Bool := r.wayLeft n d && (r.ways[d]?).any fun w => !w.waits

/-- The destination whose turn it is: the one that the turn names, or of those open the one least far on. -/
def Running.wayNext (r : Running) (aim : Option Nat) (n : Nat) : Option Nat :=
  let l := (List.range r.ways.length).filter (r.wayOpen n)
  match aim with
  | some d => if l.contains d then some d else none
  | none =>
    let least := (l.map fun d => (r.ways[d]?).elim 0 (·.next)).foldl min n
    l.find? fun d => (r.ways[d]?).elim 0 (·.next) = least

/-- Step `w.next` towards destination d: element e is read, or written there; and whether the home had room for it. -/
def State.wayStep (s : State) (c : Cmd) (d : Nat) (w : Way) : State × Bool :=
  let q := s.destCmd c d
  let e := w.next / 2
  let went := fun (u : State) (l : List Nat) => (u.modWay c d fun x => { x with next := w.next + 1, hold := l }).modRun c fun r =>
    r.goes (r.progress + 1)
  let r : Except Stop State :=
    if w.next % 2 = 0 then (s.srcAt q e).map fun x => went x.1 [x.2]
    else (s.dstAt q ((mcastDests c).getD d 0) e (w.hold.headD 0)).map fun u => went u []
  match r with
  | .ok u => (u, true)
  | .error (.err x) => (s.mcastFail c d x e, true)
  | .error (.denied pa) => ((s.security (dieOfTh q.th) (BitVec.ofNat 64 pa) q.lid).mcastFail c d eACCESS e, true)
  | .error (.page va wr) => ((s.modWay c d fun x => { x with waits := true }).modDie (dieOfTh c.th) fun x =>
      { x with walks := x.walks ++ [.engine c (d * s.waySteps c + w.next) va wr] }, true)
  | .error .busy => (s, false)

/-- Steps of a multicast, one after another, as far as a destination is open and the homes have room. -/
def State.wayTurn (s : State) (c : Cmd) : Nat → State
  | 0 => s
  | fuel + 1 => match (s.started c).bind fun r => (r.wayNext s.aim (s.waySteps c)).map fun d => (d, r.ways.getD d {}) with
    | none => s
    | some p => match s.wayStep c p.1 p.2 with
      | (u, true) => u.wayTurn c fuel
      | (u, false) => u

/-- The outcome of a multicast (10 R354). -/
def mcastResult (n : Nat) (fails : List (Nat × Nat × Nat)) : CmdResult :=
  if fails.isEmpty then ⟨0, 0, 0⟩
  else if fails.length < n then
    ⟨1, eDEST_FAULT, ((List.range n).filter fun d => !fails.any fun f => f.1 = d).foldl (fun a d => a + 2 ^ d) 0⟩
  else match fails.find? fun f => f.1 = 0 with
    | some f => ⟨2, f.2.1, f.2.2⟩
    | none => ⟨2, eDEST_FAULT, 0⟩

/-- A multicast ends when no destination is left; else it goes on at a later turn, if one is open. -/
def State.mcastRest (s : State) (c : Cmd) : State :=
  match s.started c with
  | none => s
  | some r =>
    let l := List.range (mcastDests c).length
    if l.all fun d => !r.wayLeft (s.waySteps c) d then s.endCmd c (mcastResult (mcastDests c).length r.fails)
    else s.modRun c fun r => { r with paused := l.any (r.wayOpen (s.waySteps c)) }

/-- `cp.mcast` (10 R353-R354). -/
def State.runCpMcast (s : State) (c : Cmd) : State :=
  let m := (mcastDests c).length
  let s1 := if (s.started c).isNone then s.setRun { cmd := c, progress := 0, ways := List.replicate m {} } else s
  (s1.wayTurn c (s1.granted ((s1.waySteps c + 1) * m))).mcastRest c

/-- A destination of a multicast waits no longer for the page of step `k` of all. -/
def State.wayBack (s : State) (c : Cmd) (k : Nat) : State :=
  s.modWay c (k / s.waySteps c) fun w => { w with waits := false }

/-- Index p of the list of a gather or scatter (10 R355). -/
def State.indexAt (s : State) (c : Cmd) (p : Nat) : Except Stop (State × Nat) :=
  s.rdElem c (nearQuad c.place) (BitVec.ofNat 64 (c.word 4)) (32 * p) 32

/-- The address of the element that an index names, of `w` bits each from an address on. -/
def indexed (base : Word) (w x : Nat) : Word := base + BitVec.ofInt 64 (valInt ⟨32, true⟩ x * (w / 8 : Nat))

/-- `cp.gather` (10 R355). -/
def State.runCpGather (s : State) (c : Cmd) : State :=
  s.runCmd c (fun _ => 0) id (cmdTotal c (bits (c.word 5) 15 0 + 1)) (fun k s => s.elemStep c 2
    (fun p j => if j = 0 then s.indexAt c p else s.copyRead c
      (indexed (BitVec.ofNat 64 (c.word 1)) (s.tdOf c (bits c.spec 5 0)).width ((s.heldOf c).headD 0)) 0)
    (fun p l => s.copyWrite c (BitVec.ofNat 64 (c.word 2)) (p * (s.tdOf c (bits c.spec 11 6)).width) (l.getD 1 0)) k)
    fun s => s.doneCmd c

/-- `cp.scatter` (10 R355). -/
def State.runCpScatter (s : State) (c : Cmd) : State :=
  s.runCmd c (fun _ => 0) id (cmdTotal c (bits (c.word 5) 15 0 + 1)) (fun k s => s.elemStep c 2
    (fun p j => if j = 0 then s.indexAt c p else s.copyRead c (BitVec.ofNat 64 (c.word 1)) (p * (s.tdOf c (bits c.spec 5 0)).width))
    (fun _ l => s.copyWrite c (indexed (BitVec.ofNat 64 (c.word 2)) (s.tdOf c (bits c.spec 11 6)).width (l.headD 0)) 0 (l.getD 1 0)) k)
    fun s => s.doneCmd c

/-- `cp.fill` (10 R356). -/
def State.runCpFill (s : State) (c : Cmd) : State :=
  let t := s.tdOf c (bits c.spec 11 6)
  s.runCmd c (fun _ => 0) id t.count
    (fun k s => s.wrElem c inCopy (BitVec.ofNat 64 (c.word 1)) (t.bitOff k) t.width (c.word 2 % 2 ^ t.width))
    fun s => s.doneCmd c

/-- `cp.crc`: the final value is the status detail (10 R357). DESIGN CHOICE (log 138): its source may lie where a copy's may. -/
def State.runCpCrc (s : State) (c : Cmd) : State :=
  s.runCmd c (fun _ => 0) (fun s => s.modRun c fun r => { r with acc := bits (c.word 2) 31 0 })
    (bits (c.word 2) 63 32) (fun k s => do
      let b ← s.rdElem c inCopy (BitVec.ofNat 64 (c.word 1)) (8 * k) 8
      return b.1.modRun c fun r => { r with acc := crcStep r.acc b.2 }) fun s =>
    s.endCmd c ⟨0, 0, (s.started c).elim 0 (·.acc)⟩

/-- The network port that a `cp.send` names (10 R358). -/
def State.sendPort (s : State) (c : Cmd) : Port := get {} s.hub.ports (bits (c.word 2) 16 15)

/-- A frame may enter an egress queue (10 R358, 19 R464, R470): the port is not down, the queue is enabled
and the partition's, and a Galsol port has a route to the frame's destination. -/
def State.egressOk (s : State) (c : Cmd) (dest : Option Nat) : Bool :=
  let p := s.sendPort c
  let q := (get {} s.hub.egress (bits (c.word 2) 22 17)).conf
  let part := (c.lid.bind s.launch).map (·.part)
  let route := fun n : Nat => (get 0 s.hub.groute n).getLsbD 63
  !p.down && (!p.galsol || p.up) && q.getLsbD 63 && (part.isNone || part = some (q.toNat / 2 ^ 58 % 32)) &&
    (!p.galsol || (dest.elim true route))

/-- `cp.send`: it completes when its last byte is in the egress queue; a port that has gone down since it started fails it, be it up
again (10 R358, R364). DESIGN CHOICE (log 138): its source may lie where a copy's may. -/
def State.runCpSend (s : State) (c : Cmd) : State :=
  s.runCmd c (fun s => if s.egressOk c none then 0 else ePORT) (fun s => s.modRun c fun r => { r with acc := (s.sendPort c).losses })
    (bits (c.word 2) 14 0)
    (fun k s => (s.rdElem c inCopy (BitVec.ofNat 64 (c.word 1)) (8 * k) 8).map fun x =>
      x.1.modRun c fun r => { r with data := r.data ++ [x.2] }) fun s =>
    let l := (s.started c).elim [] (·.data)
    if !s.egressOk c l.head? || (s.started c).any (fun r => r.acc ≠ (s.sendPort c).losses) then s.endCmd c ⟨2, ePORT, 0⟩
    else
      let x := bits (c.word 2) 22 17
      let q := get {} s.hub.egress x
      let q := { q with frames := q.frames ++ [(bits (c.word 2) 16 15, l.map (BitVec.ofNat 8))] }
      (s.modHub fun h => { h with egress := put {} h.egress x q }).doneCmd c

/-! ### The commands as they are performed -/

/-- `mx.cfg` (10 R342). -/
def execMxCfg (c : Cmd) (s : State) : Host.Outcome State Fault Refusal := .next (s.runMxCfg c)
/-- `mx.ldst` (10 R343). -/
def execMxLdst (c : Cmd) (s : State) : Host.Outcome State Fault Refusal := .next (s.runMxLdst c)
/-- `mx.swap` (10 R344). -/
def execMxSwap (c : Cmd) (s : State) : Host.Outcome State Fault Refusal := .next (s.runMxSwap c)
/-- `mx.stream` (10 R346). -/
def execMxStream (c : Cmd) (s : State) : Host.Outcome State Fault Refusal := .next (s.runMxStream c)
/-- `mx.zero` (10 R347). -/
def execMxZero (c : Cmd) (s : State) : Host.Outcome State Fault Refusal := .next (s.runMxZero c)
/-- `mx.drain` (10 R348-R350). -/
def execMxDrain (c : Cmd) (s : State) : Host.Outcome State Fault Refusal := .next (s.runMxDrain c)
/-- `cp.copy` (10 R352). -/
def execCpCopy (c : Cmd) (s : State) : Host.Outcome State Fault Refusal := .next (s.runCpCopy c)
/-- `cp.mcast` (10 R353). -/
def execCpMcast (c : Cmd) (s : State) : Host.Outcome State Fault Refusal := .next (s.runCpMcast c)
/-- `cp.gather` (10 R355). -/
def execCpGather (c : Cmd) (s : State) : Host.Outcome State Fault Refusal := .next (s.runCpGather c)
/-- `cp.scatter` (10 R355). -/
def execCpScatter (c : Cmd) (s : State) : Host.Outcome State Fault Refusal := .next (s.runCpScatter c)
/-- `cp.fill` (10 R356). -/
def execCpFill (c : Cmd) (s : State) : Host.Outcome State Fault Refusal := .next (s.runCpFill c)
/-- `cp.crc` (10 R357). -/
def execCpCrc (c : Cmd) (s : State) : Host.Outcome State Fault Refusal := .next (s.runCpCrc c)
/-- `cp.send` (10 R358). -/
def execCpSend (c : Cmd) (s : State) : Host.Outcome State Fault Refusal := .next (s.runCpSend c)

end Sys2Proof.Machine
end

