-- ==== Sys2Proof/Machine/Coverage.lean ====
section
/-! DEFINITION. Coverage: the skip pattern, audit points, latches, required neighbours, the controller, and
what a thread reads of them (11 R368-R387). -/

namespace Sys2Proof.Machine

/-- A point of the walk. -/
structure Point where
  x : Nat
  y : Nat
  z : Nat
deriving DecidableEq, Repr

/-- The status of a point (11 R370, R386). -/
def stKept : Nat := 0
def stSkipped : Nat := 1
def stAudit : Nat := 2
def stOutside : Nat := 3

/-- The point at a position of the walk: x the fastest, then y, then z (11 R368). -/
def Walk.point (w : Walk) (k : Nat) : Point := ⟨k % w.nx, k / w.nx % w.ny, k / (w.nx * w.ny)⟩
def Walk.count (w : Walk) : Nat := w.nx * w.ny * w.nz
def Walk.inside (w : Walk) (p : Point) : Bool := p.x < w.nx && p.y < w.ny && p.z < w.nz

/-- The output locator of a point (11 R365). -/
def Walk.locator (w : Walk) (p : Point) : Word :=
  BitVec.ofNat 64 (w.scale % 256 * 2 ^ 56 + w.space % 4 * 2 ^ 54 +
    (w.base + p.x * w.sx + p.y * w.sy + p.z * w.sz) % 2 ^ 54)

/-- The audit function (11 R372). -/
def auditPoint (p : Point) (g rate : Nat) : Bool :=
  let h := (0x6A09 + 0x9E37 * p.x + 0x7F4B * p.y + 0x3C6F * p.z + 0x1D87 * g) % 65536
  let h := ((h ^^^ (h / 128)) * 0x2B6D) % 65536
  h < 65536 / rate

/-- Fields of a pattern word (11 R370). -/
def patPx (w : BitVec 96) : Nat := 2 ^ (w.extractLsb' 94 2).toNat
def patPy (w : BitVec 96) : Nat := 2 ^ (w.extractLsb' 92 2).toNat
def patPz (w : BitVec 96) : Nat := 2 ^ (w.extractLsb' 90 2).toNat
def patShear (w : BitVec 96) : Nat := (w.extractLsb' 87 3).toNat

/-- A pattern keeps a point (11 R370). -/
def patKeeps (w : BitVec 96) (p : Point) : Bool :=
  let r := p.z % patPz w
  let u := (p.x + patShear w * p.y + r) % patPx w
  let v := (p.y + r) % patPy w
  w.getLsbD (u + 8 * v)

/-- The status of a point under a pattern. -/
def statusUnder (c : Cover) (level g : Nat) (p : Point) : Nat :=
  if patKeeps (c.ladder.getD level 0) p then stKept
  else if auditPoint p g c.rate then stAudit else stSkipped

/-- The level of a plane from the latched runs (11 R385). -/
def levelOfPlane (l : List (Nat × Nat)) (z : Nat) : Nat :=
  ((l.filter fun p => p.1 ≤ z).getLast?.getD (0, 0)).2

/-- The level of the current run. -/
def runLevel (l : List (Nat × Nat)) : Option Nat := l.getLast?.map Prod.snd

/-- The level that the next plane would be latched at (11 R385). -/
def Launch.nextLevel (l : Launch) : Nat :=
  match runLevel l.latches with
  | none => l.ctl.level
  | some r => if r ≠ l.ctl.level && 64 ≤ l.latches.length then r else l.ctl.level

/-- The latch of the next plane. -/
def Launch.latch (l : Launch) : Launch :=
  let z := l.planes
  let v := l.nextLevel
  { l with
    planes := z + 1
    latches := if runLevel l.latches = some v then l.latches else l.latches ++ [(z, v)] }

/-- A point is kept under its plane's latched pattern. -/
def Launch.keeps (l : Launch) (c : Cover) (p : Point) : Bool :=
  patKeeps (c.ladder.getD (levelOfPlane l.latches p.z) 0) p

/-- The neighbour of a point in slot j: W, E, N, S (11, notation). -/
def Point.side (p : Point) (j : Nat) : Option Point :=
  if j = 0 then (if p.x = 0 then none else some ⟨p.x - 1, p.y, p.z⟩)
  else if j = 1 then some ⟨p.x + 1, p.y, p.z⟩
  else if j = 2 then (if p.y = 0 then none else some ⟨p.x, p.y - 1, p.z⟩)
  else some ⟨p.x, p.y + 1, p.z⟩

/-- A slot qualifies: its neighbour lies in the space and is kept (11 R373). -/
def Launch.slotOk (l : Launch) (w : Walk) (c : Cover) (q : Point) (j : Nat) : Bool :=
  match q.side j with
  | some p => w.inside p && l.keeps c p
  | none => false

/-- The slots of a hole that a kernel requires (11 R373). -/
def Launch.required (l : Launch) (w : Walk) (c : Cover) (kernel : Nat) (q : Point) : List Nat :=
  let ok := l.slotOk w c q
  if kernel = 1 then
    if c.near < 4 then [c.near].filter ok else ([0, 1, 2, 3].filter ok).take 1
  else if kernel = 2 then (if c.axisY then [2, 3] else [0, 1]).filter ok
  else if kernel = 3 || kernel = 4 then [0, 1, 2, 3].filter ok
  else []

/-- The value of `cov.q` (11 R386). -/
def Launch.covQuery (l : Launch) (p : Point) : Word :=
  match l.walk, l.cover with
  | some w, some c =>
    let latched := p.z < l.planes
    let level := if latched then levelOfPlane l.latches p.z else l.nextLevel
    let st := if w.inside p then statusUnder c level l.gen p else stOutside
    BitVec.ofNat 64 ((if latched then 0 else 2 ^ 11) + level % 8 * 256 + st)
  | _, _ => 0

/-- `cov.q` (11 R386). -/
def execCovQ (d a : BitVec 5) (t : BitVec 1) (s : State) : Host.Outcome State Fault Refusal :=
  issueS (.covQ d a t) d (fun s =>
    let x := (s.S a).toNat
    (s.launchOf s.cur).elim 0 fun l => l.covQuery ⟨x / 2 ^ 32 % 65536, x / 65536 % 65536, x % 65536⟩) s

/-- The items of `cov.rd`; in ordered mode those that would record timing are the values of the last
declaration (11 R387). -/
def Launch.covItem (l : Launch) (k : Nat) : Nat :=
  if l.cover.isNone then 0
  else
    let c := l.ctl
    let live := [c.level, c.e.toNat, c.lastE.toNat, c.audits, c.kept, c.skipped, c.declUnresolved, c.run]
    let timed := k = 1 || k = 3 || k = 4 || k = 5 || k = 7
    if l.ordered && timed then c.decl.getD k 0 else live.getD k 0

/-- `cov.rd` (11 R387). -/
def execCovRd (d : BitVec 5) (i : BitVec 3) (s : State) : Host.Outcome State Fault Refusal :=
  issueS (.covRd d i) d (fun s => BitVec.ofNat 64 ((s.launchOf s.cur).elim 0 fun l => l.covItem i.toNat)) s

/-- One f32 bound compared with another. -/
def f32Lt (a b : BitVec 32) : Bool := (valFloat f32 a.toNat).lt (valFloat f32 b.toNat)

/-- A controller instant (11 R384): level, run count and epoch. -/
def Control.instant (c : Control) (v : Cover) : Control :=
  let c1 :=
    if c.epochAudits = 0 then c
    else if f32Lt v.hi c.e then { c with level := min (c.level + 1) v.ceil, run := 0 }
    else if f32Lt c.e v.lo then
      if v.holdN ≤ c.run + 1 then { c with level := max (c.level - 1) v.floor, run := 0 }
      else { c with run := c.run + 1 }
    else { c with run := 0 }
  { c1 with lastE := if c.epochAudits = 0 then c.lastE else c.e, e := 0, epochAudits := 0 }

/-- A controller instant of a launch, posted as COVUPD by its scheduler's die (11 R384, 22 R528). -/
def State.controlInstant (s : State) (lid die : Nat) : State :=
  match s.launch lid with
  | some l => match l.cover with
    | some v =>
      let c := l.ctl.instant v
      (s.modLaunch lid fun l => { l with ctl := c }).post die 0x0C (some lid) (die * 1024) 0
        (BitVec.ofNat 32 c.level) l.ctl.e (BitVec.ofNat 32 c.run)
    | none => s
  | none => s

/-- A completed audit reports its error (11 R381, R384). -/
def State.reportAudit (s : State) (lid die : Nat) (e : BitVec 32) : State :=
  match s.launch lid with
  | some l => match l.cover with
    | some v =>
      let s1 := s.modLaunch lid fun l => { l with ctl := { l.ctl with
        e := if f32Lt l.ctl.e e then e else l.ctl.e
        audits := l.ctl.audits + 1
        epochAudits := l.ctl.epochAudits + 1 } }
      if v.upd ≠ 0 && (l.ctl.epochAudits + 1) % v.upd = 0 then s1.controlInstant lid die else s1
    | none => s
  | none => s

end Sys2Proof.Machine
end

