-- ==== Sys2Proof/Machine/Launches.lean ====
section
/-! DEFINITION. A launch as the die scheduler and the service core see it: its completion record, its
failure, the requests held for it and their effects, and its release (02 R43, R69-R72, 19 R451-R457). -/

namespace Sys2Proof.Machine

/-! ### Who serves a launch -/

/-- The die of a partition's scheduler: that of its lowest-numbered requester port (21 R508). -/
def State.schedDie (s : State) (part : Nat) : Nat :=
  (((List.range 32).find? fun p => (partReq (get 0 s.hub.part part)).getLsbD p).getD 0) / 8

/-- The core a die's scheduler runs on: core 1 of the control quad of quadrant 0 (21 R504). -/
def schedCore (die : Nat) : Nat := controlQuad die 0 * 4 + 1

/-- The scheduler acts at level 2 in its launch's translation context. -/
def Launch.schedWho (l : Launch) (die lid : Nat) : Who :=
  { th := schedCore die * 16, lid := some lid, level := 2, xctx := l.xctx }

/-! ### Virtual accesses of luthier's own (19 R451, R456) -/

/-- The die whose walker translates luthier's own accesses to queues, images and records: the hub's (log 102). -/
def ownDie : Nat := 4

/-- A page fault of luthier's own. -/
def ownFault (item : XItem) (xctx va access : Nat) (k : PageFault) : ParkedFault :=
  { item := item, va := BitVec.ofNat 64 va, xctx := xctx, access := access, requester := 4096
    kind := match k with
      | .absent => 0 | .write => 1 | .format => 2 }

/-- What waits for a translation is of a launch. -/
def itemLid : XItem → Option Nat
  | .access r => r.lid
  | .insert _ _ lid _ _ _ => some lid
  | .engine c _ _ _ => c.lid
  | .fetch .. | .host .. | .own .. | .ownRead .. => none

/-- What faults is parked, so that a bounded launch whose it is has lost its bounds (17 R416); when the die parks 256 already, its
walk stays in flight (20 R491). -/
def State.parkOrWait (s : State) (die : Nat) (f : ParkedFault) : State :=
  (s.loseBound (itemLid f.item)).modDie die fun d =>
    if d.parked.length < 256 then { d with parked := d.parked ++ [f] } else { d with walks := d.walks ++ [f.item] }

/-- The physical address of a virtual one that luthier reads, as the cache of its walker or the tables give it. -/
def State.virtPa (s : State) (xctx va : Nat) : Option Nat :=
  match (match s.dieCached ownDie xctx va false with
    | some t => s.ofTlb t 2 va
    | none => s.walk xctx 2 va false) with
  | .page v _ pa _ => some (pa + (va - v))
  | _ => none

/-- `n` bytes at a virtual address; a byte that the ownership check refuses reads zero (log 125). -/
def State.virtRead (s : State) (xctx va : Nat) : Nat → Nat
  | 0 => 0
  | n + 1 =>
    (match s.virtPa xctx (va % 2 ^ 52) with
      | some pa => (s.byteAt (.tier pa)).toNat
      | none => 0) + 256 * s.virtRead xctx (va + 1) n

/-- A read of luthier's from some addresses has not been made. -/
def State.ownWaits (s : State) (xctx lo hi : Nat) : Bool :=
  (s.die ownDie).pending.any fun
    | .ownRead x va _ => x = xctx && lo ≤ va && va < hi
    | _ => false

/-- The pieces of n bytes at a virtual address, none across a boundary of the smallest page: address and length. -/
def ownPieces (va n : Nat) : List (Nat × Nat) :=
  (List.range ((va + n + 65535) / 65536 - va / 65536)).map fun k =>
    let a := max va ((va / 65536 + k) * 65536)
    (a % 2 ^ 52, min (va + n) ((va / 65536 + k + 1) * 65536) - a)

/-- Bytes that luthier is to read stand at the walker of its die, unless they have been read or stand there (20 R487-R491). -/
def State.reachBytes (s : State) (xctx va n : Nat) : State :=
  (ownPieces va n).foldl (fun s p =>
    if s.hub.ownDone.contains (xctx, p) || (s.die ownDie).pending.contains (.ownRead xctx p.1 p.2) then s
    else s.modDie ownDie fun d => { d with walks := d.walks ++ [.ownRead xctx p.1 p.2] }) s

/-- They have been read. -/
def State.reached (s : State) (xctx va n : Nat) : Bool := (ownPieces va n).all fun p => s.hub.ownDone.contains (xctx, p)

/-- They are done with. -/
def State.readOver (s : State) (xctx va n : Nat) : State :=
  s.modHub fun h => { h with ownDone := h.ownDone.filter fun x => !(x.1 = xctx && (ownPieces va n).any fun p =>
    p.1 / 65536 = x.2.1 / 65536) }

/-- A piece is read: its page enters the cache of the walker, a refused one is a security event, and a page fault is parked. -/
def State.ownReads (s : State) (xctx va n : Nat) : State :=
  let done := fun (s : State) => s.modHub fun h => { h with ownDone := h.ownDone ++ [(xctx, va, n)] }
  match s.resolveDie ownDie xctx 2 va false with
  | (t, .page ..) => done t
  | (t, .denied pa) => done (t.security ownDie (BitVec.ofNat 64 pa) none)
  | (t, .fault k) => t.parkOrWait ownDie (ownFault (.ownRead xctx va n) xctx va 0 k)

/-- The memory ports of the lines that n bytes at a virtual address lie in, as far as luthier finds their pages. -/
def State.ownPorts (s : State) (xctx va n : Nat) (write : Bool) : List Nat :=
  (List.range ((va + n + 63) / 64 - va / 64)).filterMap fun k =>
    let a := (max va ((va / 64 + k) * 64)) % 2 ^ 52
    match s.pageOf xctx a write with
    | .page v _ pa _ => some (memPort (pa + (a - v)))
    | _ => none

/-- `n` bytes written at a virtual address, and the interrupt that follows. A page that the ownership check refuses is a security
event; what is left of the write at a page fault is parked (20 R488, R491). -/
def State.virtPut (s : State) (xctx va : Nat) (irq : Option (Nat × Nat)) : Nat → Nat → State
  | 0, _ => match irq with
    | some p => s.emit (.interrupt p.1 p.2)
    | none => s
  | n + 1, x =>
    let a := va % 2 ^ 52
    match s.resolveDie ownDie xctx 2 a true with
    | (t, .page v _ pa _) => (t.wrHome (.tier (pa + (a - v))) 1 x).virtPut xctx (va + 1) irq n (x / 256)
    | (t, .denied pa) => (t.security ownDie (BitVec.ofNat 64 pa) none).virtPut xctx (va + 1) irq n (x / 256)
    | (t, .fault k) => t.parkOrWait ownDie (ownFault (.own xctx a (n + 1) x irq) xctx a 1 k)

/-- A write of luthier's stands last at the walker of its die, which performs them one after another, so that what reads their
bytes meanwhile sees the first of them and not the later ones (19 R456). -/
def State.virtWriteThen (s : State) (xctx va n x : Nat) (irq : Option (Nat × Nat)) : State :=
  s.modDie ownDie fun d => { d with walks := d.walks ++ [.own xctx va n x irq] }

def State.virtWrite (s : State) (xctx va n x : Nat) : State := s.virtWriteThen xctx va n x none

/-! ### Completion records (19 R456) -/

/-- Fields of `QCFG` (19 R448). -/
def qEn (x : Word) : Bool := x.getLsbD 63
def qSvc (x : Word) : Nat := x.toNat / 2 ^ 59 % 16
def qPrio (x : Word) : Nat := x.toNat / 2 ^ 56 % 8
def qRsv (x : Word) : Bool := x.getLsbD 55
def qPart (x : Word) : Nat := x.toNat / 2 ^ 50 % 32
def qSize (x : Word) : Nat := 2 ^ (x.toNat / 2 ^ 30 % 16 + 4)
def qVec (x : Word) : Nat := x.toNat / 2 ^ 19 % 2048
def qIrq (x : Word) : Bool := x.getLsbD 18

def State.modQueue (s : State) (q : Nat) (f : Queue → Queue) : State :=
  s.modHub fun h => { h with queues := put {} h.queues q (f (get {} h.queues q)) }

/-- The bytes of a record that no field of a status names: zero, once a status is terminal. The acceptance stamp stays as it
was written at acceptance. -/
def zeroFields (status : Nat) : List (Nat × Nat × Nat) := if 2 ≤ status then [(1, 15, 0), (0x1C, 100, 0)] else []

/-- A status is written into a completion record: every other byte, then byte 0; and the queue's interrupt for a
terminal one (19 R456). Fields are offset, size, value. -/
def State.writeStatus (s : State) (queue : Nat) (compl : Word) (status : Nat) (l : List (Nat × Nat × Nat)) :
    State :=
  let cfg := (s.queueOf queue).cfg
  let x := qXctx cfg
  let s1 := (zeroFields status ++ l).foldl (fun s p => s.virtWrite x (compl.toNat + p.1) p.2.1 p.2.2) s
  s1.virtWriteThen x compl.toNat 1 status (if 2 ≤ status && qIrq cfg then some (queue / 16, qVec cfg) else none)

/-- The status "accepted" with its handle and stamp, one commit with the advance of the queue (19 R454). -/
def State.writeAccepted (s : State) (queue : Nat) (r : Request) : State :=
  let x := qXctx (s.queueOf queue).cfg
  let put := fun (s : State) (o n v : Nat) => s.virtPut x (r.compl.toNat + o) none n v
  put (put (put s 4 4 r.handle) 0x10 12 s.stamp.toNat) 0 1 1

/-- The records of a launch that a fretboard holds and that are resident: processed and not reserved (02 R47). -/
def Fret.residents (f : Fret) (lid : Nat) : List FRec := f.recs.filter fun r => r.lid = lid && r.processed && !r.reserved

/-- Their number over the package, those of saved quads included. -/
def State.residents (s : State) (lid : Nat) : Nat :=
  (s.quads.map fun q => (q.2.fret.residents lid).length).foldl (· + ·) 0 +
    (s.hub.saved.map fun x => (x.fret.residents lid).length).foldl (· + ·) 0

/-- The fields of a launch's record at the end of a generation or at its failure (19 R456). -/
def State.launchFields (s : State) (lid : Nat) (l : Launch) (err index detail : Nat) (stable : Option (BitVec 96)) :
    List (Nat × Nat × Nat) :=
  [(1, 1, l.rung), (2, 1, (if l.stepped then 1 else 0) + (if l.missed then 2 else 0)), (3, 1, err), (4, 4, l.handle),
   (8, 4, index), (0xC, 4, detail), (0x1C, 12, (l.firstFiring.getD 0).toNat), (0x28, 12, (stable.getD 0).toNat),
   (0x34, 12, s.stamp.toNat), (0x40, 4, l.gen), (0x44, 4, s.residents lid), (0x48, 8, l.firings), (0x50, 8, l.inserts),
   (0x58, 4, l.ctl.unresolved)]

/-- The result of a request that is no launch, in its own record (19 R452, R456). -/
def State.answerReq (s : State) (r : Request) (status err written : Nat) : State :=
  s.writeStatus r.queue r.compl status [(3, 1, err), (4, 4, r.handle), (0x34, 12, s.stamp.toNat), (0x44, 4, written)]

/-! Error codes of a completion record (19 R457). -/
def kIMAGE_MAGIC : Nat := 0x01
def kACCESS : Nat := 0x31
def kPOOL_OVERFLOW : Nat := 0x32
def kDUP_TAG : Nat := 0x33
def kENGINE_ORPHAN : Nat := 0x34
def kJOIN_ACTION : Nat := 0x35
def kRECON_FAULT : Nat := 0x36
def kTRAP : Nat := 0x37
def kMACHINE : Nat := 0x38
def kWATCHDOG : Nat := 0x39
def kBAD_REQUEST : Nat := 0x3A
def kUNKNOWN_HANDLE : Nat := 0x3B
def kPOD_GROUP : Nat := 0x3C
def kLAUNCH_FAILED : Nat := 0x3D

/-- A LAUNCH EVENT at the root: acceptance, first firing, stability (22 R528). -/
def State.postLaunch (s : State) (lid cls : Nat) : State :=
  match s.launch lid with
  | some l => s.post 4 cls (some lid) 4096 0 (BitVec.ofNat 32 l.handle) (BitVec.ofNat 32 l.queue) (BitVec.ofNat 32 l.gen)
  | none => s

/-! ### Freeing contexts, and release (03 R82, 19 R452) -/

/-- A context is Free: it holds no window, no request, no words of an unfinished command and no result
(10 R327, R337), and it has left the round and the claims of its core (06 R209, 17 R412). -/
def State.freeNow (s : State) (th : Nat) : State :=
  (s.modCore (coreOf th) (leaveCore th false)).modCtx th fun c => { c with
    status := .free, before := .free, lid := none, rule := none, win := [], held := [], deferred := [], prods := []
    notes := [], partialCmd := [], resq := [], synced := none, stub := none, winWait := none, byWake := false
    hflag := false, level := 0 }

/-- The commands and the parked slots of a launch leave an engine. -/
def dropCmds (lid : Nat) (e : Engine) : Engine :=
  let keep := fun c : Cmd => c.lid ≠ some lid
  { e with
    queues := e.queues.foldl (fun m p => put [] m p.1 (p.2.filter keep)) []
    loose := e.loose.filter keep
    running := e.running.filter fun r => keep r.cmd
    clocks := e.clocks.filter fun x => x.lid ≠ some lid
    slots := e.slots.filter fun p => p.1 / 16 ≠ lid + 1 }

/-- A reconstruction unit without the firings of a launch, and what it holds of them. -/
def Recon.without (r : Recon) (lid : Nat) : Recon :=
  { held := r.held.filter (·.lid ≠ lid), refusal := r.refusal.filter (·.lid ≠ lid), begun := r.begun.filter (·.lid ≠ lid) }
def Recon.part (r : Recon) (lid : Nat) : Recon :=
  { held := r.held.filter (·.lid = lid), refusal := r.refusal.filter (·.lid = lid), begun := r.begun.filter (·.lid = lid) }

/-- The commands an engine has accepted and not ended. -/
def Engine.cmds (e : Engine) : List Cmd :=
  e.queues.flatMap Prod.snd ++ e.loose ++ e.running.map (·.cmd) ++ e.slots.filterMap fun p => match p.2 with
    | some (.parked c) => some c
    | _ => none

/-- The commands of a launch that have not ended, those at a combining node included. -/
def State.outstanding (s : State) (lid : Nat) : List Cmd :=
  (s.quads.flatMap (fun q => q.2.eng.flatMap (fun e => e.2.cmds) ++ q.2.comb.flatMap (·.reqs)) ++
    s.dies.flatMap fun d => d.2.coll.cmds).filter fun c => c.lid = some lid

/-- What a launch holds in a fretboard goes. -/
def dropRecs (lid : Nat) (f : Fret) : Fret :=
  { f with
    recs := f.recs.filter fun r => r.lid ≠ lid
    arrCount := put 0 f.arrCount lid 0
    trigCount := f.trigCount.filter fun p => p.1 / 32768 ≠ lid
    firings := put 0 f.firings lid 0
    refused := f.refused.filter fun x => x.lid ≠ lid }

/-- What started a task belongs to a launch. -/
def startLid : Start → Option Nat
  | .firing f => some f.lid
  | .wake w => w.lid

/-- The contexts of a launch become Free, and its messages leave the refusal lists. -/
def State.freeContexts (s : State) (lid : Nat) : State :=
  let s1 := ((s.ctxs.filter fun p => p.2.lid = some lid).map Prod.fst).foldl State.freeNow s
  (s1.cores.map Prod.fst).foldl (fun s c => s.modCore c fun k => { k with
    refusal := k.refusal.filter fun m => startLid m ≠ some lid
    heldFor := k.heldFor.filter fun p => startLid p.2.1 ≠ some lid
    waits := k.waits.filter fun r => r.lid ≠ some lid }) s1

/-- A message in flight is of a launch: sent by its tasks or commands, or on its way to them. -/
def State.messageOf (s : State) (lid : Nat) : Instr → Bool
  | .commandCompletion c _ => c.lid = some lid
  | .recordArrival a => a.lid = lid
  | .firingDelivery _ f => f.lid = lid
  | .wakeMessage w => w.lid = some lid
  | .contextFreeNotice _ m | .refusalRetry _ m => startLid m = some lid
  | .withdrawal r | .presenceRequest r | .remoteAccess r | .syncWordUpdate r | .joinArrival r | .swaitRequest r =>
    r.lid = some lid
  | .presenceAnswer th _ _ | .storeAck th .. | .creditReturn th _ _ | .bindAnswer th .. => s.lidOf th = some lid
  | .loadResult l => s.lidOf l.th = some lid
  | .barrierArrival b => b.lid = some lid
  | _ => false

/-- The set of a line: the cache has 512 lines in 8 ways, so 64 sets, chosen by the line number (17 R414, log 100). -/
def Line.set (l : Line) : Nat := l.line % 64

/-- The lines of a cache, of which the oldest unpinned ones leave a set that has more than its 8 ways. -/
def trimSets (kept : List Line) : List Line → List Line
  | [] => kept
  | l :: rest =>
    if l.pins.isEmpty && 8 ≤ ((kept ++ rest).filter fun x => x.set = l.set).length then trimSets kept rest
    else trimSets (kept ++ [l]) rest

/-- A launch's pins are taken off: its lines return to normal use, 8 ways of each set (17 R415); one that is being read afresh
is no longer there (06 R213). -/
def unpin (lid : Nat) (cache : List Line) : List Line :=
  trimSets [] ((cache.map fun l => { l with pins := l.pins.filter (· ≠ lid) }).filter fun l => !(l.stale && l.pins.isEmpty))

/-- The member of a collective group that a die of this package is (19 R458). -/
def State.memberOf (s : State) (die : Nat) : Nat := s.hub.pkgnum + 256 * die

/-- The launches that a message to a die's collective engine may be for: its own; of one from another package, which names none,
those whose entry of its group has the die or the sender as a member (19 R469, log 115). -/
def State.collNames (s : State) (die : Nat) (m : CollMsg) : List Nat := match m.lid with
  | some lid => [lid]
  | none => (s.launches.filter fun p => p.2.any fun l =>
      (l.groups.getD m.group []).any fun x => x = s.memberOf die || x = m.src).map Prod.fst

/-- What a launch holds in its quads and dies goes: commands, locks, requests, records, held firings,
parked accesses, barrier counts, pinned code, and its messages in flight, those of other packages that are for it alone among
them. -/
def State.vacate (s : State) (lid : Nat) : State :=
  let cmds := s.outstanding lid
  let gone := fun d m => m.lid = some lid || (m.lid.isNone && s.collNames d m = [lid])
  let s0 := { s with net := s.net.filter fun f => !s.messageOf lid f.ev }
  let s1 := s0.freeContexts lid
  let s2 := (s1.quads.map Prod.fst).foldl (fun s q => s.modQuad q fun k => { k with
    eng := k.eng.foldl (fun m p => put {} m p.1 (dropCmds lid p.2)) []
    comb := k.comb.filter fun x => !x.reqs.any fun c => c.lid = some lid
    locks := k.locks.filter fun l => !(cmds.any fun c => c.th = l.th && c.seq = l.seq) && l.seq / 2 ^ 48 ≠ lid + 1
    fret := dropRecs lid k.fret
    recon := k.recon.without lid
    icache := unpin lid k.icache
    turnSaves := k.turnSaves.filter fun p => p.1 / 32768 ≠ lid
    turn := k.turn.foldl (fun m p => put none m p.1 (p.2.filter fun x => x / 32768 ≠ lid)) [] }) s1
  let s3 := s2.modHub fun h => { h with
    saved := h.saved.filter fun x => x.lid ≠ lid, savedDies := h.savedDies.filter fun x => x.lid ≠ lid }
  (s3.dies.map Prod.fst).foldl (fun s d => s.modDie d fun k => { k with
    coll := dropCmds lid k.coll
    walks := k.walks.filter fun x => itemLid x ≠ some lid
    got := k.got.filter fun x => itemLid x.1 ≠ some lid
    parked := k.parked.filter fun x => itemLid x.item ≠ some lid
    barriers := k.barriers.filter fun p => barrierOwner p.1 ≠ lid
    collIn := k.collIn.filter fun m => !gone d m
    collWay := k.collWay.filter fun m => !gone d m
    collSeq := k.collSeq.filter fun p => p.1 / 16 ≠ lid
    waiters := k.waiters.filter fun r => r.lid ≠ some lid
    trapq := k.trapq.filter fun r => r.lid ≠ some lid }) s3

/-- A launch is released: its rings are detached and the handle is free (19 R452). -/
def State.releaseLaunch (s : State) (lid : Nat) : State :=
  let s1 := (s.vacate lid).modHub fun h => { h with
    rings := h.rings.foldl (fun m p => put {} m p.1 (if p.2.att = some lid then { p.2 with att := none } else p.2)) [] }
  { s1 with launches := put none s1.launches lid none }

/-! ### Dump, close, attach, replay (19 R452, 02 R69) -/

/-- The resident records of a launch in the order of a dump: ascending partition quad number, ascending
arrival number; those of a saved launch as luthier keeps them. -/
def State.dumpOrder (s : State) (lid : Nat) (l : Launch) : List Rec :=
  (s.partQuads l.part).flatMap fun q =>
    (((s.hub.saved.filter fun x => x.lid = lid && s.partQuadNo l.part q = some x.no).flatMap fun x => x.fret.residents lid) ++
      (s.quad q).fret.residents lid).map (·.record)

/-- A dump writes tag and locator of each record, at most the capacity. -/
def State.doDump (s : State) (lid : Nat) (l : Launch) (r : Request) : State :=
  let recs := (s.dumpOrder lid l).take r.capacity
  let x := qXctx (s.queueOf r.queue).cfg
  let s1 := ((List.range recs.length).zip recs).foldl (fun s p =>
    (s.virtWrite x (r.arg.toNat + 16 * p.1) 8 p.2.tag.toNat).virtWrite x (r.arg.toNat + 16 * p.1 + 8) 8 p.2.loc.toNat) s
  s1.answerReq r 4 0 recs.length

/-- A launch's rings are detached and its sources closed. -/
def State.doClose (s : State) (lid : Nat) (r : Request) : State :=
  ((s.modHub fun h => { h with
    rings := h.rings.foldl (fun m p => put {} m p.1 (if p.2.att = some lid then { p.2 with att := none } else p.2)) [] }).modLaunch
    lid fun l => { l with closed := true, closing := true, rings := [] }).answerReq r 4 0 0

/-- A ring becomes an external source of its launch; one that is not enabled, of another partition or
attached already fails the request. -/
def State.doAttach (s : State) (lid : Nat) (l : Launch) (r : Request) : State :=
  let g := get {} s.hub.rings r.ring
  if g.word.getLsbD 63 && g.word.toNat / 2 ^ 54 % 32 = l.part && g.att.isNone then
    ((s.modHub fun h => { h with rings := put {} h.rings r.ring { g with att := some lid } }).modLaunch lid fun l =>
      { l with rings := l.rings ++ [r.ring] }).answerReq r 4 0 0
  else s.answerReq r 3 kBAD_REQUEST 0

/-- A notice kind of a launch (11 R366). -/
def Launch.isNotice (l : Launch) (k : Nat) : Bool := l.cover.any fun c => c.nk ≤ k && k ≤ c.nk + 3

/-- A fretboard at a generation bump: unused notices go, every resident record is re-presented (02 R69,
11 R376). DEDUCED (log 122): a record that waited keeps its age until, processed again, it becomes waiting anew (02 R51). -/
def bumpFret (lid now : Nat) (l : Launch) (f : Fret) : Fret :=
  { f with recs := (f.recs.filter fun r => !(r.lid = lid && l.isNotice r.record.kind && r.record.gen ≠ l.gen)).map fun r =>
      if r.lid = lid && r.processed && !r.reserved then { r with pending := true, came := now } else r }

/-- The records that the scheduler posts before the walker starts: those taken over, then the explicit seeds. -/
def Launch.seedList (l : Launch) : List Rec :=
  l.taken ++ l.seeds.map fun r => ⟨mkTag r.kind l.gen (r.key 0) (r.key 1) (r.key 2), r.loc⟩

/-- The seeds are posted, or the walker starts: the launch is Running (02 R43). -/
def Launch.seeded (l : Launch) : Launch :=
  if l.state = .seeding && l.seedList.length ≤ l.seedPos then { l with state := .running } else l

/-- A replay: G rises by one, and the launch seeds again (02 R69, 11 R384-R385). DESIGN CHOICE (log 133): one whose sources have
been closed stays closed (02 R44). -/
def State.doReplay (s : State) (lid : Nat) (l : Launch) (r : Request) : State :=
  let l := { l with
    gen := (l.gen + 1) % 256, state := .seeding, compl := r.compl, seedPos := 0, walkPos := 0, walkDone := l.walk.isNone
    unfinished := [], latches := [], planes := 0, firings := 0, inserts := 0, lastWave := none, holesDue := false, firstFiring := none
    stepped := false, missed := false, rung := 0, taken := []
    ctl := { l.ctl with audits := 0, kept := 0, skipped := 0, unresolved := 0 } }
  let s1 := (s.modLaunch lid fun _ => l.seeded).modHub fun h => { h with
    saved := h.saved.map fun x => if x.lid = lid then { x with fret := bumpFret lid s.hub.cycle l x.fret } else x }
  ((s1.quads.map Prod.fst).foldl (fun s q => s.modQuad q fun k => { k with fret := bumpFret lid s.hub.cycle l k.fret }) s1).postLaunch lid 0x09

/-! ### Requests held for a launch (19 R452) -/

/-- The states in which a request type is accepted; the dump of a saved launch waits for its restore (21 R509). -/
def reqAccepted (l : Launch) (kind : Nat) : Bool :=
  match kind with
  | 5 => (l.state = .complete && l.ladder ≠ .saved) || l.state = .failed
  | 2 => l.state = .complete
  | 3 => l.state ≠ .failed
  | 4 => l.state = .complete || l.state = .failed
  | 6 => (l.state = .seeding || l.state = .running) && l.isOpen && !l.closed
  | _ => false

/-- One request is performed on its launch. Those that are still held for a launch that is released name no launch any more (log
71). -/
def State.doReq (s : State) (lid : Nat) (l : Launch) (r : Request) : State :=
  match r.kind with
  | 2 => s.doReplay lid l r
  | 3 => s.doClose lid r
  | 4 => (l.requests.foldl (fun s q => s.answerReq q 3 kUNKNOWN_HANDLE 0) (s.releaseLaunch lid)).answerReq r 4 0 0
  | 5 => s.doDump lid l r
  | 6 => s.doAttach lid l r
  | _ => s.answerReq r 3 kBAD_REQUEST 0

/-- A request waits behind one that its service core accepted before for the same launch, and that is held: the two take effect in
acceptance order (19 R454, log 32). None holds back a release (19 R452). -/
def Launch.inTurn (l : Launch) (r : Request) : Bool := r.kind = 4 || !l.requests.any fun q => q.svc = r.svc

/-- A request of a known type reaches its launch: performed, failed, or held. -/
def State.applyReq (s : State) (r : Request) : State :=
  let lid := r.queue * 2 ^ 32 + r.handle
  match s.launch lid with
  | none => s.answerReq r 3 kUNKNOWN_HANDLE 0
  | some l =>
    if l.inTurn r && reqAccepted l r.kind then s.doReq lid l r
    else if l.state = .failed then s.answerReq r 3 kLAUNCH_FAILED 0
    else s.modLaunch lid fun l => { l with requests := l.requests ++ [r] }

/-- The held requests of a launch are tried again, in acceptance order. -/
def State.retryHeld (s : State) (lid : Nat) : State :=
  match s.launch lid with
  | none => s
  | some l => l.requests.foldl State.applyReq (s.modLaunch lid fun l => { l with requests := [] })

/-- The held requests of a launch are served; a second time, because a replay among them lets others be accepted. -/
def State.serveHeld (s : State) (lid : Nat) : State := (s.retryHeld lid).retryHeld lid

/-- A request reaches its launch, and those that the change lets in are served. -/
def State.serveReq (s : State) (r : Request) : State := (s.applyReq r).serveHeld (r.queue * 2 ^ 32 + r.handle)

/-- A LAUNCH FAILS (02 R43, 19 R452, R456): Failed, its record written, and the requests held for it answered. One that is
Complete stays so: the table of 02 R43 has no way from there to Failed. -/
def State.failLaunch (s : State) (lid err index detail : Nat) : State :=
  match s.launch lid with
  | none => s
  | some l =>
    if l.state = .failed || l.state = .complete then s
    else
      let s1 := s.modLaunch lid fun l => { l with state := .failed, error := err }
      (s1.writeStatus l.queue l.compl 3 (s1.launchFields lid l err index detail none)).serveHeld lid

/-- The launch of a thread fails. -/
def State.failOf (s : State) (lid : Option Nat) (err index detail : Nat) : State :=
  match lid with
  | some l => s.failLaunch l err index detail
  | none => s

end Sys2Proof.Machine
end

