-- ==== Sys2Proof/Machine/Message.lean ====
section
/-! DEFINITION. Galsol messages between packages: their bytes, their channels and their routes (19 R467,
R469-R470). -/

namespace Sys2Proof.Machine

/-- The n low bytes of a number, lowest first, and the number that bytes give (00 R3). -/
def leBytes : Nat → Nat → List Byte
  | 0, _ => []
  | n + 1, x => BitVec.ofNat 8 x :: leBytes n (x / 256)

def leNat : List Byte → Nat
  | [] => 0
  | b :: l => b.toNat + 256 * leNat l

/-- Field of `n` bytes at an offset. -/
def leAt (l : List Byte) (o n : Nat) : Nat := leNat ((l.drop o).take n)

/-- A port and its change. -/
def State.port (s : State) (p : Nat) : Port := get {} s.hub.ports p
def State.modPort (s : State) (p : Nat) (f : Port → Port) : State :=
  s.modHub fun h => { h with ports := put {} h.ports p (f (get {} h.ports p)) }

/-- The virtual channel of a class (19 R467). -/
def vcOf (cls : Nat) : Nat := if cls = 1 then 0 else if cls = 0 then 2 else 1

/-- A message: header and body (19 R469). -/
def mkMessage (dst src cls dstDie srcDie group step number : Nat) (body : List Byte) : List Byte :=
  leBytes 1 dst ++ leBytes 1 src ++ leBytes 1 cls ++ leBytes 1 0 ++ leBytes 4 body.length ++ leBytes 1 dstDie ++
    leBytes 1 srcDie ++ leBytes 1 group ++ leBytes 1 step ++ leBytes 4 number ++ body

/-- A drop of a message is counted at a port, by cause (19 R470). -/
def State.gdrop (s : State) (p c : Nat) : State :=
  s.modPort p fun x => { x with gdrops := put 0 x.gdrops c (min (2 ^ 32 - 1) (get 0 x.gdrops c + 1)) }

/-- A message, of a launch of this package or of none, joins the queue of its channel at the port its route names; without a route
it is dropped and counted at port `from_` (19 R470). -/
def State.routeMessage (s : State) (from_ : Nat) (lid : Option Nat) (m : List Byte) : State :=
  let r := get 0 s.hub.groute (leAt m 0 1)
  if r.getLsbD 63 then
    s.modPort (r.toNat % 4) fun x =>
      let vc := vcOf (leAt m 2 1)
      { x with txq := put [] x.txq vc (get [] x.txq vc ++ [{ head := m.take 16, rest := m, lid := lid }]) }
  else s.gdrop from_ 0

/-- The packages of a group, without this one (19 R458). A member is package + 256 × die. -/
def State.otherPackages (s : State) (g : List Nat) : List Nat :=
  ((g.map (· % 256)).eraseDups).filter (· ≠ s.hub.pkgnum)

end Sys2Proof.Machine
end

