-- ==== Sys2Proof/Machine/Collective.lean ====
section
/-! DEFINITION. The collective engines of the dies (10 R359-R361, 04 R140, 19 R458, R469). The members of a group
exchange what their commands ask for, and data along the tree of their ranks; a message to a die of this package is on its way
there until it is delivered, one to another package leaves on its route. -/

namespace Sys2Proof.Machine

/-! ### A command's fields, its group, its rank -/

def collGroup (c : Cmd) : Nat := bits c.spec 11 8
def collFmt (c : Cmd) : BitVec 6 := BitVec.ofNat 6 (bits c.spec 7 2)
def collOp (c : Cmd) : Nat := bits c.spec 1 0
def collCount (c : Cmd) : Nat := bits (c.word 3) 31 0
def collRoot (c : Cmd) : Nat := bits (c.word 3) 47 32
def collBytes (c : Cmd) : Nat := fmtWidth (collFmt c) / 8

/-- The members of a command's group, and the rank of one. -/
def State.collMembers (s : State) (c : Cmd) : List Nat :=
  (c.lid.bind s.launch).elim [] fun l => l.groups.getD (collGroup c) []

def State.collRank (s : State) (c : Cmd) (m : Nat) : Option Nat := (s.collMembers c).findIdx? (· = m)

/-! ### Messages -/

/-- A message of a command to a member of its group: on its way to its die, or sent to its package. -/
def State.collSend (s : State) (c : Cmd) (number cls step dst : Nat) (body : List Byte) : State :=
  if dst % 256 = s.hub.pkgnum then
    s.modDie (dst / 256) fun d => { d with collWay := d.collWay ++ [{
      lid := c.lid, op := some c.op, cls := cls, group := collGroup c, number := number, step := step
      src := s.memberOf c.place, body := body }] }
  else s.routeMessage 0 c.lid (mkMessage (dst % 256) s.hub.pkgnum cls (dst / 256) c.place (collGroup c) step number body)

/-- The control message of a command (19 R469). -/
def controlBody (c : Cmd) (rank : Nat) : List Byte :=
  leBytes 4 c.spec ++ leBytes 4 (collCount c) ++ leBytes 2 (collRoot c) ++ leBytes 2 rank ++ leBytes 4 0

/-- Elements as bytes, and as data messages of at most 8,192 bytes of them, from an index on (19 R469). -/
def elemBytes (n : Nat) (l : List Nat) : List Byte := l.flatMap (leBytes n)

def State.collData (s : State) (c : Cmd) (number step dst : Nat) : Nat → Nat → List Nat → State
  | 0, _, _ => s
  | fuel + 1, i, l =>
    if l.isEmpty then s
    else
      let k := 8192 / collBytes c
      (s.collSend c number 1 step dst (leBytes 8 i ++ elemBytes (collBytes c) (l.take k))).collData c number step dst
        fuel (i + k) (l.drop k)

/-- All elements from index `i` on, sent to a member. -/
def State.collSendAll (s : State) (c : Cmd) (number step dst i : Nat) (l : List Nat) : State :=
  s.collData c number step dst l.length i l

/-- The message is for a command. -/
def collFor (c : Cmd) (number : Nat) (m : CollMsg) : Bool :=
  m.group = collGroup c && m.number = number && (m.lid = none || m.lid = c.lid)

/-- The elements of `n` bytes in some bytes. -/
def elemsOf (n : Nat) (l : List Byte) : List Nat := (List.range (l.length / n)).map fun k => leAt l (k * n) n

/-- What a member has sent of a step, by index, when it is whole. -/
def State.collGot (s : State) (c : Cmd) (number step src first count : Nat) : Option (List Nat) :=
  let n := collBytes c
  let parts := ((s.die c.place).collIn.filter fun m =>
    collFor c number m && m.cls = 1 && m.step = step && m.src = src).flatMap fun m =>
      let i := leAt m.body 0 8
      let l := elemsOf n (m.body.drop 8)
      (List.range l.length).zip l |>.map fun p => (i + p.1, p.2)
  let l := (List.range count).map fun k => (parts.find? fun p => p.1 = first + k).map Prod.snd
  if l.all Option.isSome then some (l.filterMap id) else none

/-! ### The combination (04 R140, 10 R360) -/

/-- Two partial results, the lower rank on the left, with the conditions the combination raises. -/
def collCombine (c : Cmd) (a b : Nat) : Nat × List Nat :=
  match floatFmt (collFmt c) with
  | some f =>
    if collOp c = 0 then fAdd f 0 a b else if collOp c = 1 then (fMin f a b, []) else (fMax f a b, [])
  | none =>
    let g : IntFmt := ⟨32, collFmt c = 0x0B⟩
    if collOp c = 0 then ((a + b) % 2 ^ 32, [])
    else if collOp c = 1 then (if valInt g b < valInt g a then b else a, [])
    else (if valInt g a < valInt g b then b else a, [])

/-! ### A command's run -/

/-- The elements a command reads at its source: a broadcast's only at its root. -/
def State.collReads (s : State) (c : Cmd) : Nat :=
  if c.op = 0x21 && s.collRank c (s.memberOf c.place) ≠ some (collRoot c) then 0 else collCount c

/-- The elements a command writes. -/
def State.collWrites (s : State) (c : Cmd) : Nat :=
  if c.op = 0x22 then collCount c * (s.collMembers c).length else collCount c

/-- A member's place in the tree: its rank, for a broadcast counted from the root. -/
def treeRank (c : Cmd) (n rank : Nat) : Nat := if c.op = 0x21 then (rank + n - collRoot c) % n else rank

/-- The member at a place of the tree. -/
def State.treeMember (s : State) (c : Cmd) (t : Nat) : Nat :=
  let g := s.collMembers c
  if c.op = 0x21 then g.getD ((t + collRoot c) % g.length) 0 else g.getD t 0

/-- The children of a place, with the step that joins them: t + 2^k below the lowest one bit of t. -/
def treeChildren (n t : Nat) : List (Nat × Nat) :=
  ((List.range 16).filter fun k => t % 2 ^ (k + 1) = 0 && t + 2 ^ k < n).map fun k => (k, t + 2 ^ k)

/-- The parent of a place, with the step. -/
def treeParent (t : Nat) : Option (Nat × Nat) :=
  ((List.range 16).find? fun k => t / 2 ^ k % 2 = 1).map fun k => (k, t - 2 ^ k)

/-- A data message is one that the command of a member expects: of an allgather, from any member its own elements; else from
a child or the parent in the tree, of a broadcast only from the parent (10 R360, 19 R469). -/
def State.collExpects (s : State) (c : Cmd) (m : CollMsg) : Bool :=
  let n := (s.collMembers c).length
  let t := treeRank c n ((s.collRank c (s.memberOf c.place)).getD 0)
  if c.op = 0x22 then m.step = 0 && s.collRank c m.src = some (leAt m.body 0 8 / collCount c)
  else ((treeParent t).any fun p => m.step = p.1 && m.src = s.treeMember c p.2) ||
    (c.op = 0x20 && (treeChildren n t).any fun p => m.step = p.1 && m.src = s.treeMember c p.2)

/-- The opcode of the command that a message is of. DESIGN CHOICE (log 115): the control message of 19 R469, from another package,
does not carry it, yet 10 R361 has members differ in it: it is a free value, the same at every die of this package. -/
def State.msgOp (s : State) (c : Cmd) (m : CollMsg) : Option Nat :=
  if m.lid.isSome || m.cls ≠ 2 then m.op
  else some (0x20 + Config.peerOp m.src m.group m.number (c.lid.getD 0) (((c.lid.bind s.launch).elim 0 (·.accepted)).toNat) % 3)

/-- The control messages of the other members: whether all are there, and whether a message shows a member that differs: in
opcode (across packages too, log 115), in what it asks for, or in its entry of the group, or tells that another member has found
one (10 R361, 19 R458, R469, log 128). -/
def State.collControls (s : State) (c : Cmd) (number : Nat) : Bool × Bool :=
  let mine := (s.die c.place).collIn.filter (collFor c number)
  let others := (s.collMembers c).filter (· ≠ s.memberOf c.place)
  (others.all fun x => mine.any fun m => m.cls = 2 && m.src = x,
   mine.any fun m => ((s.msgOp c m).any fun o => o ≠ c.op) ||
     (if m.cls = 2 then m.body.take 10 ≠ (controlBody c 0).take 10 || s.collRank c m.src ≠ some (leAt m.body 10 2)
      else !s.collExpects c m))

/-- The whole result of a command, once everything it needs is there; with the partial result that its parent needs
and the conditions of the combinations the member makes. `none`: it still waits for messages. -/
inductive CollState where
  | waits
  | partialUp (l : List Nat) (conds : List (List Nat))
  | whole (l : List Nat) (conds : List (List Nat))
deriving DecidableEq, Repr

/-- The partial result of a place of the tree: its own elements, combined with each child's in step order. -/
def State.collUp (s : State) (c : Cmd) (number : Nat) (l : List Nat) :
    List (Nat × Nat) → Option (List Nat × List (List Nat))
  | [] => some (l, [])
  | (k, t) :: rest =>
    match s.collGot c number k (s.treeMember c t) 0 (collCount c) with
    | none => none
    | some x =>
      let r := (l.zip x).map fun p => collCombine c p.1 p.2
      match s.collUp c number (r.map Prod.fst) rest with
      | none => none
      | some y => some (y.1, r.map Prod.snd ++ y.2)

/-- What a member knows of the result. `sent` says that its partial result has gone up. -/
def State.collResult (s : State) (c : Cmd) (number : Nat) (own : List Nat) (sent : Bool) : CollState :=
  let g := s.collMembers c
  let n := g.length
  let t := treeRank c n ((s.collRank c (s.memberOf c.place)).getD 0)
  let down := match treeParent t with
    | some (k, p) => s.collGot c number k (s.treeMember c p) 0 (collCount c)
    | none => none
  if c.op = 0x22 then
    let l := (List.range n).map fun r =>
      if g.getD r 0 = s.memberOf c.place then some own
      else s.collGot c number 0 (g.getD r 0) (r * collCount c) (collCount c)
    if l.all Option.isSome then .whole ((l.filterMap id).flatMap id) [] else .waits
  else if c.op = 0x21 then
    match (if t = 0 then some own else down) with
    | some l => .whole l []
    | none => .waits
  else if t = 0 then
    match s.collUp c number own (treeChildren n t) with
    | some r => .whole r.1 r.2
    | none => .waits
  else if sent then
    match down with
    | some l => .whole l []
    | none => .waits
  else match s.collUp c number own (treeChildren n t) with
    | some r => .partialUp r.1 r.2
    | none => .waits

/-- A collective ends: what the engine holds for it goes. -/
def State.collEnd (s : State) (c : Cmd) (number : Nat) (r : CmdResult) : State :=
  (s.modDie c.place fun d => { d with collIn := d.collIn.filter fun m => !collFor c number m }).endCmd c r

/-- The command of a number of a group has not ended at a die of this package: it runs, or has not started. -/
def State.collOpen (s : State) (lid : Option Nat) (group number die : Nat) : Bool :=
  get 0 (s.die die).collSeq (lid.getD 0 * 16 + group) ≤ number ||
    (s.die die).coll.running.any fun r => r.acc = number && r.cmd.lid = lid && collGroup r.cmd = group

/-- The rank that no member has: a control message with it tells that its sender has found a difference (log 128). -/
def noRank : Nat := 0xFFFF

/-- A member that finds a difference fails its command, and every other member's: it tells the members that it knows of, and whoever
has sent it a message of the command, by a control message with a rank that agrees with no entry (10 R361). One that has not
started its command fails as soon as it does. DEDUCED (log 128): so each learns of a difference that it cannot see itself, as an
entry of another package that leaves it out. -/
def State.collMismatch (s : State) (c : Cmd) (number : Nat) : State :=
  let from_ := ((s.die c.place).collIn.filter (collFor c number)).map (·.src)
  (((s.collMembers c ++ from_).eraseDups).filter fun m => m ≠ s.memberOf c.place &&
      (m % 256 ≠ s.hub.pkgnum || s.collOpen c.lid (collGroup c) number (m / 256))).foldl
    (fun s m => s.collSend c number 2 0 m (controlBody c noRank))
    (s.collEnd c number ⟨2, eCOLL, 0⟩)

/-- A command starts: it takes the next number of its group and tells every other member what it asks for; for an
allgather its elements follow once they are read. -/
def State.collStart (s : State) (c : Cmd) : State :=
  let key := c.lid.getD 0 * 16 + collGroup c
  let number := get 0 (s.die c.place).collSeq key
  let rank := s.collRank c (s.memberOf c.place)
  let s1 := (s.modDie c.place fun d => { d with collSeq := put 0 d.collSeq key (number + 1) }).setRun
    { cmd := c, progress := 0, acc := number }
  match rank with
  | none => s1.collMismatch c number
  | some r => ((s.collMembers c).filter (· ≠ s.memberOf c.place)).foldl (fun s m =>
      s.collSend c number 2 0 m (controlBody c r)) s1

/-- One element is read into the command's data. DESIGN CHOICE (log 137): a collective's source and destination may lie where a
copy's may, which 10 R360 does not say. -/
def State.collReadElem (s : State) (c : Cmd) (k : Nat) : Except Stop State := do
  let w := fmtWidth (collFmt c)
  let x ← s.rdElem c inCopy (BitVec.ofNat 64 (c.word 1)) (k * w) w
  return x.1.modRun c fun r => { r with data := r.data ++ [x.2] }

/-- One element of the result is written. -/
def State.collWriteElem (s : State) (c : Cmd) (l : List Nat) (k : Nat) : Except Stop State :=
  let w := fmtWidth (collFmt c)
  s.wrElem c inCopy (BitVec.ofNat 64 (c.word 2)) (k * w) w (l.getD k 0)

/-- A collective stops at an element; one that has failed leaves nothing behind. DESIGN CHOICE (log 137): the other members learn
nothing of an access that fails, and wait for what this one does not send. -/
def State.collStop (s : State) (c : Cmd) (number k : Nat) (x : Stop) : State :=
  match x with
  | .page _ _ | .busy => s.stopCmd c k x
  | _ => (s.modDie c.place fun d => { d with collIn := d.collIn.filter fun m => !collFor c number m }).stopCmd c k x

/-- A launch's entry of a group has a die and the sender of a message as members. -/
def State.collBoth (s : State) (die : Nat) (m : CollMsg) (lid : Nat) : Bool :=
  (s.launch lid).any fun l =>
    (l.groups.getD m.group []).contains m.src && (l.groups.getD m.group []).contains (s.memberOf die)

/-- The control message of a member that the entries here leave out, for a command that is over: it is told of the difference, as it
would have been had it come before (10 R361, log 128). -/
def State.collReply (s : State) (die : Nat) (m : CollMsg) : State :=
  if m.cls = 2 && leAt m.body 10 2 ≠ noRank && !(s.collNames die m).any (s.collBoth die m) then
    s.routeMessage 0 none (mkMessage (m.src % 256) s.hub.pkgnum 2 (m.src / 256) die m.group 0 m.number
      (m.body.take 10 ++ leBytes 2 noRank ++ leBytes 4 0))
  else s

/-- The result is written, from the element where the command stands; at its end a control message from another package that is
still here is answered like one that comes later. -/
def State.collWrite (s : State) (c : Cmd) (r : Running) : State :=
  match steps (fun k s => s.collWriteElem c r.data k) (s.granted (s.collWrites c - r.progress)) r.progress s with
  | (s', k, none) => 
    if k < s.collWrites c then s'.pauseAt c k
    else ((s'.die c.place).collIn.filter fun m => m.lid.isNone && collFor c r.acc m).foldl (fun s m => s.collReply c.place m)
      (s'.collEnd c r.acc ⟨0, 0, 0⟩)
  | (s', k, some x) => s'.collStop c r.acc k x

/-- The elements go down the tree, or, of an allgather, to every member. -/
def State.collDown (s : State) (c : Cmd) (number : Nat) (l : List Nat) : State :=
  let n := (s.collMembers c).length
  let t := treeRank c n ((s.collRank c (s.memberOf c.place)).getD 0)
  if c.op = 0x22 then s
  else (treeChildren n t).foldl (fun s p => s.collSendAll c number p.1 (s.treeMember c p.2) 0 l) s

/-- A command that has read its source goes as far as the messages it has allow (phase 1, or 2 once its partial
result has gone up). Once it has the whole result, it writes it at later turns (phase 3). -/
def State.collExchange (s : State) (c : Cmd) (r : Running) : State :=
  let ctl := s.collControls c r.acc
  if ctl.2 then s.collMismatch c r.acc
  else if !ctl.1 then s
  else match s.collResult c r.acc r.data (r.phase = 2) with
    | .waits => s
    | .partialUp l conds =>
      let n := (s.collMembers c).length
      let t := treeRank c n ((s.collRank c (s.memberOf c.place)).getD 0)
      let s1 := (conds.foldl (fun s x => s.countCmd c x) s).modRun c fun r => { r with phase := 2, hop := none }
      match treeParent t with
      | some (k, p) => s1.collSendAll c r.acc k (s1.treeMember c p) 0 l
      | none => s1
    | .whole l conds =>
      ((conds.foldl (fun s x => s.countCmd c x) s).modRun c fun r => { r with
        phase := 3, progress := 0, data := l, paused := true, hop := none }).collDown c r.acc l

/-- No rung of the ladder has stopped the engines of a command's launch (20 R494). -/
def State.mayRun (s : State) (c : Cmd) : Bool :=
  match c.lid.bind s.launch with
  | none => true
  | some l => l.ladder = .none || l.ladder = .drain

/-- Every started collective of a die that waits for messages goes on. -/
def State.collAdvance (s : State) (die : Nat) : State :=
  ((s.die die).coll.running.filter fun r => (r.phase = 1 || r.phase = 2) && s.mayRun r.cmd).foldl (fun s r =>
    match s.started r.cmd with
    | some r => if r.phase = 1 || r.phase = 2 then s.collExchange r.cmd r else s
    | none => s) s

/-- A collective's run: started, reading its source, exchanging, or writing its result. -/
def State.runColl (s : State) (c : Cmd) : State :=
  let s := match s.started c with
    | none => s.collStart c
    | some _ => s
  match s.started c with
  | none => s
  | some r =>
    let s := s.modRun c fun r => { r with paused := false }
    if r.phase = 0 then
      match steps (fun k s => s.collReadElem c k) (s.granted (s.collReads c - r.progress)) r.progress s with
      | (s', k, some x) => s'.collStop c r.acc k x
      | (s', k, none) =>
        if k < s.collReads c then s'.pauseAt c k
        else
        let s1 := s'.modRun c fun r => { r with phase := 1, progress := 0, hop := none }
        let own := (s1.started c).elim [] (·.data)
        let s2 := if c.op = 0x22 then
            let rank := (s1.collRank c (s1.memberOf c.place)).getD 0
            ((s1.collMembers c).filter (· ≠ s1.memberOf c.place)).foldl (fun s m =>
              s.collSendAll c r.acc 0 m (rank * collCount c) own) s1
          else s1
        s2.collAdvance c.place
    else if r.phase = 3 then
      if r.progress = 0 && (s.collControls c r.acc).2 then s.collMismatch c r.acc else s.collWrite c r
    else s.collAdvance c.place

/-- A message from another package is for commands that are over at its die. -/
def State.collOver (s : State) (die : Nat) (m : CollMsg) : Bool :=
  m.lid.isNone && !(s.collNames die m).isEmpty && (s.collNames die m).all fun lid => !s.collOpen (some lid) m.group m.number die

/-- A message arrives at the collective engine of a die, whose commands go on; one that is for commands that are over is dropped. -/
def State.collTake (s : State) (die : Nat) (m : CollMsg) : State :=
  if s.collOver die m then s.collReply die m
  else (s.modDie die fun d => { d with collIn := d.collIn ++ [m] }).collAdvance die

/-- The k-th message on its way to a die's collective engine arrives, or the oldest of its sender. -/
def State.collDeliver (s : State) (die k : Nat) : State :=
  let l := (s.die die).collWay
  match (l[k]?).bind fun m => l.find? fun x => x.src = m.src with
  | none => s
  | some m => (s.modDie die fun d => { d with collWay := d.collWay.erase m }).collTake die m

/-- A message from another package is on its way to the engine of a die (19 R471). -/
def State.collArrive (s : State) (m : List Byte) : State :=
  s.modDie (leAt m 8 1) fun d => { d with collWay := d.collWay ++ [{
    lid := none, op := none
    cls := leAt m 2 1, group := leAt m 10 1, number := leAt m 12 4, step := leAt m 11 1
    src := leAt m 1 1 + 256 * leAt m 9 1, body := m.drop 16 }] }

/-- `coll.reduce` (10 R360). -/
def execCollReduce (c : Cmd) (s : State) : Host.Outcome State Fault Refusal := .next (s.runColl c)
/-- `coll.bcast` (10 R360). -/
def execCollBcast (c : Cmd) (s : State) : Host.Outcome State Fault Refusal := .next (s.runColl c)
/-- `coll.allgather` (10 R360). -/
def execCollAllgather (c : Cmd) (s : State) : Host.Outcome State Fault Refusal := .next (s.runColl c)

end Sys2Proof.Machine
end

