-- ==== Sys2Proof/Machine/Memory.lean ====
section
/-! DEFINITION. Memory instructions as a thread issues them: loads, stores, gathers, acquire and release,
presence forms and atomics (08 R257-R272, 09 R302-R306). -/

namespace Sys2Proof.Machine

/-- On whose behalf a request is made. -/
def whoReq (r : Req) : Who := { th := r.th, lid := r.lid, level := r.level, xctx := r.xctx }

/-- An earlier access of the same core on the ordered route still waits for its walk, or for its page (08 R251,
R277-R278). -/
def State.walkAhead (s : State) (r : Req) : Bool :=
  (itemSource (.access r)).any fun k => s.sourceWaits (dieOfTh r.th) k

/-- An access leaves its core (08 R250-R251): to its home, or, when global space does not translate in the
quad's cache, to the walker of the die (08 R277, 20 R487). -/
def State.sendAccess (s0 : State) (r : Req) : State :=
  let s := s0.evc (coreOf r.th) 12
  match decodeAddr r.addr with
  | .global va =>
    if s.walkAhead r then s.modDie (dieOfTh r.th) fun d => { d with walks := d.walks ++ [.access r] }
    else match s.translated (whoReq r) va (opWrites r.op) with
      | some pa => s.send (routeOf { r with pa := some pa }) (.remoteAccess { r with pa := some pa })
      | none => (s.evc (coreOf r.th) 15).modDie (dieOfTh r.th) fun d => { d with walks := d.walks ++ [.access r] }
  | _ => s.send (routeOf r) (.remoteAccess r)

/-! ### Loads and stores (08 R257-R258) -/

/-- A value of n bytes, zero- or sign-extended to 128 bits. -/
def extend (n : Nat) (sext : Bool) (x : Nat) : VWord :=
  if sext then BitVec.ofInt 128 (valInt ⟨8 * n, true⟩ x) else BitVec.ofNat 128 (x % 2 ^ (8 * n))

/-- The value of a local load of n bytes (08 R248). -/
def State.localValue (s : State) (a : Word) (n : Nat) (sext : Bool) : VWord :=
  extend n sext (s.localRead (coreOf s.cur) (a.toNat % 2 ^ 20) n)

/-- A load that is not local: its destination is empty until the value returns (08 R258). -/
def State.remoteLoad (s : State) (a : Word) (n : Nat) (sext : Bool) (d : Dst) (adaptive acquire : Bool) : State :=
  let r := s.request (.load sext) a n 0 d.dest s.seqNow none adaptive
  (s.addProd d.dest 1 0 acquire).sendAccess r

/-- A scalar load. -/
def loadScalar (i : Instr) (d : BitVec 5) (addr : State → Word) (n : Nat) (sext adaptive acquire : Bool)
    (s : State) : Host.Outcome State Fault Refusal :=
  let value := fun s : State => (s.localValue (addr s) n sext).setWidth 64
  if isLocal s.cur (addr s) then issueD i d value (fun s => (s.setS d (value s)).evc (coreOf s.cur) 11) s
  else issue i (fun s => s.remoteLoad (addr s) n sext (dstS d) adaptive acquire) s

/-- A store of the n low bytes of a value: it enters the store buffer, or travels to its home, counted in
the counter of its destination class (08 R248, R252, R258). -/
def State.storeValue (s : State) (a : Word) (n : Nat) (x : VWord) (adaptive : Bool) : State :=
  if isLocal s.cur a then
    (s.modCore (coreOf s.cur) fun k => { k with
      stbuf := k.stbuf ++ [{ th := s.cur, off := a.toNat % 2 ^ 20, size := n, data := x, since := k.cycle }] }).evc (coreOf s.cur) 11
  else
    let k := classOf s.cur a
    (s.takeSeq.count s.cur k).sendAccess (s.request .store a n x .none s.seqNow (some k) adaptive)

/-- `ld.n8` (08 R257-R258). -/
def execLdN8 (d b : BitVec 5) (t : BitVec 1) (w : BitVec 2) (r : BitVec 1) (p : BitVec 12) (s : State) :
    Host.Outcome State Fault Refusal :=
  loadScalar (.ldN8 d b t w r p) d (fun s => s.ea b p.toInt 1) 1 false (r = 1) false s

/-- `ld.n16` (08 R257-R258). -/
def execLdN16 (d b : BitVec 5) (t : BitVec 1) (w : BitVec 2) (r : BitVec 1) (p : BitVec 12) (s : State) :
    Host.Outcome State Fault Refusal :=
  loadScalar (.ldN16 d b t w r p) d (fun s => s.ea b p.toInt 2) 2 false (r = 1) false s

/-- `ld.n32` (08 R257-R258). -/
def execLdN32 (d b : BitVec 5) (t : BitVec 1) (w : BitVec 2) (r : BitVec 1) (p : BitVec 12) (s : State) :
    Host.Outcome State Fault Refusal :=
  loadScalar (.ldN32 d b t w r p) d (fun s => s.ea b p.toInt 4) 4 false (r = 1) false s

/-- `ld.64` (08 R257-R258). -/
def execLd64 (d b : BitVec 5) (t : BitVec 1) (w : BitVec 2) (r : BitVec 1) (p : BitVec 12) (s : State) :
    Host.Outcome State Fault Refusal :=
  loadScalar (.ld64 d b t w r p) d (fun s => s.ea b p.toInt 8) 8 false (r = 1) false s

/-- `ld.s8` (08 R257-R258). -/
def execLdS8 (d b : BitVec 5) (t : BitVec 1) (w : BitVec 2) (r : BitVec 1) (p : BitVec 12) (s : State) :
    Host.Outcome State Fault Refusal :=
  loadScalar (.ldS8 d b t w r p) d (fun s => s.ea b p.toInt 1) 1 true (r = 1) false s

/-- `ld.s16` (08 R257-R258). -/
def execLdS16 (d b : BitVec 5) (t : BitVec 1) (w : BitVec 2) (r : BitVec 1) (p : BitVec 12) (s : State) :
    Host.Outcome State Fault Refusal :=
  loadScalar (.ldS16 d b t w r p) d (fun s => s.ea b p.toInt 2) 2 true (r = 1) false s

/-- `ld.s32` (08 R257-R258). -/
def execLdS32 (d b : BitVec 5) (t : BitVec 1) (w : BitVec 2) (r : BitVec 1) (p : BitVec 12) (s : State) :
    Host.Outcome State Fault Refusal :=
  loadScalar (.ldS32 d b t w r p) d (fun s => s.ea b p.toInt 4) 4 true (r = 1) false s

/-- `st.8` (08 R257-R258). -/
def execSt8 (d b : BitVec 5) (t : BitVec 1) (w : BitVec 2) (r : BitVec 1) (p : BitVec 12) (s : State) :
    Host.Outcome State Fault Refusal :=
  issue (.st8 d b t w r p) (fun s => s.storeValue (s.ea b p.toInt 1) 1 ((s.S d).setWidth 128) (r = 1)) s

/-- `st.16` (08 R257-R258). -/
def execSt16 (d b : BitVec 5) (t : BitVec 1) (w : BitVec 2) (r : BitVec 1) (p : BitVec 12) (s : State) :
    Host.Outcome State Fault Refusal :=
  issue (.st16 d b t w r p) (fun s => s.storeValue (s.ea b p.toInt 2) 2 ((s.S d).setWidth 128) (r = 1)) s

/-- `st.32` (08 R257-R258). -/
def execSt32 (d b : BitVec 5) (t : BitVec 1) (w : BitVec 2) (r : BitVec 1) (p : BitVec 12) (s : State) :
    Host.Outcome State Fault Refusal :=
  issue (.st32 d b t w r p) (fun s => s.storeValue (s.ea b p.toInt 4) 4 ((s.S d).setWidth 128) (r = 1)) s

/-- `st.64` (08 R257-R258). -/
def execSt64 (d b : BitVec 5) (t : BitVec 1) (w : BitVec 2) (r : BitVec 1) (p : BitVec 12) (s : State) :
    Host.Outcome State Fault Refusal :=
  issue (.st64 d b t w r p) (fun s => s.storeValue (s.ea b p.toInt 8) 8 ((s.S d).setWidth 128) (r = 1)) s

/-- `vld` (08 R257-R258). -/
def execVld (v b : BitVec 5) (t : BitVec 1) (w : BitVec 2) (r x : BitVec 1) (p : BitVec 11) (s : State) :
    Host.Outcome State Fault Refusal :=
  issue (.vld v b t w r x p) (fun s =>
    let a := s.ea b p.toInt 16
    if isLocal s.cur a then (s.setV (vreg v x) (s.localValue a 16 false)).evc (coreOf s.cur) 11
    else s.remoteLoad a 16 false ⟨vreg v x, true, true⟩ (r = 1) false) s

/-- `vst` (08 R257-R258). -/
def execVst (v b : BitVec 5) (t : BitVec 1) (w : BitVec 2) (r x : BitVec 1) (p : BitVec 11) (s : State) :
    Host.Outcome State Fault Refusal :=
  issue (.vst v b t w r x p) (fun s => s.storeValue (s.ea b p.toInt 16) 16 (s.V (vreg v x)) (r = 1)) s

/-! ### Gathers (08 R259-R260) -/

/-- A gather: local lanes are read at once, the others return one by one. -/
def gather (i : Instr) (v : BitVec 5) (x : BitVec 1) (adaptive : Bool) (s : State) :
    Host.Outcome State Fault Refusal :=
  issue i (fun s =>
    let l := s.gatherLanes i
    let n := (l.map Prod.snd).headD 4
    let idx := (List.range l.length).zip (l.map Prod.fst)
    let acc := BitVec.ofNat 128 (idx.foldl (fun z p =>
      if isLocal s.cur p.2 then z + (s.localValue p.2 n false).toNat * 2 ^ (8 * n * p.1) else z) 0)
    let far := idx.filter fun p => !isLocal s.cur p.2
    let s := if far.length < idx.length then s.evc (coreOf s.cur) 11 else s
    match far with
    | [] => s.setV (vreg v x) acc
    | far =>
      let seq := s.seqNow
      far.foldl (fun s p =>
        s.sendAccess { s.request (.load false) p.2 n 0 (.v (vreg v x)) seq none adaptive with lane := some p.1 })
        (s.addProd (.v (vreg v x)) far.length acc false)) s

/-- `vlds` (08 R260). -/
def execVlds (v a : BitVec 5) (t : BitVec 1) (b : BitVec 5) (u x : BitVec 1) (w : BitVec 2) (r : BitVec 1)
    (z : BitVec 2) (s : State) : Host.Outcome State Fault Refusal :=
  gather (.vlds v a t b u x w r z) v x (r = 1) s

/-- `vldx` (08 R260). -/
def execVldx (v a : BitVec 5) (t : BitVec 1) (b : BitVec 5) (u x : BitVec 1) (w : BitVec 2) (r : BitVec 1)
    (s : State) : Host.Outcome State Fault Refusal :=
  gather (.vldx v a t b u x w r) v x (r = 1) s

/-! ### Acquire, release, `mwait` (08 R261-R265) -/

/-- `ld.acq.32` (08 R261, R263). -/
def execLdAcq32 (d b : BitVec 5) (t : BitVec 1) (c : BitVec 3) (p : BitVec 12) (s : State) :
    Host.Outcome State Fault Refusal :=
  loadScalar (.ldAcq32 d b t c p) d (fun s => s.ea b p.toInt 4) 4 false false true s

/-- `ld.acq.64` (08 R261, R263). -/
def execLdAcq64 (d b : BitVec 5) (t : BitVec 1) (c : BitVec 3) (p : BitVec 12) (s : State) :
    Host.Outcome State Fault Refusal :=
  loadScalar (.ldAcq64 d b t c p) d (fun s => s.ea b p.toInt 8) 8 false false true s

/-- `st.rel.32` (08 R261, R263). -/
def execStRel32 (d b : BitVec 5) (t : BitVec 1) (c : BitVec 3) (p : BitVec 12) (s : State) :
    Host.Outcome State Fault Refusal :=
  issue (.stRel32 d b t c p) (fun s => s.storeValue (s.ea b p.toInt 4) 4 ((s.S d).setWidth 128) false) s

/-- `st.rel.64` (08 R261, R263). -/
def execStRel64 (d b : BitVec 5) (t : BitVec 1) (c : BitVec 3) (p : BitVec 12) (s : State) :
    Host.Outcome State Fault Refusal :=
  issue (.stRel64 d b t c p) (fun s => s.storeValue (s.ea b p.toInt 8) 8 ((s.S d).setWidth 128) false) s

/-- `mwait`: the bundle issues when the counter is zero (08 R265). -/
def execMwait (k : BitVec 2) (s : State) : Host.Outcome State Fault Refusal := issue (.mwait k) (fun s => s) s

/-! ### Presence forms (08 R266-R271)

The request is sent at the first slot; the bundle issues at the first slot after the answer. -/

/-- The answer that the bundle at the thread's slot has received. -/
def State.answerHere (s : State) : Word := ((s.ctx s.cur).heldHere.bind fun h => h.answer).getD 0

/-- The issue of a form that takes its answer into a scalar register. -/
def issueAnswer (i : Instr) (d : BitVec 5) (s : State) : Host.Outcome State Fault Refusal :=
  let x := s.answerHere
  issueD i d (fun _ => x) (fun s => s.setS d x) s

/-- `ldfe` (08 R266). -/
def execLdfe (d b : BitVec 5) (t : BitVec 1) (w : BitVec 2) (r : BitVec 1) (p : BitVec 12) (s : State) :
    Host.Outcome State Fault Refusal := issueAnswer (.ldfe d b t w r p) d s

/-- `ld.pw` (08 R266). -/
def execLdPw (d b : BitVec 5) (t : BitVec 1) (w : BitVec 2) (r : BitVec 1) (p : BitVec 12) (s : State) :
    Host.Outcome State Fault Refusal := issueAnswer (.ldPw d b t w r p) d s

/-- `stef` (08 R266). -/
def execStef (d b : BitVec 5) (t : BitVec 1) (w : BitVec 2) (r : BitVec 1) (p : BitVec 12) (s : State) :
    Host.Outcome State Fault Refusal := issue (.stef d b t w r p) (fun s => s) s

/-! ### Stores written to the banks, and answers (08 R248, 03 R97) -/

/-- The oldest entry of a core's store buffer is written to the bank. -/
def State.storeBufferWrite (s : State) (core : Nat) : State :=
  match (s.core core).stbuf with
  | [] => s
  | e :: rest =>
    (s.modCore core fun k => { k with stbuf := rest }).wr (.scratch core e.off) e.size e.data.toNat

def State.writeEntries (s : State) (core : Nat) : Nat → State
  | 0 => s
  | n + 1 => (s.storeBufferWrite core).writeEntries core n

/-- What the answer to a request says of it. -/
def endedOf (r : Req) : Ended :=
  { start := r.start, addr := r.addr, pa := r.pa.getD 0, lid := r.lid
    kind := match r.op with
      | .load _ => 0
      | .store => 1
      | _ => 2 }

/-- A long-latency result travels back (03 R97). -/
def State.answerLoad (s : State) (r : Req) (x : VWord) (conds : List Nat) : State :=
  s.send none (.loadResult { th := r.th, seq := r.seq, dst := r.dst, lane := r.lane, size := r.size, value := x
                             conds := conds, ends := some (endedOf r) })

/-! ### Atomics (09 R302-R306) -/

/-- The new value of an atomic, if it writes, and the conditions it raises (09 R302, R305). -/
def amoNew (op n x y cmp : Nat) : Option Nat × List Nat :=
  let sg := fun v => valInt ⟨8 * n, true⟩ v
  match op with
  | 0 => (some ((x + y) % 2 ^ (8 * n)), [])
  | 1 => (some (x &&& y), [])
  | 2 => (some (x ||| y), [])
  | 3 => (some (x ^^^ y), [])
  | 4 => (some (if sg y < sg x then y else x), [])
  | 5 => (some (if sg x < sg y then y else x), [])
  | 6 => (some (min x y), [])
  | 7 => (some (max x y), [])
  | 8 => (some y, [])
  | 9 => (if x = cmp then some y else none, [])
  | 10 => let r := fAdd f32 0 x y; (some r.1, r.2)
  | _ => (if x < y then some (x + 1) else none, [])

/-- The new value of an atomic's word, the answer, and the conditions, of the word it finds. -/
def amoResult (r : Req) (op x : Nat) : Option Nat × VWord × List Nat :=
  let y := amoNew op r.size x (r.data.toNat % 2 ^ (8 * r.size)) (r.cmp.toNat % 2 ^ (8 * r.size))
  (y.1, extend r.size (op = 4 || op = 5) x, y.2)

/-- An atomic of a core to its own scratchpad, a local access, is performed at the bank in its place among the local accesses of
its thread, which has no earlier store in the buffer then (`State.storesBefore`), and its result is long-latency (08 R247, R249, 09
R304). -/
def State.amoHere (s0 : State) (r : Req) (op : Nat) : State :=
  let s := s0.evc (coreOf r.th) 11
  let p := Place.scratch (coreOf r.th) (r.addr.toNat % 2 ^ 20)
  let y := amoResult r op (s.rd p r.size)
  (y.1.elim s (s.wr p r.size)).answerLoad r y.2.1 y.2.2

/-- An atomic: long-latency, counted in no store counter; performed here on the core's own scratchpad, else at its home
(09 R304). -/
def atomic (i : Instr) (op : Nat) (d a b : BitVec 5) (n : Nat) (adaptive : Bool) (s : State) :
    Host.Outcome State Fault Refusal :=
  issue i (fun s =>
    let r := s.request (.amo op) (s.S a) n ((s.S b).setWidth 128) (dstS d).dest s.seqNow none adaptive
    let r := { r with cmp := if op = 9 then s.S d else 0, start := (s.ctx s.cur).lostAt.getD r.start }
    let t := s.addProd (dstS d).dest 1 0 false
    if isLocal s.cur r.addr then t.amoHere r op else t.sendAccess r) s

/-- `amo.add` (09 R302, R304). -/
def execAmoAdd (d a : BitVec 5) (t : BitVec 1) (b : BitVec 5) (u l r : BitVec 1) (w : BitVec 2) (s : State) :
    Host.Outcome State Fault Refusal :=
  atomic (.amoAdd d a t b u l r w) 0 d a b (if l = 1 then 8 else 4) (r = 1) s

/-- `amo.and` (09 R302, R304). -/
def execAmoAnd (d a : BitVec 5) (t : BitVec 1) (b : BitVec 5) (u l r : BitVec 1) (w : BitVec 2) (s : State) :
    Host.Outcome State Fault Refusal :=
  atomic (.amoAnd d a t b u l r w) 1 d a b (if l = 1 then 8 else 4) (r = 1) s

/-- `amo.or` (09 R302, R304). -/
def execAmoOr (d a : BitVec 5) (t : BitVec 1) (b : BitVec 5) (u l r : BitVec 1) (w : BitVec 2) (s : State) :
    Host.Outcome State Fault Refusal :=
  atomic (.amoOr d a t b u l r w) 2 d a b (if l = 1 then 8 else 4) (r = 1) s

/-- `amo.xor` (09 R302, R304). -/
def execAmoXor (d a : BitVec 5) (t : BitVec 1) (b : BitVec 5) (u l r : BitVec 1) (w : BitVec 2) (s : State) :
    Host.Outcome State Fault Refusal :=
  atomic (.amoXor d a t b u l r w) 3 d a b (if l = 1 then 8 else 4) (r = 1) s

/-- `amo.min` (09 R302, R304). -/
def execAmoMin (d a : BitVec 5) (t : BitVec 1) (b : BitVec 5) (u l r : BitVec 1) (w : BitVec 2) (s : State) :
    Host.Outcome State Fault Refusal :=
  atomic (.amoMin d a t b u l r w) 4 d a b (if l = 1 then 8 else 4) (r = 1) s

/-- `amo.max` (09 R302, R304). -/
def execAmoMax (d a : BitVec 5) (t : BitVec 1) (b : BitVec 5) (u l r : BitVec 1) (w : BitVec 2) (s : State) :
    Host.Outcome State Fault Refusal :=
  atomic (.amoMax d a t b u l r w) 5 d a b (if l = 1 then 8 else 4) (r = 1) s

/-- `amo.minu` (09 R302, R304). -/
def execAmoMinu (d a : BitVec 5) (t : BitVec 1) (b : BitVec 5) (u l r : BitVec 1) (w : BitVec 2) (s : State) :
    Host.Outcome State Fault Refusal :=
  atomic (.amoMinu d a t b u l r w) 6 d a b (if l = 1 then 8 else 4) (r = 1) s

/-- `amo.maxu` (09 R302, R304). -/
def execAmoMaxu (d a : BitVec 5) (t : BitVec 1) (b : BitVec 5) (u l r : BitVec 1) (w : BitVec 2) (s : State) :
    Host.Outcome State Fault Refusal :=
  atomic (.amoMaxu d a t b u l r w) 7 d a b (if l = 1 then 8 else 4) (r = 1) s

/-- `amo.swap` (09 R302, R304). -/
def execAmoSwap (d a : BitVec 5) (t : BitVec 1) (b : BitVec 5) (u l r : BitVec 1) (w : BitVec 2) (s : State) :
    Host.Outcome State Fault Refusal :=
  atomic (.amoSwap d a t b u l r w) 8 d a b (if l = 1 then 8 else 4) (r = 1) s

/-- `amo.cas` (09 R302, R304). -/
def execAmoCas (d a : BitVec 5) (t : BitVec 1) (b : BitVec 5) (u l r : BitVec 1) (w : BitVec 2) (s : State) :
    Host.Outcome State Fault Refusal :=
  atomic (.amoCas d a t b u l r w) 9 d a b (if l = 1 then 8 else 4) (r = 1) s

/-- `amo.fadd.f32` (09 R305). -/
def execAmoFaddF32 (d a : BitVec 5) (t : BitVec 1) (b : BitVec 5) (u r : BitVec 1) (w : BitVec 2) (s : State) :
    Host.Outcome State Fault Refusal :=
  atomic (.amoFaddF32 d a t b u r w) 10 d a b 4 (r = 1) s

/-- `amo.inclt` (09 R302, R304). -/
def execAmoInclt (d a : BitVec 5) (t : BitVec 1) (b : BitVec 5) (u l r : BitVec 1) (w : BitVec 2) (s : State) :
    Host.Outcome State Fault Refusal :=
  atomic (.amoInclt d a t b u l r w) 11 d a b (if l = 1 then 8 else 4) (r = 1) s

end Sys2Proof.Machine
end

