-- ==== Sys2Proof/Machine/Pool.lean ====
section
/-! DEFINITION. Tags in registers, inserts, and what a thread reads of the pool and of coverage
(09 R295-R301, 11 R385-R387). -/

namespace Sys2Proof.Machine

/-- `ttag` (09 R295). -/
def execTtag (d a : BitVec 5) (t : BitVec 1) (b : BitVec 5) (u : BitVec 1) (s : State) :
    Host.Outcome State Fault Refusal :=
  issueS (.ttag d a t b u) d (fun s => (s.S a).extractLsb' 0 16 ++ (s.S b).extractLsb' 0 48) s

/-- A field of a tag: kind, generation, key a, b, c (09 R295). -/
def tagField (x : Word) (f : Nat) : Word :=
  let r : Rec := ⟨x, 0⟩
  BitVec.ofNat 64 (if f = 0 then r.kind else if f = 1 then r.gen else r.key (f - 2))

/-- `tfld` (09 R295). -/
def execTfld (d a : BitVec 5) (t : BitVec 1) (f : BitVec 3) (s : State) : Host.Outcome State Fault Refusal :=
  issueS (.tfld d a t f) d (fun s => tagField (s.S a) f.toNat) s

/-- `tgen`: the launch's generation, 0 without a launch (09 R295). -/
def execTgen (d : BitVec 5) (s : State) : Host.Outcome State Fault Refusal :=
  issueS (.tgen d) d (fun s => BitVec.ofNat 64 ((s.launchOf s.cur).elim 0 (·.gen))) s

/-- The fretboard entries that a launch holds in its quad: all, or one half (08 R244, 02 R64). -/
def State.entriesOf (s : State) (lid : Option Nat) : Nat × Nat :=
  match (lid.bind s.launch).bind fun l => s.halfOf l.part with
  | some h => (2048 * h, 2048)
  | none => (0, 4096)

/-- The occupancy word of the issuing quad (09 R296). -/
def State.poolWord (s : State) (th : Nat) : Word :=
  if s.inOrdered th then 0
  else
    let lid := s.lidOf th
    let e := s.entriesOf lid
    let recs := (s.quad (quadOf (coreOf th))).fret.recs
    let held := (recs.filter fun r => match r.entry with
      | some k => e.1 ≤ k && k < e.1 + e.2
      | none => false).length
    let spilled := (recs.filter fun r => r.entry.isNone && some r.lid = lid).length
    BitVec.ofNat 64 (min spilled 0xFFFFFFFF * 2 ^ 32 + held % 8192)

/-- `pool.cnt` (09 R296). -/
def execPoolCnt (d : BitVec 5) (s : State) : Host.Outcome State Fault Refusal :=
  issueS (.poolCnt d) d (fun s => s.poolWord s.cur) s

/-- The record of a thread's operands leaves for its home (09 R298). -/
def State.insertOwn (s : State) (a b : BitVec 5) : State :=
  match s.lidOf s.cur with
  | some lid => s.insertRecord (coreOf s.cur) (dieOfTh s.cur) s.cur (s.who s.cur) lid ⟨s.S a, s.S b⟩ none
  | none => s

/-- `tins` (09 R297-R299). -/
def execTins (a : BitVec 5) (t : BitVec 1) (b : BitVec 5) (u : BitVec 1) (s : State) :
    Host.Outcome State Fault Refusal := issue (.tins a t b u) (fun s => s.insertOwn a b) s

/-- `tinsd` (09 R297-R299). -/
def execTinsd (a : BitVec 5) (t : BitVec 1) (b : BitVec 5) (u : BitVec 1) (s : State) :
    Host.Outcome State Fault Refusal := issue (.tinsd a t b u) (fun s => s.insertOwn a b) s

end Sys2Proof.Machine
end

