-- ==== Sys2Proof/Machine/Fretboard.lean ====
section
/-! DEFINITION. Fretboards: arrival, matching, dispatch, spill, notices (02 R41-R69, 11 R374-R376), and the
start and the end of tasks at a core: firings, wakes, refusals, retries, free contexts (02 R53-R63, 03 R81-R82). -/

namespace Sys2Proof.Machine

/-! ### Which record fits (02 R41, R68) -/

/-- A generation mode holds for a record's generation. -/
def genFits (mode cur g : Nat) : Bool :=
  if mode = 0 then g = cur else if mode = 1 then g = (cur + 255) % 256 else true

/-- A condition on key field `f` holds, given the records at the earlier positions. -/
def condHolds (g : List FRec) (r : Rec) (f : Nat) : Cond → Bool
  | .any => true
  | .eq c => r.key f = c
  | .same pos fl => match g[pos]? with
    | some x => r.key f = x.record.key fl
    | none => false
  | .range lo hi => lo ≤ r.key f && r.key f ≤ hi

/-- `Fits` for position j of a rule in generation `cur`. -/
def fits (cur : Nat) (rule : Rule) (j : Nat) (g : List FRec) (r : FRec) : Bool :=
  match rule.pats[j]? with
  | none => false
  | some p =>
    r.record.kind = p.kind && genFits p.gen cur r.record.gen &&
      (List.range 3).all fun f => condHolds g r.record f (p.conds.getD f .any)

/-- `Fill`: the remaining `k` positions of a group, with the number of records examined (02 R47). -/
def fillFrom (fit : Nat → List FRec → FRec → Bool) (cands : List FRec) (p : Nat) (t : FRec) :
    Nat → List FRec → Nat → Option (List FRec) × Nat
  | 0, g, n => (some g, n)
  | k + 1, g, n =>
    if g.length = p then
      if fit g.length g t then fillFrom fit cands p t k (g ++ [t]) (n + 1) else (none, n + 1)
    else cands.foldl (fun acc r => match acc.1 with
      | some _ => acc
      | none =>
        if r.arr ≠ t.arr && !(g.any fun x => x.arr = r.arr) then
          if fit g.length g r then fillFrom fit cands p t k (g ++ [r]) (acc.2 + 1) else (none, acc.2 + 1)
        else acc) (none, n)

/-- The group of a rule with the trigger at some position, the lowest first. -/
def fillRule (cur : Nat) (rule : Rule) (cands : List FRec) (t : FRec) (n : Nat) : Option (List FRec) × Nat :=
  (List.range rule.pats.length).foldl (fun acc p => match acc.1 with
    | some _ => acc
    | none =>
      if (rule.pats[p]?).any fun x => x.kind = t.record.kind then
        fillFrom (fits cur rule) cands p t rule.pats.length [] acc.2
      else acc) (none, n)

/-! ### The reconstruction rule (11 R375) -/

/-- The point of a record's keys. -/
def recPoint (r : Rec) : Point := ⟨r.key 0, r.key 1, r.key 2⟩

/-- The records a hole needs beside itself: kind and generation of each. -/
def Launch.holeNeeds (l : Launch) (rule : Rule) (h : FRec) : List (Nat × Nat) :=
  match l.walk, l.cover with
  | some w, some c =>
    ((l.required w c rule.kernel (recPoint h.record)).map fun j => (c.nk + j, l.gen)) ++
      (if rule.kernel = 5 then [(w.out, (l.gen + 255) % 256)] else []) ++
      (if h.marks.any (·.audit) then [(w.out, l.gen)] else [])
  | _, _ => []

/-- The keys of two records are equal. -/
def sameKeys (a b : Rec) : Bool := a.tag.toNat % 2 ^ 48 = b.tag.toNat % 2 ^ 48

/-- The group of one hole, if it is complete with the trigger in it. -/
def Launch.holeGroup (l : Launch) (rule : Rule) (cands : List FRec) (t h : FRec) : Option (List FRec) :=
  let pick := fun n : Nat × Nat =>
    let ok := fun r : FRec => r.record.kind = n.1 && r.record.gen = n.2 && sameKeys r.record h.record
    if ok t then some t else cands.find? ok
  let ms := (l.holeNeeds rule h).map pick
  if ms.all Option.isSome then
    let g := h :: ms.filterMap id
    if g.any fun x => x.arr = t.arr then some g else none
  else none

/-- The group of the reconstruction rule. -/
def Launch.fillRecon (l : Launch) (rule : Rule) (cands : List FRec) (t : FRec) (n : Nat) : Option (List FRec) × Nat :=
  let hole := fun r : FRec => (l.cover.any fun c => c.hole = r.record.kind) && r.record.gen = l.gen
  let holes := if hole t then [t] else cands.filter fun r => hole r && sameKeys r.record t.record
  (holes.findSome? (l.holeGroup rule cands t), n + holes.length)

/-! ### Effective priority (02 R51) -/

/-- The trigger count a launch's logical quad has at a fretboard. DESIGN CHOICE (log 107): logical quads that share a
fretboard each have their own count, and ages are counted in it (02 R51). -/
def trigKey (lid lq : Nat) : Nat := lid * 32768 + lq

/-- The age of a waiting record. -/
def recAge (trig : Nat) (r : FRec) : Nat := match r.since with
  | some x => trig - x
  | none => 0

/-- `EffPrio`. -/
def effPrio (limit trig : Nat) (recs : List FRec) (rule : Rule) : Nat :=
  if limit = 0 then rule.prio
  else
    let boost := (rule.pats.map fun p =>
      let a := ((recs.filter fun r => r.since.isSome && !r.reserved && r.record.kind = p.kind).map (recAge trig)).foldl max 0
      if 1 ≤ a then (a - 1) / limit else 0).foldl max 0
    min 7 (rule.prio + boost)

/-- The rules of a launch by effective priority, then index. -/
def byPrio (limit trig : Nat) (recs : List FRec) (l : Launch) : List Rule :=
  ((List.range 8).map (7 - ·)).flatMap fun p => l.rules.filter fun r => effPrio limit trig recs r = p

/-! ### The overflow area (02 R64-R66) -/

/-- Slot k of a launch's overflow area for a fretboard, in the near tier. DESIGN CHOICE (log 108): the area lies where
luthier puts it, 16 bytes a record, tag first. -/
def State.overflowPlace (s : State) (quad lid k : Nat) : Place :=
  let base := Config.overflowArea lid (((s.launch lid).bind fun l => s.partQuadNo l.part quad).getD 0)
  .tier (base % 8 * 2 ^ 36 + base / 8 % 60000000000 / 16 * 16 + 16 * k)

/-- A record as a trigger examines it: a spilled one is read from the near tier (02 R65). -/
def State.examined (s : State) (quad : Nat) (r : FRec) : FRec :=
  match r.slot with
  | none => r
  | some k =>
    let x := s.rd (s.overflowPlace quad r.lid k) 16
    { r with record := ⟨BitVec.ofNat 64 x, BitVec.ofNat 64 (x / 2 ^ 64)⟩ }

/-- A record is written to its slot of the overflow area. -/
def State.spillOut (s : State) (quad : Nat) (r : FRec) (k : Nat) : State :=
  s.wrHome (s.overflowPlace quad r.lid k) 16 (r.record.tag.toNat + r.record.loc.toNat * 2 ^ 64)

/-! ### Dispatch (02 R46, R53-R54) -/

def State.fret (s : State) (quad : Nat) : Fret := (s.quad quad).fret
def State.modFret (s : State) (quad : Nat) (f : Fret → Fret) : State :=
  s.modQuad quad fun q => { q with fret := f q.fret }

/-- The allocated contexts of a core. DESIGN CHOICE (log 139): one held for the retry of a refused sender, still free, is not
counted. -/
def State.busy (s : State) (core : Nat) : Nat := ((s.coreCtxs core).filter fun th => (s.ctx th).status ≠ .free).length

/-- The core a firing goes to. -/
def State.placeFiring (s : State) (l : Launch) (rule : Rule) (quad : Nat) (first : Rec) : Nat :=
  let cores := s.partCores l.part quad
  if l.ordered || rule.byKey then cores.getD (first.key rule.keyField % cores.length) 0
  else
    let least := (cores.map s.busy).foldl min 16
    ((cores.find? fun c => s.busy c = least).getD (cores.headD 0))

/-- The arrival numbers of the records a firing consumes. -/
def consumedArrs (rule : Rule) (arrs : List Nat) : List Nat :=
  ((List.range arrs.length).zip arrs).filterMap fun p =>
    if rule.recon then (if p.1 = 0 then some p.2 else none)
    else if (rule.pats[p.1]?).any (·.cat) then none else some p.2

/-- The ranges a reconstruction reads and writes, as locks of its firing (11 R377). -/
def reconLocks (l : Launch) (f : Firing) : List Lock :=
  let n := (l.walk.bind fun w => l.kind w.out).elim 1 fun k => ((l.tds.getD k.td none).elim 1 Tensor.span)
  let lock := fun (r : Rec) (dst : Bool) =>
    ({ th := 0, seq := (f.lid + 1) * 2 ^ 48 + f.number, lo := lockAddr r.addr, hi := lockAddr r.addr + (n - 1), dst := dst
       xctx := if r.space = 0 then some l.xctx else none } : Lock)
  match f.members with
  | [] => []
  | h :: ms =>
    let audit := f.marks.any (·.audit)
    ((ms.filter fun r => r.space ≤ 1).map (lock · false)) ++ (if audit then [] else [lock h true])

/-- The consumed records of an accepted firing leave their fretboard. -/
def State.consume (s : State) (l : Launch) (f : Firing) : State :=
  match l.rules.find? fun r => r.index = f.rule with
  | none => s
  | some rule =>
    let gone := consumedArrs rule f.arrs
    s.modFret f.quad fun k => { k with
      recs := k.recs.filter fun r => !(r.lid = f.lid && r.reserved && gone.contains r.arr)
      refused := k.refused.filter (· ≠ f) }

/-- The unit accepts a firing: its consumed records go. Its ranges are registered now if they fit, else before it is performed (11
R377, log 65). -/
def State.acceptRecon (s : State) (l : Launch) (f : Firing) : State :=
  let locks := reconLocks l f
  (s.consume l f).modQuad f.quad fun q => { q with
    recon := { q.recon with held := q.recon.held ++ [f] }
    locks := if q.locks.length + locks.length ≤ 64 then q.locks ++ locks else q.locks }

/-- A place of the unit is free, and a firing stands first in its refusal list: that one takes the place, which was held for it;
one whose launch is gone leaves the list (11 R377, 02 R56). -/
def State.serveRecon1 (s : State) (quad : Nat) : State :=
  match (s.quad quad).recon.refusal with
  | [] => s
  | f :: rest =>
    if (s.quad quad).recon.held.length < 16 then
      let s1 := s.modQuad quad fun q => { q with recon := { q.recon with refusal := rest } }
      match s.launch f.lid with
      | some l => s1.acceptRecon l f
      | none => s1
    else s

/-- The unit's free places go to the firings in its refusal list, in order. -/
def State.serveReconN (s : State) (quad : Nat) : Nat → State
  | 0 => s
  | n + 1 => (s.serveRecon1 quad).serveReconN quad n

def State.serveRecon (s : State) (quad : Nat) : State := s.serveReconN quad (s.quad quad).recon.refusal.length

/-- A firing is offered to its quad's reconstruction unit, which holds 16 and refuses the rest, and every newcomer while one that
it refused before is listed (11 R377, 02 R55). -/
def State.offerRecon (s : State) (l : Launch) (f : Firing) : State :=
  let q := s.quad f.quad
  if q.recon.held.length < 16 && q.recon.refusal.isEmpty then s.acceptRecon l f
  else
    let s1 := s.modFret f.quad fun k => { k with refused := if k.refused.contains f then k.refused else k.refused ++ [f] }
    if q.recon.refusal.contains f then s1
    else if q.recon.refusal.length < 64 then
      s1.modQuad f.quad fun q => { q with recon := { q.recon with refusal := q.recon.refusal ++ [f] } }
    else s1.sendLater 256 (.refusalRetry (f.quad * 4) (.firing f))

/-- A group leaves the fretboard as a firing: its consumed records are reserved until it is accepted. -/
def State.dispatch (s : State) (quad : Nat) (l : Launch) (t : FRec) (rule : Rule) (g : List FRec) (examined : Nat) :
    State :=
  let k := s.fret quad
  let number := get 0 k.firings t.lid
  let arrs := g.map (·.arr)
  let gone := consumedArrs rule arrs
  let trig := get 0 k.trigCount (trigKey t.lid t.lq)
  let f : Firing := { lid := t.lid, quad := quad, lq := t.lq, rule := rule.index, members := g.map (·.record), arrs := arrs
                      number := number, marks := if rule.recon then g.head?.bind (·.marks) else none, since := s.hub.cycle }
  let s1 := s.modFret quad fun k => { k with
    firings := put 0 k.firings t.lid (number + 1)
    recs := k.recs.map fun r =>
      if r.lid = t.lid && gone.contains r.arr then { r with reserved := true, pending := false } else r }
  let s2 := g.foldl (fun s r =>
    if gone.contains r.arr && r.since.isSome then
      s.post (dieOf quad) 0x03 (some t.lid) (quad * 4) 0 (sat32 (recAge trig r))
        (BitVec.ofNat 32 (r.record.kind + 256 * rule.index)) 0
    else s) s1
  let first := (f.members.headD ⟨0, 0⟩)
  let s3 := s2.post (dieOf quad) 0x01 (some t.lid) (quad * 4) 0 (BitVec.ofNat 32 (rule.index + 256 * (t.lq % 1024)))
    (BitVec.ofNat 32 (first.key 0 * 65536 + first.key 1)) (sat32 examined)
  let s3 := s3.overrun (some t.lid) (quad * 64) 11 (s.hub.cycle - t.came) (64 + 8 * examined)
  let s4 := (if l.firstFiring.isNone then s3.postLaunch t.lid 0x0A else s3).modLaunch t.lid fun l => { l with
    firings := l.firings + 1, firstFiring := some (l.firstFiring.getD s.stamp) }
  if rule.recon then s4.offerRecon l f
  else
    let core := s4.placeFiring l rule quad first
    s4.send (some (endFret quad, core)) (.firingDelivery core f)

/-! ### Processing triggers (02 R46-R49) -/

/-- The records of a launch's logical quad at a fretboard. -/
def Fret.of (k : Fret) (lid lq : Nat) : List FRec := k.recs.filter fun r => r.lid = lid && r.lq = lq

/-- The first group that a trigger completes, by rule. -/
def State.findGroup (s : State) (quad : Nat) (l : Launch) (t : FRec) : Option (Rule × List FRec) × Nat :=
  let k := s.fret quad
  let recs := (k.of t.lid t.lq).map (s.examined quad)
  let cands := recs.filter fun r => r.processed && !r.reserved
  let limit := get 0 k.agelimit ((s.halfOf l.part).getD 0)
  let trig := get 0 k.trigCount (trigKey t.lid t.lq)
  (byPrio limit trig recs l).foldl (fun acc rule => match acc.1 with
    | some _ => acc
    | none =>
      let r := if rule.recon then l.fillRecon rule cands t acc.2 else fillRule l.gen rule cands t acc.2
      (r.1.map fun g => (rule, g), r.2)) (none, 0)

/-- `ProcessTrigger`, its repetition bounded by the records held. -/
def State.process (s : State) (quad : Nat) (lid arr : Nat) : Nat → State
  | 0 => s
  | fuel + 1 =>
    match s.launch lid, ((s.fret quad).recs.find? fun r => r.lid = lid && r.arr = arr && !r.reserved).map (s.examined quad) with
    | some l, some t => match s.findGroup quad l t with
      | (some (rule, g), n) => (s.dispatch quad l t rule g n).process quad lid arr fuel
      | (none, _) => s
    | _, _ => s

/-- A launch's triggers are processed: it runs, and no rung of the ladder holds it (20 R494). -/
def Launch.matching (l : Launch) : Bool :=
  (l.state = .seeding || l.state = .running) && l.ladder = .none

/-- Several logical quads of a launch share a quad. -/
def State.multiplexed (s : State) (l : Launch) (quad : Nat) : Bool := 2 ≤ (s.lqsOn l quad).length

/-- The logical quad whose turn it is at a quad. -/
def State.turnOf (s : State) (l : Launch) (quad : Nat) : Option Nat :=
  get none (s.quad quad).turn ((s.halfOf l.part).getD 0)

/-- A record may be processed now as a trigger (02 R46, 18 R436). -/
def State.mayProcess (s : State) (quad : Nat) (r : FRec) : Bool :=
  r.pending && !r.reserved && (match s.launch r.lid with
    | some l => l.matching && (!s.multiplexed l quad || (s.turnOf l quad).isNone || s.turnOf l quad = some (trigKey r.lid r.lq))
    | none => false)

/-- PROCESS_TRIGGER: the next trigger of a fretboard, the lowest arrival number first (02 R46-R47). -/
def State.processTrigger (s : State) (quad : Nat) : State :=
  match (s.fret quad).recs.find? (s.mayProcess quad) with
  | none => s
  | some t =>
    let s0 := match s.launch t.lid with
      | some l => if s.multiplexed l quad then
          s.modQuad quad fun q => { q with turn := put none q.turn ((s.halfOf l.part).getD 0) (some (trigKey t.lid t.lq)) }
        else s
      | none => s
    let s1 := s0.process quad t.lid t.arr ((s.fret quad).recs.length + 1)
    s1.modFret quad fun k =>
      let n := get 0 k.trigCount (trigKey t.lid t.lq)
      { k with
        trigCount := put 0 k.trigCount (trigKey t.lid t.lq) (n + 1)
        recs := k.recs.map fun r =>
          if r.lid = t.lid && r.arr = t.arr && !r.reserved then { r with processed := true, pending := false, since := some n }
          else r }

/-- `PROCESS_TRIGGER` (02 R47). -/
def execProcessTrigger (quad : Nat) (s : State) : Host.Outcome State Fault Refusal := .next (s.processTrigger quad)

/-! ### Arrival, spill (02 R45, R64-R66) -/

/-- The entries of the launch's part of a fretboard that hold records. -/
def State.entriesUsed (s : State) (quad lid : Nat) : List Nat :=
  let e := s.entriesOf (some lid)
  (s.fret quad).recs.filterMap fun r => r.entry.filter fun k => e.1 ≤ k && k < e.1 + e.2

/-- The lowest free entry. -/
def State.freeEntry (s : State) (quad lid : Nat) : Option Nat :=
  let e := s.entriesOf (some lid)
  let used := s.entriesUsed quad lid
  if used.length < e.2 then ((List.range e.2).map (e.1 + ·)).find? fun k => !used.contains k else none

/-- The oldest resident record that could be spilled. -/
def State.spillable (s : State) (quad lid : Nat) : Option FRec :=
  let e := s.entriesOf (some lid)
  (s.fret quad).recs.find? fun r => r.processed && !r.reserved && r.entry.any fun k => e.1 ≤ k && k < e.1 + e.2

/-- The spilled records of a launch at a fretboard. -/
def State.spilledCount (s : State) (quad lid : Nat) : Nat :=
  ((s.fret quad).recs.filter fun r => r.entry.isNone && r.lid = lid).length

/-- The lowest free slot of a launch's overflow area. -/
def State.freeSlot (s : State) (quad lid : Nat) : Nat :=
  let used := (s.fret quad).recs.filterMap fun r => if r.lid = lid then r.slot else none
  ((List.range (used.length + 1)).find? fun k => !used.contains k).getD 0

/-- A record is admitted (02 R64, R66). At a full fretboard its oldest resident record is written to the overflow area
first. DESIGN CHOICE (log 109): where it holds no resident record, but unprocessed ones beside reserved ones, the arrival
itself is written there, as where all are reserved. -/
def State.takeIn (s : State) (quad : Nat) (l : Launch) (r : FRec) : State :=
  match s.freeEntry quad r.lid with
  | some k => s.modFret quad fun f => { f with recs := f.recs ++ [{ r with entry := some k }] }
  | none =>
    if l.spill ≤ s.spilledCount quad r.lid then s.failLaunch r.lid kPOOL_OVERFLOW r.lq 0
    else match s.spillable quad r.lid with
      | some o =>
        let k := s.freeSlot quad o.lid
        ((s.loseBound (some o.lid)).spillOut quad o k).modFret quad fun f => { f with
          recs := (f.recs.map fun x => if x.lid = o.lid && x.arr = o.arr then { x with entry := none, slot := some k } else x) ++
            [{ r with entry := o.entry }] }
      | none =>
        let k := s.freeSlot quad r.lid
        ((s.loseBound (some r.lid)).spillOut quad r k).modFret quad fun f => { f with recs := f.recs ++ [{ r with entry := none, slot := some k }] }

/-- A point whose plane has been latched is kept. -/
def Launch.keptPoint (l : Launch) (p : Point) : Bool :=
  match l.cover with
  | none => true
  | some c => p.z < l.planes && l.keeps c p

/-- The holes that require a kept point, with the slot (11 R373-R374). -/
def Launch.noticesOf (l : Launch) (p : Point) : List (Nat × Point) :=
  match l.walk, l.cover, l.rules.find? (·.recon) with
  | some w, some c, some rule =>
    let cand := [(0, p.side 1), (1, p.side 0), (2, p.side 3), (3, p.side 2)]
    cand.filterMap fun x => x.2.bind fun q =>
      if w.inside q && !l.keeps c q && (l.required w c rule.kernel q).contains x.1 then some (x.1, q) else none
  | _, _, _ => []

/-- The position of a point in the walk. -/
def Walk.pos (w : Walk) (p : Point) : Nat := p.x + w.nx * (p.y + w.ny * p.z)

/-- A point of the walk is finished (11 R368). -/
def State.finishPoint (s : State) (lid : Nat) (p : Point) : State :=
  s.modLaunch lid fun l => match l.walk with
    | some w => { l with unfinished := l.unfinished.filter (· ≠ w.pos p) }
    | none => l

/-- What the arrival of an output record does besides: it finishes its point, and notices go to the holes that
require it (11 R368, R374). -/
def State.outputArrived (s : State) (quad : Nat) (lid : Nat) (l : Launch) (r : Rec) : State :=
  match l.walk with
  | none => s
  | some w =>
    let p := recPoint r
    if r.kind = w.out && r.gen = l.gen && w.inside p && l.keptPoint p then
      (l.noticesOf p).foldl (fun s x =>
        let n : Rec := ⟨mkTag ((l.cover.elim 0 (·.nk)) + x.1) l.gen x.2.x x.2.y x.2.z, r.loc⟩
        match (l.kind n.kind).map fun k => s.homeOfRec lid l k n with
        | some (.quad q lq) => s.sendRecord (endFret quad) lid q lq n none
        | _ => s) (s.finishPoint lid p)
    else s

/-- A record that comes for a saved launch stands last in the saved inbox of its quad, so that the records of one source reach
the fretboard in order when it is restored (02 R580, 20 R497). -/
def State.keepArrival (s : State) (l : Launch) (a : Arrival) : State :=
  s.modHub fun h => { h with saved := h.saved.map fun x =>
    if x.lid = a.lid && s.partQuadNo l.part a.quad = some x.no then
      { x with inbox := x.inbox ++ [{ pair := none, ev := .recordArrival { a with quad := x.quad } }] }
    else x }

/-- RECORD_ARRIVAL (02 R45, R64, R76, 09 R301). -/
def State.arriveRecord (s : State) (a : Arrival) : State :=
  match s.launch a.lid with
  | none => s
  | some l =>
    if l.ladder = .saved then s.keepArrival l a
    else
      let s1 := s.modLaunch a.lid fun l => { l with received := l.received + 1 }
      if l.state = .failed then s1
      else if l.ordered && ((s.fret a.quad).of a.lid a.lq).any (fun r =>
          (r.processed || r.reserved) && r.record.tag = a.record.tag) then s1.failLaunch a.lid kDUP_TAG a.lq 0
      else
        let n := get 0 (s.fret a.quad).arrCount a.lid
        let r : FRec := { record := a.record, lid := a.lid, lq := a.lq, arr := n, entry := none, processed := false, since := none
                          pending := true, reserved := false, marks := a.marks, came := s.hub.cycle }
        let s2 := (s1.modLaunch a.lid fun l => { l with inserts := l.inserts + 1 }).modFret a.quad fun f => { f with
          arrCount := put 0 f.arrCount a.lid (n + 1) }
        (s2.takeIn a.quad l r).outputArrived a.quad a.lid l a.record

/-- `RECORD_ARRIVAL` (02 R45, 20 R479). -/
def execRecordArrival (a : Arrival) (s : State) : Host.Outcome State Fault Refusal :=
  .next (s.unlessStray (some a.lid) a.quad fun s => s.arriveRecord a)

/-- The launch's part of a fretboard holds fewer records than the mark: 3,968, or the same share of a half. -/
def State.belowMark (s : State) (quad lid : Nat) : Bool :=
  let n := (s.entriesOf (some lid)).2
  (s.entriesUsed quad lid).length < n - n / 32

/-- The memory port of a launch's overflow area for a fretboard. -/
def State.overflowPort (s : State) (quad lid : Nat) : Nat := match s.overflowPlace quad lid 0 with
  | .tier p => memPort p
  | _ => 0

/-- SPILL_RETURN: the oldest spilled record of a part that is below its mark is read back into a free entry, when the home of
its bytes has room (02 R65, 23 R550). -/
def State.spillReturn (s : State) (quad : Nat) : State :=
  match (s.fret quad).recs.find? fun r => r.entry.isNone && s.belowMark quad r.lid with
  | none => s
  | some r =>
    let back := { s.examined quad r with entry := s.freeEntry quad r.lid, slot := none }
    if !s.portAdmits (s.overflowPort quad r.lid) then s
    else (s.letIn (s.overflowPort quad r.lid)).modFret quad fun f => { f with recs := f.recs.map fun x => if x.lid = r.lid && x.arr = r.arr then back else x }

/-- `SPILL_RETURN` (02 R65). -/
def execSpillReturn (quad : Nat) (s : State) : Host.Outcome State Fault Refusal := .next (s.spillReturn quad)

/-! ### Firings and wakes at a core (02 R55-R63) -/

/-- The launch that a start belongs to accepts tasks: it is there, has not failed, and is not on a rung of the
ladder. A task of no launch is luthier's. -/
def State.startable (s : State) (m : Start) : Bool := match startLid m with
  | none => true
  | some lid => match s.launch lid with
    | some l => l.state ≠ .failed && l.ladder = .none
    | none => false

/-- A start whose launch is gone or has failed is dropped. -/
def State.startGone (s : State) (m : Start) : Bool := match startLid m with
  | none => false
  | some lid => match s.launch lid with
    | some l => l.state = .failed
    | none => true

/-- A core that may take a newcomer: none refused before it, no `slotw` round open, no change of mode due, a context
free (02 R55, 06 R209). -/
def State.coreTakes (s : State) (core : Nat) : Bool :=
  let k := s.core core
  k.refusal.isEmpty && k.round.isNone && k.repart.isNone && (s.freeCtx core).isSome

/-- The acceptance of a wake message reaches its sender (02 R63, 10 R350). -/
def State.wakeAccepted (s : State) (w : Wake) : State :=
  match w.sender with
  | .thread th k => s.uncount th k
  | .engine th unit seq =>
    match (s.engine unit (placeOfUnit th unit)).running.find? fun r => r.cmd.th = th && r.cmd.seq = seq with
    | some r => s.doneCmd r.cmd
    | none => s
  | .join _ => s

/-- What an accepted start leaves behind it: its group's consumed records, or its sender's wait. -/
def State.startAccepted (s : State) (m : Start) : State :=
  match m with
  | .firing f => match s.launch f.lid with
    | some l => s.consume l f
    | none => s
  | .wake w => s.wakeAccepted w

/-- A core refuses a start: listed, or sent again 256 cycles later. DESIGN CHOICE (log 106): that retry goes to the core
that refused it, of a firing under free placement too (02 R55-R57). -/
def State.refuse (s : State) (core : Nat) (m : Start) : State :=
  let s1 := match m with
    | .firing f => s.modFret f.quad fun k => { k with refused := if k.refused.contains f then k.refused else k.refused ++ [f] }
    | .wake _ => s
  let s2 := s1.evc core 10
  if (s2.core core).refusal.length < 64 then s2.modCore core fun k => { k with refusal := k.refusal ++ [m] }
  else s2.sendLater 256 (.refusalRetry core m)

/-- A start that is dropped leaves nothing waiting for it. -/
def State.dropStart (s : State) (m : Start) : State := match m with
  | .wake w => s.wakeAccepted w
  | .firing _ => s

/-- A start that finds a context free is to issue its first bundle in time, counted from its dispatch (17 R417). -/
def State.stampStart (s : State) (th : Nat) (m : Start) : State :=
  if s.reserved (startLid m) then s.modCtx th fun c => { c with dispatched := some (match m with
    | .firing f => f.since
    | .wake w => w.since) }
  else s

/-- A start reaches a core (02 R55). -/
def State.deliverStart (s : State) (core : Nat) (m : Start) : State :=
  if s.startGone m then s.dropStart m
  else if s.startable m && s.coreTakes core then
    match s.freeCtx core with
    | some th => ((s.startTask th m).stampStart th m).startAccepted m
    | none => s.refuse core m
  else s.refuse core m

/-- `FIRING_DELIVERY` (02 R55, R58). -/
def execFiringDelivery (core : Nat) (f : Firing) (s : State) : Host.Outcome State Fault Refusal :=
  .next (s.unlessStray (some f.lid) (quadOf core) fun s => s.deliverStart core (.firing f))

/-- `WAKE_MESSAGE` (02 R62-R63). -/
def execWakeMessage (w : Wake) (s : State) : Host.Outcome State Fault Refusal :=
  .next (s.unlessStray w.lid (quadOf w.core) fun s => s.deliverStart w.core (.wake w))

/-- A context that a core may allocate: free, and the owner of an entry of the slot table (03 R81). -/
def State.allocatable (s : State) (core th : Nat) : Bool :=
  (s.coreCtxs core).contains th && (s.ctx th).status = .free && ownsSlot (s.core core) (ctxOf th)

/-- The context held for a retry: the one named, or, when a change of mode or of the slot table or another task has taken that,
the next one that is free (03 R81). -/
def State.heldPlace (s : State) (core th : Nat) : Option Nat :=
  if s.allocatable core th then some th else s.freeCtx core

/-- Every retry that a core waits for has its context. -/
def State.heldPlaced (s : State) (core : Nat) : Bool :=
  (s.core core).heldFor.all fun p => s.allocatable core p.1

/-- The head of a core's refusal list gets the context that has become free: held, and its sender told (02 R56). A retry
that has lost its context comes before. -/
def State.serveRefusals (s : State) (core : Nat) : State :=
  match (s.core core).refusal, (if s.heldPlaced core then s.freeCtx core else none) with
  | m :: rest, some th =>
    (s.modCore core fun k => { k with refusal := rest, heldFor := k.heldFor ++ [(th, m, false)] }).send none
      (.contextFreeNotice core m)
  | _, _ => s

/-- A free context is there for the head of the refusal list. -/
def State.serveRefused (s : State) (core : Nat) : Nat → State
  | 0 => s
  | n + 1 => (s.serveRefusals core).serveRefused core n

/-- `CONTEXT_FREE_NOTICE`: the sender retries the start that the notice names, at that core (02 R56-R57, log 106). -/
def execContextFreeNotice (core : Nat) (m : Start) (s : State) : Host.Outcome State Fault Refusal :=
  .next (s.send none (.refusalRetry core m))

/-- The recon rule of a firing, when its launch still stands. -/
def State.reconOf (s : State) : Start → Option (Launch × Firing)
  | .firing f => (s.launch f.lid).bind fun l =>
      if l.rules.any fun r => r.index = f.rule && r.recon then some (l, f) else none
  | .wake _ => none

/-- The retry of a start has arrived at the context held for it. -/
def markArrived (m : Start) : List (Nat × Start × Bool) → List (Nat × Start × Bool)
  | [] => []
  | p :: l => if p.2.1 = m && !p.2.2 then (p.1, m, true) :: l else p :: markArrived m l

/-- A retried start takes the context held for it. -/
def State.startRetried (s : State) (th : Nat) (m : Start) : State :=
  if s.startGone m then s.dropStart m else (s.startTask th m).startAccepted m

/-- The first retry that a core waits for, those of launches on a rung of the ladder aside: each stays with its context until
its launch accepts tasks again, in its place (02 R56, R63, 20 R494). -/
def State.nextHeld (s : State) (core : Nat) : Option (Nat × Start × Bool) :=
  (s.core core).heldFor.find? fun p => s.startGone p.2.1 || s.startable p.2.1

/-- Retries that have arrived start in refusal order: the first held, as long as its retry is there (02 R63). While a
`slotw` round is open, or a change of mode is due, the core starts nothing, and they stay with their contexts (06 R207, R209,
log 106). -/
def State.startHeld (s : State) (core : Nat) : Nat → State
  | 0 => s
  | n + 1 =>
    if (s.core core).round.isSome || (s.core core).repart.isSome then s
    else match s.nextHeld core with
      | some (th, m, true) => match s.heldPlace core th with
        | some place =>
          ((s.modCore core fun k => { k with heldFor := k.heldFor.erase (th, m, true) }).startRetried place m).startHeld core n
        | none => s
      | _ => s

/-- A core's held retries start, and its refusal list is served, as far as contexts are free (02 R56, R63). -/
def State.serveCore (s : State) (core : Nat) : State :=
  let t := s.startHeld core (s.core core).heldFor.length
  if (t.core core).round.isSome || (t.core core).repart.isSome then t else t.serveRefused core (t.core core).refusal.length

/-- `REFUSAL_RETRY`: accepted where a context is held for it; otherwise it arrives afresh (02 R56). -/
def execRefusalRetry (core : Nat) (m : Start) (s : State) : Host.Outcome State Fault Refusal :=
  .next (match s.reconOf m with
    | some (l, f) => s.offerRecon l f
    | none =>
      if (s.core core).heldFor.any fun p => p.2.1 = m && !p.2.2 then
        (s.modCore core fun k => { k with heldFor := markArrived m k.heldFor }).serveCore core
      else s.deliverStart core m)

/-! ### The end of a task (03 R82, R95) -/

/-- A context of a core in a new mode: every register of it is zero, those of all classes of 03 R96, and every presence bit
full (03 R95, 06 R192, R207). What is no register stays: the numbers that tell its producers apart, the cycle of its last issue. -/
def clearedCtx (c : Ctx) : Ctx :=
  { ({} : Ctx) with qstall := 0, fewait := 0, nextSeq := c.nextSeq, lastIssue := c.lastIssue }

/-- The new mode of a core takes effect: default slot table, contexts cleared, windows unbound, channel buffers empty and
their words zero (03 R95, 06 R192, R207, 08 R280). -/
def State.installMode (s : State) (core mode : Nat) : State :=
  let s1 := (List.range 16).foldl (fun s k => s.modCtx (core * 16 + k) clearedCtx) s
  s1.modCore core fun k => { k with
    mode := mode, slots := defaultSlots (ctxCount mode), nextSlots := none, quiet := 0, repart := none, chans := [] }

/-- A Retiring context may become free. -/
def State.mayFree (s : State) (th : Nat) : Bool :=
  let c := s.ctx th
  c.status = .retiring && c.counterZero && c.prods.isEmpty

/-- A context becomes free; the core then serves its refusal list (03 R82). -/
def State.contextFree (s : State) (th : Nat) : State :=
  if !s.mayFree th then s
  else
    let core := coreOf th
    let s1 := s.freeNow th
    let s2 := match (s.core core).repart with
      | some (t, m) => if t = th then s1.installMode core m else s1
      | none => s1
    s2.serveCore core

/-- `CONTEXT_FREE` (03 R82). -/
def execContextFree (th : Nat) (s : State) : Host.Outcome State Fault Refusal := .next (s.contextFree th)

end Sys2Proof.Machine
end

