-- ==== Sys2Proof/Machine/Recon.lean ====
section
/-! DEFINITION. Reconstruction: kernel arithmetic, the error of an audit, firings, unresolved holes, and the
unit's commands (11 R377-R390). -/

namespace Sys2Proof.Machine

/-! ### Arithmetic (11 R379-R382) -/

/-- The exact quotient of two finite magnitudes, carried to 64 bits below the first. -/
def divFin (n1 : Bool) (m1 : Nat) (e1 : Int) (n2 : Bool) (m2 : Nat) (e2 : Int) : Val :=
  let k := 64 + Nat.log2 m2
  .fin (n1 != n2) (m1 * 2 ^ k / m2) (e1 - k - e2) (m1 * 2 ^ k % m2 ≠ 0)

/-- The quotient of two values, and whether it is an invalid operation. -/
def Val.div : Val → Val → Val × Bool
  | .nan, _ => (.nan, false)
  | _, .nan => (.nan, false)
  | .inf _, .inf _ => (.nan, true)
  | .inf a, .fin n _ _ _ => (.inf (a != n), false)
  | .fin n _ _ _, .inf b => (.fin (n != b) 0 0 false, false)
  | .fin n1 m1 e1 _, .fin n2 m2 e2 _ =>
    if m2 = 0 then (if m1 = 0 then (.nan, true) else (.inf (n1 != n2), false))
    else (divFin n1 m1 e1 n2 m2 e2, false)

/-- a ÷ b in one rounding to f32. -/
def fDiv (a b : Nat) : Nat × List Nat :=
  let x := valFloat f32 a
  let y := valFloat f32 b
  roundOp f32 0 (x.div y) (x.isNan || y.isNan)

/-- A computation in f32 with the conditions it has raised. -/
abbrev Fx := Nat × List Nat

def Fx.add (a b : Fx) : Fx := let r := fAdd f32 0 a.1 b.1; (r.1, a.2 ++ b.2 ++ r.2)
def Fx.sub (a b : Fx) : Fx := let r := fSub f32 0 a.1 b.1; (r.1, a.2 ++ b.2 ++ r.2)
def Fx.mul (a b : Fx) : Fx := let r := fMul f32 0 a.1 b.1; (r.1, a.2 ++ b.2 ++ r.2)
def Fx.div (a b : Fx) : Fx := let r := fDiv a.1 b.1; (r.1, a.2 ++ b.2 ++ r.2)

/-- A natural number and a quotient of two as f32. -/
def fxNat (n : Nat) : Fx := roundIeee f32 0 (ofInt n)
def fxQuot (a b : Nat) : Fx := roundIeee f32 0 ((ofInt a).div (ofInt b)).1

def fxHalf : Fx := (0x3F000000, [])
def fxQuarter : Fx := (0x3E800000, [])

/-- A neighbour in its slot (0 W, 1 E, 2 N, 3 S). -/
abbrev Nb := Nat × Fx

def nbAt (l : List Nb) (k : Nat) : Option Fx := (l.find? fun p => p.1 = k).map Prod.snd

/-- The left-to-right sum of the present elements. -/
def fxSum : List Nb → Fx
  | [] => (0, [])
  | p :: l => l.foldl (fun a q => a.add q.2) p.2

/-- One step of the line between two values: a + (b − a) × f, each step rounded. -/
def fxLine (a b : Option Fx) (f : Fx) : Option Fx := match a, b with
  | some a, some b => some (a.add ((b.sub a).mul f))
  | some a, none => some a
  | none, some b => some b
  | none, none => none

/-- t of R379 and R380 for float and binary8 formats; `f` and `g` are K4's fractions, `lone` the element that K1 and K5
take where no neighbour is present, which the spec does not state (log 24). -/
def kernelT (kernel : Nat) (l : List Nb) (f g lone : Fx) : Fx :=
  match kernel with
  | 1 | 5 => match l with
    | p :: _ => p.2
    | [] => lone
  | 2 => match l with
    | [] => (0, [])
    | [p] => p.2
    | p :: q :: _ => (p.2.add q.2).mul fxHalf
  | 3 => match nbAt l 0, nbAt l 1, nbAt l 2, nbAt l 3 with
    | some w, some e, some n, some s => ((w.add e).add (n.add s)).mul fxQuarter
    | _, _, _, _ => if l.isEmpty then (0, []) else (fxSum l).div (fxNat l.length)
  | 4 => match fxLine (nbAt l 0) (nbAt l 1) f, fxLine (nbAt l 2) (nbAt l 3) g with
    | some h, some v => (h.add v).mul fxHalf
    | some h, none => h
    | none, some v => v
    | none, none => (0, [])
  | _ => (0, [])

/-- The exact sum of integer elements with their scales, divided by their number, and scaled by 2 ^ x (11 R379); the
quotient is carried to bits below the integers, which one rounding then sees. -/
def intMean (x : Int) (l : List (Int × Int)) : Val :=
  match l with
  | [] => .fin false 0 0 false
  | _ =>
    let e := (l.map Prod.snd).foldl min 0
    let sum := l.foldl (fun z p => z + p.1 * 2 ^ (p.2 - e).toNat) 0
    let n := (e + x).toNat
    ((ofInt (sum * 2 ^ n)).scale (e + x - n) |>.div (ofInt l.length)).1

/-- How a tile is reconstructed: its format, whether it holds bit-masks, its scale base, the kernel, the scale of
the result. -/
structure KernSpec where
  fmt : BitVec 6
  mask : Bool
  base : Int
  kernel : Nat
  kq : Int

/-- A reconstructed element: `r` is its value in f32 before its final conversion, with the conditions of rounding it to f32 for
a format whose kernels do not compute in f32 (11 R379, R382); `code` and `conds` are its code and the conditions that this has. -/
structure Made where
  r : Fx
  code : Nat
  conds : List Nat
deriving DecidableEq, Repr

/-- A value as an f32 effective value: Convert to f32, to nearest and saturating (11 R379, R382, log 66). -/
def toF32 (v : Val) : Fx := convert 0x12 0 false v

/-- One reconstructed element. The neighbours are slot, code and tile scale; `lone` stands for the one element of K1 and K5 where
there is none. -/
def reconElem (k : KernSpec) (nbs : List (Nat × Nat × Int)) (f g : Fx) (lone : BitVec 64) : Made :=
  let one := k.kernel = 1 || k.kernel = 5
  let single := if one then nbs.take 1 else nbs
  if k.mask then
    let code := if k.kernel = 0 then 0 else (single.head?.elim (lone.toNat % 2 ^ fmtWidth k.fmt) fun p => p.2.1)
    let sc := single.head?.elim 0 fun p => p.2.2
    ⟨toF32 ((valOf k.fmt code).scale (k.base + sc)), code, []⟩
  else match intFmt k.fmt with
    | some i =>
      let t := fun x : Int => if k.kernel = 0 then intMean x [] else if one && single.isEmpty then (ofInt lone.toInt).scale x
        else intMean x (single.map fun p => (valInt i p.2.1, k.base + p.2.2))
      let out := convertInt i 0 (t (-(k.base + k.kq)))
      ⟨toF32 (t 0), out.1, out.2⟩
    | none =>
      let l : List Nb := single.map fun p =>
        (p.1, toF32 ((valOf k.fmt p.2.1).scale (k.base + p.2.2)))
      let t := kernelT k.kernel l f g (lone.toNat % 2 ^ 32, [])
      let out := convert k.fmt 0 false ((valFloat f32 t.1).scale (-(k.base + k.kq)))
      ⟨(t.1, []), out.1, t.2 ++ out.2⟩

/-- The constant ε of a format as an f32 code (11 R382). -/
def epsOf (y : BitVec 6) : Nat :=
  let pow := fun n : Nat => (127 - n) * 2 ^ 23
  if y.toNat = 0x12 then pow 23 else if y.toNat = 0x11 then pow 7 else if y.toNat = 0x10 then pow 10
  else match floatFmt y with
    | some f => pow f.t
    | none => pow 0

/-- The error of one element, computed c against reconstructed r, both f32 (11 R382). -/
def auditError (y : BitVec 6) (c r : Nat) : Nat × List Nat :=
  let abs := fun x : Nat => x % 2 ^ 31
  let d := Fx.sub (c, []) (r, [])
  let q := Fx.div (abs d.1, d.2) (Fx.add (abs c, []) (epsOf y, []))
  if (valFloat f32 c).isNan || (valFloat f32 r).isNan || (valFloat f32 q.1).isNan then (0x7F800000, q.2)
  else q

/-! ### Reading tiles -/

/-- The index of the neighbour's element that element `e` of the result takes: the corresponding one, or K4's edge
(11 R379-R380). -/
def nbIndex (t : Tensor) (kernel slot e : Nat) : Nat :=
  let cN := t.extent 0
  let rN := t.extent 1
  let plane := e / (cN * rN) * (cN * rN)
  let i := e / cN % rN
  let j := e % cN
  if kernel ≠ 4 then e
  else if slot = 0 then plane + i * cN + (cN - 1)
  else if slot = 1 then plane + i * cN
  else if slot = 2 then plane + (rN - 1) * cN + j
  else plane + j

/-- The j-th neighbour of element `e` is read: the tiles are slot, address and tile scale. -/
def State.nbRead (s : State) (c : Cmd) (t : Tensor) (kernel : Nat) (tiles : List (Nat × Word × Int)) (e j : Nat) :
    Except Stop (State × Nat) :=
  let p := tiles.getD j (0, 0, 0)
  s.rdElem c inCopy p.2.1 (t.bitOff (nbIndex t kernel p.1 e)) t.width

/-- Element `e` of a reconstruction, from what was read of its tiles. -/
def madeAt (t : Tensor) (k : KernSpec) (tiles : List (Nat × Word × Int)) (e : Nat) (xs : List Nat) : Made :=
  reconElem k ((tiles.zip xs).map fun p => (p.1.1, p.2, p.1.2.2)) (fxQuot (e % t.extent 0 + 1) (t.extent 0 + 1))
    (fxQuot (e / t.extent 0 % t.extent 1 + 1) (t.extent 1 + 1)) (Config.loneElement t.fmt e)

/-! ### Commands of the unit (11 R388) -/

/-- A kernel is legal for a format (11 R367). -/
def kernelLegal (kernel : Nat) (t : Tensor) (mask : Bool) : Bool :=
  if mask then kernel = 0 || kernel = 1 || kernel = 5
  else if kernel = 4 then !intCode t.fmt && 2 ≤ t.dims
  else kernel ≤ 5

/-- The tiles a command reads: slot, address, tile scale. -/
def kernTiles (c : Cmd) : List (Nat × Word × Int) :=
  (kernSlots c).map fun k =>
    (k, BitVec.ofNat 64 (c.word (1 + k)), sbits (c.word 6) (15 + 8 * k) (8 + 8 * k))

/-- `rc.kern`; a mask of 0 gives 0, as K0 does (11 R388). -/
def State.runRcKern (s : State) (c : Cmd) : State :=
  let t := s.tdOf c (bits c.spec 11 6)
  let kernel := bits c.spec 15 12
  let tiles := kernTiles c
  let k : KernSpec := { fmt := t.fmt, mask := false, base := t.base, kernel := if tiles.isEmpty then 0 else kernel
                        kq := sbits (c.word 6) 7 0 }
  s.runCmd c (fun _ => if kernelLegal kernel t false then 0 else eMISMATCH) id (cmdTotal c t.count)
    (fun n s => s.elemStep c tiles.length (fun e j => s.nbRead c t k.kernel tiles e j) (fun e l =>
      let r := madeAt t k tiles e l
      (s.wrElem c inCopy (BitVec.ofNat 64 (c.word 5)) (t.bitOff e) t.width r.code).map fun u => u.countCmd c r.conds) n)
    fun s => s.doneCmd c

/-- `rc.kern` as it is performed. -/
def execRcKern (c : Cmd) (s : State) : Host.Outcome State Fault Refusal := .next (s.runRcKern c)

/-- An element's effective value in f32 (11 R379). -/
def f32Of (t : Tensor) (x : Nat) (k : Int) : Fx := toF32 ((valOf t.fmt x).scale (t.base + k))

/-- `rc.cmp`: the error is the status detail (11 R388). -/
def State.runRcCmp (s : State) (c : Cmd) : State :=
  let t := s.tdOf c (bits c.spec 5 0)
  let rd := fun (s : State) (w e : Nat) => s.rdElem c inCopy (BitVec.ofNat 64 (c.word w)) (t.bitOff e) t.width
  s.runCmd c (fun _ => 0) id (cmdTotal c t.count) (fun n s => s.elemStep c 1 (fun e _ => rd s 1 e) (fun e l =>
    (rd s 2 e).map fun b =>
      let x := f32Of t (l.headD 0) (sbits (c.word 3) 7 0)
      let y := f32Of t b.2 (sbits (c.word 3) 15 8)
      let q := auditError t.fmt x.1 y.1
      (b.1.modRun c fun r => { r with acc := max r.acc q.1 }).countCmd c (x.2 ++ y.2 ++ q.2)) n) fun s =>
    s.endCmd c ⟨0, 0, (s.started c).elim 0 (·.acc)⟩

/-- `rc.cmp` as it is performed. -/
def execRcCmp (c : Cmd) (s : State) : Host.Outcome State Fault Refusal := .next (s.runRcCmp c)

/-! ### Firings (11 R377-R381, R390) -/

/-- The unit's own access on behalf of a launch in a quad; it counts at the lowest core the launch holds there
(11 R378). -/
def State.reconCmd (s : State) (quad lid seq : Nat) (l : Launch) : Cmd :=
  { unit := 3, place := quad, th := (s.partCores l.part quad).headD (quad * 4) * 16, lid := some lid, level := 0
    xctx := l.xctx, words := [], seq := seq }

/-- The unit waits for a translation of a firing's access. -/
def State.reconWaits (s : State) (c : Cmd) : Bool :=
  let d := s.die (dieOf c.place)
  let mine := fun x : XItem => match x with
    | .engine q _ _ _ => q = c
    | _ => false
  d.walks.any mine || d.parked.any fun p => mine p.item

/-- Two marks of progress are of one tile. -/
def ReconAt.same (a b : ReconAt) : Bool := a.lid = b.lid && a.number = b.number && a.hole = b.hole

/-- Where the unit stands in a tile. -/
def State.begunAt (s : State) (quad : Nat) (a : ReconAt) : ReconAt := ((s.quad quad).recon.begun.find? a.same).getD a

/-- It stands there now. -/
def State.setBegun (s : State) (quad : Nat) (a : ReconAt) : State :=
  s.modQuad quad fun q => { q with recon := { q.recon with begun := (q.recon.begun.filter fun b => !a.same b) ++ [a] } }

/-- The tile is finished. -/
def State.endBegun (s : State) (quad : Nat) (a : ReconAt) : State :=
  s.modQuad quad fun q => { q with recon := { q.recon with begun := q.recon.begun.filter fun b => !a.same b } }

/-- A tile goes on from where it stands: for each element the reads of its `tiles`, one after another, and then the step `put`
with what was read; it pauses where the turn grants no more, stops with `stop`, or ends with `fin` of the error so far (10
R364, 11 R377). -/
def State.tileRun (s : State) (c : Cmd) (t : Tensor) (kernel : Nat) (tiles : List (Nat × Word × Int)) (a : ReconAt)
    (put : Nat → List Nat → State → Except Stop State) (stop : State → Nat → Stop → State) (fin : Nat → State → State) : State :=
  let p := tiles.length
  let n := t.count * (p + 1)
  let step := fun (k : Nat) (s : State) =>
    let b := s.begunAt c.place a
    let e := k / (p + 1)
    let j := k % (p + 1)
    if j < p then (s.nbRead c t kernel tiles e j).map fun x => x.1.setBegun c.place { b with hold := b.hold.take j ++ [x.2], full := false }
    else put e b.hold s
  let b := s.begunAt c.place a
  match steps step (s.granted (n - b.next)) b.next s with
  | (s', k, none) => if k < n then s'.setBegun c.place { s'.begunAt c.place a with next := k, full := false }
      else fin (s'.begunAt c.place a).err (s'.endBegun c.place a)
  | (s', k, some x) => stop s' k x

/-- An element of a tile is reconstructed and written through a locator. -/
def State.fillPut (s : State) (c : Cmd) (t : Tensor) (k : KernSpec) (tiles : List (Nat × Word × Int)) (dst : Word) (e : Nat)
    (l : List Nat) : Except Stop State :=
  let r := madeAt t k tiles e l
  (s.wrElem c inCopy dst (t.bitOff e) t.width r.code).map fun u => u.countCmd c r.conds

/-- The error of a reconstruction against a computed tile grows to the maximum over its elements (11 R382). DESIGN CHOICE (log
66): an element counts the conditions of its final Convert, and of c and r as f32 values, as well as those of the measure. -/
def State.auditPut (s : State) (c : Cmd) (t : Tensor) (k : KernSpec) (tiles : List (Nat × Word × Int)) (computed : Word)
    (kc : Int) (a : ReconAt) (e : Nat) (l : List Nat) : Except Stop State :=
  (s.rdElem c inCopy computed (t.bitOff e) t.width).map fun x =>
    let r := madeAt t k tiles e l
    let y := f32Of t x.2 kc
    let q := auditError t.fmt y.1 r.r.1
    let b := s.begunAt c.place a
    (x.1.setBegun c.place { b with err := max b.err q.1 }).countCmd c (r.conds ++ r.r.2 ++ y.2 ++ q.2)

/-- The output record of a hole is inserted at its quad, and its point is finished (11 R381). -/
def State.insertOut (s : State) (quad lid lq : Nat) (l : Launch) (w : Walk) (hole : Rec) : State :=
  let r : Rec := ⟨mkTag w.out l.gen (hole.key 0) (hole.key 1) (hole.key 2), hole.loc⟩
  (s.sendRecord (endEngine 3 quad) lid quad lq r none).finishPoint lid (recPoint hole)

/-- A launch fails with RECON_FAULT, and the keys of the hole are named (11 R390). DEDUCED (log 67): neither error record
of the spec has a field for them, so the launch keeps them. -/
def State.reconFault (s : State) (lid lq e : Nat) (hole : Rec) : State :=
  (s.modLaunch lid fun l => { l with faultKeys := some (hole.key 0, hole.key 1, hole.key 2) }).failLaunch lid kRECON_FAULT lq e

/-- A firing leaves the unit: its place and its locks are free, and the head of the refusal list is accepted (11 R376-R377). -/
def State.reconFree (s : State) (quad : Nat) (f : Firing) : State :=
  (s.modQuad quad fun q => { q with
    recon := { q.recon with held := q.recon.held.filter (· ≠ f) }
    locks := q.locks.filter fun x => x.seq ≠ (f.lid + 1) * 2 ^ 48 + f.number }).serveRecon quad

/-- The work of a unit on a tile that it holds ends with an error: the launch of the firing, or of the hole, fails (11 R390). -/
def State.breakTile (s : State) (quad : Nat) (a : ReconAt) (e : Nat) : State :=
  if a.hole then
    match (s.fret quad).recs.find? fun r => r.lid = a.lid && r.arr = a.number with
    | some r => (s.endBegun quad a).reconFault a.lid r.lq e r.record
    | none => s
  else
    match (s.quad quad).recon.held.find? fun f => f.lid = a.lid && f.number = a.number with
    | some f => ((s.endBegun quad a).reconFault a.lid f.lq e (f.members.headD ⟨0, 0⟩)).reconFree quad f
    | none => s

/-- A stop of the unit before step `k` of a tile: a walk to wait for, or the failure of the launch, which ends the work on that
tile with `leave` (11 R390). -/
def State.reconStop (s : State) (c : Cmd) (lid lq : Nat) (hole : Rec) (a : ReconAt) (leave : State → State) (k : Nat) :
    Stop → State
  | .err e => leave ((s.endBegun c.place a).reconFault lid lq e hole)
  | .denied pa => leave (((s.endBegun c.place a).security (dieOf c.place) (BitVec.ofNat 64 pa) (some lid)).reconFault lid lq
      eACCESS hole)
  | .page va write => (s.setBegun c.place { s.begunAt c.place a with next := k, full := false }).modDie (dieOf c.place) fun d =>
      { d with walks := d.walks ++ [.engine c k va write] }
  | .busy => s.setBegun c.place { s.begunAt c.place a with next := k, full := true }

/-- A firing of the unit has completed: its notices go, and it leaves the unit (11 R376-R377). -/
def State.reconDone (s : State) (quad : Nat) (f : Firing) (l : Launch) : State :=
  (s.modFret quad fun k => { k with recs := k.recs.filter fun r =>
    !(r.lid = f.lid && l.isNotice r.record.kind && f.arrs.contains r.arr) }).reconFree quad f

/-- The neighbour tiles of a firing: slot, address, tile scale, in slot order. K5's one is the last output. -/
def Launch.firingTiles (l : Launch) (kernel : Nat) (ms : List Rec) : List (Nat × Word × Int) :=
  match l.cover, l.walk with
  | some c, some w =>
    if kernel = 5 then
      ((ms.find? fun r => r.kind = w.out && r.gen = (l.gen + 255) % 256).map fun r => (0, r.addr, r.scale)).toList
    else ms.filterMap fun r => if l.isNotice r.kind then some (r.kind - c.nk, r.addr, r.scale) else none
  | _, _ => []

/-- The ranges of a firing are registered, if they were not when it was accepted; it waits until they all fit (11 R377, log
65). -/
def State.reconRegister (s : State) (quad : Nat) (l : Launch) (f : Firing) : Option State :=
  let locks := reconLocks l f
  if locks.all (s.quad quad).locks.contains then some s
  else if (s.quad quad).locks.length + locks.length ≤ 64 then
    some (s.modQuad quad fun q => { q with locks := q.locks ++ locks })
  else none

/-- An audit has compared its tile: its error is posted, reported to the controller, and its point is finished (11 R381). -/
def State.auditDone (s : State) (quad : Nat) (f : Firing) (l : Launch) (p : Point) (q : BitVec 32) : State :=
  let s1 := s.post (dieOf quad) 0x0D (some f.lid) (quad * 4) 0 q (BitVec.ofNat 32 (p.x * 65536 + p.y))
    (BitVec.ofNat 32 (p.z * 65536 + l.gen))
  ((s1.reportAudit f.lid (s.schedDie l.part) q).finishPoint f.lid p).reconDone quad f l

/-- One firing is performed (11 R381). -/
def State.reconFire (s : State) (quad : Nat) (f : Firing) : State :=
  match s.launch f.lid with
  | none => s.reconFree quad f
  | some l => match l.walk, l.cover, l.rules.find? (fun r => r.index = f.rule), f.members with
    | some w, some cov, some rule, hole :: ms =>
      let c := s.reconCmd quad f.lid f.number l
      let t := ((l.kind w.out).bind fun k => l.tds.getD k.td none).getD ⟨0, 0, 0, [], []⟩
      let k : KernSpec := { fmt := t.fmt, mask := cov.mask, base := t.base, kernel := rule.kernel, kq := hole.scale }
      let tiles := usedTiles rule.kernel (l.firingTiles rule.kernel ms)
      let a : ReconAt := { lid := f.lid, number := f.number, hole := false, next := 0, err := 0 }
      let stop := fun (s : State) => s.reconStop c f.lid f.lq hole a (·.reconFree quad f)
      if s.reconWaits c then s
      else match s.reconRegister quad l f with
        | none => s
        | some s =>
          if f.marks.any (·.audit) then
            match ms.find? fun r => r.kind = w.out && r.gen = l.gen with
            | none => s
            | some o => s.tileRun c t k.kernel tiles a (fun e x s => s.auditPut c t k tiles o.addr o.scale a e x) stop fun q u =>
                u.auditDone quad f l (recPoint hole) (BitVec.ofNat 32 q)
          else s.tileRun c t k.kernel tiles a (fun e x s => s.fillPut c t k tiles hole.addr e x) stop fun _ u =>
            (u.insertOut quad f.lid f.lq l w hole).reconDone quad f l
    | _, _, _, _ => s

/-- The oldest reconstruction that the unit holds is performed. -/
def State.reconFiring (s : State) (quad : Nat) : State :=
  match (s.quad quad).recon.held with
  | [] => s
  | f :: _ => s.reconFire quad f

/-! ### Unresolved holes (11 R383) -/

/-- The kernel and tile of the fallback: K1 over the first resident notice in the order W, E, N, S, or K0. -/
def State.fallback (s : State) (quad : Nat) (l : Launch) (cov : Cover) (h : FRec) : Nat × List (Nat × Word × Int) :=
  if cov.fallK0 then (0, [])
  else match (List.range 4).findSome? fun j => (s.fret quad).recs.find? fun r =>
      r.lid = h.lid && r.processed && !r.reserved && r.record.kind = cov.nk + j && r.record.gen = l.gen &&
        sameKeys r.record h.record with
    | some r => (1, [(r.record.kind - cov.nk, r.record.addr, r.record.scale)])
    | none => (0, [])

/-- One resident hole is filled by the fallback, or removed when its output is there. -/
def State.fillHole (s : State) (lid quad : Nat) (h : FRec) : State :=
  match s.launch lid with
  | none => s
  | some l => match l.walk, l.cover with
    | some w, some cov =>
      let c := s.reconCmd quad lid h.arr l
      let gone := fun s : State => (s.modFret quad fun k => { k with recs := k.recs.filter fun r => !(r.lid = lid && r.arr = h.arr) }).modLaunch
        lid fun l => { l with ctl := { l.ctl with unresolved := l.ctl.unresolved + 1 } }
      let out := (s.fret quad).recs.any fun r =>
        r.lid = lid && r.record.kind = w.out && r.record.gen = l.gen && sameKeys r.record h.record
      if s.reconWaits c then s
      else if h.marks.any (·.audit) && out then (gone s).finishPoint lid (recPoint h.record)
      else
        let t := ((l.kind w.out).bind fun k => l.tds.getD k.td none).getD ⟨0, 0, 0, [], []⟩
        let fb := s.fallback quad l cov h
        let k : KernSpec := { fmt := t.fmt, mask := cov.mask, base := t.base, kernel := fb.1, kq := h.record.scale }
        let a : ReconAt := { lid := lid, number := h.arr, hole := true, next := 0, err := 0 }
        s.tileRun c t k.kernel fb.2 a (fun e x s => s.fillPut c t k fb.2 h.record.addr e x)
          (fun s => s.reconStop c lid h.lq h.record a id)
          fun _ u => (gone u).insertOut quad lid h.lq l w h.record
    | _, _ => s

/-- The holes of this generation that a launch's fretboards hold, with their quads. -/
def State.holesLeft (s : State) (lid : Nat) (l : Launch) : List (Nat × FRec) :=
  (s.partQuads l.part).flatMap fun q => ((s.fret q).recs.filter fun r =>
    r.lid = lid && !r.reserved && r.record.gen = l.gen && l.cover.any fun c => c.hole = r.record.kind).map fun r => (q, r)

/-- HOLE_UNRESOLVED: once a wave has found nothing active but holes, every home fills those that it holds (11 R383). -/
def State.holeUnresolved (s : State) (lid : Nat) : State :=
  match s.launch lid with
  | none => s
  | some l => if l.holesDue && l.state ≠ .failed then (s.holesLeft lid l).foldl (fun s p => s.fillHole lid p.1 p.2) s else s

/-- `HOLE_UNRESOLVED` (11 R383). -/
def execHoleUnresolved (lid : Nat) (s : State) : Host.Outcome State Fault Refusal := .next (s.holeUnresolved lid)

end Sys2Proof.Machine
end

