-- ==== Sys2Proof/Machine/Completion.lean ====
section
/-! DEFINITION. The end of a command as its thread and its chain see it, combining, and which command an engine starts
next (10 R331-R339). -/

namespace Sys2Proof.Machine

/-! ### Completion (10 R333-R338) -/

/-- A command was pushed by the task that its context still runs. -/
def State.pusherLives (s : State) (c : Cmd) : Bool :=
  (s.ctx c.th).notes.any fun n => n.th = c.th && n.seq = c.seq && n.own

/-- The notes of a command, in whatever thread has one. -/
def State.settleNotes (s : State) (c : Cmd) (w : Word) (ok : Bool) : State :=
  { s with ctxs := s.ctxs.map fun p => (p.1, { p.2 with notes := p.2.notes.map fun n =>
      if n.th = c.th && n.seq = c.seq then { n with status := some w, ok := ok } else n }) }

/-- The result queue of the pusher: the entry reserved is written, or released unused (10 R335). -/
def State.reportResult (s : State) (c : Cmd) (r : CmdResult) (w : Word) : State :=
  let entry := r.outcome ≠ 0 || c.op = 0x15 || c.op = 0x31 || c.report
  s.modCtx c.th fun x =>
    let q := x.results c.unit
    { x with resq := put {} x.resq c.unit {
        entries := if entry then q.entries ++ [w] else q.entries, reserved := q.reserved - 1 } }

/-- CHAIN RELEASE: a predecessor's outcome moves the parked slot it names (10 R338). -/
def State.chainRelease (s : State) (c : Cmd) (r : CmdResult) : State :=
  if !c.chain || r.outcome = 4 then s
  else
    let place := placeOfUnit c.th c.nsel
    let set := fun p : Option Parked => s.modEngine c.nsel place fun e => e.setSlot c.lid c.nslot p
    match (s.engine c.nsel place).slot c.lid c.nslot, r.outcome with
    | some (.parked d), 0 =>
      ((set none).noteSuccessor c.th c.seq d).release d
    | _, 0 => set (some (.released c.th c.seq))
    | some (.parked d), _ => (set none).complete d ⟨3, eCANCELLED, 0⟩
    | _, _ => set (some .cancelled)

/-- COMMAND_COMPLETION: the notes, the result entry, the trap, the locks, the chain; a failure whose context has
become free fails the launch (10 R334-R338). A partial command has not failed (09 R298, 10 R354). -/
def State.commandDone (s : State) (c : Cmd) (r : CmdResult) : State :=
  let w := statusWord c r
  let s1 := (((s.clockDone c (r.outcome ≤ 1)).settleNotes c w (r.outcome ≤ 1)).unlockCmd c.th c.seq).chainRelease c r
  if s.pusherLives c then
    let s2 := s1.reportResult c r w
    if c.trap && r.outcome ≠ 0 then s2.defer c.th { cause := cENGINE, tval := w, seq := c.seq } else s2
  else if r.outcome ≠ 0 then
    s1.failOf c.lid kENGINE_ORPHAN (s.quadIdentity c.lid (quadOf (coreOf c.th)) none).toNat r.error
  else s1

/-- `COMMAND_COMPLETION` (10 R335). -/
def execCommandCompletion (c : Cmd) (r : CmdResult) (s : State) : Host.Outcome State Fault Refusal :=
  .next (s.commandDone c r)

/-- `COMBINE_TIMEOUT`: a key is issued with the requests it has, `ctl.cmbwait` cycles after its first (10 R339-R340). -/
def State.combineTimeout (s : State) (quad key : Nat) : State :=
  let q := s.quad quad
  match q.comb.find? fun k => k.key = key && k.expected ≠ 0 && k.since + q.cmbwait ≤ s.hub.cycle with
  | some k => s.issueCombined quad k
  | none => s

/-- `COMBINE_TIMEOUT` (10 R339). -/
def execCombineTimeout (quad key : Nat) (s : State) : Host.Outcome State Fault Refusal :=
  .next (s.combineTimeout quad key)

/-! ### The next command of an engine (10 R331, R338-R339, R345) -/

/-- A started command has performed all its writes: a drain that waits for its wake to be accepted (10 R350). -/
def State.closing (s : State) (r : Running) : Bool :=
  r.cmd.op = 6 && r.progress = cmdTotal r.cmd (s.drainCount r.cmd)

/-- The started commands of an engine that still read or write. -/
def State.busyCmds (s : State) (e : Engine) : List Cmd := (e.running.filter fun r => !s.closing r).map (·.cmd)

/-- Commands an engine runs at once. -/
def unitLimit (unit : Nat) : Nat := if unit = 2 then 4 else if unit = 4 then 8 else 1

/-- An earlier request of the thread's queue is at the combining node, under a key that is not `own`; one that was parked has left
its queue (10 R331, R338). -/
def State.combEarlier (s : State) (c : Cmd) (own : Option CombKey) : Bool :=
  c.unit = 2 && (s.quad c.place).comb.any fun k => some k ≠ own && k.reqs.any fun r => r.th = c.th && !r.park && r.seq < c.seq

/-- An earlier command of the same thread holds back a later one that takes its turn in the thread's queue. -/
def State.heldBack (s : State) (e : Engine) (c : Cmd) : Bool :=
  (s.busyCmds e).any (fun r => r.th = c.th && !r.park && r.seq < c.seq && !(c.op = 2 && r.op = 4)) || s.combEarlier c none

/-- A combined multicast waits for the earlier commands of its requests' queues, combining ones under other keys too; a request
that was parked waits for none (10 R331, R338, log 127). -/
def State.combHeld (s : State) (e : Engine) (c : Cmd) : Bool :=
  match s.combined c with
  | none => false
  | some k => k.reqs.any fun q => !q.park &&
      ((get [] e.queues q.th).any (fun x => x.seq < q.seq) ||
        (s.busyCmds e).any (fun r => r.th = q.th && !r.park && r.seq < q.seq) || s.combEarlier q (some k))

/-- The engine has room for a command. -/
def State.unitRoom (s : State) (e : Engine) (c : Cmd) : Bool :=
  let b := s.busyCmds e
  b.length < unitLimit c.unit || (c.op = 2 && b.all fun r => r.op = 4 && r.th = c.th)

/-- The commands that may start, with the key of the queue each stands in: a thread's, or its own. -/
def State.startableCmds (s : State) (unit place : Nat) : List (Nat × Cmd) :=
  let e := s.engine unit place
  let heads := e.queues.filterMap fun p => p.2.head?.bind fun c =>
    if s.unitRoom e c && !s.heldBack e c then some (p.1, c) else none
  let own := e.loose.filterMap fun c =>
    if s.unitRoom e c && !s.combHeld e c then some (2 ^ 20 + c.th, c) else none
  (heads ++ own).filter fun p => s.mayRun p.2

/-- The queue that the held firings of a reconstruction unit stand in, after all others (11 R377). -/
def firingQueue : Nat := 2 ^ 21

/-- The unit's next work is a firing: one that it has begun, or, at a command boundary, the oldest when its turn has come. -/
def State.firingNext (s : State) (place : Nat) : Bool :=
  let e := s.engine 3 place
  let r := (s.quad place).recon
  (r.held.head?).any (fun f => (s.launch f.lid).all fun l => l.ladder = .none || l.ladder = .drain) &&
    (s.busyCmds e).isEmpty &&
    (r.begun.any (fun a => !a.hole) ||
      (s.startableCmds 3 place).all fun p => e.last < firingQueue && p.1 ≤ e.last)

/-- The next command, round-robin. -/
def State.nextCmd (s : State) (unit place : Nat) : Option (Nat × Cmd) :=
  let l := s.startableCmds unit place
  if unit = 3 && s.firingNext place then none
  else match l.find? fun p => (s.engine unit place).last < p.1 with
    | some p => some p
    | none => l.head?

/-- RECON_FIRING: the unit performs the oldest firing it holds, when it is its turn (11 R377, R381). -/
def State.reconTurn (s : State) (quad : Nat) : State :=
  if s.firingNext quad then (s.modEngine 3 quad fun e => { e with last := firingQueue }).reconFiring quad else s

/-- `RECON_FIRING` (11 R377). -/
def execReconFiring (quad : Nat) (s : State) : Host.Outcome State Fault Refusal := .next (s.reconTurn quad)

/-- A command as its engine performs it. -/
def State.runAny (s : State) (c : Cmd) : State :=
  match c.op with
  | 0x01 => s.runMxCfg c
  | 0x02 => s.runMxLdst c
  | 0x03 => s.runMxSwap c
  | 0x04 => s.runMxStream c
  | 0x05 => s.runMxZero c
  | 0x06 => s.runMxDrain c
  | 0x10 => s.runCpCopy c
  | 0x11 => s.runCpMcast c
  | 0x12 => s.runCpGather c
  | 0x13 => s.runCpScatter c
  | 0x14 => s.runCpFill c
  | 0x15 => s.runCpCrc c
  | 0x16 => s.runCpSend c
  | 0x20 | 0x21 | 0x22 => s.runColl c
  | 0x30 => s.runRcKern c
  | 0x31 => s.runRcCmp c
  | _ => s

/-- A started command whose access has its page, or is refused it, goes on at a later turn: others may move before (10 R364), and
a rung may have stopped it (20 R494). -/
def State.resumeCmd (s : State) (c : Cmd) : State := s.modRun c fun r => { r with paused := true }

/-- ONE TURN OF AN ENGINE: the next command starts (10 R331). -/
def State.engineTurn (s : State) (unit place : Nat) : State :=
  match s.nextCmd unit place with
  | none => s
  | some (k, c) =>
    ((s.clockStart c).modEngine unit place fun e => { e with
      last := k
      queues := if k < 2 ^ 20 then put [] e.queues k ((get [] e.queues k).drop 1) else e.queues
      loose := if k < 2 ^ 20 then e.loose else e.loose.erase c }).runAny c

/-- The k-th started command of an engine goes on, if it is paused and no rung has stopped it (10 R364). -/
def State.engineResume (s : State) (unit place k : Nat) : State :=
  match (s.engine unit place).running[k]? with
  | some r => if r.paused && s.mayRun r.cmd then s.runAny r.cmd else s
  | none => s

/-- What an engine does in a turn that grants it n steps. -/
def State.withGrant (s : State) (n : Nat) (f : State → State) : State := { f { s with grant := some n } with grant := none }

/-- What it does in a turn whose steps are for one destination of a multicast (10 R353). -/
def State.withAim (s : State) (d : Nat) (f : State → State) : State := { f { s with aim := some d } with aim := none }

end Sys2Proof.Machine
end

