-- ==== Sys2Proof/Machine/Scalar.lean ====
section
/-! DEFINITION. Integer and address instructions of the S-syllable (06 R179-R188). -/

namespace Sys2Proof.Machine

/-- 1 or 0. -/
def ofBool (b : Bool) : Word := if b then 1 else 0

/-- The lesser and greater of two words, as signed numbers and as naturals (06 R180). -/
def minS (x y : Word) : Word := if y.toInt < x.toInt then y else x
def maxS (x y : Word) : Word := if x.toInt < y.toInt then y else x
def minU (x y : Word) : Word := if y.toNat < x.toNat then y else x
def maxU (x y : Word) : Word := if x.toNat < y.toNat then y else x

/-- Bits [127:64] of an exact product, two's complement (06 R181). -/
def highOf (z : Int) : Word := (BitVec.ofInt 128 z).extractLsb' 64 64

/-- Quotients and remainders, with the values of 06 R181 for a zero divisor and for the one overflow. -/
def divS (x y : Word) : Word := if y = 0 then BitVec.allOnes 64 else BitVec.ofInt 64 (x.toInt.tdiv y.toInt)
def divU (x y : Word) : Word := if y = 0 then BitVec.allOnes 64 else BitVec.ofNat 64 (x.toNat / y.toNat)
def remS (x y : Word) : Word :=
  if y = 0 then x else BitVec.ofInt 64 (x.toInt - y.toInt * x.toInt.tdiv y.toInt)
def remU (x y : Word) : Word := if y = 0 then x else BitVec.ofNat 64 (x.toNat % y.toNat)

/-- Zero bits above the highest one, zero bits below the lowest one, and one bits (06 R182). -/
def leadingZeros (x : Word) : Word := if x = 0 then 64 else BitVec.ofNat 64 (63 - Nat.log2 x.toNat)
def trailingZeros (x : Word) : Word := BitVec.ofNat 64 (((List.range 64).find? x.getLsbD).getD 64)
def onesCount (x : Word) : Word := BitVec.ofNat 64 ((List.range 64).filter x.getLsbD).length

/-- `lo` and `len` of a bit-field operand (06 R182). -/
def fieldLo (y : Word) : Nat := y.toNat % 64
def fieldLen (y : Word) : Nat := y.toNat / 64 % 128

/-- The field of x that y names, and the same extended from its top bit (06 R182). -/
def bitField (x y : Word) : Word := BitVec.ofNat 64 (x.toNat / 2 ^ fieldLo y % 2 ^ fieldLen y)
def bitFieldS (x y : Word) : Word :=
  let n := fieldLen y
  let v := x.toNat / 2 ^ fieldLo y % 2 ^ n
  if n = 0 then 0 else BitVec.ofInt 64 (if 2 ^ (n - 1) ≤ v then (v : Int) - 2 ^ n else v)

/-- The old value with the field that y names replaced by the low bits of x (06 R182). -/
def insertField (old x y : Word) : Word :=
  let m : Word := BitVec.ofNat 64 ((2 ^ fieldLen y - 1) * 2 ^ fieldLo y)
  (old &&& ~~~m) ||| ((x <<< fieldLo y) &&& m)

/-- A window address of die, quad, core, and 23 bits of region and offset (06 R187, 08 R242). -/
def composeAddr (g : BitVec 3) (x y : BitVec 4) (c : BitVec 2) (low : BitVec 23) : Word :=
  BitVec.ofNat 64 (2 ^ 62 + g.toNat * 2 ^ 33 + x.toNat * 2 ^ 29 + y.toNat * 2 ^ 25 + c.toNat * 2 ^ 23 + low.toNat)

/-- `add` (06 R180). -/
def execAdd (d a : BitVec 5) (t : BitVec 1) (b : BitVec 5) (u : BitVec 1) (s : State) :
    Host.Outcome State Fault Refusal :=
  issueS (.add d a t b u) d (fun s => s.S a + s.S b) s

/-- `sub` (06 R180). -/
def execSub (d a : BitVec 5) (t : BitVec 1) (b : BitVec 5) (u : BitVec 1) (s : State) :
    Host.Outcome State Fault Refusal :=
  issueS (.sub d a t b u) d (fun s => s.S a - s.S b) s

/-- `and` (06 R180). -/
def execAnd (d a : BitVec 5) (t : BitVec 1) (b : BitVec 5) (u : BitVec 1) (s : State) :
    Host.Outcome State Fault Refusal :=
  issueS (.and d a t b u) d (fun s => s.S a &&& s.S b) s

/-- `or` (06 R180). -/
def execOr (d a : BitVec 5) (t : BitVec 1) (b : BitVec 5) (u : BitVec 1) (s : State) :
    Host.Outcome State Fault Refusal :=
  issueS (.or d a t b u) d (fun s => s.S a ||| s.S b) s

/-- `xor` (06 R180). -/
def execXor (d a : BitVec 5) (t : BitVec 1) (b : BitVec 5) (u : BitVec 1) (s : State) :
    Host.Outcome State Fault Refusal :=
  issueS (.xor d a t b u) d (fun s => s.S a ^^^ s.S b) s

/-- `andn` (06 R180). -/
def execAndn (d a : BitVec 5) (t : BitVec 1) (b : BitVec 5) (u : BitVec 1) (s : State) :
    Host.Outcome State Fault Refusal :=
  issueS (.andn d a t b u) d (fun s => s.S a &&& ~~~s.S b) s

/-- `sll` (06 R180). -/
def execSll (d a : BitVec 5) (t : BitVec 1) (b : BitVec 5) (u : BitVec 1) (s : State) :
    Host.Outcome State Fault Refusal :=
  issueS (.sll d a t b u) d (fun s => s.S a <<< ((s.S b).toNat % 64)) s

/-- `srl` (06 R180). -/
def execSrl (d a : BitVec 5) (t : BitVec 1) (b : BitVec 5) (u : BitVec 1) (s : State) :
    Host.Outcome State Fault Refusal :=
  issueS (.srl d a t b u) d (fun s => s.S a >>> ((s.S b).toNat % 64)) s

/-- `sra` (06 R180). -/
def execSra (d a : BitVec 5) (t : BitVec 1) (b : BitVec 5) (u : BitVec 1) (s : State) :
    Host.Outcome State Fault Refusal :=
  issueS (.sra d a t b u) d (fun s => (s.S a).sshiftRight ((s.S b).toNat % 64)) s

/-- `slt` (06 R180). -/
def execSlt (d a : BitVec 5) (t : BitVec 1) (b : BitVec 5) (u : BitVec 1) (s : State) :
    Host.Outcome State Fault Refusal :=
  issueS (.slt d a t b u) d (fun s => ofBool (decide ((s.S a).toInt < (s.S b).toInt))) s

/-- `sltn` (06 R180). -/
def execSltn (d a : BitVec 5) (t : BitVec 1) (b : BitVec 5) (u : BitVec 1) (s : State) :
    Host.Outcome State Fault Refusal :=
  issueS (.sltn d a t b u) d (fun s => ofBool (decide ((s.S a).toNat < (s.S b).toNat))) s

/-- `min` (06 R180). -/
def execMin (d a : BitVec 5) (t : BitVec 1) (b : BitVec 5) (u : BitVec 1) (s : State) :
    Host.Outcome State Fault Refusal :=
  issueS (.min d a t b u) d (fun s => minS (s.S a) (s.S b)) s

/-- `max` (06 R180). -/
def execMax (d a : BitVec 5) (t : BitVec 1) (b : BitVec 5) (u : BitVec 1) (s : State) :
    Host.Outcome State Fault Refusal :=
  issueS (.max d a t b u) d (fun s => maxS (s.S a) (s.S b)) s

/-- `minn` (06 R180). -/
def execMinn (d a : BitVec 5) (t : BitVec 1) (b : BitVec 5) (u : BitVec 1) (s : State) :
    Host.Outcome State Fault Refusal :=
  issueS (.minn d a t b u) d (fun s => minU (s.S a) (s.S b)) s

/-- `maxn` (06 R180). -/
def execMaxn (d a : BitVec 5) (t : BitVec 1) (b : BitVec 5) (u : BitVec 1) (s : State) :
    Host.Outcome State Fault Refusal :=
  issueS (.maxn d a t b u) d (fun s => maxU (s.S a) (s.S b)) s

/-- `mul` (06 R181). -/
def execMul (d a : BitVec 5) (t : BitVec 1) (b : BitVec 5) (u : BitVec 1) (s : State) :
    Host.Outcome State Fault Refusal :=
  issueS (.mul d a t b u) d (fun s => s.S a * s.S b) s

/-- `mulh` (06 R181). -/
def execMulh (d a : BitVec 5) (t : BitVec 1) (b : BitVec 5) (u : BitVec 1) (s : State) :
    Host.Outcome State Fault Refusal :=
  issueS (.mulh d a t b u) d (fun s => highOf ((s.S a).toInt * (s.S b).toInt)) s

/-- `mulhn` (06 R181). -/
def execMulhn (d a : BitVec 5) (t : BitVec 1) (b : BitVec 5) (u : BitVec 1) (s : State) :
    Host.Outcome State Fault Refusal :=
  issueS (.mulhn d a t b u) d (fun s => highOf ((s.S a).toNat * (s.S b).toNat : Nat)) s

/-- `mulhsn` (06 R181). -/
def execMulhsn (d a : BitVec 5) (t : BitVec 1) (b : BitVec 5) (u : BitVec 1) (s : State) :
    Host.Outcome State Fault Refusal :=
  issueS (.mulhsn d a t b u) d (fun s => highOf ((s.S a).toInt * (s.S b).toNat)) s

/-- `div` (06 R181). -/
def execDiv (d a : BitVec 5) (t : BitVec 1) (b : BitVec 5) (u : BitVec 1) (s : State) :
    Host.Outcome State Fault Refusal :=
  issueS (.div d a t b u) d (fun s => divS (s.S a) (s.S b)) s

/-- `divn` (06 R181). -/
def execDivn (d a : BitVec 5) (t : BitVec 1) (b : BitVec 5) (u : BitVec 1) (s : State) :
    Host.Outcome State Fault Refusal :=
  issueS (.divn d a t b u) d (fun s => divU (s.S a) (s.S b)) s

/-- `rem` (06 R181). -/
def execRem (d a : BitVec 5) (t : BitVec 1) (b : BitVec 5) (u : BitVec 1) (s : State) :
    Host.Outcome State Fault Refusal :=
  issueS (.rem d a t b u) d (fun s => remS (s.S a) (s.S b)) s

/-- `remn` (06 R181). -/
def execRemn (d a : BitVec 5) (t : BitVec 1) (b : BitVec 5) (u : BitVec 1) (s : State) :
    Host.Outcome State Fault Refusal :=
  issueS (.remn d a t b u) d (fun s => remU (s.S a) (s.S b)) s

/-- `bext` (06 R182). -/
def execBext (d a : BitVec 5) (t : BitVec 1) (b : BitVec 5) (u : BitVec 1) (s : State) :
    Host.Outcome State Fault Refusal :=
  issueS (.bext d a t b u) d (fun s => bitField (s.S a) (s.S b)) s

/-- `bexts` (06 R182). -/
def execBexts (d a : BitVec 5) (t : BitVec 1) (b : BitVec 5) (u : BitVec 1) (s : State) :
    Host.Outcome State Fault Refusal :=
  issueS (.bexts d a t b u) d (fun s => bitFieldS (s.S a) (s.S b)) s

/-- `lea` (06 R180). -/
def execLea (d a : BitVec 5) (t : BitVec 1) (b : BitVec 5) (u : BitVec 1) (k : BitVec 3) (s : State) :
    Host.Outcome State Fault Refusal :=
  issueS (.lea d a t b u k) d (fun s => (s.S a <<< k.toNat) + s.S b) s

/-- `clz` (06 R182). -/
def execClz (d a : BitVec 5) (t : BitVec 1) (s : State) : Host.Outcome State Fault Refusal :=
  issueS (.clz d a t) d (fun s => leadingZeros (s.S a)) s

/-- `ctz` (06 R182). -/
def execCtz (d a : BitVec 5) (t : BitVec 1) (s : State) : Host.Outcome State Fault Refusal :=
  issueS (.ctz d a t) d (fun s => trailingZeros (s.S a)) s

/-- `popc` (06 R182). -/
def execPopc (d a : BitVec 5) (t : BitVec 1) (s : State) : Host.Outcome State Fault Refusal :=
  issueS (.popc d a t) d (fun s => onesCount (s.S a)) s

/-- `sel`: the old value of d is a source (06 R182-R183). -/
def execSel (d a : BitVec 5) (t : BitVec 1) (b : BitVec 5) (u : BitVec 1) (s : State) :
    Host.Outcome State Fault Refusal :=
  issueS (.sel d a t b u) d (fun s => if s.S d ≠ 0 then s.S a else s.S b) s

/-- `bins`: the old value of d is a source (06 R182-R183). -/
def execBins (d a : BitVec 5) (t : BitVec 1) (b : BitVec 5) (u : BitVec 1) (s : State) :
    Host.Outcome State Fault Refusal :=
  issueS (.bins d a t b u) d (fun s => insertField (s.S d) (s.S a) (s.S b)) s

/-- `addi` (06 R184). -/
def execAddi (d a : BitVec 5) (t : BitVec 1) (i : BitVec 15) (s : State) : Host.Outcome State Fault Refusal :=
  issueS (.addi d a t i) d (fun s => s.S a + i.signExtend 64) s

/-- `andi` (06 R184). -/
def execAndi (d a : BitVec 5) (t : BitVec 1) (i : BitVec 15) (s : State) : Host.Outcome State Fault Refusal :=
  issueS (.andi d a t i) d (fun s => s.S a &&& i.signExtend 64) s

/-- `ori` (06 R184). -/
def execOri (d a : BitVec 5) (t : BitVec 1) (i : BitVec 15) (s : State) : Host.Outcome State Fault Refusal :=
  issueS (.ori d a t i) d (fun s => s.S a ||| i.signExtend 64) s

/-- `xori` (06 R184). -/
def execXori (d a : BitVec 5) (t : BitVec 1) (i : BitVec 15) (s : State) : Host.Outcome State Fault Refusal :=
  issueS (.xori d a t i) d (fun s => s.S a ^^^ i.signExtend 64) s

/-- `slti` (06 R184). -/
def execSlti (d a : BitVec 5) (t : BitVec 1) (i : BitVec 15) (s : State) : Host.Outcome State Fault Refusal :=
  issueS (.slti d a t i) d (fun s => ofBool (decide ((s.S a).toInt < i.toInt))) s

/-- `sltni` (06 R184). -/
def execSltni (d a : BitVec 5) (t : BitVec 1) (i : BitVec 15) (s : State) : Host.Outcome State Fault Refusal :=
  issueS (.sltni d a t i) d (fun s => ofBool (decide ((s.S a).toNat < (i.signExtend 64).toNat))) s

/-- `slli` (06 R185). -/
def execSlli (d a : BitVec 5) (t : BitVec 1) (n : BitVec 6) (s : State) : Host.Outcome State Fault Refusal :=
  issueS (.slli d a t n) d (fun s => s.S a <<< n.toNat) s

/-- `srli` (06 R185). -/
def execSrli (d a : BitVec 5) (t : BitVec 1) (n : BitVec 6) (s : State) : Host.Outcome State Fault Refusal :=
  issueS (.srli d a t n) d (fun s => s.S a >>> n.toNat) s

/-- `srai` (06 R185). -/
def execSrai (d a : BitVec 5) (t : BitVec 1) (n : BitVec 6) (s : State) : Host.Outcome State Fault Refusal :=
  issueS (.srai d a t n) d (fun s => (s.S a).sshiftRight n.toNat) s

/-- `cadr`: die, quad x, quad y and core of the immediate, region and offset of the register (06 R187). -/
def execCadr (d a : BitVec 5) (t : BitVec 1) (g : BitVec 3) (x y : BitVec 4) (c : BitVec 2) (s : State) :
    Host.Outcome State Fault Refusal :=
  issueS (.cadr d a t g x y c) d (fun s => composeAddr g x y c ((s.S a).extractLsb' 0 23)) s

/-- `lim` (06 R186). -/
def execLim (d : BitVec 5) (i : BitVec 48) (s : State) : Host.Outcome State Fault Refusal :=
  issueS (.lim d i) d (fun _ => i.signExtend 64) s

end Sys2Proof.Machine
end

