-- ==== Sys2Proof/Machine/Control.lean ====
section
/-! DEFINITION. Control transfer, the loop-nest sequencer, and the start and end of tasks (06 R190-R203). -/

namespace Sys2Proof.Machine

/-- PC + 8 × a signed bundle offset (06 R190). -/
def State.target (s : State) (o : Int) : Word := s.PC + BitVec.ofInt 64 (8 * o)

/-- A conditional branch. -/
def branchIf (cond : Word → Word → Bool) (a b : BitVec 5) (o : BitVec 14) (s : State) : State :=
  if cond (s.S a) (s.S b) then s.goto (s.target o.toInt) else s

/-- `beq`: equal (06 R190). -/
def execBeq (a : BitVec 5) (t : BitVec 1) (b : BitVec 5) (u : BitVec 1) (o : BitVec 14) (s : State) :
    Host.Outcome State Fault Refusal :=
  issue (.beq a t b u o) (branchIf (fun x y => decide (x = y)) a b o) s

/-- `bne`: not equal (06 R190). -/
def execBne (a : BitVec 5) (t : BitVec 1) (b : BitVec 5) (u : BitVec 1) (o : BitVec 14) (s : State) :
    Host.Outcome State Fault Refusal :=
  issue (.bne a t b u o) (branchIf (fun x y => decide (x ≠ y)) a b o) s

/-- `blt`: less, signed (06 R190). -/
def execBlt (a : BitVec 5) (t : BitVec 1) (b : BitVec 5) (u : BitVec 1) (o : BitVec 14) (s : State) :
    Host.Outcome State Fault Refusal :=
  issue (.blt a t b u o) (branchIf (fun x y => decide (x.toInt < y.toInt)) a b o) s

/-- `bge`: greater or equal, signed (06 R190). -/
def execBge (a : BitVec 5) (t : BitVec 1) (b : BitVec 5) (u : BitVec 1) (o : BitVec 14) (s : State) :
    Host.Outcome State Fault Refusal :=
  issue (.bge a t b u o) (branchIf (fun x y => decide (y.toInt ≤ x.toInt)) a b o) s

/-- `bltn`: less, natural (06 R190). -/
def execBltn (a : BitVec 5) (t : BitVec 1) (b : BitVec 5) (u : BitVec 1) (o : BitVec 14) (s : State) :
    Host.Outcome State Fault Refusal :=
  issue (.bltn a t b u o) (branchIf (fun x y => decide (x.toNat < y.toNat)) a b o) s

/-- `bgen`: greater or equal, natural (06 R190). -/
def execBgen (a : BitVec 5) (t : BitVec 1) (b : BitVec 5) (u : BitVec 1) (o : BitVec 14) (s : State) :
    Host.Outcome State Fault Refusal :=
  issue (.bgen a t b u o) (branchIf (fun x y => decide (y.toNat ≤ x.toNat)) a b o) s

/-- `call` and `br` (06 R191). -/
def execCall (d : BitVec 5) (o : BitVec 32) (s : State) : Host.Outcome State Fault Refusal :=
  issueD (.call d o) d (fun s => s.PC + 8)
    (fun s => let t := s.target o.toInt; (s.setS d (s.PC + 8)).goto t) s

/-- `jr` (06 R191). -/
def execJr (a : BitVec 5) (t : BitVec 1) (s : State) : Host.Outcome State Fault Refusal :=
  issue (.jr a t) (fun s => s.goto (s.S a)) s

/-- `callr`: a is read before d is written (06 R191). -/
def execCallr (d a : BitVec 5) (t : BitVec 1) (s : State) : Host.Outcome State Fault Refusal :=
  issueD (.callr d a t) d (fun s => s.PC + 8)
    (fun s => let x := s.S a; (s.setS d (s.PC + 8)).goto x) s

/-- A task of a reserved launch retires in this cycle (17 R417). -/
def State.noteRetire (s : State) (lid : Option Nat) : State :=
  if s.reserved lid then lid.elim s fun l => s.modLaunch l fun x => { x with lastRetire := some s.hub.cycle } else s

/-- The task ends: the context is Retiring, leaves the open `slotw` round, and RETIRE is posted
(06 R200, 22 R528). -/
def State.retireNow (s : State) : State :=
  let c := s.ctx s.cur
  let t := s.now
  (((s.noteRetire c.lid).modCtx s.cur fun c => { c with status := .retiring }).modCore (coreOf s.cur) (leaveCore s.cur false)).post
    (dieOfTh s.cur) 0x02 c.lid (coreOf s.cur) (ctxOf s.cur) (sat32 (c.ran + (t - c.firstIssue.getD t)))
    (sat32 c.issued) (sat32 c.forfeits)

/-- `ret`: a return through the entry value of `s15` retires the task (06 R191, 02 R60). -/
def execRet (s : State) : Host.Outcome State Fault Refusal :=
  issue .ret (fun s =>
    let c := s.ctx s.cur
    if c.stub = some (c.sreg 15) then s.retireNow else s.goto (s.S 15)) s

/-- `retire` (06 R200). -/
def execRetire (s : State) : Host.Outcome State Fault Refusal := issue .retire State.retireNow s

/-- `lpset`: the record is read as a local scratchpad load (06 R193, R195-R196). -/
def execLpset (a : BitVec 5) (t : BitVec 1) (s : State) : Host.Outcome State Fault Refusal :=
  issue (.lpset a t) (fun s =>
    let core := coreOf s.cur
    let off := (s.S a).toNat % 2 ^ 20
    let word := fun k : Nat => BitVec.ofNat 64 (s.localRead core (off + k) 8)
    let field := fun k0 : Nat => (List.range 4).foldl (fun (m : FMap Word) j => put 0 m j (word (k0 + 16 * j))) []
    (s.modCtx s.cur fun c => { c with
      lpBase := word 0, lpTrip := field 8, lpStride := field 16, lpIdx := [] }).evc core 11) s

/-- `lpidx` (06 R195). -/
def execLpidx (d : BitVec 5) (l : BitVec 2) (s : State) : Host.Outcome State Fault Refusal :=
  issueS (.lpidx d l) d (fun s => get 0 (s.ctx s.cur).lpIdx l.toNat) s

/-- The address of the current iteration from level `l` outward (06 R195). -/
def Ctx.lpAddr (c : Ctx) (l : Nat) : Word :=
  ((List.range 4).filter (l ≤ ·)).foldl (fun a j => a + get 0 c.lpIdx j * get 0 c.lpStride j) c.lpBase

/-- `lpaddr` (06 R195). -/
def execLpaddr (d : BitVec 5) (l : BitVec 2) (s : State) : Host.Outcome State Fault Refusal :=
  issueS (.lpaddr d l) d (fun s => (s.ctx s.cur).lpAddr l.toNat) s

/-- `lpnext` (06 R195). -/
def execLpnext (l : BitVec 2) (o : BitVec 14) (s : State) : Host.Outcome State Fault Refusal :=
  issue (.lpnext l o) (fun s =>
    let c := s.ctx s.cur
    let x := get 0 c.lpIdx l.toNat
    if x.toNat < (get 0 c.lpTrip l.toNat).toNat then
      (s.modCtx s.cur fun c => { c with lpIdx := put 0 c.lpIdx l.toNat (x + 1) }).goto (s.target o.toInt)
    else s.modCtx s.cur fun c => { c with lpIdx := put 0 c.lpIdx l.toNat 0 }) s

/-- `spawn`: a wake message with the four words of b to b + 3, counted until the core accepts it
(06 R198-R199, 02 R62-R63). -/
def execSpawn (b a : BitVec 5) (t h : BitVec 1) (l : BitVec 2) (o : BitVec 32) (s : State) :
    Host.Outcome State Fault Refusal :=
  issue (.spawn b a t h l o) (fun s =>
    let c := s.ctx s.cur
    match s.wakeTarget c.lid c.level (s.S a) with
    | none => s
    | some core =>
      let k := classOfCore s.cur core
      let w : Wake := {
        core := core, entry := s.target o.toInt
        args := (List.range 4).map fun j => s.S (BitVec.ofNat 5 (b.toNat + j))
        level := l.toNat, h := h = 1, lid := c.lid, sender := .thread s.cur k, since := s.hub.cycle }
      (s.count s.cur k).send (some (coreOf s.cur, core)) (.wakeMessage w)) s

/-- `trap`: SOFT, with the immediate in `ctl.tval` (06 R202). It is raised at issue, so nothing else happens. -/
def execTrap (n : BitVec 15) (s : State) : Host.Outcome State Fault Refusal := issue (.trap n) (fun s => s) s

/-- `eret` (06 R203). -/
def execEret (s : State) : Host.Outcome State Fault Refusal :=
  issue .eret (fun s => s.returnTrap s.cur) s

end Sys2Proof.Machine
end

