-- ==== Sys2Proof/Decode.lean ====
section
/-! DEFINITION. Decoding and encoding: the two syllables of a bundle, the long instructions and the
Quinud words, from the encoding tables of 05, 06, 07, 08, 09 and 22. -/

namespace Sys2Proof

/-- The S-syllable words of the majors 0x00 to 0x37, field by field (05 R154-R168). Field values
are not yet checked. -/
def decodeRawS (w : BitVec 32) : Option Instr :=
  match (w.extractLsb' 26 6).toNat with
  | 0 =>
    if w.extractLsb' 0 9 == 0 then
      some (.add (w.extractLsb' 21 5) (w.extractLsb' 16 5) (w.extractLsb' 15 1) (w.extractLsb' 10 5) (w.extractLsb' 9 1))
    else if w.extractLsb' 0 9 == 1 then
      some (.sub (w.extractLsb' 21 5) (w.extractLsb' 16 5) (w.extractLsb' 15 1) (w.extractLsb' 10 5) (w.extractLsb' 9 1))
    else if w.extractLsb' 0 9 == 2 then
      some (.and (w.extractLsb' 21 5) (w.extractLsb' 16 5) (w.extractLsb' 15 1) (w.extractLsb' 10 5) (w.extractLsb' 9 1))
    else if w.extractLsb' 0 9 == 3 then
      some (.or (w.extractLsb' 21 5) (w.extractLsb' 16 5) (w.extractLsb' 15 1) (w.extractLsb' 10 5) (w.extractLsb' 9 1))
    else if w.extractLsb' 0 9 == 4 then
      some (.xor (w.extractLsb' 21 5) (w.extractLsb' 16 5) (w.extractLsb' 15 1) (w.extractLsb' 10 5) (w.extractLsb' 9 1))
    else if w.extractLsb' 0 9 == 5 then
      some (.andn (w.extractLsb' 21 5) (w.extractLsb' 16 5) (w.extractLsb' 15 1) (w.extractLsb' 10 5) (w.extractLsb' 9 1))
    else if w.extractLsb' 0 9 == 6 then
      some (.sll (w.extractLsb' 21 5) (w.extractLsb' 16 5) (w.extractLsb' 15 1) (w.extractLsb' 10 5) (w.extractLsb' 9 1))
    else if w.extractLsb' 0 9 == 7 then
      some (.srl (w.extractLsb' 21 5) (w.extractLsb' 16 5) (w.extractLsb' 15 1) (w.extractLsb' 10 5) (w.extractLsb' 9 1))
    else if w.extractLsb' 0 9 == 8 then
      some (.sra (w.extractLsb' 21 5) (w.extractLsb' 16 5) (w.extractLsb' 15 1) (w.extractLsb' 10 5) (w.extractLsb' 9 1))
    else if w.extractLsb' 0 9 == 9 then
      some (.slt (w.extractLsb' 21 5) (w.extractLsb' 16 5) (w.extractLsb' 15 1) (w.extractLsb' 10 5) (w.extractLsb' 9 1))
    else if w.extractLsb' 0 9 == 10 then
      some (.sltn (w.extractLsb' 21 5) (w.extractLsb' 16 5) (w.extractLsb' 15 1) (w.extractLsb' 10 5) (w.extractLsb' 9 1))
    else if w.extractLsb' 0 9 == 11 then
      some (.min (w.extractLsb' 21 5) (w.extractLsb' 16 5) (w.extractLsb' 15 1) (w.extractLsb' 10 5) (w.extractLsb' 9 1))
    else if w.extractLsb' 0 9 == 12 then
      some (.max (w.extractLsb' 21 5) (w.extractLsb' 16 5) (w.extractLsb' 15 1) (w.extractLsb' 10 5) (w.extractLsb' 9 1))
    else if w.extractLsb' 0 9 == 13 then
      some (.minn (w.extractLsb' 21 5) (w.extractLsb' 16 5) (w.extractLsb' 15 1) (w.extractLsb' 10 5) (w.extractLsb' 9 1))
    else if w.extractLsb' 0 9 == 14 then
      some (.maxn (w.extractLsb' 21 5) (w.extractLsb' 16 5) (w.extractLsb' 15 1) (w.extractLsb' 10 5) (w.extractLsb' 9 1))
    else if w.extractLsb' 3 6 == 2 then
      some (.lea (w.extractLsb' 21 5) (w.extractLsb' 16 5) (w.extractLsb' 15 1) (w.extractLsb' 10 5) (w.extractLsb' 9 1) (w.extractLsb' 0 3))
    else none
  | 1 =>
    if w.extractLsb' 0 9 == 0 then
      some (.mul (w.extractLsb' 21 5) (w.extractLsb' 16 5) (w.extractLsb' 15 1) (w.extractLsb' 10 5) (w.extractLsb' 9 1))
    else if w.extractLsb' 0 9 == 1 then
      some (.mulh (w.extractLsb' 21 5) (w.extractLsb' 16 5) (w.extractLsb' 15 1) (w.extractLsb' 10 5) (w.extractLsb' 9 1))
    else if w.extractLsb' 0 9 == 2 then
      some (.mulhn (w.extractLsb' 21 5) (w.extractLsb' 16 5) (w.extractLsb' 15 1) (w.extractLsb' 10 5) (w.extractLsb' 9 1))
    else if w.extractLsb' 0 9 == 3 then
      some (.mulhsn (w.extractLsb' 21 5) (w.extractLsb' 16 5) (w.extractLsb' 15 1) (w.extractLsb' 10 5) (w.extractLsb' 9 1))
    else if w.extractLsb' 0 9 == 4 then
      some (.div (w.extractLsb' 21 5) (w.extractLsb' 16 5) (w.extractLsb' 15 1) (w.extractLsb' 10 5) (w.extractLsb' 9 1))
    else if w.extractLsb' 0 9 == 5 then
      some (.divn (w.extractLsb' 21 5) (w.extractLsb' 16 5) (w.extractLsb' 15 1) (w.extractLsb' 10 5) (w.extractLsb' 9 1))
    else if w.extractLsb' 0 9 == 6 then
      some (.rem (w.extractLsb' 21 5) (w.extractLsb' 16 5) (w.extractLsb' 15 1) (w.extractLsb' 10 5) (w.extractLsb' 9 1))
    else if w.extractLsb' 0 9 == 7 then
      some (.remn (w.extractLsb' 21 5) (w.extractLsb' 16 5) (w.extractLsb' 15 1) (w.extractLsb' 10 5) (w.extractLsb' 9 1))
    else none
  | 2 =>
    if w.extractLsb' 0 15 == 0 then
      some (.clz (w.extractLsb' 21 5) (w.extractLsb' 16 5) (w.extractLsb' 15 1))
    else if w.extractLsb' 0 15 == 1 then
      some (.ctz (w.extractLsb' 21 5) (w.extractLsb' 16 5) (w.extractLsb' 15 1))
    else if w.extractLsb' 0 15 == 2 then
      some (.popc (w.extractLsb' 21 5) (w.extractLsb' 16 5) (w.extractLsb' 15 1))
    else if w.extractLsb' 0 9 == 3 then
      some (.sel (w.extractLsb' 21 5) (w.extractLsb' 16 5) (w.extractLsb' 15 1) (w.extractLsb' 10 5) (w.extractLsb' 9 1))
    else if w.extractLsb' 0 9 == 4 then
      some (.bext (w.extractLsb' 21 5) (w.extractLsb' 16 5) (w.extractLsb' 15 1) (w.extractLsb' 10 5) (w.extractLsb' 9 1))
    else if w.extractLsb' 0 9 == 5 then
      some (.bexts (w.extractLsb' 21 5) (w.extractLsb' 16 5) (w.extractLsb' 15 1) (w.extractLsb' 10 5) (w.extractLsb' 9 1))
    else if w.extractLsb' 0 9 == 6 then
      some (.bins (w.extractLsb' 21 5) (w.extractLsb' 16 5) (w.extractLsb' 15 1) (w.extractLsb' 10 5) (w.extractLsb' 9 1))
    else none
  | 3 =>
    if w.extractLsb' 0 15 == 0 && w.extractLsb' 21 5 == 0 then
      some (.jr (w.extractLsb' 16 5) (w.extractLsb' 15 1))
    else if w.extractLsb' 0 26 == 1 then
      some (.ret)
    else if w.extractLsb' 0 15 == 2 then
      some (.callr (w.extractLsb' 21 5) (w.extractLsb' 16 5) (w.extractLsb' 15 1))
    else if w.extractLsb' 0 26 == 3 then
      some (.retire)
    else if w.extractLsb' 0 15 == 4 && w.extractLsb' 21 5 == 0 then
      some (.lpset (w.extractLsb' 16 5) (w.extractLsb' 15 1))
    else if w.extractLsb' 0 10 == 5 && w.extractLsb' 12 9 == 0 then
      some (.lpidx (w.extractLsb' 21 5) (w.extractLsb' 10 2))
    else if w.extractLsb' 0 10 == 6 && w.extractLsb' 12 9 == 0 then
      some (.lpaddr (w.extractLsb' 21 5) (w.extractLsb' 10 2))
    else none
  | 4 =>
    some (.addi (w.extractLsb' 21 5) (w.extractLsb' 16 5) (w.extractLsb' 15 1) (w.extractLsb' 0 15))
  | 5 =>
    some (.andi (w.extractLsb' 21 5) (w.extractLsb' 16 5) (w.extractLsb' 15 1) (w.extractLsb' 0 15))
  | 6 =>
    some (.ori (w.extractLsb' 21 5) (w.extractLsb' 16 5) (w.extractLsb' 15 1) (w.extractLsb' 0 15))
  | 7 =>
    some (.xori (w.extractLsb' 21 5) (w.extractLsb' 16 5) (w.extractLsb' 15 1) (w.extractLsb' 0 15))
  | 8 =>
    some (.slti (w.extractLsb' 21 5) (w.extractLsb' 16 5) (w.extractLsb' 15 1) (w.extractLsb' 0 15))
  | 9 =>
    some (.sltni (w.extractLsb' 21 5) (w.extractLsb' 16 5) (w.extractLsb' 15 1) (w.extractLsb' 0 15))
  | 10 =>
    if w.extractLsb' 6 9 == 0 then
      some (.slli (w.extractLsb' 21 5) (w.extractLsb' 16 5) (w.extractLsb' 15 1) (w.extractLsb' 0 6))
    else if w.extractLsb' 6 9 == 1 then
      some (.srli (w.extractLsb' 21 5) (w.extractLsb' 16 5) (w.extractLsb' 15 1) (w.extractLsb' 0 6))
    else if w.extractLsb' 6 9 == 2 then
      some (.srai (w.extractLsb' 21 5) (w.extractLsb' 16 5) (w.extractLsb' 15 1) (w.extractLsb' 0 6))
    else none
  | 11 =>
    if w.extractLsb' 13 2 == 0 then
      some (.cadr (w.extractLsb' 21 5) (w.extractLsb' 16 5) (w.extractLsb' 15 1) (w.extractLsb' 10 3) (w.extractLsb' 6 4) (w.extractLsb' 2 4) (w.extractLsb' 0 2))
    else none
  | 12 =>
    if w.extractLsb' 15 11 == 0 then
      some (.trap (w.extractLsb' 0 15))
    else none
  | 13 =>
    if w.extractLsb' 12 9 == 0 then
      some (.ctlr (w.extractLsb' 21 5) (w.extractLsb' 0 12))
    else none
  | 14 =>
    if w.extractLsb' 12 3 == 0 && w.extractLsb' 21 5 == 0 then
      some (.ctlw (w.extractLsb' 16 5) (w.extractLsb' 15 1) (w.extractLsb' 0 12))
    else none
  | 16 =>
    some (.beq (w.extractLsb' 21 5) (w.extractLsb' 20 1) (w.extractLsb' 15 5) (w.extractLsb' 14 1) (w.extractLsb' 0 14))
  | 17 =>
    some (.bne (w.extractLsb' 21 5) (w.extractLsb' 20 1) (w.extractLsb' 15 5) (w.extractLsb' 14 1) (w.extractLsb' 0 14))
  | 18 =>
    some (.blt (w.extractLsb' 21 5) (w.extractLsb' 20 1) (w.extractLsb' 15 5) (w.extractLsb' 14 1) (w.extractLsb' 0 14))
  | 19 =>
    some (.bge (w.extractLsb' 21 5) (w.extractLsb' 20 1) (w.extractLsb' 15 5) (w.extractLsb' 14 1) (w.extractLsb' 0 14))
  | 20 =>
    some (.bltn (w.extractLsb' 21 5) (w.extractLsb' 20 1) (w.extractLsb' 15 5) (w.extractLsb' 14 1) (w.extractLsb' 0 14))
  | 21 =>
    some (.bgen (w.extractLsb' 21 5) (w.extractLsb' 20 1) (w.extractLsb' 15 5) (w.extractLsb' 14 1) (w.extractLsb' 0 14))
  | 22 =>
    if w.extractLsb' 14 7 == 0 && w.extractLsb' 23 3 == 0 then
      some (.lpnext (w.extractLsb' 21 2) (w.extractLsb' 0 14))
    else none
  | 24 =>
    some (.ldN8 (w.extractLsb' 21 5) (w.extractLsb' 16 5) (w.extractLsb' 15 1) (w.extractLsb' 13 2) (w.extractLsb' 12 1) (w.extractLsb' 0 12))
  | 25 =>
    some (.ldN16 (w.extractLsb' 21 5) (w.extractLsb' 16 5) (w.extractLsb' 15 1) (w.extractLsb' 13 2) (w.extractLsb' 12 1) (w.extractLsb' 0 12))
  | 26 =>
    some (.ldN32 (w.extractLsb' 21 5) (w.extractLsb' 16 5) (w.extractLsb' 15 1) (w.extractLsb' 13 2) (w.extractLsb' 12 1) (w.extractLsb' 0 12))
  | 27 =>
    some (.ld64 (w.extractLsb' 21 5) (w.extractLsb' 16 5) (w.extractLsb' 15 1) (w.extractLsb' 13 2) (w.extractLsb' 12 1) (w.extractLsb' 0 12))
  | 28 =>
    some (.ldS8 (w.extractLsb' 21 5) (w.extractLsb' 16 5) (w.extractLsb' 15 1) (w.extractLsb' 13 2) (w.extractLsb' 12 1) (w.extractLsb' 0 12))
  | 29 =>
    some (.ldS16 (w.extractLsb' 21 5) (w.extractLsb' 16 5) (w.extractLsb' 15 1) (w.extractLsb' 13 2) (w.extractLsb' 12 1) (w.extractLsb' 0 12))
  | 30 =>
    some (.ldS32 (w.extractLsb' 21 5) (w.extractLsb' 16 5) (w.extractLsb' 15 1) (w.extractLsb' 13 2) (w.extractLsb' 12 1) (w.extractLsb' 0 12))
  | 31 =>
    some (.vld (w.extractLsb' 21 5) (w.extractLsb' 16 5) (w.extractLsb' 15 1) (w.extractLsb' 13 2) (w.extractLsb' 12 1) (w.extractLsb' 11 1) (w.extractLsb' 0 11))
  | 32 =>
    some (.st8 (w.extractLsb' 21 5) (w.extractLsb' 16 5) (w.extractLsb' 15 1) (w.extractLsb' 13 2) (w.extractLsb' 12 1) (w.extractLsb' 0 12))
  | 33 =>
    some (.st16 (w.extractLsb' 21 5) (w.extractLsb' 16 5) (w.extractLsb' 15 1) (w.extractLsb' 13 2) (w.extractLsb' 12 1) (w.extractLsb' 0 12))
  | 34 =>
    some (.st32 (w.extractLsb' 21 5) (w.extractLsb' 16 5) (w.extractLsb' 15 1) (w.extractLsb' 13 2) (w.extractLsb' 12 1) (w.extractLsb' 0 12))
  | 35 =>
    some (.st64 (w.extractLsb' 21 5) (w.extractLsb' 16 5) (w.extractLsb' 15 1) (w.extractLsb' 13 2) (w.extractLsb' 12 1) (w.extractLsb' 0 12))
  | 36 =>
    some (.vst (w.extractLsb' 21 5) (w.extractLsb' 16 5) (w.extractLsb' 15 1) (w.extractLsb' 13 2) (w.extractLsb' 12 1) (w.extractLsb' 11 1) (w.extractLsb' 0 11))
  | 40 =>
    some (.ldAcq32 (w.extractLsb' 21 5) (w.extractLsb' 16 5) (w.extractLsb' 15 1) (w.extractLsb' 12 3) (w.extractLsb' 0 12))
  | 41 =>
    some (.ldAcq64 (w.extractLsb' 21 5) (w.extractLsb' 16 5) (w.extractLsb' 15 1) (w.extractLsb' 12 3) (w.extractLsb' 0 12))
  | 42 =>
    some (.stRel32 (w.extractLsb' 21 5) (w.extractLsb' 16 5) (w.extractLsb' 15 1) (w.extractLsb' 12 3) (w.extractLsb' 0 12))
  | 43 =>
    some (.stRel64 (w.extractLsb' 21 5) (w.extractLsb' 16 5) (w.extractLsb' 15 1) (w.extractLsb' 12 3) (w.extractLsb' 0 12))
  | 44 =>
    some (.ldfe (w.extractLsb' 21 5) (w.extractLsb' 16 5) (w.extractLsb' 15 1) (w.extractLsb' 13 2) (w.extractLsb' 12 1) (w.extractLsb' 0 12))
  | 45 =>
    some (.stef (w.extractLsb' 21 5) (w.extractLsb' 16 5) (w.extractLsb' 15 1) (w.extractLsb' 13 2) (w.extractLsb' 12 1) (w.extractLsb' 0 12))
  | 46 =>
    some (.ldPw (w.extractLsb' 21 5) (w.extractLsb' 16 5) (w.extractLsb' 15 1) (w.extractLsb' 13 2) (w.extractLsb' 12 1) (w.extractLsb' 0 12))
  | 48 =>
    if w.extractLsb' 5 3 == 0 then
      some (.vlds (w.extractLsb' 21 5) (w.extractLsb' 16 5) (w.extractLsb' 15 1) (w.extractLsb' 10 5) (w.extractLsb' 9 1) (w.extractLsb' 8 1) (w.extractLsb' 3 2) (w.extractLsb' 2 1) (w.extractLsb' 0 2))
    else if w.extractLsb' 0 2 == 2 && w.extractLsb' 5 3 == 1 then
      some (.vldx (w.extractLsb' 21 5) (w.extractLsb' 16 5) (w.extractLsb' 15 1) (w.extractLsb' 10 5) (w.extractLsb' 9 1) (w.extractLsb' 8 1) (w.extractLsb' 3 2) (w.extractLsb' 2 1))
    else if w.extractLsb' 0 3 == 0 && w.extractLsb' 5 21 == 2 then
      some (.mwait (w.extractLsb' 3 2))
    else none
  | 49 =>
    if w.extractLsb' 0 6 == 0 && w.extractLsb' 8 7 == 0 && w.extractLsb' 21 5 == 0 then
      some (.qbind (w.extractLsb' 16 5) (w.extractLsb' 15 1) (w.extractLsb' 6 2))
    else if w.extractLsb' 0 6 == 1 && w.extractLsb' 8 18 == 0 then
      some (.qunbind (w.extractLsb' 6 2))
    else if w.extractLsb' 0 6 == 2 && w.extractLsb' 8 13 == 0 then
      some (.qstat (w.extractLsb' 21 5) (w.extractLsb' 6 2))
    else if w.extractLsb' 0 6 == 3 && w.extractLsb' 8 13 == 0 then
      some (.qpeek (w.extractLsb' 21 5) (w.extractLsb' 6 2))
    else if w.extractLsb' 0 6 == 4 && w.extractLsb' 9 6 == 0 && w.extractLsb' 21 5 == 0 then
      some (.vqpush (w.extractLsb' 16 5) (w.extractLsb' 15 1) (w.extractLsb' 8 1) (w.extractLsb' 6 2))
    else if w.extractLsb' 0 6 == 5 && w.extractLsb' 9 12 == 0 then
      some (.vqpop (w.extractLsb' 21 5) (w.extractLsb' 8 1) (w.extractLsb' 6 2))
    else if w.extractLsb' 0 15 == 6 then
      some (.qcfgr (w.extractLsb' 21 5) (w.extractLsb' 16 5) (w.extractLsb' 15 1))
    else if w.extractLsb' 0 9 == 7 && w.extractLsb' 21 5 == 0 then
      some (.qcfgw (w.extractLsb' 16 5) (w.extractLsb' 15 1) (w.extractLsb' 10 5) (w.extractLsb' 9 1))
    else none
  | 50 =>
    if w.extractLsb' 0 9 == 0 then
      some (.ttag (w.extractLsb' 21 5) (w.extractLsb' 16 5) (w.extractLsb' 15 1) (w.extractLsb' 10 5) (w.extractLsb' 9 1))
    else if w.extractLsb' 0 6 == 1 && w.extractLsb' 9 6 == 0 then
      some (.tfld (w.extractLsb' 21 5) (w.extractLsb' 16 5) (w.extractLsb' 15 1) (w.extractLsb' 6 3))
    else if w.extractLsb' 0 9 == 2 && w.extractLsb' 21 5 == 0 then
      some (.tins (w.extractLsb' 16 5) (w.extractLsb' 15 1) (w.extractLsb' 10 5) (w.extractLsb' 9 1))
    else if w.extractLsb' 0 9 == 3 && w.extractLsb' 21 5 == 0 then
      some (.tinsd (w.extractLsb' 16 5) (w.extractLsb' 15 1) (w.extractLsb' 10 5) (w.extractLsb' 9 1))
    else if w.extractLsb' 0 21 == 4 then
      some (.tgen (w.extractLsb' 21 5))
    else if w.extractLsb' 0 15 == 5 then
      some (.covQ (w.extractLsb' 21 5) (w.extractLsb' 16 5) (w.extractLsb' 15 1))
    else if w.extractLsb' 0 6 == 6 && w.extractLsb' 9 12 == 0 then
      some (.covRd (w.extractLsb' 21 5) (w.extractLsb' 6 3))
    else if w.extractLsb' 0 21 == 7 then
      some (.poolCnt (w.extractLsb' 21 5))
    else none
  | 51 =>
    if w.extractLsb' 0 5 == 0 then
      some (.amoAdd (w.extractLsb' 21 5) (w.extractLsb' 16 5) (w.extractLsb' 15 1) (w.extractLsb' 10 5) (w.extractLsb' 9 1) (w.extractLsb' 8 1) (w.extractLsb' 7 1) (w.extractLsb' 5 2))
    else if w.extractLsb' 0 5 == 1 then
      some (.amoAnd (w.extractLsb' 21 5) (w.extractLsb' 16 5) (w.extractLsb' 15 1) (w.extractLsb' 10 5) (w.extractLsb' 9 1) (w.extractLsb' 8 1) (w.extractLsb' 7 1) (w.extractLsb' 5 2))
    else if w.extractLsb' 0 5 == 2 then
      some (.amoOr (w.extractLsb' 21 5) (w.extractLsb' 16 5) (w.extractLsb' 15 1) (w.extractLsb' 10 5) (w.extractLsb' 9 1) (w.extractLsb' 8 1) (w.extractLsb' 7 1) (w.extractLsb' 5 2))
    else if w.extractLsb' 0 5 == 3 then
      some (.amoXor (w.extractLsb' 21 5) (w.extractLsb' 16 5) (w.extractLsb' 15 1) (w.extractLsb' 10 5) (w.extractLsb' 9 1) (w.extractLsb' 8 1) (w.extractLsb' 7 1) (w.extractLsb' 5 2))
    else if w.extractLsb' 0 5 == 4 then
      some (.amoMin (w.extractLsb' 21 5) (w.extractLsb' 16 5) (w.extractLsb' 15 1) (w.extractLsb' 10 5) (w.extractLsb' 9 1) (w.extractLsb' 8 1) (w.extractLsb' 7 1) (w.extractLsb' 5 2))
    else if w.extractLsb' 0 5 == 5 then
      some (.amoMax (w.extractLsb' 21 5) (w.extractLsb' 16 5) (w.extractLsb' 15 1) (w.extractLsb' 10 5) (w.extractLsb' 9 1) (w.extractLsb' 8 1) (w.extractLsb' 7 1) (w.extractLsb' 5 2))
    else if w.extractLsb' 0 5 == 6 then
      some (.amoMinu (w.extractLsb' 21 5) (w.extractLsb' 16 5) (w.extractLsb' 15 1) (w.extractLsb' 10 5) (w.extractLsb' 9 1) (w.extractLsb' 8 1) (w.extractLsb' 7 1) (w.extractLsb' 5 2))
    else if w.extractLsb' 0 5 == 7 then
      some (.amoMaxu (w.extractLsb' 21 5) (w.extractLsb' 16 5) (w.extractLsb' 15 1) (w.extractLsb' 10 5) (w.extractLsb' 9 1) (w.extractLsb' 8 1) (w.extractLsb' 7 1) (w.extractLsb' 5 2))
    else if w.extractLsb' 0 5 == 8 then
      some (.amoSwap (w.extractLsb' 21 5) (w.extractLsb' 16 5) (w.extractLsb' 15 1) (w.extractLsb' 10 5) (w.extractLsb' 9 1) (w.extractLsb' 8 1) (w.extractLsb' 7 1) (w.extractLsb' 5 2))
    else if w.extractLsb' 0 5 == 9 then
      some (.amoCas (w.extractLsb' 21 5) (w.extractLsb' 16 5) (w.extractLsb' 15 1) (w.extractLsb' 10 5) (w.extractLsb' 9 1) (w.extractLsb' 8 1) (w.extractLsb' 7 1) (w.extractLsb' 5 2))
    else if w.extractLsb' 0 5 == 10 && w.extractLsb' 8 1 == 0 then
      some (.amoFaddF32 (w.extractLsb' 21 5) (w.extractLsb' 16 5) (w.extractLsb' 15 1) (w.extractLsb' 10 5) (w.extractLsb' 9 1) (w.extractLsb' 7 1) (w.extractLsb' 5 2))
    else if w.extractLsb' 0 5 == 11 then
      some (.amoInclt (w.extractLsb' 21 5) (w.extractLsb' 16 5) (w.extractLsb' 15 1) (w.extractLsb' 10 5) (w.extractLsb' 9 1) (w.extractLsb' 8 1) (w.extractLsb' 7 1) (w.extractLsb' 5 2))
    else none
  | 52 =>
    if w.extractLsb' 0 9 == 0 && w.extractLsb' 21 5 == 0 then
      some (.joinInit (w.extractLsb' 16 5) (w.extractLsb' 15 1) (w.extractLsb' 10 5) (w.extractLsb' 9 1))
    else if w.extractLsb' 0 9 == 1 && w.extractLsb' 21 5 == 0 then
      some (.joinArrive (w.extractLsb' 16 5) (w.extractLsb' 15 1) (w.extractLsb' 10 5) (w.extractLsb' 9 1))
    else if w.extractLsb' 0 9 == 2 && w.extractLsb' 21 5 == 0 then
      some (.ssigSet (w.extractLsb' 16 5) (w.extractLsb' 15 1) (w.extractLsb' 10 5) (w.extractLsb' 9 1))
    else if w.extractLsb' 0 9 == 3 && w.extractLsb' 21 5 == 0 then
      some (.ssigAdd (w.extractLsb' 16 5) (w.extractLsb' 15 1) (w.extractLsb' 10 5) (w.extractLsb' 9 1))
    else if w.extractLsb' 0 3 == 4 && w.extractLsb' 6 3 == 0 then
      some (.swait (w.extractLsb' 21 5) (w.extractLsb' 16 5) (w.extractLsb' 15 1) (w.extractLsb' 10 5) (w.extractLsb' 9 1) (w.extractLsb' 3 3))
    else none
  | 53 =>
    if w.extractLsb' 6 4 == 0 && w.extractLsb' 13 13 == 0 then
      some (.barrArr (w.extractLsb' 10 3) (w.extractLsb' 0 6))
    else if w.extractLsb' 6 4 == 0 && w.extractLsb' 13 13 == 1 then
      some (.barrWait (w.extractLsb' 10 3) (w.extractLsb' 0 6))
    else if w.extractLsb' 6 4 == 0 && w.extractLsb' 13 13 == 2 then
      some (.barrSync (w.extractLsb' 10 3) (w.extractLsb' 0 6))
    else if w.extractLsb' 6 4 == 8 && w.extractLsb' 13 2 == 2 && w.extractLsb' 21 5 == 0 then
      some (.barrSyncCmb (w.extractLsb' 16 5) (w.extractLsb' 15 1) (w.extractLsb' 10 3) (w.extractLsb' 0 6))
    else none
  | 54 =>
    if w.extractLsb' 0 26 == 0 then
      some (.eret)
    else if w.extractLsb' 0 10 == 1 && w.extractLsb' 12 14 == 0 then
      some (.repart (w.extractLsb' 10 2))
    else if w.extractLsb' 0 15 == 2 && w.extractLsb' 21 5 == 0 then
      some (.slotw (w.extractLsb' 16 5) (w.extractLsb' 15 1))
    else if w.extractLsb' 0 15 == 3 && w.extractLsb' 21 5 == 0 then
      some (.sleep (w.extractLsb' 16 5) (w.extractLsb' 15 1))
    else if w.extractLsb' 0 26 == 4 then
      some (.iflush)
    else if w.extractLsb' 0 9 == 5 && w.extractLsb' 21 5 == 0 then
      some (.xlinv (w.extractLsb' 16 5) (w.extractLsb' 15 1) (w.extractLsb' 10 5) (w.extractLsb' 9 1))
    else if w.extractLsb' 0 9 == 6 && w.extractLsb' 21 5 == 0 then
      some (.ctxsv (w.extractLsb' 16 5) (w.extractLsb' 15 1) (w.extractLsb' 10 5) (w.extractLsb' 9 1))
    else if w.extractLsb' 0 9 == 7 && w.extractLsb' 21 5 == 0 then
      some (.ctxld (w.extractLsb' 16 5) (w.extractLsb' 15 1) (w.extractLsb' 10 5) (w.extractLsb' 9 1))
    else if w.extractLsb' 0 9 == 8 && w.extractLsb' 21 5 == 0 then
      some (.telEv (w.extractLsb' 16 5) (w.extractLsb' 15 1) (w.extractLsb' 10 5) (w.extractLsb' 9 1))
    else none
  | _ => none

/-- The V-syllable words, field by field (05 R157, R170-R171). Field values are not yet checked. -/
def decodeRawV (w : BitVec 32) : Option Instr :=
  match (w.extractLsb' 26 6).toNat with
  | 0 =>
    if w.extractLsb' 0 26 == 0 then
      some (.vnop)
    else if w.extractLsb' 0 6 == 1 then
      some (.vand (w.extractLsb' 20 6) (w.extractLsb' 14 6) (w.extractLsb' 13 1) (w.extractLsb' 7 6) (w.extractLsb' 6 1))
    else if w.extractLsb' 0 6 == 2 then
      some (.vor (w.extractLsb' 20 6) (w.extractLsb' 14 6) (w.extractLsb' 13 1) (w.extractLsb' 7 6) (w.extractLsb' 6 1))
    else if w.extractLsb' 0 6 == 3 then
      some (.vxor (w.extractLsb' 20 6) (w.extractLsb' 14 6) (w.extractLsb' 13 1) (w.extractLsb' 7 6) (w.extractLsb' 6 1))
    else if w.extractLsb' 0 6 == 4 then
      some (.vandn (w.extractLsb' 20 6) (w.extractLsb' 14 6) (w.extractLsb' 13 1) (w.extractLsb' 7 6) (w.extractLsb' 6 1))
    else if w.extractLsb' 0 6 == 5 then
      some (.vsel (w.extractLsb' 20 6) (w.extractLsb' 14 6) (w.extractLsb' 13 1) (w.extractLsb' 7 6) (w.extractLsb' 6 1))
    else if w.extractLsb' 0 13 == 6 then
      some (.vmov (w.extractLsb' 20 6) (w.extractLsb' 14 6) (w.extractLsb' 13 1))
    else if w.extractLsb' 0 6 == 7 then
      some (.vshuf (w.extractLsb' 20 6) (w.extractLsb' 14 6) (w.extractLsb' 13 1) (w.extractLsb' 7 6) (w.extractLsb' 6 1))
    else if w.extractLsb' 0 13 == 8 then
      some (.vcrc (w.extractLsb' 20 6) (w.extractLsb' 14 6) (w.extractLsb' 13 1))
    else none
  | 1 =>
    some (.vadd (w.extractLsb' 20 6) (w.extractLsb' 14 6) (w.extractLsb' 13 1) (w.extractLsb' 7 6) (w.extractLsb' 6 1) (w.extractLsb' 0 6))
  | 2 =>
    some (.vsub (w.extractLsb' 20 6) (w.extractLsb' 14 6) (w.extractLsb' 13 1) (w.extractLsb' 7 6) (w.extractLsb' 6 1) (w.extractLsb' 0 6))
  | 3 =>
    some (.vmul (w.extractLsb' 20 6) (w.extractLsb' 14 6) (w.extractLsb' 13 1) (w.extractLsb' 7 6) (w.extractLsb' 6 1) (w.extractLsb' 0 6))
  | 4 =>
    some (.vmin (w.extractLsb' 20 6) (w.extractLsb' 14 6) (w.extractLsb' 13 1) (w.extractLsb' 7 6) (w.extractLsb' 6 1) (w.extractLsb' 0 6))
  | 5 =>
    some (.vmax (w.extractLsb' 20 6) (w.extractLsb' 14 6) (w.extractLsb' 13 1) (w.extractLsb' 7 6) (w.extractLsb' 6 1) (w.extractLsb' 0 6))
  | 6 =>
    some (.vfma (w.extractLsb' 20 6) (w.extractLsb' 14 6) (w.extractLsb' 13 1) (w.extractLsb' 7 6) (w.extractLsb' 6 1) (w.extractLsb' 0 6))
  | 7 =>
    some (.vfms (w.extractLsb' 20 6) (w.extractLsb' 14 6) (w.extractLsb' 13 1) (w.extractLsb' 7 6) (w.extractLsb' 6 1) (w.extractLsb' 0 6))
  | 8 =>
    if w.extractLsb' 6 7 == 0 then
      some (.vabs (w.extractLsb' 20 6) (w.extractLsb' 14 6) (w.extractLsb' 13 1) (w.extractLsb' 0 6))
    else none
  | 9 =>
    if w.extractLsb' 6 7 == 0 then
      some (.vneg (w.extractLsb' 20 6) (w.extractLsb' 14 6) (w.extractLsb' 13 1) (w.extractLsb' 0 6))
    else none
  | 10 =>
    some (.vclamp (w.extractLsb' 20 6) (w.extractLsb' 14 6) (w.extractLsb' 13 1) (w.extractLsb' 7 6) (w.extractLsb' 6 1) (w.extractLsb' 0 6))
  | 11 =>
    some (.vceq (w.extractLsb' 20 6) (w.extractLsb' 14 6) (w.extractLsb' 13 1) (w.extractLsb' 7 6) (w.extractLsb' 6 1) (w.extractLsb' 0 6))
  | 12 =>
    some (.vcne (w.extractLsb' 20 6) (w.extractLsb' 14 6) (w.extractLsb' 13 1) (w.extractLsb' 7 6) (w.extractLsb' 6 1) (w.extractLsb' 0 6))
  | 13 =>
    some (.vclt (w.extractLsb' 20 6) (w.extractLsb' 14 6) (w.extractLsb' 13 1) (w.extractLsb' 7 6) (w.extractLsb' 6 1) (w.extractLsb' 0 6))
  | 14 =>
    some (.vcle (w.extractLsb' 20 6) (w.extractLsb' 14 6) (w.extractLsb' 13 1) (w.extractLsb' 7 6) (w.extractLsb' 6 1) (w.extractLsb' 0 6))
  | 15 =>
    if w.extractLsb' 0 2 == 2 && w.extractLsb' 4 2 == 1 then
      some (.vdot2F16 (w.extractLsb' 20 6) (w.extractLsb' 14 6) (w.extractLsb' 13 1) (w.extractLsb' 7 6) (w.extractLsb' 6 1) (w.extractLsb' 2 2))
    else none
  | 16 =>
    if w.extractLsb' 0 6 == 10 then
      some (.vdot4S8 (w.extractLsb' 20 6) (w.extractLsb' 14 6) (w.extractLsb' 13 1) (w.extractLsb' 7 6) (w.extractLsb' 6 1))
    else none
  | 17 =>
    if w.extractLsb' 6 7 == 0 then
      some (.vredadd (w.extractLsb' 20 6) (w.extractLsb' 14 6) (w.extractLsb' 13 1) (w.extractLsb' 0 6))
    else none
  | 18 =>
    if w.extractLsb' 6 7 == 0 then
      some (.vredmin (w.extractLsb' 20 6) (w.extractLsb' 14 6) (w.extractLsb' 13 1) (w.extractLsb' 0 6))
    else none
  | 19 =>
    if w.extractLsb' 6 7 == 0 then
      some (.vredmax (w.extractLsb' 20 6) (w.extractLsb' 14 6) (w.extractLsb' 13 1) (w.extractLsb' 0 6))
    else none
  | 20 =>
    some (.vsll (w.extractLsb' 20 6) (w.extractLsb' 14 6) (w.extractLsb' 13 1) (w.extractLsb' 7 6) (w.extractLsb' 0 7))
  | 21 =>
    some (.vsrl (w.extractLsb' 20 6) (w.extractLsb' 14 6) (w.extractLsb' 13 1) (w.extractLsb' 7 6) (w.extractLsb' 0 7))
  | 22 =>
    some (.vsra (w.extractLsb' 20 6) (w.extractLsb' 14 6) (w.extractLsb' 13 1) (w.extractLsb' 7 6) (w.extractLsb' 0 7))
  | 23 =>
    some (.vscale (w.extractLsb' 20 6) (w.extractLsb' 14 6) (w.extractLsb' 13 1) (w.extractLsb' 7 6) (w.extractLsb' 0 7))
  | 24 =>
    if w.extractLsb' 6 7 == 0 && w.extractLsb' 19 1 == 0 then
      some (.vsplat (w.extractLsb' 20 6) (w.extractLsb' 14 5) (w.extractLsb' 13 1) (w.extractLsb' 0 6))
    else none
  | 25 =>
    if w.extractLsb' 5 2 == 0 && w.extractLsb' 19 1 == 0 then
      some (.vins (w.extractLsb' 20 6) (w.extractLsb' 14 5) (w.extractLsb' 13 1) (w.extractLsb' 7 6) (w.extractLsb' 0 5))
    else none
  | 26 =>
    if w.extractLsb' 5 2 == 0 && w.extractLsb' 25 1 == 0 then
      some (.vext (w.extractLsb' 20 5) (w.extractLsb' 14 6) (w.extractLsb' 13 1) (w.extractLsb' 7 6) (w.extractLsb' 0 5))
    else none
  | 27 =>
    if w.extractLsb' 6 7 == 0 then
      some (.vpack (w.extractLsb' 20 6) (w.extractLsb' 14 6) (w.extractLsb' 13 1) (w.extractLsb' 0 6))
    else none
  | 28 =>
    if w.extractLsb' 6 1 == 0 && w.extractLsb' 8 5 == 0 then
      some (.vunpack (w.extractLsb' 20 6) (w.extractLsb' 14 6) (w.extractLsb' 13 1) (w.extractLsb' 7 1) (w.extractLsb' 0 6))
    else none
  | 32 =>
    some (.vcvt (w.extractLsb' 26 2) (w.extractLsb' 20 6) (w.extractLsb' 14 6) (w.extractLsb' 13 1) (w.extractLsb' 7 6) (w.extractLsb' 1 6) (w.extractLsb' 0 1))
  | 33 =>
    some (.vcvt (w.extractLsb' 26 2) (w.extractLsb' 20 6) (w.extractLsb' 14 6) (w.extractLsb' 13 1) (w.extractLsb' 7 6) (w.extractLsb' 1 6) (w.extractLsb' 0 1))
  | 34 =>
    some (.vcvt (w.extractLsb' 26 2) (w.extractLsb' 20 6) (w.extractLsb' 14 6) (w.extractLsb' 13 1) (w.extractLsb' 7 6) (w.extractLsb' 1 6) (w.extractLsb' 0 1))
  | 35 =>
    some (.vcvt (w.extractLsb' 26 2) (w.extractLsb' 20 6) (w.extractLsb' 14 6) (w.extractLsb' 13 1) (w.extractLsb' 7 6) (w.extractLsb' 1 6) (w.extractLsb' 0 1))
  | 40 =>
    if w.extractLsb' 6 7 == 0 then
      some (.rcp (w.extractLsb' 20 6) (w.extractLsb' 14 6) (w.extractLsb' 13 1) (w.extractLsb' 0 6))
    else none
  | 41 =>
    if w.extractLsb' 6 7 == 0 then
      some (.rsqrt (w.extractLsb' 20 6) (w.extractLsb' 14 6) (w.extractLsb' 13 1) (w.extractLsb' 0 6))
    else none
  | 42 =>
    if w.extractLsb' 6 7 == 0 then
      some (.sqrt (w.extractLsb' 20 6) (w.extractLsb' 14 6) (w.extractLsb' 13 1) (w.extractLsb' 0 6))
    else none
  | 43 =>
    if w.extractLsb' 6 7 == 0 then
      some (.exp2 (w.extractLsb' 20 6) (w.extractLsb' 14 6) (w.extractLsb' 13 1) (w.extractLsb' 0 6))
    else none
  | 44 =>
    if w.extractLsb' 6 7 == 0 then
      some (.log2 (w.extractLsb' 20 6) (w.extractLsb' 14 6) (w.extractLsb' 13 1) (w.extractLsb' 0 6))
    else none
  | 45 =>
    if w.extractLsb' 6 7 == 0 then
      some (.tanh (w.extractLsb' 20 6) (w.extractLsb' 14 6) (w.extractLsb' 13 1) (w.extractLsb' 0 6))
    else none
  | _ => none

/-- The Quinud words, field by field (22 R538-R539). Field values are not yet checked. -/
def decodeRawQ (w : BitVec 32) : Option Instr :=
  match (w.extractLsb' 26 6).toNat with
  | 0 =>
    if w.extractLsb' 0 26 == 0 then
      some (.quinudEnd)
    else none
  | 1 =>
    if w.extractLsb' 0 10 == 0 then
      some (.quinudFx (w.extractLsb' 23 3) (w.extractLsb' 20 3) (w.extractLsb' 15 5) (w.extractLsb' 10 5))
    else none
  | 2 =>
    if w.extractLsb' 20 3 == 0 then
      some (.quinudLi (w.extractLsb' 23 3) (w.extractLsb' 0 20))
    else none
  | 3 =>
    some (.quinudAddi (w.extractLsb' 23 3) (w.extractLsb' 20 3) (w.extractLsb' 0 20))
  | 4 =>
    if w.extractLsb' 0 17 == 0 then
      some (.quinudAdd (w.extractLsb' 23 3) (w.extractLsb' 20 3) (w.extractLsb' 17 3))
    else none
  | 5 =>
    if w.extractLsb' 0 17 == 0 then
      some (.quinudSub (w.extractLsb' 23 3) (w.extractLsb' 20 3) (w.extractLsb' 17 3))
    else none
  | 6 =>
    if w.extractLsb' 0 17 == 0 then
      some (.quinudAnd (w.extractLsb' 23 3) (w.extractLsb' 20 3) (w.extractLsb' 17 3))
    else none
  | 7 =>
    if w.extractLsb' 0 17 == 0 then
      some (.quinudOr (w.extractLsb' 23 3) (w.extractLsb' 20 3) (w.extractLsb' 17 3))
    else none
  | 8 =>
    if w.extractLsb' 0 17 == 0 then
      some (.quinudXor (w.extractLsb' 23 3) (w.extractLsb' 20 3) (w.extractLsb' 17 3))
    else none
  | 9 =>
    if w.extractLsb' 0 17 == 0 then
      some (.quinudShl (w.extractLsb' 23 3) (w.extractLsb' 20 3) (w.extractLsb' 17 3))
    else none
  | 10 =>
    if w.extractLsb' 0 17 == 0 then
      some (.quinudShr (w.extractLsb' 23 3) (w.extractLsb' 20 3) (w.extractLsb' 17 3))
    else none
  | 11 =>
    if w.extractLsb' 0 17 == 0 then
      some (.quinudMul (w.extractLsb' 23 3) (w.extractLsb' 20 3) (w.extractLsb' 17 3))
    else none
  | 12 =>
    if w.extractLsb' 0 17 == 0 then
      some (.quinudMin (w.extractLsb' 23 3) (w.extractLsb' 20 3) (w.extractLsb' 17 3))
    else none
  | 13 =>
    if w.extractLsb' 0 17 == 0 then
      some (.quinudMax (w.extractLsb' 23 3) (w.extractLsb' 20 3) (w.extractLsb' 17 3))
    else none
  | 14 =>
    if w.extractLsb' 0 14 == 0 then
      some (.quinudCmp (w.extractLsb' 23 3) (w.extractLsb' 20 3) (w.extractLsb' 17 3) (w.extractLsb' 14 3))
    else none
  | 15 =>
    if w.extractLsb' 0 14 == 0 then
      some (.quinudSel (w.extractLsb' 23 3) (w.extractLsb' 20 3) (w.extractLsb' 17 3) (w.extractLsb' 14 3))
    else none
  | 16 =>
    if w.extractLsb' 0 10 == 0 && w.extractLsb' 20 3 == 0 then
      some (.quinudLd (w.extractLsb' 23 3) (w.extractLsb' 10 10))
    else none
  | 17 =>
    if w.extractLsb' 0 10 == 0 && w.extractLsb' 23 3 == 0 then
      some (.quinudSt (w.extractLsb' 20 3) (w.extractLsb' 10 10))
    else none
  | 18 =>
    if w.extractLsb' 0 10 == 0 && w.extractLsb' 23 3 == 0 then
      some (.quinudKadd (w.extractLsb' 20 3) (w.extractLsb' 10 10))
    else none
  | 19 =>
    if w.extractLsb' 0 10 == 0 && w.extractLsb' 23 3 == 0 then
      some (.quinudKmin (w.extractLsb' 20 3) (w.extractLsb' 10 10))
    else none
  | 20 =>
    if w.extractLsb' 0 10 == 0 && w.extractLsb' 23 3 == 0 then
      some (.quinudKmax (w.extractLsb' 20 3) (w.extractLsb' 10 10))
    else none
  | 21 =>
    if w.extractLsb' 5 5 == 0 && w.extractLsb' 23 3 == 0 then
      some (.quinudEwma (w.extractLsb' 20 3) (w.extractLsb' 10 10) (w.extractLsb' 0 5))
    else none
  | 22 =>
    some (.quinudHlin (w.extractLsb' 23 3) (w.extractLsb' 20 3) (w.extractLsb' 10 10) (w.extractLsb' 4 6) (w.extractLsb' 0 4))
  | 23 =>
    if w.extractLsb' 0 4 == 0 && w.extractLsb' 23 3 == 0 then
      some (.quinudHlog (w.extractLsb' 20 3) (w.extractLsb' 10 10) (w.extractLsb' 4 6))
    else none
  | 24 =>
    if w.extractLsb' 4 6 == 0 && w.extractLsb' 23 3 == 0 then
      some (.quinudCms (w.extractLsb' 20 3) (w.extractLsb' 10 10) (w.extractLsb' 0 4))
    else none
  | 25 =>
    if w.extractLsb' 4 6 == 0 then
      some (.quinudCmq (w.extractLsb' 23 3) (w.extractLsb' 20 3) (w.extractLsb' 10 10) (w.extractLsb' 0 4))
    else none
  | 28 =>
    if w.extractLsb' 5 15 == 0 && w.extractLsb' 23 3 == 0 then
      some (.quinudBz (w.extractLsb' 20 3) (w.extractLsb' 0 5))
    else none
  | 29 =>
    if w.extractLsb' 5 15 == 0 && w.extractLsb' 23 3 == 0 then
      some (.quinudBnz (w.extractLsb' 20 3) (w.extractLsb' 0 5))
    else none
  | 30 =>
    if w.extractLsb' 3 17 == 0 && w.extractLsb' 23 3 == 0 then
      some (.quinudTrig (w.extractLsb' 20 3) (w.extractLsb' 0 3))
    else none
  | _ => none

/-- Why a bundle is not one of instructions: the syllable that raises ILLEGAL (05 R152, R169, R172). -/
inductive DecodeError where
  | illegalS
  | illegalV
deriving DecidableEq, Repr

/-- A decoded bundle: two syllables, or one long instruction (05 R150-R151). -/
inductive Bundle where
  | pair (i j : Instr)
  | long (i : Instr)
deriving DecidableEq, Repr

/-- Keep an instruction whose fields are legal. -/
def checked (i : Option Instr) : Option Instr := i.filter Instr.wf

/-- The instruction of an S-syllable that is not long. -/
def decodeS (w : BitVec 32) : Option Instr := checked (decodeRawS w)

/-- The instruction of a V-syllable. -/
def decodeV (w : BitVec 32) : Option Instr := checked (decodeRawV w)

/-- The instruction of a Quinud word. -/
def decodeFilter (w : BitVec 32) : Option Instr := checked (decodeRawQ w)

/-- The long instructions of the majors 0x38 to 0x3B (05 R169); `s` is the S-syllable, `v` the other. -/
def decodeLong (s v : BitVec 32) : Except DecodeError Instr :=
  match (s.extractLsb' 26 6).toNat with
  | 0x38 => if s.extractLsb' 16 5 == 0 then .ok (.lim (s.extractLsb' 21 5) (s.extractLsb' 0 16 ++ v))
            else .error .illegalS
  | 0x39 => if s.extractLsb' 0 21 == 0 then .ok (.call (s.extractLsb' 21 5) v) else .error .illegalS
  | 0x3A =>
    if s.extractLsb' 0 16 == 0 then
      match decodeV v with
      | some (.vcvt r d a t g y o) => .ok (.vcvtScaled (s.extractLsb' 16 10) r d a t g y o)
      | _ => .error .illegalV
    else .error .illegalS
  | 0x3B =>
    if s.extractLsb' 0 12 == 0 && (s.extractLsb' 21 5).toNat ≤ 24 then
      .ok (.spawn (s.extractLsb' 21 5) (s.extractLsb' 16 5) (s.extractLsb' 15 1) (s.extractLsb' 14 1)
        (s.extractLsb' 12 2) v)
    else .error .illegalS
  | _ => .error .illegalS

/-- A bundle: the S-syllable in bits [63:32], the V-syllable in [31:0] (05 R150). -/
def decodeBundle (b : BitVec 64) : Except DecodeError Bundle :=
  let s := b.extractLsb' 32 32
  let v := b.extractLsb' 0 32
  if 0x38 ≤ (s.extractLsb' 26 6).toNat then
    match decodeLong s v with
    | .ok i => .ok (.long i)
    | .error e => .error e
  else
    match decodeS s with
    | none => .error .illegalS
    | some i =>
      match decodeV v with
      | none => .error .illegalV
      | some j => .ok (.pair i j)

/-- The S-syllable that does nothing: `add s0, s0, s0` (05 R153). -/
def nopS : Instr := .add 0 0 0 0 0

/-- The bundle of eight bytes, lowest address first (00 R3). -/
def bundleOfBytes (bs : List Byte) : BitVec 64 :=
  BitVec.ofNat 64 (bs.foldr (fun b n => b.toNat + 256 * n) 0)

/-- Decoding of the bytes of a bundle, on any bytes. -/
def decodeBytes (bs : List Byte) : Except DecodeError Bundle := decodeBundle (bundleOfBytes bs)

/-- The one instruction of a bundle whose other syllable does nothing. -/
def Bundle.single : Bundle → Option Instr
  | .long i => some i
  | .pair i j => if j = .vnop then some i else if i = nopS then some j else none

/-- The instruction read from a table word: a 32-bit word is tried as an S-syllable, then as a
V-syllable, then as a Quinud word (their words overlap); a 64-bit word is a whole bundle. -/
def decodeTableWord (nbits w : Nat) : Option Instr :=
  if nbits = 32 then
    let x := BitVec.ofNat 32 w
    (decodeS x).or ((decodeV x).or (decodeFilter x))
  else if nbits = 64 then
    match decodeBundle (BitVec.ofNat 64 w) with
    | .ok b => b.single
    | .error _ => none
  else none

/-- The S-syllable word of an instruction of the majors 0x00 to 0x37 (05 R154-R168). -/
def encodeS : Instr → Option (BitVec 32)
  | .add d a t b u => some (0#6 ++ d ++ a ++ t ++ b ++ u ++ 0#9 : BitVec 32)
  | .sub d a t b u => some (0#6 ++ d ++ a ++ t ++ b ++ u ++ 1#9 : BitVec 32)
  | .and d a t b u => some (0#6 ++ d ++ a ++ t ++ b ++ u ++ 2#9 : BitVec 32)
  | .or d a t b u => some (0#6 ++ d ++ a ++ t ++ b ++ u ++ 3#9 : BitVec 32)
  | .xor d a t b u => some (0#6 ++ d ++ a ++ t ++ b ++ u ++ 4#9 : BitVec 32)
  | .andn d a t b u => some (0#6 ++ d ++ a ++ t ++ b ++ u ++ 5#9 : BitVec 32)
  | .sll d a t b u => some (0#6 ++ d ++ a ++ t ++ b ++ u ++ 6#9 : BitVec 32)
  | .srl d a t b u => some (0#6 ++ d ++ a ++ t ++ b ++ u ++ 7#9 : BitVec 32)
  | .sra d a t b u => some (0#6 ++ d ++ a ++ t ++ b ++ u ++ 8#9 : BitVec 32)
  | .slt d a t b u => some (0#6 ++ d ++ a ++ t ++ b ++ u ++ 9#9 : BitVec 32)
  | .sltn d a t b u => some (0#6 ++ d ++ a ++ t ++ b ++ u ++ 10#9 : BitVec 32)
  | .min d a t b u => some (0#6 ++ d ++ a ++ t ++ b ++ u ++ 11#9 : BitVec 32)
  | .max d a t b u => some (0#6 ++ d ++ a ++ t ++ b ++ u ++ 12#9 : BitVec 32)
  | .minn d a t b u => some (0#6 ++ d ++ a ++ t ++ b ++ u ++ 13#9 : BitVec 32)
  | .maxn d a t b u => some (0#6 ++ d ++ a ++ t ++ b ++ u ++ 14#9 : BitVec 32)
  | .lea d a t b u k => some (0#6 ++ d ++ a ++ t ++ b ++ u ++ 2#6 ++ k : BitVec 32)
  | .mul d a t b u => some (1#6 ++ d ++ a ++ t ++ b ++ u ++ 0#9 : BitVec 32)
  | .mulh d a t b u => some (1#6 ++ d ++ a ++ t ++ b ++ u ++ 1#9 : BitVec 32)
  | .mulhn d a t b u => some (1#6 ++ d ++ a ++ t ++ b ++ u ++ 2#9 : BitVec 32)
  | .mulhsn d a t b u => some (1#6 ++ d ++ a ++ t ++ b ++ u ++ 3#9 : BitVec 32)
  | .div d a t b u => some (1#6 ++ d ++ a ++ t ++ b ++ u ++ 4#9 : BitVec 32)
  | .divn d a t b u => some (1#6 ++ d ++ a ++ t ++ b ++ u ++ 5#9 : BitVec 32)
  | .rem d a t b u => some (1#6 ++ d ++ a ++ t ++ b ++ u ++ 6#9 : BitVec 32)
  | .remn d a t b u => some (1#6 ++ d ++ a ++ t ++ b ++ u ++ 7#9 : BitVec 32)
  | .clz d a t => some (2#6 ++ d ++ a ++ t ++ 0#15 : BitVec 32)
  | .ctz d a t => some (2#6 ++ d ++ a ++ t ++ 1#15 : BitVec 32)
  | .popc d a t => some (2#6 ++ d ++ a ++ t ++ 2#15 : BitVec 32)
  | .sel d a t b u => some (2#6 ++ d ++ a ++ t ++ b ++ u ++ 3#9 : BitVec 32)
  | .bext d a t b u => some (2#6 ++ d ++ a ++ t ++ b ++ u ++ 4#9 : BitVec 32)
  | .bexts d a t b u => some (2#6 ++ d ++ a ++ t ++ b ++ u ++ 5#9 : BitVec 32)
  | .bins d a t b u => some (2#6 ++ d ++ a ++ t ++ b ++ u ++ 6#9 : BitVec 32)
  | .jr a t => some (96#11 ++ a ++ t ++ 0#15 : BitVec 32)
  | .ret => some (201326593#32 : BitVec 32)
  | .callr d a t => some (3#6 ++ d ++ a ++ t ++ 2#15 : BitVec 32)
  | .retire => some (201326595#32 : BitVec 32)
  | .lpset a t => some (96#11 ++ a ++ t ++ 4#15 : BitVec 32)
  | .lpidx d l => some (3#6 ++ d ++ 0#9 ++ l ++ 5#10 : BitVec 32)
  | .lpaddr d l => some (3#6 ++ d ++ 0#9 ++ l ++ 6#10 : BitVec 32)
  | .addi d a t i => some (4#6 ++ d ++ a ++ t ++ i : BitVec 32)
  | .andi d a t i => some (5#6 ++ d ++ a ++ t ++ i : BitVec 32)
  | .ori d a t i => some (6#6 ++ d ++ a ++ t ++ i : BitVec 32)
  | .xori d a t i => some (7#6 ++ d ++ a ++ t ++ i : BitVec 32)
  | .slti d a t i => some (8#6 ++ d ++ a ++ t ++ i : BitVec 32)
  | .sltni d a t i => some (9#6 ++ d ++ a ++ t ++ i : BitVec 32)
  | .slli d a t n => some (10#6 ++ d ++ a ++ t ++ 0#9 ++ n : BitVec 32)
  | .srli d a t n => some (10#6 ++ d ++ a ++ t ++ 1#9 ++ n : BitVec 32)
  | .srai d a t n => some (10#6 ++ d ++ a ++ t ++ 2#9 ++ n : BitVec 32)
  | .cadr d a t g x y c => some (11#6 ++ d ++ a ++ t ++ 0#2 ++ g ++ x ++ y ++ c : BitVec 32)
  | .trap n => some (24576#17 ++ n : BitVec 32)
  | .ctlr d i => some (13#6 ++ d ++ 0#9 ++ i : BitVec 32)
  | .ctlw a t i => some (448#11 ++ a ++ t ++ 0#3 ++ i : BitVec 32)
  | .beq a t b u o => some (16#6 ++ a ++ t ++ b ++ u ++ o : BitVec 32)
  | .bne a t b u o => some (17#6 ++ a ++ t ++ b ++ u ++ o : BitVec 32)
  | .blt a t b u o => some (18#6 ++ a ++ t ++ b ++ u ++ o : BitVec 32)
  | .bge a t b u o => some (19#6 ++ a ++ t ++ b ++ u ++ o : BitVec 32)
  | .bltn a t b u o => some (20#6 ++ a ++ t ++ b ++ u ++ o : BitVec 32)
  | .bgen a t b u o => some (21#6 ++ a ++ t ++ b ++ u ++ o : BitVec 32)
  | .lpnext l o => some (176#9 ++ l ++ 0#7 ++ o : BitVec 32)
  | .ldN8 d b t w r p => some (24#6 ++ d ++ b ++ t ++ w ++ r ++ p : BitVec 32)
  | .ldN16 d b t w r p => some (25#6 ++ d ++ b ++ t ++ w ++ r ++ p : BitVec 32)
  | .ldN32 d b t w r p => some (26#6 ++ d ++ b ++ t ++ w ++ r ++ p : BitVec 32)
  | .ld64 d b t w r p => some (27#6 ++ d ++ b ++ t ++ w ++ r ++ p : BitVec 32)
  | .ldS8 d b t w r p => some (28#6 ++ d ++ b ++ t ++ w ++ r ++ p : BitVec 32)
  | .ldS16 d b t w r p => some (29#6 ++ d ++ b ++ t ++ w ++ r ++ p : BitVec 32)
  | .ldS32 d b t w r p => some (30#6 ++ d ++ b ++ t ++ w ++ r ++ p : BitVec 32)
  | .vld v b t w r x p => some (31#6 ++ v ++ b ++ t ++ w ++ r ++ x ++ p : BitVec 32)
  | .st8 d b t w r p => some (32#6 ++ d ++ b ++ t ++ w ++ r ++ p : BitVec 32)
  | .st16 d b t w r p => some (33#6 ++ d ++ b ++ t ++ w ++ r ++ p : BitVec 32)
  | .st32 d b t w r p => some (34#6 ++ d ++ b ++ t ++ w ++ r ++ p : BitVec 32)
  | .st64 d b t w r p => some (35#6 ++ d ++ b ++ t ++ w ++ r ++ p : BitVec 32)
  | .vst v b t w r x p => some (36#6 ++ v ++ b ++ t ++ w ++ r ++ x ++ p : BitVec 32)
  | .ldAcq32 d b t s p => some (40#6 ++ d ++ b ++ t ++ s ++ p : BitVec 32)
  | .ldAcq64 d b t s p => some (41#6 ++ d ++ b ++ t ++ s ++ p : BitVec 32)
  | .stRel32 d b t s p => some (42#6 ++ d ++ b ++ t ++ s ++ p : BitVec 32)
  | .stRel64 d b t s p => some (43#6 ++ d ++ b ++ t ++ s ++ p : BitVec 32)
  | .ldfe d b t w r p => some (44#6 ++ d ++ b ++ t ++ w ++ r ++ p : BitVec 32)
  | .stef d b t w r p => some (45#6 ++ d ++ b ++ t ++ w ++ r ++ p : BitVec 32)
  | .ldPw d b t w r p => some (46#6 ++ d ++ b ++ t ++ w ++ r ++ p : BitVec 32)
  | .vlds v a t b u x w r z => some (48#6 ++ v ++ a ++ t ++ b ++ u ++ x ++ 0#3 ++ w ++ r ++ z : BitVec 32)
  | .vldx v a t b u x w r => some (48#6 ++ v ++ a ++ t ++ b ++ u ++ x ++ 1#3 ++ w ++ r ++ 2#2 : BitVec 32)
  | .mwait k => some (100663298#27 ++ k ++ 0#3 : BitVec 32)
  | .qbind a t k => some (1568#11 ++ a ++ t ++ 0#7 ++ k ++ 0#6 : BitVec 32)
  | .qunbind k => some (12845056#24 ++ k ++ 1#6 : BitVec 32)
  | .qstat d k => some (49#6 ++ d ++ 0#13 ++ k ++ 2#6 : BitVec 32)
  | .qpeek d k => some (49#6 ++ d ++ 0#13 ++ k ++ 3#6 : BitVec 32)
  | .vqpush v t x k => some (1568#11 ++ v ++ t ++ 0#6 ++ x ++ k ++ 4#6 : BitVec 32)
  | .vqpop v x k => some (49#6 ++ v ++ 0#12 ++ x ++ k ++ 5#6 : BitVec 32)
  | .qcfgr d a t => some (49#6 ++ d ++ a ++ t ++ 6#15 : BitVec 32)
  | .qcfgw a t b u => some (1568#11 ++ a ++ t ++ b ++ u ++ 7#9 : BitVec 32)
  | .ttag d a t b u => some (50#6 ++ d ++ a ++ t ++ b ++ u ++ 0#9 : BitVec 32)
  | .tfld d a t f => some (50#6 ++ d ++ a ++ t ++ 0#6 ++ f ++ 1#6 : BitVec 32)
  | .tins a t b u => some (1600#11 ++ a ++ t ++ b ++ u ++ 2#9 : BitVec 32)
  | .tinsd a t b u => some (1600#11 ++ a ++ t ++ b ++ u ++ 3#9 : BitVec 32)
  | .tgen d => some (50#6 ++ d ++ 4#21 : BitVec 32)
  | .covQ d a t => some (50#6 ++ d ++ a ++ t ++ 5#15 : BitVec 32)
  | .covRd d i => some (50#6 ++ d ++ 0#12 ++ i ++ 6#6 : BitVec 32)
  | .poolCnt d => some (50#6 ++ d ++ 7#21 : BitVec 32)
  | .amoAdd d a t b u l r w => some (51#6 ++ d ++ a ++ t ++ b ++ u ++ l ++ r ++ w ++ 0#5 : BitVec 32)
  | .amoAnd d a t b u l r w => some (51#6 ++ d ++ a ++ t ++ b ++ u ++ l ++ r ++ w ++ 1#5 : BitVec 32)
  | .amoOr d a t b u l r w => some (51#6 ++ d ++ a ++ t ++ b ++ u ++ l ++ r ++ w ++ 2#5 : BitVec 32)
  | .amoXor d a t b u l r w => some (51#6 ++ d ++ a ++ t ++ b ++ u ++ l ++ r ++ w ++ 3#5 : BitVec 32)
  | .amoMin d a t b u l r w => some (51#6 ++ d ++ a ++ t ++ b ++ u ++ l ++ r ++ w ++ 4#5 : BitVec 32)
  | .amoMax d a t b u l r w => some (51#6 ++ d ++ a ++ t ++ b ++ u ++ l ++ r ++ w ++ 5#5 : BitVec 32)
  | .amoMinu d a t b u l r w => some (51#6 ++ d ++ a ++ t ++ b ++ u ++ l ++ r ++ w ++ 6#5 : BitVec 32)
  | .amoMaxu d a t b u l r w => some (51#6 ++ d ++ a ++ t ++ b ++ u ++ l ++ r ++ w ++ 7#5 : BitVec 32)
  | .amoSwap d a t b u l r w => some (51#6 ++ d ++ a ++ t ++ b ++ u ++ l ++ r ++ w ++ 8#5 : BitVec 32)
  | .amoCas d a t b u l r w => some (51#6 ++ d ++ a ++ t ++ b ++ u ++ l ++ r ++ w ++ 9#5 : BitVec 32)
  | .amoFaddF32 d a t b u r w => some (51#6 ++ d ++ a ++ t ++ b ++ u ++ 0#1 ++ r ++ w ++ 10#5 : BitVec 32)
  | .amoInclt d a t b u l r w => some (51#6 ++ d ++ a ++ t ++ b ++ u ++ l ++ r ++ w ++ 11#5 : BitVec 32)
  | .joinInit a t b u => some (1664#11 ++ a ++ t ++ b ++ u ++ 0#9 : BitVec 32)
  | .joinArrive a t b u => some (1664#11 ++ a ++ t ++ b ++ u ++ 1#9 : BitVec 32)
  | .ssigSet a t b u => some (1664#11 ++ a ++ t ++ b ++ u ++ 2#9 : BitVec 32)
  | .ssigAdd a t b u => some (1664#11 ++ a ++ t ++ b ++ u ++ 3#9 : BitVec 32)
  | .swait d a t b u c => some (52#6 ++ d ++ a ++ t ++ b ++ u ++ 0#3 ++ c ++ 4#3 : BitVec 32)
  | .barrArr l i => some (434176#19 ++ l ++ 0#4 ++ i : BitVec 32)
  | .barrWait l i => some (434177#19 ++ l ++ 0#4 ++ i : BitVec 32)
  | .barrSync l i => some (434178#19 ++ l ++ 0#4 ++ i : BitVec 32)
  | .barrSyncCmb a t l i => some (1696#11 ++ a ++ t ++ 2#2 ++ l ++ 8#4 ++ i : BitVec 32)
  | .eret => some (3623878656#32 : BitVec 32)
  | .repart m => some (884736#20 ++ m ++ 1#10 : BitVec 32)
  | .slotw a t => some (1728#11 ++ a ++ t ++ 2#15 : BitVec 32)
  | .sleep a t => some (1728#11 ++ a ++ t ++ 3#15 : BitVec 32)
  | .iflush => some (3623878660#32 : BitVec 32)
  | .xlinv a t b u => some (1728#11 ++ a ++ t ++ b ++ u ++ 5#9 : BitVec 32)
  | .ctxsv a t b u => some (1728#11 ++ a ++ t ++ b ++ u ++ 6#9 : BitVec 32)
  | .ctxld a t b u => some (1728#11 ++ a ++ t ++ b ++ u ++ 7#9 : BitVec 32)
  | .telEv a t b u => some (1728#11 ++ a ++ t ++ b ++ u ++ 8#9 : BitVec 32)
  | _ => none

/-- The V-syllable word of a vector instruction (05 R157, R170-R171). -/
def encodeV : Instr → Option (BitVec 32)
  | .vnop => some (0#32 : BitVec 32)
  | .vand d a t b u => some (0#6 ++ d ++ a ++ t ++ b ++ u ++ 1#6 : BitVec 32)
  | .vor d a t b u => some (0#6 ++ d ++ a ++ t ++ b ++ u ++ 2#6 : BitVec 32)
  | .vxor d a t b u => some (0#6 ++ d ++ a ++ t ++ b ++ u ++ 3#6 : BitVec 32)
  | .vandn d a t b u => some (0#6 ++ d ++ a ++ t ++ b ++ u ++ 4#6 : BitVec 32)
  | .vsel d a t b u => some (0#6 ++ d ++ a ++ t ++ b ++ u ++ 5#6 : BitVec 32)
  | .vmov d a t => some (0#6 ++ d ++ a ++ t ++ 6#13 : BitVec 32)
  | .vshuf d a t b u => some (0#6 ++ d ++ a ++ t ++ b ++ u ++ 7#6 : BitVec 32)
  | .vcrc d a t => some (0#6 ++ d ++ a ++ t ++ 8#13 : BitVec 32)
  | .vadd d a t b u y => some (1#6 ++ d ++ a ++ t ++ b ++ u ++ y : BitVec 32)
  | .vsub d a t b u y => some (2#6 ++ d ++ a ++ t ++ b ++ u ++ y : BitVec 32)
  | .vmul d a t b u y => some (3#6 ++ d ++ a ++ t ++ b ++ u ++ y : BitVec 32)
  | .vmin d a t b u y => some (4#6 ++ d ++ a ++ t ++ b ++ u ++ y : BitVec 32)
  | .vmax d a t b u y => some (5#6 ++ d ++ a ++ t ++ b ++ u ++ y : BitVec 32)
  | .vfma d a t b u y => some (6#6 ++ d ++ a ++ t ++ b ++ u ++ y : BitVec 32)
  | .vfms d a t b u y => some (7#6 ++ d ++ a ++ t ++ b ++ u ++ y : BitVec 32)
  | .vabs d a t y => some (8#6 ++ d ++ a ++ t ++ 0#7 ++ y : BitVec 32)
  | .vneg d a t y => some (9#6 ++ d ++ a ++ t ++ 0#7 ++ y : BitVec 32)
  | .vclamp d a t b u y => some (10#6 ++ d ++ a ++ t ++ b ++ u ++ y : BitVec 32)
  | .vceq d a t b u y => some (11#6 ++ d ++ a ++ t ++ b ++ u ++ y : BitVec 32)
  | .vcne d a t b u y => some (12#6 ++ d ++ a ++ t ++ b ++ u ++ y : BitVec 32)
  | .vclt d a t b u y => some (13#6 ++ d ++ a ++ t ++ b ++ u ++ y : BitVec 32)
  | .vcle d a t b u y => some (14#6 ++ d ++ a ++ t ++ b ++ u ++ y : BitVec 32)
  | .vdot2F16 d a t b u r => some (15#6 ++ d ++ a ++ t ++ b ++ u ++ 1#2 ++ r ++ 2#2 : BitVec 32)
  | .vdot4S8 d a t b u => some (16#6 ++ d ++ a ++ t ++ b ++ u ++ 10#6 : BitVec 32)
  | .vredadd d a t y => some (17#6 ++ d ++ a ++ t ++ 0#7 ++ y : BitVec 32)
  | .vredmin d a t y => some (18#6 ++ d ++ a ++ t ++ 0#7 ++ y : BitVec 32)
  | .vredmax d a t y => some (19#6 ++ d ++ a ++ t ++ 0#7 ++ y : BitVec 32)
  | .vsll d a t y k => some (20#6 ++ d ++ a ++ t ++ y ++ k : BitVec 32)
  | .vsrl d a t y k => some (21#6 ++ d ++ a ++ t ++ y ++ k : BitVec 32)
  | .vsra d a t y k => some (22#6 ++ d ++ a ++ t ++ y ++ k : BitVec 32)
  | .vscale d a t y k => some (23#6 ++ d ++ a ++ t ++ y ++ k : BitVec 32)
  | .vsplat d s t y => some (24#6 ++ d ++ 0#1 ++ s ++ t ++ 0#7 ++ y : BitVec 32)
  | .vins d s t y i => some (25#6 ++ d ++ 0#1 ++ s ++ t ++ y ++ 0#2 ++ i : BitVec 32)
  | .vext s a t y i => some (52#7 ++ s ++ a ++ t ++ y ++ 0#2 ++ i : BitVec 32)
  | .vpack d a t y => some (27#6 ++ d ++ a ++ t ++ 0#7 ++ y : BitVec 32)
  | .vunpack d a t h y => some (28#6 ++ d ++ a ++ t ++ 0#5 ++ h ++ 0#1 ++ y : BitVec 32)
  | .vcvt r d a t g s o => some (8#4 ++ r ++ d ++ a ++ t ++ g ++ s ++ o : BitVec 32)
  | .rcp d a t y => some (40#6 ++ d ++ a ++ t ++ 0#7 ++ y : BitVec 32)
  | .rsqrt d a t y => some (41#6 ++ d ++ a ++ t ++ 0#7 ++ y : BitVec 32)
  | .sqrt d a t y => some (42#6 ++ d ++ a ++ t ++ 0#7 ++ y : BitVec 32)
  | .exp2 d a t y => some (43#6 ++ d ++ a ++ t ++ 0#7 ++ y : BitVec 32)
  | .log2 d a t y => some (44#6 ++ d ++ a ++ t ++ 0#7 ++ y : BitVec 32)
  | .tanh d a t y => some (45#6 ++ d ++ a ++ t ++ 0#7 ++ y : BitVec 32)
  | _ => none

/-- The word of a Quinud instruction (22 R538-R539). -/
def encodeFilter : Instr → Option (BitVec 32)
  | .quinudEnd => some (0#32 : BitVec 32)
  | .quinudFx d e l n => some (1#6 ++ d ++ e ++ l ++ n ++ 0#10 : BitVec 32)
  | .quinudLi d i => some (2#6 ++ d ++ 0#3 ++ i : BitVec 32)
  | .quinudAddi d a i => some (3#6 ++ d ++ a ++ i : BitVec 32)
  | .quinudAdd d a b => some (4#6 ++ d ++ a ++ b ++ 0#17 : BitVec 32)
  | .quinudSub d a b => some (5#6 ++ d ++ a ++ b ++ 0#17 : BitVec 32)
  | .quinudAnd d a b => some (6#6 ++ d ++ a ++ b ++ 0#17 : BitVec 32)
  | .quinudOr d a b => some (7#6 ++ d ++ a ++ b ++ 0#17 : BitVec 32)
  | .quinudXor d a b => some (8#6 ++ d ++ a ++ b ++ 0#17 : BitVec 32)
  | .quinudShl d a b => some (9#6 ++ d ++ a ++ b ++ 0#17 : BitVec 32)
  | .quinudShr d a b => some (10#6 ++ d ++ a ++ b ++ 0#17 : BitVec 32)
  | .quinudMul d a b => some (11#6 ++ d ++ a ++ b ++ 0#17 : BitVec 32)
  | .quinudMin d a b => some (12#6 ++ d ++ a ++ b ++ 0#17 : BitVec 32)
  | .quinudMax d a b => some (13#6 ++ d ++ a ++ b ++ 0#17 : BitVec 32)
  | .quinudCmp d a b c => some (14#6 ++ d ++ a ++ b ++ c ++ 0#14 : BitVec 32)
  | .quinudSel d a b c => some (15#6 ++ d ++ a ++ b ++ c ++ 0#14 : BitVec 32)
  | .quinudLd d k => some (16#6 ++ d ++ 0#3 ++ k ++ 0#10 : BitVec 32)
  | .quinudSt a k => some (136#9 ++ a ++ k ++ 0#10 : BitVec 32)
  | .quinudKadd a k => some (144#9 ++ a ++ k ++ 0#10 : BitVec 32)
  | .quinudKmin a k => some (152#9 ++ a ++ k ++ 0#10 : BitVec 32)
  | .quinudKmax a k => some (160#9 ++ a ++ k ++ 0#10 : BitVec 32)
  | .quinudEwma a k s => some (168#9 ++ a ++ k ++ 0#5 ++ s : BitVec 32)
  | .quinudHlin d a k m s => some (22#6 ++ d ++ a ++ k ++ m ++ s : BitVec 32)
  | .quinudHlog a k m => some (184#9 ++ a ++ k ++ m ++ 0#4 : BitVec 32)
  | .quinudCms a k m => some (192#9 ++ a ++ k ++ 0#6 ++ m : BitVec 32)
  | .quinudCmq d a k m => some (25#6 ++ d ++ a ++ k ++ 0#6 ++ m : BitVec 32)
  | .quinudBz a o => some (224#9 ++ a ++ 0#15 ++ o : BitVec 32)
  | .quinudBnz a o => some (232#9 ++ a ++ 0#15 ++ o : BitVec 32)
  | .quinudTrig a t => some (240#9 ++ a ++ 0#17 ++ t : BitVec 32)
  | _ => none

/-- The two syllables of a long instruction, S-syllable first (05 R169). -/
def encodeLong : Instr → Option (BitVec 32 × BitVec 32)
  | .lim d i => some (0x38#6 ++ d ++ 0#5 ++ i.extractLsb' 32 16, i.extractLsb' 0 32)
  | .call d o => some (0x39#6 ++ d ++ 0#21, o)
  | .vcvtScaled k r d a t g s o =>
    some (0x3A#6 ++ k ++ 0#16, 8#4 ++ r ++ d ++ a ++ t ++ g ++ s ++ o)
  | .spawn b a t h l o => some (0x3B#6 ++ b ++ a ++ t ++ h ++ l ++ 0#12, o)
  | _ => none

/-- The bundle that holds an instruction alone: an S-syllable with `vnop`, a V-syllable with `nop`,
or a long instruction. -/
def encode (i : Instr) : Option (BitVec 64) :=
  match encodeLong i with
  | some (s, v) => some (s ++ v)
  | none =>
    match encodeS i with
    | some s => some (s ++ 0#32)
    | none => (encodeV i).map fun v => 0#32 ++ v

/-- The eight bytes of a bundle, lowest address first (00 R3). -/
def bytesOfBundle (b : BitVec 64) : List Byte :=
  (List.range 8).map fun k => b.extractLsb' (8 * k) 8

end Sys2Proof
end

