-- ==== Sys2Proof/Machine/Fetch.lean ====
section
/-! DEFINITION. Instruction fetch: code regions, the instruction cache of a quad, fills (06 R178, R213,
17 R414-R415). -/

namespace Sys2Proof.Machine

/-- A bundle address that the thread may not fetch from (06 R178): outside its launch's code region and
retire stub, or, for firmware, outside the granted regions;
every fetch of a plug-in must lie in an execute region, that of its retire stub too (21 R507). -/
def State.fetchFault (s : State) (th : Nat) : Bool :=
  let c := s.ctx th
  let pc := c.pc.toNat
  (c.level = 1 && !c.regionAllows c.pc 8 2) || (c.stub ≠ some c.pc && (match c.lid.bind s.launch with
    | some l => !(l.codeBase ≤ pc && pc < l.codeBase + l.codeSize) || pc % 8 ≠ 0
    | none => !(s.hub.fw.grants.any fun g => g.1 ≤ pc && pc < g.1 + g.2) || pc % 8 ≠ 0))

/-- A page as the cache of a quad gives it, or its walk. -/
def State.lookUp (s : State) (quad xctx level va : Nat) (write : Bool) : Walked :=
  match s.cached quad xctx va write with
  | some t => s.ofTlb t level va
  | none => s.walk xctx level va write

/-- The virtual address of a line, and the level at which it is fetched: firmware code has context 0. -/
def lineVa (line : Nat) : Nat := line * 128 % 2 ^ 52
def fetchLevel (xctx : Nat) : Nat := if xctx = 0 then 2 else 0

/-- The 128 bytes of a line in a page. -/
def State.lineBytes (s : State) (line va pa : Nat) : List Byte :=
  Memory.bytes s.mem (Place.tier (pa + (lineVa line - va))).key 128

/-- A line in a quad's cache, or in its fill buffer; one that is being read afresh is missing (06 R213). -/
def State.lineOf (s : State) (quad xctx line : Nat) : Option Line :=
  let hit := fun l : Line => l.xctx = xctx && l.line = line && !l.stale
  match (s.quad quad).icache.find? hit with
  | some l => some l
  | none => (s.quad quad).fillBuf.filter hit

/-- The bundle of a retire stub: `retire` and `vnop` (02 R58, 06 R200, log 13). -/
def retireBundle : BitVec 32 × BitVec 32 := (0x0C000003, 0)

/-- The bundle at a thread's pc, when its line is in the cache: S-syllable and V-syllable (05 R150). At the address
of its retire stub a thread always finds `retire`. -/
def State.bundleAt (s : State) (th : Nat) : Option (BitVec 32 × BitVec 32) :=
  let pc := (s.ctx th).pc.toNat
  if (s.ctx th).stub = some (s.ctx th).pc then some retireBundle
  else (s.lineOf (quadOf (coreOf th)) (s.xctxOf th) (pc / 128)).map fun l =>
    let b := fun k => (l.bytes.getD (pc % 128 + k) 0).toNat
    (BitVec.ofNat 32 (b 4 + 256 * (b 5 + 256 * (b 6 + 256 * b 7))),
     BitVec.ofNat 32 (b 0 + 256 * (b 1 + 256 * (b 2 + 256 * b 3))))

/-- A cache in which a line of a set finds a way: one of eight, while the cache holds fewer than 512 lines, or the way of the oldest
unpinned line. -/
def roomFor (l : Line) (cache : List Line) : Option (List Line) :=
  if (cache.filter fun x => x.set = l.set).length < 8 && cache.length < 512 then some cache
  else (cache.findIdx? fun x => x.set = l.set && x.pins.isEmpty).map cache.eraseIdx

/-- A line enters the instruction cache of a quad, over an older copy of it, which leaves it its pins. A set of pinned
lines has no way for it: a pinned line stands beside them, at the cost of another set's oldest unpinned line, and any
other serves from the fill buffer until the next one (17 R414-R415, log 100). -/
def fillLine (l : Line) (q : Quad) : Quad :=
  let same := fun x : Line => x.xctx = l.xctx && x.line = l.line
  let rest := q.icache.filter fun x => !same x
  let l := { l with pins := ((q.icache.filter same).flatMap (·.pins) ++ l.pins).eraseDups }
  match roomFor l rest with
  | some room => { q with icache := room ++ [l] }
  | none =>
    if l.pins.isEmpty then { q with icache := rest, fillBuf := some l }
    else
      let room := if rest.length < 512 then rest else (rest.findIdx? fun x => x.pins.isEmpty).elim rest rest.eraseIdx
      { q with icache := room ++ [l] }

/-- The line is already being fetched. -/
def State.fillInFlight (s : State) (quad xctx line : Nat) : Bool :=
  s.net.any fun f => match f.ev with
    | .instructionCacheFill q x l => q = quad && x = xctx && l = line
    | _ => false

/-- The threads of a quad that wait for a line. -/
def State.fetchWaiters (s : State) (quad xctx line : Nat) : List Nat :=
  s.allocated.filter fun th =>
    quadOf (coreOf th) = quad && s.xctxOf th = xctx && (s.ctx th).pc.toNat / 128 = line &&
      ((s.ctx th).status = .ready || (s.ctx th).status = .blocked)

/-- A page fault's code, and the fault record of what waits for the page (20 R491). -/
def faultKind : PageFault → Nat
  | .absent => 0 | .write => 1 | .format => 2

/-- The fault record of an instruction fetch. -/
def fetchParked (quad xctx line : Nat) (k : PageFault) : ParkedFault :=
  { item := .fetch quad xctx line, va := BitVec.ofNat 64 (line * 128), xctx := xctx, kind := faultKind k, access := 0
    requester := quad * 4 }

/-- The launches of the reserved class that keep a line of a quad pinned: it lies in their code (17 R415). -/
def State.pinsOf (s : State) (quad xctx line : Nat) : List Nat :=
  (s.launches.filter fun p => p.2.any fun l =>
    l.rsv && l.holding && l.xctx = xctx && l.codeBase / 128 ≤ line && line < l.codeBase / 128 + l.codeSize / 128 &&
      s.quadInPart l.part quad).map Prod.fst

/-- A pinned line that cannot be read afresh leaves the cache. -/
def State.dropStale (s : State) (quad xctx line : Nat) : State :=
  s.modQuad quad fun q => { q with icache := q.icache.filter fun l => !(l.xctx = xctx && l.line = line && l.stale) }

/-- A line is read into the cache of a quad, with its pins; the translation enters the quad's cache. A failed ownership check
is a security event and a deferred ACCESS of the threads that wait for the line, and a page fault parks the fetch (06 R178, 17
R414, 20 R487-R491). DESIGN CHOICE (log 123): such a trap, which no producer of its thread has, is taken before the deferred
traps of producers. -/
def State.readLine (s : State) (quad xctx line : Nat) (pins : List Nat) : State :=
  match s.lookUp quad xctx (fetchLevel xctx) (lineVa line) false with
  | .page va size pa w =>
    (s.cacheFill quad { xctx := xctx, va := va, size := size, pa := pa, write := w }).modQuad quad
      (fillLine { xctx := xctx, line := line, bytes := s.lineBytes line va pa, pins := pins })
  | .fault k => s.parkOrWait (dieOf quad) (fetchParked quad xctx line k)
  | .denied pa =>
    let waiters := s.fetchWaiters quad xctx line
    waiters.foldl (fun s th => s.defer th { cause := cACCESS, tval := (s.ctx th).pc })
      ((s.dropStale quad xctx line).security (dieOf quad) (BitVec.ofNat 64 pa) (waiters.findSome? s.lidOf))

end Sys2Proof.Machine
end

