-- ==== Sys2Proof/Machine/Home.lean ====
section
/-! DEFINITION. What the homes of addresses do with the accesses that reach them, and what comes back to the
thread: loads, stores, atomics, presence requests, sync words and their waiters, join counters, barriers,
channels (08 R243-R255, R266-R285, 09 R302-R321). Hub registers are read and written in the hub's own file. -/

namespace Sys2Proof.Machine

/-! ### The checks at a home (08 R246, 20 R479) -/

/-- What a request does to its word. -/
def opAcc : ReqOp → Acc
  | .load _ => .load
  | .store => .store
  | .amo _ => .atomic
  | .ldfe | .ldpw => .presence false
  | .stef => .presence true
  | .swait _ => .load
  | _ => .store

/-- A request crosses a border that the configuration now forbids. -/
def State.mayNotPass (s : State) (r : Req) : Bool :=
  match decodeAddr r.addr with
  | .global _ => (r.lid.bind s.launch).isSome && !s.portAllowed (quadOf (coreOf r.th)) (r.pa.getD 0)
  | _ => s.partFault (whoReq r) r.addr (opAcc r.op)

/-- MESSAGE DROP: counted, and a security event (20 R479). -/
def State.dropMessage (s : State) (r : Req) : State := s.dropAt (dieOfTh r.th) r.addr r.lid

/-- A locked range of the quad of a home that is not the requester's own (08 R246, R275). -/
def State.homeLocked (s : State) (r : Req) : Bool :=
  match decodeAddr r.addr with
  | .win core _ _ =>
    quadOf core ≠ quadOf (coreOf r.th) && s.lockHit (quadOf core) r.xctx r.addr r.size (opAcc r.op).writes
  | _ => false

/-- The register of a destination, for `ctl.tstate`. -/
def destReg : Dest → Nat × Bool
  | .none => (0, false)
  | .s r => (r, false)
  | .v r => (r, true)

/-- A request fails a check made after its issue: it is not performed, releases the counter it holds, and a
deferred trap waits for its thread (08 R246). -/
def State.failReq (s : State) (r : Req) (cause : Nat) : State :=
  if s.lidOf r.th ≠ r.lid then s
  else
    let s1 := match r.cls with
      | some k => s.uncount r.th k
      | none => s
    (s1.modCtx r.th fun c => { c with
      prods := c.prods.filter fun p => p.seq ≠ r.seq
      held := c.held.filter fun h => h.req.seq ≠ r.seq }).defer r.th
      { cause := cause, tval := r.addr, seq := r.seq, reg := (destReg r.dst).1, vreg := (destReg r.dst).2
        field := if r.dst = .none then 0 else 1 }

/-- A request at its home: dropped, failed, or performed. -/
def State.atHome (s : State) (r : Req) (f : State → State) : State :=
  if s.mayNotPass r then s.dropMessage r
  else if s.homeLocked r then s.failReq r cRANGELOCK
  else f s

/-- A counted operation has been performed, and its acknowledgement travels back (08 R252). -/
def State.ack (s : State) (r : Req) : State := match r.cls with
  | some k => s.send none (.storeAck r.th ⟨k, some (endedOf r)⟩)
  | none => s

/-! ### The store buffer (08 R248) -/

/-- `STORE_BUFFER_WRITE` (08 R248). -/
def execStoreBufferWrite (core : Nat) (s : State) : Host.Outcome State Fault Refusal :=
  .next (s.storeBufferWrite core)

/-! ### Presence (08 R266-R272) -/

/-- A request is one that a presence bit answers. -/
def isPresence : ReqOp → Bool
  | .ldfe | .stef | .ldpw => true
  | _ => false

/-- The bit lets the request be performed. -/
def presReady (full : Bool) : ReqOp → Bool
  | .ldfe | .ldpw => full
  | .stef => !full
  | _ => false

/-- A held request of a thread is changed. -/
def State.modHeld (s : State) (th seq : Nat) (f : Held → Held) : State :=
  s.modCtx th fun c => { c with held := c.held.map fun h => if h.req.seq = seq then f h else h }

/-- A request that holds its thread has been performed at its home, and its answer travels back. -/
def State.answerHeld (s : State) (r : Req) (x : Word) : State :=
  (s.modHeld r.th r.seq fun h => { h with done := s.hub.cycle }).send none (.presenceAnswer r.th r.seq x)

/-- The word of a presence request in its core's scratchpad. -/
def wordOf (r : Req) : Nat := r.addr.toNat % 2 ^ 20 / 4

/-- A presence request is performed, and its answer travels back. -/
def State.presPerform (s : State) (core : Nat) (r : Req) : State :=
  let p := Place.scratch core (4 * wordOf r)
  let x := BitVec.ofNat 64 (s.rd p 4)
  match r.op with
  | .ldfe => (s.setFull core (wordOf r) false).answerHeld r x
  | .stef => ((s.wr p 4 r.data.toNat).setFull core (wordOf r) true).answerHeld r 0
  | _ => s.answerHeld r x

/-- The wait list of a scratchpad is served, the first request that can be performed each time (08 R268). -/
def State.servePresence (s : State) (core : Nat) : Nat → State
  | 0 => s
  | n + 1 => match (s.core core).waits.find? fun r => presReady (s.full core (wordOf r)) r.op with
    | none => s
    | some r => ((s.modCore core fun k => { k with waits := k.waits.erase r }).presPerform core r).servePresence core n

def State.servePres (s : State) (core : Nat) : State := s.servePresence core (s.core core).waits.length

/-- `PRESENCE_REQUEST`: performed, listed, or refused (08 R266-R268). -/
def State.presenceRequest (s : State) (r : Req) : State :=
  s.atHome r fun s =>
    let core := r.addr.toNat / 2 ^ 23 % 8192
    if presReady (s.full core (wordOf r)) r.op then (s.presPerform core r).servePres core
    else if ((s.core core).waits.filter fun q => isPresence q.op).length < 32 then
      s.modCore core fun k => { k with waits := k.waits ++ [r] }
    else s.modHeld r.th r.seq fun h => { h with refused := true }

/-- `PRESENCE_REQUEST` (08 R268). -/
def execPresenceRequest (r : Req) (s : State) : Host.Outcome State Fault Refusal := .next (s.presenceRequest r)

/-- A PWAIT event (22 R528): 0 answered, 1 timed out, 2 withdrawn for a save. -/
def State.postPwait (s : State) (th : Nat) (h : Held) (how : Nat) : State :=
  let waited := (s.core (coreOf th)).cycle - h.start
  if how = 0 && waited < 256 then s
  else s.post (dieOfTh th) 0x05 (s.lidOf th) (coreOf th) (ctxOf th) (sat32 waited) (h.req.addr.extractLsb' 0 32)
    (BitVec.ofNat 32 how)

/-- `PRESENCE_ANSWER`: the thread's bundle may issue at its next slot (08 R267, 09 R313). -/
def State.presenceAnswer (s : State) (th seq : Nat) (x : Word) : State :=
  match (s.ctx th).held.find? fun h => h.req.seq = seq && h.answer.isNone && !h.dropped with
  | none => s
  | some h =>
    ((s.postPwait th h 0).overrun (s.lidOf th) th 8 (s.hub.cycle - h.done) (s.loadBound th h.req.addr)).modHeld th seq fun h =>
      { h with answer := some x, refused := false }

/-- `PRESENCE_ANSWER` (08 R267). -/
def execPresenceAnswer (th seq : Nat) (x : Word) (s : State) : Host.Outcome State Fault Refusal :=
  .next (s.presenceAnswer th seq x)

/-- A request is one that the message in flight carries. -/
def carries (th seq : Nat) : Instr → Bool
  | .presenceRequest q | .swaitRequest q => q.th = th && q.seq = seq
  | _ => false

/-- A request that has not been performed is taken back from its home, from the route, or from its own core;
nothing when it has been performed. -/
def State.takeBack (s : State) (r : Req) : Option State :=
  let mine := fun q : Req => q.th = r.th && q.seq = r.seq
  match decodeAddr r.addr with
  | .win core _ _ =>
    if (s.core core).waits.any mine then
      some (s.modCore core fun k => { k with waits := k.waits.filter fun q => !mine q })
    else if s.net.any fun f => carries r.th r.seq f.ev then
      some { s with net := s.net.filter fun f => !carries r.th r.seq f.ev }
    else if (s.ctx r.th).held.any fun h => h.req.seq = r.seq && h.refused then some s else none
  | .sync d _ =>
    if (s.die d).waiters.any mine then
      some (s.modDie d fun k => { k with waiters := k.waiters.filter fun q => !mine q })
    else if s.net.any fun f => carries r.th r.seq f.ev then
      some { s with net := s.net.filter fun f => !carries r.th r.seq f.ev }
    else if (s.ctx r.th).held.any fun h => h.req.seq = r.seq && h.refused then some s else none
  | _ => none

/-- `WITHDRAWAL` at the home: a request not yet performed is dropped, and FE_TIMEOUT waits for the thread
(08 R269). -/
def State.withdraw (s : State) (r : Req) : State :=
  match s.takeBack r with
  | none => s
  | some s1 => match (s.ctx r.th).held.find? fun h => h.req.seq = r.seq with
    | none => s1
    | some h => (s1.postPwait r.th h 1).modHeld r.th r.seq fun h => { h with dropped := true, refused := false }

/-- `WITHDRAWAL` (08 R269). -/
def execWithdrawal (r : Req) (s : State) : Host.Outcome State Fault Refusal := .next (s.withdraw r)

/-- A request of a thread has waited longer than `ctl.fewait` (08 R269). -/
def Ctx.overdue (c : Ctx) (now : Nat) (h : Held) : Bool :=
  c.fewait ≠ 0 && h.answer.isNone && !h.withdrawn && !h.dropped && c.fewait.toNat < now - h.start

/-- `FEWAIT_EXPIRY`: a withdrawal leaves for the home (08 R269, 09 R314). -/
def State.fewaitExpiry (s : State) (th : Nat) : State :=
  match (s.ctx th).held.find? ((s.ctx th).overdue (s.core (coreOf th)).cycle) with
  | none => s
  | some h =>
    (s.modHeld th h.req.seq fun h => { h with withdrawn := true }).send (routeOf h.req) (.withdrawal h.req)

/-- `FEWAIT_EXPIRY` (08 R269). -/
def execFewaitExpiry (th : Nat) (s : State) : Host.Outcome State Fault Refusal := .next (s.fewaitExpiry th)

/-- `PRESENCE_RESEND`: the refused requests of a thread are sent again (08 R268, 09 R314). -/
def State.presenceResend (s : State) (th : Nat) : State :=
  ((s.ctx th).held.filter (·.refused)).foldl (fun s h =>
    (s.modHeld th h.req.seq fun h => { h with refused := false }).sendWait h.req) s

/-- `PRESENCE_RESEND` (08 R268). -/
def execPresenceResend (th : Nat) (s : State) : Host.Outcome State Fault Refusal := .next (s.presenceResend th)

/-! ### Sync words and their waiters (09 R307-R314) -/

/-- The 8-byte sync word that holds an address. -/
def syncWordAddr (a : Word) : Word := a &&& ~~~7#64

/-- Bytes of sync space. -/
def State.syncRead (s : State) (a : Word) (n : Nat) : Nat := match s.placeOf a none with
  | some p => s.rd p n
  | none => 0

/-- The relation of a `swait` holds. -/
def relation (cond x y : Nat) : Bool :=
  if cond = 0 then x = y else if cond = 1 then x ≠ y else if cond = 2 then y ≤ x else x < y

/-- The waiter is answered by the value of its word. -/
def swaitHolds (x : Nat) (r : Req) : Bool := match r.op with
  | .swait c => relation c x (r.data.toNat % 2 ^ 64)
  | _ => false

/-- The waiters of a sync word are tested in arrival order after an update (09 R312-R313). -/
def State.serveSync (s : State) (d : Nat) (a : Word) : State :=
  let w := syncWordAddr a
  let x := s.syncRead w 8
  let hit := fun r : Req => r.addr = w && swaitHolds x r
  ((s.die d).waiters.filter hit).foldl (fun s r => s.answerHeld r (BitVec.ofNat 64 x))
    (s.modDie d fun k => { k with waiters := k.waiters.filter fun r => !hit r })

/-- Bytes of a sync word are written, and its waiters served. -/
def State.syncWrite (s : State) (a : Word) (n x : Nat) : State :=
  match decodeAddr a, s.placeOf a none with
  | .sync d _, some p => (s.wr p n x).serveSync d a
  | _, _ => s

/-- `SWAIT_REQUEST`: tested at once; else it joins the 4,096 waiters of its engine, or is refused (09 R313-R314). -/
def State.swaitRequest (s : State) (r : Req) : State :=
  s.atHome r fun s =>
    let x := s.syncRead r.addr 8
    match decodeAddr r.addr with
    | .sync d _ =>
      if swaitHolds x r then s.answerHeld r (BitVec.ofNat 64 x)
      else if (s.die d).waiters.length < 4096 then s.modDie d fun k => { k with waiters := k.waiters ++ [r] }
      else s.modHeld r.th r.seq fun h => { h with refused := true }
    | _ => s

/-- `SWAIT_REQUEST` (09 R313). -/
def execSwaitRequest (r : Req) (s : State) : Host.Outcome State Fault Refusal := .next (s.swaitRequest r)

/-- THE ACTION OF A JOIN COUNTER (09 R311), for the thread whose operation completed it. -/
def State.joinAction (s : State) (d : Nat) (w : Who) (a : Word) : State :=
  let word := fun k : Nat => BitVec.ofNat 64 (s.syncRead (a + BitVec.ofNat 64 (8 * k)) 8)
  let x := (word 0).toNat
  let bad := (s.logErr d errJoinAction a w.lid 0).failOf w.lid kJOIN_ACTION (s.ctx w.th).lq.toNat 0
  let action := x / 2 ^ 32 % 4
  let level := x / 2 ^ 34 % 4
  if action = 3 || x / 2 ^ 37 ≠ 0 || w.level < level then bad
  else if action = 1 then
    match s.wakeTarget w.lid w.level (word 1) with
    | none => bad
    | some core => s.send (some (endSync d, core)) (.wakeMessage {
        core := core, entry := word 2, args := [word 3, word 4, word 5, word 6], level := level
        h := x / 2 ^ 36 % 2 = 1, lid := w.lid, sender := .join d, since := s.hub.cycle })
  else if action = 2 then
    match w.lid, s.recordFault w.lid ⟨word 1, word 2⟩ with
    | some lid, none => s.insertRecord (endSync d) d w.th w lid ⟨word 1, word 2⟩ none
    | _, _ => bad
  else s

/-- `join.init` at its home: a count of 0 is complete at once (09 R309). -/
def State.joinInit (s : State) (d : Nat) (r : Req) : State :=
  let x := r.data.toNat % 2 ^ 37
  let s1 := s.syncWrite r.addr 8 x
  if x % 2 ^ 32 = 0 then s1.joinAction d (whoReq r) r.addr else s1

/-- `join.arrive` at its home (09 R310). -/
def State.joinArrive (s : State) (d : Nat) (r : Req) : State :=
  let n := r.data.toNat % 2 ^ 32
  let x := s.syncRead r.addr 8
  let c := x % 2 ^ 32
  let under := fun s : State => s.logErr d errJoinUnderflow r.addr r.lid 0
  if n = 0 then s
  else if c = 0 then under s
  else if n < c then s.syncWrite r.addr 8 (x - n)
  else
    let s1 := (s.syncWrite r.addr 8 (x - c)).joinAction d (whoReq r) r.addr
    if c < n then under s1 else s1

/-- A posted sync operation at its home (09 R307-R312). -/
def State.syncUpdate (s : State) (r : Req) : State :=
  s.atHome r fun s =>
    match decodeAddr r.addr with
    | .sync d _ =>
      (match r.op with
        | .joinInit => s.joinInit d r
        | .joinArrive => s.joinArrive d r
        | .ssigAdd => s.syncWrite r.addr 8 ((s.syncRead r.addr 8 + r.data.toNat) % 2 ^ 64)
        | _ => s.syncWrite r.addr 8 r.data.toNat).ack r
    | _ => s

/-- `SYNC_WORD_UPDATE` (09 R312). -/
def execSyncWordUpdate (r : Req) (s : State) : Host.Outcome State Fault Refusal := .next (s.syncUpdate r)

/-- `JOIN_ARRIVAL` (09 R310). -/
def execJoinArrival (r : Req) (s : State) : Host.Outcome State Fault Refusal := .next (s.syncUpdate r)

/-! ### Bytes at a home, by region (08 R243-R245) -/

/-- The presence bits of 8n words from bit `k` upward, as a number. -/
def State.bitsAt (s : State) (core k n : Nat) : Nat :=
  (List.range n).foldl (fun x j => if s.full core (k + j) then x + 2 ^ j else x) 0

/-- `n` bytes read at the home of an address: memory, presence bits, registers, control registers, or a
fretboard entry. -/
def State.readAt (s : State) (a : Word) (pa : Option Nat) (n : Nat) : Nat :=
  match decodeAddr a with
  | .win core r off =>
    if r = 1 then s.bitsAt core (8 * off) (8 * n)
    else if r = 2 then
      let c := s.ctx (core * 16 + off / 2048)
      if off % 2048 < 256 then (c.sreg (off % 2048 / 8)).toNat else (c.vreg ((off % 2048 - 1024) / 16)).toNat
    else if r = 3 then (s.ctlRead (core * 16 + off / 0x8000) (off % 0x8000 / 8)).toNat
    else if r = 6 then
      match (s.quad (quadOf core)).fret.recs.find? fun x => x.entry = some (off / 16) with
      | some x => x.record.tag.toNat + x.record.loc.toNat * 2 ^ 64
      | none => 0
    else match s.placeOf a pa with
      | some p => s.rd p n
      | none => 0
  | _ => match s.placeOf a pa with
    | some p => s.rd p n
    | none => 0

/-- `n` bytes written at the home of an address. -/
def State.writeAt (s : State) (a : Word) (pa : Option Nat) (n x : Nat) : State :=
  match decodeAddr a with
  | .win core r off =>
    if r = 1 then
      ((List.range (8 * n)).foldl (fun s j => s.setFull core (8 * off + j) (x / 2 ^ j % 2 = 1)) s).servePres core
    else if r = 2 then
      s.modCtx (core * 16 + off / 2048) fun c =>
        if off % 2048 < 256 then c.setS (off % 2048 / 8) (BitVec.ofNat 64 x)
        else c.setV ((off % 2048 - 1024) / 16) (BitVec.ofNat 128 x)
    else if r = 3 then s.ctlWrite (core * 16 + off / 0x8000) (off % 0x8000 / 8) (BitVec.ofNat 64 x)
    else match s.placeOf a pa with
      | some p => s.wr p n x
      | none => s
  | .sync _ _ => s.syncWrite a n x
  | _ => match s.placeOf a pa with
    | some p => s.wrHome p n x
    | none => s

/-- A write of region 2 waits: its register is empty from a producer of its context (08 R244). A long-latency result on
its way to a bound window leaves the register behind the window as it is. -/
def State.regPending (s : State) (a : Word) : Bool :=
  match decodeAddr a with
  | .win core 2 off =>
    let c := s.ctx (core * 16 + off / 2048)
    let d : Dest := if off % 2048 < 256 then .s (off % 2048 / 8) else .v ((off % 2048 - 1024) / 16)
    (c.prods.any fun p => p.dst = d) &&
      (match d with
        | .s r => c.sEmpty.getLsbD r
        | .v r => c.vEmpty.getLsbD r
        | .none => false)
  | _ => false

/-- The writes of registers that a core holds, once their registers have filled. -/
def State.serveRegWrites (s : State) (core : Nat) : State :=
  let due := fun r : Req => r.op = .store && !s.regPending r.addr
  ((s.core core).waits.filter due).foldl (fun s r => (s.writeAt r.addr r.pa r.size r.data.toNat).ack r)
    (s.modCore core fun k => { k with waits := k.waits.filter fun r => !due r })

/-! ### Loads, stores and atomics (08 R250, 09 R302-R306) -/

/-- A MEMLAT event for one global access in 2^s of a quad, with the cycles from its issue to its answer (22 R528). -/
def State.memlat (s : State) (th : Nat) (a : Ended) : State :=
  match decodeAddr a.addr with
  | .global _ =>
    let q := quadOf (coreOf th)
    let n := (s.quad q).memlat
    let s1 := s.modQuad q fun k => { k with memlat := k.memlat + 1 }
    if n % 2 ^ (s.die (dieOf q)).tel.tcfg = 0 then
      s1.post (dieOf q) 0x07 a.lid (coreOf th) (ctxOf th)
        (BitVec.ofNat 32 (min (2 ^ 24 - 1) ((s.core (coreOf th)).cycle - a.start)))
        (BitVec.ofNat 32 (memPort a.pa)) (BitVec.ofNat 32 a.kind)
    else s1
  | _ => s

/-- The answer to an access, or a special function's result, has come back to its thread. -/
def State.accessEnds (s : State) (th : Nat) (a : Option Ended) : State := match a with
  | some a =>
    let b := accessBound th a
    (if a.kind = 3 then s else s.memlat th a).overrun a.lid th b.1 ((s.core (coreOf th)).cycle - a.start) b.2
  | none => s

/-- An atomic at its home, one indivisible step (09 R304). -/
def State.amoAt (s : State) (r : Req) (op : Nat) : State :=
  let y := amoResult r op (s.readAt r.addr r.pa r.size)
  (y.1.elim s (s.writeAt r.addr r.pa r.size)).answerLoad r y.2.1 y.2.2

/-- An access that has reached its home, hub registers aside (08 R250). -/
def State.accessHome (s : State) (r : Req) : State :=
  s.atHome r fun s =>
    match r.op with
    | .load sx => s.answerLoad r (extend r.size sx (s.readAt r.addr r.pa r.size)) []
    | .store =>
      if s.regPending r.addr then
        s.modCore (r.addr.toNat / 2 ^ 23 % 8192) fun k => { k with waits := k.waits ++ [r] }
      else (s.writeAt r.addr r.pa r.size r.data.toNat).ack r
    | .amo op => s.amoAt r op
    | _ => s

/-- `STORE_ACK` (08 R253). -/
def execStoreAck (th : Nat) (k : Acked) (s : State) : Host.Outcome State Fault Refusal :=
  .next ((s.accessEnds th k.ends).uncount th k.cls)

/-! ### Results (03 R97) -/

/-- A producer of a thread is finished with. -/
def State.endProd (s : State) (th seq : Nat) : State :=
  s.modCtx th fun c => { c with prods := c.prods.filter fun p => p.seq ≠ seq }

/-- The result of a producer is written: its register becomes full; a bound window takes one entry, once it has
room (03 R97, R101). -/
def State.fillDest (s : State) (l : Load) (x : VWord) : State :=
  let done := s.endProd l.th l.seq
  match l.dst with
  | .none => done
  | .v n => (done.modCtx l.th fun c => c.setV n x).serveRegWrites (coreOf l.th)
  | .s n =>
    if (s.ctx l.th).sEmpty.getLsbD n then
      (done.modCtx l.th fun c => c.setS n (x.setWidth 64)).serveRegWrites (coreOf l.th)
    else match (s.ctx l.th).winOf n with
      | some w =>
        if w.reads then done
        else if s.winFull l.th w (x.setWidth 64) then s.send none (.loadResult l)
        else done.pushWin l.th (n - 28) w ((x.setWidth 64).setWidth 128)
      | none => done

/-- LOAD_RESULT: the lanes of a gather are put together; the last result fills the destination, and its
conditions count at the thread's core (03 R97, 08 R260, 09 R305). -/
def State.loadResult (s : State) (l : Load) : State :=
  match (s.ctx l.th).prods.find? fun p => p.seq = l.seq with
  | none => s
  | some p =>
    let acc := match l.lane with
      | some k => p.acc ||| (l.value <<< (8 * l.size * k))
      | none => l.value
    let s := (s.accessEnds l.th l.ends).addConds (coreOf l.th) l.conds
    if 1 < p.left then
      s.modCtx l.th fun c => { c with
        prods := c.prods.map fun q => if q.seq = l.seq then { q with left := q.left - 1, acc := acc } else q }
    else s.fillDest { l with lane := none, value := acc, conds := [], ends := none } acc

/-- `LOAD_RESULT` (03 R97). -/
def execLoadResult (l : Load) (s : State) : Host.Outcome State Fault Refusal := .next (s.loadResult l)

/-! ### Channels (03 R103, 08 R281-R283) -/

def State.modChan (s : State) (core buf : Nat) (f : Chan → Chan) : State :=
  s.modCore core fun k => { k with chans := put {} k.chans buf (f (get {} k.chans buf)) }

/-- `CHANNEL_ENTRY`: it joins an enabled buffer that has room (03 R103). DESIGN CHOICE (log 141): an entry on its way when `qcfgw`
writes the buffer's word finds the buffer as it is then: it joins one that is enabled and has room, whoever that buffer's writer is
now, and is dropped at any other. -/
def State.channelEntry (s : State) (core buf : Nat) (x : VWord) : State :=
  s.modChan core buf fun c =>
    if c.conf.getLsbD 63 && c.entries.length < 16 then { c with entries := c.entries ++ [x] } else c

/-- The launch of the writer that a buffer is configured for (08 R280). -/
def State.writerLid (s : State) (core buf : Nat) : Option Nat :=
  let conf := (get {} (s.core core).chans buf).conf.toNat
  s.lidOf (conf / 2 ^ 23 % 8192 * 16 + conf % 16)

/-- `CHANNEL_ENTRY` (03 R103). -/
def execChannelEntry (core buf : Nat) (x : VWord) (s : State) : Host.Outcome State Fault Refusal :=
  .next (s.unlessStray (s.writerLid core buf) (quadOf core) fun s => s.channelEntry core buf x)

/-- The window of a thread that is bound to a buffer as its writer. -/
def Ctx.outWindow (c : Ctx) (core buf : Nat) : Option (Nat × Window) :=
  (List.range 4).findSome? fun k => match c.window k with
    | some w => if w.kind = 1 && w.target = core && w.buf = buf then some (k, w) else none
    | none => none

/-- `CREDIT_RETURN`: the writer may push one entry more (03 R103). -/
def State.creditReturn (s : State) (th core buf : Nat) : State :=
  match (s.ctx th).outWindow core buf with
  | some (k, w) => s.modCtx th fun c => { c with win := put none c.win k (some { w with credits := min 16 (w.credits + 1) }) }
  | none => s

/-- `CREDIT_RETURN` (03 R103). -/
def execCreditReturn (th core buf : Nat) (s : State) : Host.Outcome State Fault Refusal :=
  .next (s.creditReturn th core buf)

/-- A credit of a buffer on its way to a thread; the count of free entries that answers a bind holds it. -/
def isCredit (th core buf : Nat) : Instr → Bool
  | .creditReturn t c b => t = th && c = core && b = buf
  | _ => false

/-- `BIND_ANSWER`: the target answers one bind with its free entries, or the window is left unbound with a deferred
ACCESS (08 R283). A window that has been unbound or bound anew since is none of the answer's; the ACCESS of a bind that
fails is taken all the same. -/
def State.bindAnswer (s : State) (th win seq : Nat) (word : Word) : State :=
  let w : Window := { word := word }
  let ch := get {} (s.core w.target).chans w.buf
  let s1 := s.modCtx th fun c => { c with binds := c.binds.filter (· ≠ seq) }
  let mine := ((s.ctx th).window win).any fun x => x.bind = seq && !x.answered
  if !(s.ctx th).binds.contains seq then s
  else if ch.conf.getLsbD 63 && ch.conf.toNat / 2 ^ 23 % 8192 = coreOf th && ch.conf.toNat % 16 = ctxOf th then
    if mine then
      ({ s1 with net := s1.net.filter fun f => !isCredit th w.target w.buf f.ev }).modCtx th fun c => { c with
        win := put none c.win win (some { w with credits := 16 - ch.entries.length, bind := seq }) }
    else s1
  else
    (if mine then s1.modCtx th fun c => { c with win := put none c.win win none } else s1).defer th
      { cause := cACCESS, tval := word, seq := seq }

/-- `BIND_ANSWER` (08 R283). -/
def execBindAnswer (th win seq : Nat) (word : Word) (s : State) : Host.Outcome State Fault Refusal :=
  .next (s.bindAnswer th win seq word)

/-! ### Barriers (09 R316-R321, 04 R149) -/

/-- The member cores of a barrier place (09 R317). -/
def State.barrierCores (s : State) (l : Launch) (level inst : Nat) : List Nat :=
  let all := (s.partQuads l.part).flatMap (s.partCores l.part)
  all.filter fun c =>
    if level = 0 then c = inst else if level = 1 then quadOf c = inst / 32768 else if level = 2 then c / 1024 = inst else true

def State.modBarrier (s : State) (lid level id inst : Nat) (f : Barrier → Barrier) : State :=
  s.modDie (barrierDie level inst) fun d =>
    let k := barrierKey lid level id inst
    { d with barriers := put {} d.barriers k (f (get {} d.barriers k)) }

/-- Every member core of this package has made its arrivals to a phase. -/
def State.phaseHere (s : State) (l : Launch) (b : Barrier) (level inst per phase : Nat) : Bool :=
  (s.barrierCores l level inst).all fun c => per ≤ b.ofCore phase c

/-- The combining record of a phase: the saturating sums of the sampled counters, and the number of cores (04 R149), over
the cores of this package, and over what other packages of a pod combine: their number of cores, and their six sums. -/
def combineRecord (l : List (Nat × Nat × List Nat)) (cores : Nat) (pod : List Nat) : List Nat :=
  ((List.range 6).map fun k => min (2 ^ 32 - 1) ((l.map fun x => x.2.2.getD k 0).foldl (· + ·) (pod.getD k 0))) ++
    [l.length + cores, 0]

/-- What the messages of the other packages leave out (19 R469): the sums of their cores' counters, and whether their
arrivals to the phase named the same record. Free values (log 117), told apart by the phase. -/
def podNumber (lid id phase k : Nat) : Nat := 2 ^ 96 + ((lid * 64 + id) * 2 ^ 32 + phase) * 8 + k
def podSums (lid id phase : Nat) : List Nat :=
  (List.range 6).map fun k => (Config.freeWord (podNumber lid id phase k)).toNat % 2 ^ 32
def podAgrees (lid id phase : Nat) : Bool := (Config.freeWord (podNumber lid id phase 6)).getLsbD 0

/-- The record is written at its sync address, its waiters served, EXCNT posted (04 R149, 09 R320, 22 R528). -/
def State.writeCombined (s : State) (a : Word) (lid : Nat) (x : List Nat) : State :=
  let s1 := (List.range 4).foldl (fun s k =>
    s.syncWrite (a + BitVec.ofNat 64 (8 * k)) 8 (x.getD (2 * k) 0 + x.getD (2 * k + 1) 0 * 2 ^ 32)) s
  match decodeAddr a with
  | .sync d _ => s1.post d 0x0E (some lid) (d * 1024) 0 (BitVec.ofNat 32 (x.getD 0 0)) (BitVec.ofNat 32 (x.getD 1 0))
      (BitVec.ofNat 32 (x.getD 5 0))
  | _ => s1

/-- The cores of other packages whose arrivals to a phase have been announced: their arrivals, per by per. -/
def Barrier.coresAway (b : Barrier) (per : Nat) : Nat :=
  ((b.remote.filter fun a => a.1 = b.phases).map fun a => a.2.2 / per).foldl (· + ·) 0

/-- The members of a phase agree on its record, those of other packages among them. -/
def Barrier.agrees (b : Barrier) (lid id : Nat) : Bool :=
  (b.remote.filter fun a => a.1 = b.phases).isEmpty || podAgrees lid id b.phases

/-- A PHASE COMPLETES (09 R318, R320-R321): the record is written when every arrival named it; P rises by one,
and the leads of the contexts that arrived fall by one, of one whose surplus arrival is still on its way too. -/
def State.phaseComplete (s : State) (lid level id inst : Nat) : State :=
  let b := s.barrierNode lid level id inst
  let mine := b.arrivals.filter fun a => a.phase = b.phases
  let late := (mine.head?).elim [] s.arriving
  let away := b.coresAway ((s.barrierPer (some lid) level id).getD 1)
  let mismatch := s.logErr (barrierDie level inst) errBarrierMismatch (BitVec.ofNat 64 id) (some lid) 0
  let s1 := match (mine.map (·.comb)).eraseDups with
    | [some a] =>
      if b.agrees lid id then s.writeCombined a lid (combineRecord (b.samples.filter fun x => x.1 = b.phases) away
        (if away = 0 then [] else podSums lid id b.phases))
      else mismatch
    | [none] => if b.agrees lid id then s else mismatch
    | [] => s
    | _ => mismatch
  let s2 := s1.modBarrier lid level id inst fun b => { b with
    phases := b.phases + 1
    arrivals := b.arrivals.filter fun a => a.phase ≠ b.phases
    remote := b.remote.filter fun a => a.1 ≠ b.phases
    samples := b.samples.filter fun a => a.1 ≠ b.phases }
  (((mine ++ late).map (·.th)).eraseDups).foldl (fun s th => s.modCtx th fun c => { c with
    leads := put 0 c.leads (leadKey level id) (c.lead level id - 1) }) s2

/-- The phases of a place that are complete now (09 R318); a pod's needs the arrivals of every package of
group 0 (09 R317, 19 R458). -/
def State.completePhases (s : State) (lid level id inst : Nat) : Nat → State
  | 0 => s
  | n + 1 => match s.launch lid with
    | none => s
    | some l =>
      let b := s.barrierNode lid level id inst
      let others := if level = 4 then s.otherPackages (l.groups.getD 0 []) else []
      match s.barrierPer (some lid) level id with
      | none => s
      | some per =>
        if s.phaseHere l b level inst per b.phases &&
            others.all (fun p => b.remote.any fun x => x.1 = b.phases && x.2.1 = p) then
          (s.phaseComplete lid level id inst).completePhases lid level id inst n
        else s

/-- A package's arrivals to a phase of a pod barrier are announced to the other packages of group 0 (19 R469). -/
def State.announcePhase (s : State) (lid : Option Nat) (l : Launch) (id phase count : Nat) : State :=
  (s.otherPackages (l.groups.getD 0 [])).foldl (fun s p =>
    s.routeMessage 0 lid (mkMessage p s.hub.pkgnum 3 0 0 id 0 phase (leBytes 8 count))) s

/-- BARRIER_ARRIVAL (09 R318, 04 R149): counted to its phase, with the counters that the last arrival of a core has sampled;
an arrival to a phase that has completed without it changes nothing more. -/
def State.barrierArrival (s : State) (m : BarrierMsg) : State :=
  match m.lid, m.lid.bind s.launch, s.barrierPer m.lid m.level m.id with
  | some lid, some l, some per =>
    if m.phase < (s.barrierNode lid m.level m.id m.inst).phases then s
    else
    let s1 := s.modBarrier lid m.level m.id m.inst fun b => { b with arrivals := b.arrivals ++ [m] }
    let b := s1.barrierNode lid m.level m.id m.inst
    let core := coreOf m.th
    let last := b.ofCore m.phase core = per
    let s2 := match m.counts with
      | some x => s1.modBarrier lid m.level m.id m.inst fun b => { b with samples := b.samples ++ [(m.phase, core, x)] }
      | none => s1
    let s3 := if m.level = 4 && last && s2.phaseHere l b 4 m.inst per m.phase then
        s2.announcePhase m.lid l m.id m.phase (per * (s.barrierCores l 4 m.inst).length)
      else s2
    s3.completePhases lid m.level m.id m.inst 4
  | _, _, _ => s

/-- An arrival would enter a die that its launch's partition does not hold; places of a package and of the pod are the hub's. -/
def State.arrivalStrays (s : State) (m : BarrierMsg) : Bool :=
  m.level ≤ 2 && (m.lid.bind s.launch).any fun l => !s.dieInPart l.part (barrierDie m.level m.inst)

/-- `BARRIER_ARRIVAL` (09 R318, 20 R479). -/
def execBarrierArrival (m : BarrierMsg) (s : State) : Host.Outcome State Fault Refusal :=
  .next (if s.arrivalStrays m then s.dropAt (barrierDie m.level m.inst) (windowAddr (coreOf m.th) 0 0) m.lid
    else s.barrierArrival m)

end Sys2Proof.Machine
end

