-- ==== Sys2Proof/Machine/Events.lean ====
section
/-! DEFINITION. What happens at a context's slot besides the issue of its bundle: deferred traps, the end of a
sleep, a wait that lasts too long, a new slot table, and the filling of an instruction line (03 R87, R104,
R111-R112, 06 R211, 17 R414). -/

namespace Sys2Proof.Machine

/-- The deferred traps that a context takes at its next slot: all of a running one, PREEMPT and MACHINE of a
sleeping one (03 R111, 06 R212). -/
def Ctx.due (c : Ctx) : List TrapInfo :=
  match c.status with
  | .ready | .blocked => c.deferred
  | .sleeping => c.deferred.filter fun t => t.cause = cPREEMPT || t.cause = cMACHINE
  | _ => []

/-- A DEFERRED TRAP IS TAKEN (03 R111-R112). -/
def State.deferredTrap (s : State) (th : Nat) : State :=
  match firstTrap (s.ctx th).due with
  | none => s
  | some t => (s.modCtx th fun c => { c with deferred := c.deferred.erase t }).takeTrap th t

/-- `DEFERRED_TRAP` (03 R111). -/
def execDeferredTrap (th : Nat) (s : State) : Host.Outcome State Fault Refusal := .next (s.deferredTrap th)

/-- A sleep ends at the first slot at or after its last cycle (06 R211). -/
def State.sleepEnd (s : State) (th : Nat) : State :=
  let c := s.ctx th
  if c.status = .sleeping && c.sleepUntil ≤ (s.core (coreOf th)).cycle then
    s.modCtx th fun c => { c with status := .ready }
  else s

/-- `SLEEP_END` (06 R211). -/
def execSleepEnd (th : Nat) (s : State) : Host.Outcome State Fault Refusal := .next (s.sleepEnd th)

/-- An accepted slot table takes effect at a cycle that is a multiple of 32; the first three entries of that
round issue nothing (03 R87). -/
def State.slotTableSwitch (s : State) (core : Nat) : State :=
  let k := s.core core
  match k.nextSlots with
  | some t =>
    if k.cycle % 32 = 0 then s.modCore core fun k => { k with slots := t, nextSlots := none, quiet := 3 } else s
  | none => s

/-- `SLOT_TABLE_SWITCH` (03 R87). -/
def execSlotTableSwitch (core : Nat) (s : State) : Host.Outcome State Fault Refusal := .next (s.slotTableSwitch core)

/-- The instructions of the bundle at a thread's pc, when its line is in the cache and it decodes. -/
def State.instrsAt (s : State) (th : Nat) : Option (List Instr) :=
  (s.bundleAt th).bind fun b => match decodeBundle (b.1 ++ b.2) with
    | .ok (.long i) => some [i]
    | .ok (.pair i j) => some [i, j]
    | .error _ => none

/-- `QSTALL`: at its slot, a thread that still waits on a window past its limit traps (03 R104). -/
def execQstall (th : Nat) (s : State) : Host.Outcome State Fault Refusal :=
  let s := { s with cur := th }
  .next (match s.instrsAt th with
    | some (i :: l) =>
      if (s.ctx th).winWait.isSome && (i :: l).any s.windowWait then
        match s.verdict (i :: l) with
        | .block k => s.stallOrForfeit (s.waitWindow i) k
        | .trap t => s.takeTrap th t
        | _ => s
      else s
    | _ => s)

/-- The requester word of a thread. -/
def requesterOf (th : Nat) : Nat := coreOf th + ctxOf th * 2 ^ 16

/-- A line is fetched from memory into the cache of a quad; one whose page the quad has not cached waits for its walk (17 R414,
20 R487). -/
def State.fillCache (s : State) (quad xctx line : Nat) : State :=
  if (s.cached quad xctx (lineVa line) false).isSome then s.readLine quad xctx line (s.pinsOf quad xctx line)
  else s.modDie (dieOf quad) fun d => { d with walks := d.walks ++ [.fetch quad xctx line] }

/-- `INSTRUCTION_CACHE_FILL` (17 R414). -/
def execInstructionCacheFill (quad xctx line : Nat) (s : State) : Host.Outcome State Fault Refusal :=
  .next (s.fillCache quad xctx line)

/-- A line is on its way, or waits for its page. -/
def State.fillPending (s : State) (quad xctx line : Nat) : Bool :=
  s.fillInFlight quad xctx line ||
    (s.die (dieOf quad)).walks.any (· = .fetch quad xctx line) ||
    (s.die (dieOf quad)).parked.any fun p => p.item = .fetch quad xctx line

end Sys2Proof.Machine
end

