-- ==== Sys2Proof/Machine/Save.lean ====
section
/-! DEFINITION. The context save record (20 R501), as `ctxsv` and a capture write it and `ctxld` and a restore
read it; the requests that a save takes back (08 R271). -/

namespace Sys2Proof.Machine

/-- A state of a context as its code (20 R501). -/
def statusCode : Status → Nat
  | .free => 0 | .ready => 1 | .blocked => 2 | .sleeping => 3 | .retiring => 4 | .halted => 5

def codeStatus (n : Nat) : Status :=
  if n = 1 then .ready else if n = 2 then .blocked else if n = 3 then .sleeping
  else if n = 4 then .retiring else if n = 5 then .halted else .free

/-- The barrier ids in the order of the record: level and id. -/
def leadOrder : List (Nat × Nat) :=
  (List.range 5).flatMap fun l => (List.range (barrierIds l)).map fun i => (l, i)

def packLeads (c : Ctx) : Nat := leadOrder.foldr (fun p a => c.lead p.1 p.2 % 4 + 4 * a) 0
def unpackLeads (n : Nat) : FMap Nat :=
  ((List.range leadOrder.length).zip leadOrder).foldl
    (fun m p => put 0 m (leadKey p.2.1 p.2.2) (n / 4 ^ p.1 % 4)) []

/-- A request of the device's own, in place of one that is not known. -/
def noReq (th : Nat) : Req :=
  { op := .ldpw, th := th, lid := none, level := 0, xctx := 0, addr := 0, size := 4, data := 0, cmp := 0
    dst := .none, seq := 0, lane := none, cls := none, adaptive := false }

/-! ### Pending accesses (20 R496, R501) -/

/-- The accesses of a thread that wait for a walk or are parked on a page. -/
def State.pendingOf (s : State) (th : Nat) : List Req :=
  s.dies.flatMap fun d => d.2.pending.filterMap fun x => match x with
    | .access r => if r.th = th then some r else none
    | _ => none

/-- The kind of a pending access in a record. DESIGN CHOICE (log 118): the spec gives the field and no codes; 0 and 1 are
loads without and with sign extension, 3 an acquire load, 32 + lane a lane of a gather, 2 a store, 16 + op an atomic, whose data
holds its operand in the low 8 bytes and its comparand above. -/
def pendKind (acquire : Bool) (r : Req) : Nat := match r.op, r.lane with
  | .load _, some k => 32 + k
  | .load false, none => if acquire then 3 else 0
  | .load true, none => 1
  | .amo op, _ => 16 + op
  | _, _ => 2

/-- A later access of the thread waits for the producer of a request (08 R263). -/
def State.acquires (s : State) (r : Req) : Bool := (s.ctx r.th).prods.any fun p => p.seq = r.seq && p.acquire

/-- A pending access as 32 bytes. -/
def packPend (acquire : Bool) (r : Req) : Nat :=
  let data := match r.op with
    | .amo _ => r.data.toNat % 2 ^ 64 + r.cmp.toNat % 2 ^ 64 * 2 ^ 64
    | _ => r.data.toNat
  let dst := match r.dst with
    | .none => 0
    | .s n => n % 64
    | .v n => 64 + n % 64
  r.addr.toNat + data * 2 ^ 64 + (pendKind acquire r + r.size % 256 * 256 + dst * 65536 + (r.cls.getD 0) % 4 * 2 ^ 24) * 2 ^ 192

/-- The first 8 pending accesses of a thread as 256 bytes; a size of 0 is none. -/
def State.packPending (s : State) (th : Nat) : Nat :=
  ((s.pendingOf th).take 8).foldr (fun r a => packPend (s.acquires r) r + 2 ^ 256 * a) 0

/-- A pending access that a record holds, for a thread at the record's level, with the number of its producer, and whether
later accesses wait for it. -/
def State.unpackPend (s : State) (th level seq n : Nat) : Option (Req × Bool) :=
  let f := n / 2 ^ 192
  let kind := f % 256
  let dst := f / 65536 % 128
  let amo := 16 ≤ kind && kind < 32
  if f / 256 % 256 = 0 then none
  else some ({
    op := if kind = 0 || kind = 3 || 32 ≤ kind then .load false else if kind = 1 then .load true
      else if amo then .amo (kind - 16) else .store
    th := th, lid := s.lidOf th, level := level, xctx := s.xctxOf th, addr := BitVec.ofNat 64 n, size := f / 256 % 256
    data := if amo then BitVec.ofNat 128 (n / 2 ^ 64 % 2 ^ 64) else BitVec.ofNat 128 (n / 2 ^ 64)
    cmp := if amo then BitVec.ofNat 64 (n / 2 ^ 128) else 0
    dst := if kind = 2 then .none else if 64 ≤ dst then .v (dst - 64) else .s dst
    seq := seq, lane := if 32 ≤ kind then some (kind - 32) else none
    cls := if kind = 2 then some (f / 2 ^ 24 % 4) else none, adaptive := false }, kind = 3)

/-- The lanes of one gather have one producer: the first that names its destination. -/
def gatherSeq (l : List (Req × Bool)) (r : Req) : Req :=
  if r.lane.isNone then r
  else match l.find? fun x => x.1.lane.isSome && x.1.dst = r.dst with
    | some x => { r with seq := x.1.seq }
    | none => r

/-- The pending accesses of a record at a physical address, numbered from the thread's next producer on. -/
def State.unpackPending (s : State) (th pa : Nat) : List (Req × Bool) :=
  let level := s.rd (.tier (pa + 0x510)) 8 / 16 % 4
  let l := (List.range 8).filterMap fun k => s.unpackPend th level ((s.ctx th).nextSeq + k) (s.rd (.tier (pa + 0x618 + 32 * k)) 32)
  l.map fun x => (gatherSeq l x.1, x.2)

/-- The producers of the pending accesses of a record: the lanes that a gather has received stand in its register (20 R501). -/
def pendProds (c : Ctx) (l : List (Req × Bool)) : List Prod :=
  ((l.filter fun x => x.1.cls.isNone).map fun x =>
    ({ seq := x.1.seq, dst := x.1.dst, left := (l.filter fun y => y.1.seq = x.1.seq).length, acquire := x.2
       acc := match x.1.lane, x.1.dst with
        | some _, .v n => get 0 c.v n
        | _, _ => 0 } : Prod)).eraseDups

/-- The value of a vector register in a record: of one that a gather fills, the lanes that it has received. -/
def Ctx.recordV (c : Ctx) (k : Nat) : VWord :=
  match c.prods.find? fun p => p.dst = .v k && c.vEmpty.getLsbD k with
  | some p => p.acc
  | none => c.vreg k

/-! ### The record (20 R501) -/

/-- The pieces of a record: offset, size in bytes, value. -/
def State.recordPieces (s : State) (th : Nat) : List (Nat × Nat × Nat) :=
  let c := s.ctx th
  let nv := vregCount (s.core (coreOf th)).mode
  let ans := c.held.find? fun h => h.answer.isSome
  let wins := (List.range 4).map c.window
  let count : Nat → Nat := fun k => match (wins.getD k none) with
    | some w => s.winCount th w % 32
    | none => 0
  let flags := statusCode (if c.status = .halted then c.before else c.status) + (if c.hflag then 8 else 0) + c.level % 4 * 16 +
    (if c.byWake then 64 else 0) + (if ans.isSome then 128 else 0)
  let words := [c.epc, c.cause, c.tval, c.tstate, c.hbase, c.hmask, c.fewait, c.qstall, c.stack]
  let seqr := [c.lpBase] ++ (List.range 4).map (get 0 c.lpTrip) ++ (List.range 4).map (get 0 c.lpStride) ++
    (List.range 4).map (get 0 c.lpIdx)
  let list : Nat → List Word → List (Nat × Nat × Nat) := fun o l => ((List.range l.length).zip l).map fun p => (o + 8 * p.1, 8, p.2.toNat)
  (List.range 32).map (fun k => (8 * k, 8, (c.sreg k).toNat)) ++
  (List.range 64).map (fun k => (0x100 + 16 * k, 16, if k < nv then (c.recordV k).toNat else 0)) ++
  [(0x500, 8, (~~~c.sEmpty).toNat), (0x508, 8, (~~~c.vEmpty).toNat), (0x510, 8, flags), (0x518, 8, c.pc.toNat)] ++
  list 0x520 words ++
  [(0x568, 8, (stcntOf c).toNat),
   (0x570, 8, if (if c.status = .halted then c.before else c.status) = .sleeping then c.sleepUntil - (s.core (coreOf th)).cycle else 0)] ++
  list 0x578 (wins.map fun (w : Option Window) => match w with
    | some w => w.word
    | none => 0) ++
  [(0x598, 8, count 0 + 256 * count 1 + 65536 * count 2 + 2 ^ 24 * count 3)] ++
  list 0x5A0 seqr ++
  [(0x608, 8, ((ans.bind fun h => h.answer).getD 0).toNat), (0x610, 8, (ans.elim 0 fun h => h.pc).toNat),
   (0x618, 256, s.packPending th), (0x718, 48, packLeads c), (0x748, 184, 0)]

/-- A context is written to a record at a physical address. -/
def State.writeRecord (s : State) (th pa : Nat) : State :=
  (s.recordPieces th).foldl (fun s' p => s'.wrHome (.tier (pa + p.1)) p.2.1 p.2.2) s

/-- A window that a record holds, over the one that it is bound to: the same bind if the endpoint is the same. -/
def recordWindow (old : Option Window) (word : Word) (credits : Nat) : Option Window :=
  if word = 0 then none
  else match old with
    | some w => if w.word = word then some { w with credits := credits } else some { word := word, credits := credits }
    | none => some { word := word, credits := credits }

/-- A context as a record gives it, over what the record does not hold; it is Halted (06 R216). -/
def State.readRecord (s : State) (th pa : Nat) : Ctx :=
  let old := s.ctx th
  let core := s.core (coreOf th)
  let w := fun o => BitVec.ofNat 64 (s.rd (.tier (pa + o)) 8)
  let nv := vregCount core.mode
  let flags := (w 0x510).toNat
  let counts := (w 0x598).toNat
  let st := (w 0x568).toNat
  let field := fun (o : Nat) => (List.range 4).foldl (fun (m : FMap Word) k => put 0 m k (w (o + 8 * k))) []
  { old with
    status := .halted
    before := codeStatus (flags % 8)
    hflag := flags / 8 % 2 = 1
    level := flags / 16 % 4
    byWake := flags / 64 % 2 = 1
    s := (List.range 31).foldl (fun m k => put 0 m (k + 1) (w (8 * (k + 1)))) []
    v := (List.range nv).foldl (fun m k => put 0 m k (BitVec.ofNat 128 (s.rd (.tier (pa + 0x100 + 16 * k)) 16))) []
    sEmpty := (~~~(w 0x500).setWidth 32) &&& ~~~1#32
    vEmpty := ~~~(w 0x508)
    pc := w 0x518 &&& ~~~7#64
    epc := w 0x520 &&& ~~~7#64
    cause := w 0x528 &&& 0xFF
    tval := w 0x530
    tstate := w 0x538 &&& 0xFFF8
    hbase := w 0x540 &&& ~~~7#64
    hmask := w 0x548 &&& hmaskBits
    fewait := w 0x550 &&& 0xFFFFFF
    qstall := w 0x558 &&& 0xFFFFFF
    stack := w 0x560 &&& ~~~15#64
    c0 := st % 4096, c1 := st / 2 ^ 12 % 4096, c2 := st / 2 ^ 24 % 4096, c3 := st / 2 ^ 36 % 4096
    sleepUntil := core.cycle + (w 0x570).toNat
    win := (List.range 4).foldl (fun m k => put none m k
      (recordWindow (old.window k) (w (0x578 + 8 * k)) (counts / 2 ^ (8 * k) % 32))) []
    lpBase := w 0x5A0
    lpTrip := field 0x5A8
    lpStride := field 0x5C8
    lpIdx := field 0x5E8
    held := if flags / 128 % 2 = 1 then
        [{ pc := w 0x610, req := noReq th, start := core.cycle, answer := some (w 0x608) }] else []
    leads := unpackLeads (s.rd (.tier (pa + 0x718)) 48) }

/-- A record is loaded: the context, and its pending accesses, which are presented again (06 R216, 20 R496). DESIGN CHOICE (log
124): what the context had outstanding before, its producers and deferred traps, is forgotten, so that nothing late lands in the
state that the record gives. -/
def State.loadRecord (s : State) (th pa : Nat) : State :=
  let c := s.readRecord th pa
  let pend := s.unpackPending th pa
  (s.modCtx th fun _ => { c with nextSeq := c.nextSeq + 8, prods := pendProds c pend, deferred := [] }).modDie (dieOfTh th) fun d =>
    { d with walks := d.walks ++ pend.map fun x => .access x.1 }

/-! ### Requests taken back (08 R271) -/

/-- The waiting requests of a context are withdrawn; the bundle sends them again on resume. -/
def State.withdrawHeld (s : State) (th : Nat) : State :=
  ((s.ctx th).held.filter fun h => h.answer.isNone && !h.dropped).foldl (fun s h =>
    match s.takeBack h.req with
    | some t => (t.postPwait th h 2).modCtx th fun c => { c with held := c.held.filter fun x => x.req.seq ≠ h.req.seq }
    | none => s) s

end Sys2Proof.Machine
end

