-- ==== Sys2Proof/Machine/Translate.lean ====
section
/-! DEFINITION. The translation walker of a die, and the answers of the scheduler to the faults it parks
(08 R246, R277-R278, 09 R300, 20 R485-R491). -/

namespace Sys2Proof.Machine

/-! ### What ends badly -/

/-- The thread that made a record runs the launch still: it gets a deferred trap. -/
def State.deferInsert (s : State) (th lid cause : Nat) (a : Word) : State :=
  if s.lidOf th = some lid then
    (s.modCtx th fun c => { c with nextSeq := c.nextSeq + 1 }).defer th
      { cause := cause, tval := a, seq := (s.ctx th).nextSeq }
  else s

/-- The tile of a firing, or of a hole. -/
def reconOfTile (lid number : Nat) (hole : Bool) : ReconAt := { lid := lid, number := number, hole := hole, next := 0, err := 0 }

/-- The reconstruction unit is refused a page: the launch of the firing, or of the hole, that it works on fails. -/
def State.reconRefused (s : State) (c : Cmd) (lid : Nat) : State :=
  let held := (s.quad c.place).recon.held.any fun f => f.lid = lid && f.number = c.seq
  s.breakTile c.place (reconOfTile lid c.seq (!held)) ePAGE

/-- A page is refused to an engine: the destination of a multicast fails, a reconstruction fails its launch, any
other command ends with PAGE at the first element not written (10 R334, R354, 11 R390). -/
def State.refuseEngine (s : State) (c : Cmd) (k : Nat) : State :=
  if c.words.isEmpty then c.lid.elim s (s.reconRefused c)
  else if (s.started c).isNone then s
  else if c.op = 0x11 then
    ((s.wayBack c k).mcastFail c (k / s.waySteps c) ePAGE (k % s.waySteps c / 2)).resumeCmd c
  else s.endCmd c ⟨2, ePAGE, s.elemOf c k⟩

/-! ### The host's accesses (19 R446) -/

/-- The tenant of a function. -/
def State.fnTenant (s : State) (fn : Nat) : Nat := if fn < 1024 then (get {} s.hub.xctxs (s.fnXctx fn)).tenant else 0

/-- A byte that a function reads by itself, through the cache of the hub's walker: none where it does not translate, and a
security event where the ownership check refuses it. -/
def State.fnByte (s : State) (fn va : Nat) : State × Option Byte :=
  match s.resolveDie ownDie (s.fnXctx fn) (fnLevel fn) (va % 2 ^ 52) false with
  | (t, .page v _ pa _) => (t, some (t.byteAt (.tier (pa + (va % 2 ^ 52 - v)))))
  | (t, .denied pa) => (t.security ownDie (BitVec.ofNat 64 pa) none, none)
  | (t, .fault _) => (t, none)

/-- An aperture access fails: Completer Abort, counted in `APFAULT`. -/
def State.hostAbort (s : State) (fn : Nat) : State :=
  (s.modHub fun h => { h with fns := put {} h.fns fn { get {} h.fns fn with
    apfault := min (2 ^ 32 - 1) ((get {} h.fns fn).apfault + 1) } }).emit (.apertureData fn none)

/-- A function on its own behalf. -/
def State.fnWho (s : State) (fn : Nat) : Who := { th := 0, lid := none, level := fnLevel fn, xctx := s.fnXctx fn }

/-- The address lies in the partition of a virtual function's context. -/
def State.fnInPart (s : State) (fn : Nat) (a : Word) : Bool :=
  let n := (get {} s.hub.xctxs (s.fnXctx fn)).part
  1024 ≤ fn || match decodeAddr a with
    | .win core r _ => if r ≤ 3 then s.coreInPart n core else s.quadInPart n (quadOf core)
    | .sync d _ => s.dieInPart n d
    | _ => true

/-- The checks of 08 R246, as they apply to an aperture access. -/
def State.apertureFault (s : State) (fn : Nat) (a : Word) (n : Nat) (write : Bool) : Bool :=
  let k := if write then Acc.store else Acc.load
  s.regionFault (s.fnWho fn) a n k || ((n = 2 || n = 4 || n = 8) && a.toNat % n ≠ 0) || !s.fnInPart fn a ||
    (match decodeAddr a with
      | .win core _ _ => s.lockHit (quadOf core) (s.fnXctx fn) a n write
      | _ => false)

/-- An aperture access of n bytes is performed at the home of its address. -/
def State.hostPerform (s : State) (fn : Nat) (a : Word) (pa : Option Nat) (n : Nat) (write : Bool) (x : Word) : State :=
  if !write then s.emit (.apertureData fn (some (BitVec.ofNat 64 (s.readAt a pa n))))
  else if s.regPending a then
    s.modCore (a.toNat / 2 ^ 23 % 8192) fun k => { k with waits := k.waits ++ [{ noReq 0 with
      op := .store, addr := a, size := n, data := x.setWidth 128 }] }
  else s.writeAt a pa n (x.toNat % 256 ^ n)

/-- An aperture access to global space is translated in the function's context; a page fault parks it at the hub. -/
def State.hostTranslated (s : State) (fn va n : Nat) (write : Bool) (x : Word) : State :=
  match s.resolveDie ownDie (s.fnXctx fn) (fnLevel fn) va write with
  | (s, .page v _ pa _) => s.hostPerform fn (BitVec.ofNat 64 va) (some (pa + (va - v))) n write x
  | (s, .fault k) => s.parkOrWait ownDie
      { item := .host fn va n write x, va := BitVec.ofNat 64 va, xctx := s.fnXctx fn, kind := faultKind k
        access := if write then 1 else 0, requester := 4096 }
  | (s, .denied pa) => (s.security ownDie (BitVec.ofNat 64 pa) none).hostAbort fn

/-- An aperture access whose turn has come at the hub's walker: translated, or checked at its home in a core, a quad or sync space
and performed there. -/
def State.hostItem (s : State) (fn a n : Nat) (write : Bool) (x : Word) : State :=
  match decodeAddr (BitVec.ofNat 64 a) with
  | .global va => s.hostTranslated fn va n write x
  | _ => if s.apertureFault fn (BitVec.ofNat 64 a) n write then s.hostAbort fn else s.hostPerform fn (BitVec.ofNat 64 a) none n write x

/-- What waited for a page is refused it: the thread, the engine or the host that asked for it sees that; a write of luthier's
is not made, and luthier tries a read again (DESIGN CHOICE, log 125). -/
def State.refuseItem (s : State) : XItem → State
  | .access r => s.failReq r cPAGE
  | .insert _ th lid _ r _ => s.deferInsert th lid cPAGE r.addr
  | .engine c k _ _ => s.refuseEngine c k
  | .fetch quad xctx line =>
    (s.fetchWaiters quad xctx line).foldl (fun s th => s.defer th { cause := cPAGE, tval := (s.ctx th).pc })
      (s.dropStale quad xctx line)
  | .host fn .. => s.hostAbort fn
  | .own .. | .ownRead .. => s

/-! ### A walk (20 R487-R488) -/

/-- The fault record of an item (20 R491). -/
def faultOf (item : XItem) (va xctx access requester : Nat) (k : PageFault) : ParkedFault :=
  { item := item, va := BitVec.ofNat 64 va, xctx := xctx, kind := faultKind k, access := access, requester := requester }

/-- The access code of a request (20 R491). -/
def accessCode : ReqOp → Nat
  | .load _ => 0 | .store => 1 | .amo _ => 2 | _ => 3

/-- A global access is translated, checked, and sent to its home. -/
def State.walkAccess (s : State) (die : Nat) (r : Req) : State :=
  let va := globalVa r.addr
  let quad := quadOf (coreOf r.th)
  match s.lookUp quad r.xctx r.level va (opWrites r.op) with
  | .page v size pa w =>
    let s1 := s.cacheFill quad { xctx := r.xctx, va := v, size := size, pa := pa, write := w }
    let r1 := { r with pa := some (pa + (va - v)) }
    if (r.lid.bind s.launch).isSome && !s.portAllowed quad (pa + (va - v)) then s1.failReq r cACCESS
    else s1.send (routeOf r1) (.remoteAccess r1)
  | .fault k => s.parkOrWait die (faultOf (.access r) va r.xctx (accessCode r.op) (requesterOf r.th) k)
  | .denied pa => (s.security die (BitVec.ofNat 64 pa) r.lid).failReq r cACCESS

/-- A record homed by page is translated, and sent to its home (09 R300); one whose home is known has waited for an
earlier record of its source (02 R580). -/
def State.walkInsert (s : State) (die src th lid level : Nat) (r : Rec) (m : Option Marks) : State :=
  match s.launch lid with
  | none => s
  | some l => match (l.kind r.kind).map fun k => s.homeOfRec lid l k r with
  | some (.quad q lq) => s.sendRecord src lid q lq r m
  | some (.page va) =>
    match s.lookUp (quadOf (coreOf th)) l.xctx level va false with
    | .page v size pa w =>
      let q := s.pageHome l va (pa + (va - v))
      (s.cacheFill (quadOf (coreOf th)) { xctx := l.xctx, va := v, size := size, pa := pa, write := w }).sendRecord src lid q
        (s.pageLq lid q) r m
    | .fault k => s.parkOrWait die (faultOf (.insert src th lid level r m) va l.xctx 5 (requesterOf th) k)
    | .denied pa => (s.security die (BitVec.ofNat 64 pa) (some lid)).deferInsert th lid cACCESS r.addr
  | _ => s

/-- An engine that waits tries again once its address translates, or is denied. The translation enters the cache that
the engine uses: its quad's, or that of the die's walker. -/
def State.walkEngine (s : State) (die : Nat) (c : Cmd) (k : Nat) (a : Word) (write : Bool) : State :=
  let q := s.stepCmd c k
  let w := s.walk q.xctx q.level (globalVa a) write
  match w with
  | .fault f => s.parkOrWait die (faultOf (.engine c k a write) (globalVa a) q.xctx 4 (requesterOf q.th) f)
  | _ =>
    let s1 := (tlbOf q.xctx w).elim s fun t => s.engFill q t
    (if c.op = 0x11 then s1.wayBack c k else s1).resumeCmd c

/-- One item that waits for its translation. -/
def State.walkItem (s : State) (die : Nat) : XItem → State
  | .access r => s.walkAccess die r
  | .insert src th lid level r m => s.walkInsert die src th lid level r m
  | .engine c k a w => s.walkEngine die c k a w
  | .fetch quad xctx line => s.readLine quad xctx line (s.pinsOf quad xctx line)
  | .host fn a n w x => s.hostItem fn a n w x
  | .own xctx va n x irq => s.virtPut xctx va irq n x
  | .ownRead xctx va n => s.ownReads xctx va n

/-! ### Requests to memory homes (23 R550) -/

/-- The memory port of an access, where its bytes lie in a tier: global space, and the sync words of the overflow area. -/
def State.tierPort (s : State) (a : Word) (pa : Option Nat) : List Nat := match s.placeOf a pa with
  | some (.tier p) => [memPort p]
  | _ => []

/-- The cached translation that an item finds, if it finds one. -/
def State.itemCached (s : State) (die : Nat) (x : XItem) : Option Tlb :=
  (s.itemTarget x).bind fun t => match x with
    | .engine c _ _ _ => s.engCached c t.2.2.1 t.2.2.2
    | _ => match itemQuad x with
      | some q => s.cached q t.1 t.2.2.1 t.2.2.2
      | none => s.dieCached die t.1 t.2.2.1 t.2.2.2

/-- The memory ports that an item's own accesses go to when its walk ends: a line of code, an access of the host, the lines that
luthier reads or writes. -/
def State.itemEnds (s : State) : XItem → List Nat
  | .fetch quad xctx line => match s.lookUp quad xctx (fetchLevel xctx) (lineVa line) false with
    | .page va _ pa _ => [memPort (pa + (lineVa line - va))]
    | _ => []
  | .host fn a _ write _ => match decodeAddr (BitVec.ofNat 64 a) with
    | .global va => match s.pageOf (s.fnXctx fn) va write with
      | .page v _ pa _ => [memPort (pa + (va - v))]
      | _ => []
    | _ => s.tierPort (BitVec.ofNat 64 a) none
  | .own xctx va n _ _ => s.ownPorts xctx va n true
  | .ownRead xctx va n => s.ownPorts xctx va n false
  | _ => []

/-- The memory ports that a walk asks, one after another: for the entries of the tables, and for the item's own access. -/
def State.walkAsks (s : State) (die : Nat) (x : XItem) : List Nat :=
  (match s.itemCached die x, s.itemTarget x with
    | none, some t => (s.walkReads t.1 t.2.2.1).map memPort
    | _, _ => []) ++ s.itemEnds x

/-- How many of them have admitted a walk's requests already. -/
def Die.gotOf (d : Die) (x : XItem) : Nat := (d.got.find? fun p => p.1 = x).elim 0 (·.2)

/-- Requests of a walk, one after another, as far as the ports admit them; and how many have been admitted. -/
def State.ask (s : State) : List Nat → Nat → State × Nat
  | [], k => (s, k)
  | p :: l, k => if s.portAdmits p then (s.letIn p).ask l (k + 1) else (s, k)

/-- The next request of a walk finds room. -/
def State.walkAsked (s : State) (die : Nat) (x : XItem) : Bool :=
  (((s.walkAsks die x).drop ((s.die die).gotOf x)).head?).all s.portAdmits

/-- The memory ports that a message in flight makes requests to when it is delivered: an access, a line of code, a record that a
full fretboard spills (02 R66). -/
def State.portsFor (s : State) : Instr → List Nat
  | .remoteAccess r | .presenceRequest r | .swaitRequest r | .syncWordUpdate r | .joinArrival r => s.tierPort r.addr r.pa
  | .instructionCacheFill quad xctx line =>
    if (s.cached quad xctx (lineVa line) false).isSome then s.itemEnds (.fetch quad xctx line) else []
  | .recordArrival a =>
    if (s.launch a.lid).any (fun l => l.ladder ≠ .saved) && (s.freeEntry a.quad a.lid).isNone then
      [s.overflowPort a.quad a.lid]
    else []
  | _ => []

/-- An aperture access is on its way from the hub to its home: it stands at the hub's walker, behind the earlier ones of its
function (01 R12, 20 R487, 23 R550). -/
def State.hostSend (s : State) (fn : Nat) (a : Word) (n : Nat) (write : Bool) (x : Word) : State :=
  s.modDie ownDie fun d => { d with walks := d.walks ++ [.host fn a.toNat n write x] }

/-- The homes have room for a message in flight. -/
def State.mayAdmit (s : State) (ev : Instr) : Bool := (s.portsFor ev).all s.portAdmits

/-! ### The order of walks -/

/-- The access of an item faults. -/
def State.itemFaults (s : State) (x : XItem) : Bool :=
  match s.itemTarget x with
  | some (xctx, level, va, w) => match s.walk xctx level va w with
    | .fault _ => true
    | _ => false
  | none => false

/-- A walk in flight can go on: no earlier item of its ordered source is parked, a fault finds a free entry among the die's 256
(20 R491), and the home of its next request has room. -/
def State.walkReady (s : State) (die : Nat) (x : XItem) : Bool :=
  !((itemSource x).any fun k => (s.die die).parked.any fun p => itemSource p.item = some k) &&
    ((s.die die).parked.length < 256 || !s.itemFaults x) && s.walkAsked die x

/-- The oldest of the walks in flight that can be finished, behind no walk of its own source: an ordered source's accesses
keep their order (08 R251, 09 R299). -/
def State.nextWalk (s : State) (die : Nat) : Option Nat :=
  let l := (s.die die).walks.take 64
  (List.range l.length).find? fun k => (l[k]?).any fun x =>
    s.walkReady die x && !((itemSource x).any fun src => (l.take k).any fun y => itemSource y = some src)

/-- The walk of an item goes on: it ends when every request of it has been admitted (20 R487, 23 R550). -/
def State.walkOn (s : State) (die k : Nat) (x : XItem) : State :=
  let asks := s.walkAsks die x
  let r := s.ask (asks.drop ((s.die die).gotOf x)) ((s.die die).gotOf x)
  let rest := fun d : Die => d.got.filter fun p => p.1 ≠ x
  if asks.length ≤ r.2 then (r.1.modDie die fun d => { d with walks := d.walks.eraseIdx k, got := rest d }).walkItem die x
  else r.1.modDie die fun d => { d with got := rest d ++ [(x, r.2)] }

/-- TRANSLATION_WALK: the walker of a die goes on with the oldest of its 64 walks in flight that it can (20 R487). -/
def State.translationWalk (s : State) (die : Nat) : State :=
  match s.nextWalk die with
  | none => s
  | some k => match (s.die die).walks[k]? with
    | some x => s.walkOn die k x
    | none => s

/-- `TRANSLATION_WALK` (20 R487). -/
def execTranslationWalk (die : Nat) (s : State) : Host.Outcome State Fault Refusal := .next (s.translationWalk die)

/-- FAULT_ANSWER: the scheduler resumes a parked access, which is walked again, or refuses it (08 R278, 20 R491); while
luthier is down it stays parked (21 R518). -/
def State.faultAnswer (s : State) (die index : Nat) (resume : Bool) : State :=
  match (if s.hub.fw.running then (s.die die).parked[index]? else none) with
  | none => s
  | some f =>
    let s1 := s.modDie die fun d => { d with parked := d.parked.eraseIdx index }
    if resume then s1.modDie die fun d => { d with walks := f.item :: d.walks } else s1.refuseItem f.item

/-- `FAULT_ANSWER` (20 R491). -/
def execFaultAnswer (die index : Nat) (resume : Bool) (s : State) : Host.Outcome State Fault Refusal :=
  .next (s.faultAnswer die index resume)

end Sys2Proof.Machine
end

