-- ==== Sys2Proof/Machine/Stability.lean ====
section
/-! DEFINITION. The seeds and the walker of a launch, the waves that find it stable, and the turns of logical quads
that share a quad (02 R70-R72, 11 R368, R383-R385, 18 R436). -/

namespace Sys2Proof.Machine

/-! ### Seeds and walker (02 R580, 11 R368, 18 R440, 19 R453) -/

/-- A record taken over from another launch has a window locator that names a quad outside the partition (19 R453). -/
def State.strayTaken (s : State) (l : Launch) (r : Rec) : Bool :=
  l.seedPos < l.taken.length && r.space = 1 && match decodeAddr r.addr with
    | .win core _ _ => !s.quadInPart l.part (quadOf core)
    | _ => true

/-- A record is posted by the scheduler of its launch, or fails the launch (02 R33, 19 R453). -/
def State.postSeed (s : State) (lid : Nat) (l : Launch) (r : Rec) (m : Option Marks) : State :=
  let die := s.schedDie l.part
  match l.kind r.kind with
  | none => s.failLaunch lid 0x0E l.seedPos 0
  | some k =>
    if r.badLoc || (k.page && r.space = 2) then s.failLaunch lid 0x30 l.seedPos 0
    else if s.strayTaken l r then s.failLaunch lid kACCESS l.seedPos 0
    else match s.homeOfRec lid l k r with
      | .bad => s.failLaunch lid kACCESS l.seedPos 0
      | _ => s.insertRecord (schedCore die) die (schedCore die * 16) (l.schedWho die lid) lid r m

/-- The records of a point, in order (11 R368). -/
def pointRecords (l : Launch) (w : Walk) (st level : Nat) (p : Point) : List (Rec × Option Marks) :=
  let work : Rec × Option Marks := (⟨mkTag w.work l.gen p.x p.y p.z, w.locator p⟩, none)
  let hole : Rec × Option Marks :=
    (⟨mkTag (l.cover.elim 0 (·.hole)) l.gen p.x p.y p.z, w.locator p⟩, some ⟨level, st = stAudit⟩)
  if st = stKept then [work] else if st = stSkipped then [hole] else [work, hole]

/-- PLANE LATCH: the level of a plane is fixed before its first point (11 R385). -/
def Launch.latchFor (l : Launch) (p : Point) : Launch := if l.cover.isSome && l.planes ≤ p.z then l.latch else l

/-- The next point of the walk is emitted, while fewer than n are unfinished (11 R368). -/
def State.emitPoint (s : State) (lid : Nat) (l0 : Launch) (w : Walk) : State :=
  if w.window ≤ l0.unfinished.length then s
  else
    let p := w.point l0.walkPos
    let l := l0.latchFor p
    let level := levelOfPlane l.latches p.z
    let st := match l.cover with
      | some c => statusUnder c level l.gen p
      | none => stKept
    let l1 := { l with
      walkPos := l.walkPos + 1
      walkDone := decide (w.count ≤ l.walkPos + 1)
      unfinished := l.unfinished ++ [w.pos p]
      ctl := { l.ctl with
        kept := if st = stKept then l.ctl.kept + 1 else l.ctl.kept
        skipped := if st = stKept then l.ctl.skipped else l.ctl.skipped + 1 } }
    (pointRecords l w st level p).foldl (fun s x => s.postSeed lid l1 x.1 x.2) (s.modLaunch lid fun _ => l1)

/-- WALKER_EMIT: the scheduler posts the launch's next record, or the records of its next point; while luthier is down it posts none
(02 R580, 21 R518). -/
def State.walkerEmit (s : State) (lid : Nat) : State :=
  match s.launch lid with
  | none => s
  | some l =>
    if !l.matching || !s.hub.fw.running then s
    else match l.seedList[l.seedPos]? with
      | some r =>
        (s.modLaunch lid fun l => { l with seedPos := l.seedPos + 1 }.seeded).postSeed lid l r none
      | none =>
        let s1 := s.modLaunch lid Launch.seeded
        if l.walkDone then s1
        else match l.walk with
          | some w => s1.emitPoint lid l.seeded w
          | none => s1

/-- `WALKER_EMIT` (11 R368). -/
def execWalkerEmit (lid : Nat) (s : State) : Host.Outcome State Fault Refusal := .next (s.walkerEmit lid)

/-! ### Stability (02 R70-R72, 09 R315, 11 R383) -/

/-- A message in flight keeps a launch active: a firing, a wake, a start that is to be tried again, a posted sync
operation, the end of a command. An insert shows in the sums. -/
def activeMessage (lid : Nat) : Instr → Bool
  | .firingDelivery _ f => f.lid = lid
  | .wakeMessage w => w.lid = some lid
  | .contextFreeNotice _ m | .refusalRetry _ m => startLid m = some lid
  | .syncWordUpdate r | .joinArrival r => r.lid = some lid
  | .commandCompletion c _ => c.lid = some lid
  | _ => false

/-- Something waits for a translation on behalf of a launch, its inserts among them. -/
def State.walksOf (s : State) (lid : Nat) : Bool :=
  s.dies.any fun d => (d.2.walks.any fun x => match x with
      | .insert .. | .engine .. => itemLid x = some lid
      | _ => false) || d.2.parked.any fun p => match p.item with
      | .insert .. | .engine .. => itemLid p.item = some lid
      | _ => false

/-- A fretboard of the partition has an unprocessed trigger or a firing not yet accepted. -/
def State.fretActive (s : State) (lid : Nat) : Bool :=
  s.quads.any fun q => (q.2.fret.recs.any fun r => r.lid = lid && (r.pending || r.reserved)) ||
    (q.2.fret.refused.any fun f => f.lid = lid) || (q.2.recon.held.any fun f => f.lid = lid) ||
    q.2.recon.refusal.any fun f => f.lid = lid

/-- A task of the launch is running, a Retiring one among them (06 R201), or a start waits at a core. -/
def State.coresActive (s : State) (lid : Nat) : Bool :=
  (s.ctxs.any fun c => c.2.lid = some lid && c.2.status ≠ .free) ||
    s.cores.any fun c => (c.2.refusal.any fun m => startLid m = some lid) ||
      c.2.heldFor.any fun p => startLid p.2.1 = some lid

/-- A condition of 02 R70 fails, the sums aside. -/
def State.activeLaunch (s : State) (lid : Nat) (l : Launch) : Bool :=
  s.fretActive lid || s.coresActive lid || (s.net.any fun f => activeMessage lid f.ev) || s.walksOf lid ||
    !(s.outstanding lid).isEmpty || decide (l.seedPos < l.seedList.length) || !l.walkDone || (l.isOpen && !l.closed)

/-- Whole nanoseconds of a stamp. -/
def stampNs (x : BitVec 96) : Nat := x.toNat / 2 ^ 48 * 10 ^ 9 + x.toNat / 65536 % 2 ^ 32

/-- The deadline of a reserved launch has passed (19 R451, 21 R510). -/
def State.late (s : State) (l : Launch) : Bool :=
  l.rsv && l.deadline ≠ 0 && stampNs l.accepted + l.deadline.toNat < stampNs s.stamp

/-- The values that ordered mode reads until the next declaration (11 R387). -/
def Control.values (c : Control) : List Nat :=
  [c.level, c.e.toNat, c.lastE.toNat, c.audits, c.kept, c.skipped, c.unresolved, c.run]

/-- STABILITY IS DECLARED (02 R72, 11 R384): the controller's instant, the completion record, Complete. -/
def State.declareStable (s : State) (lid : Nat) : State :=
  let s1 := match (s.launch lid).bind (·.cover), s.launch lid with
    | some v, some l => if v.upd = 0 then s.controlInstant lid (s.schedDie l.part) else s
    | _, _ => s
  let s2 := s1.modLaunch lid fun l => { l with
    state := .complete, missed := l.missed || s.late l
    ctl := { l.ctl with declUnresolved := l.ctl.unresolved, decl := l.ctl.values } }
  match s2.launch lid with
  | none => s2
  | some l =>
    (((l.lastRetire.elim s2 fun x => s2.overrun (some lid) (schedCore (s2.schedDie l.part) * 16) 13 (s.hub.cycle - x) 3300).writeStatus l.queue l.compl 2 (s2.launchFields lid l 0 0 0 (some s.stamp))).postLaunch lid 0x0B).serveHeld lid

/-- STABILITY_WAVE: the sums of a launch are gathered; two equal quiet waves declare it stable, unless holes are
left to fill (02 R71, 11 R383), or luthier, which writes the completion record, is down (02 R72, 21 R518). -/
def State.stabilityWave (s : State) (lid : Nat) : State :=
  match s.launch lid with
  | none => s
  | some l =>
    if !l.matching || l.state ≠ .running then s
    else
      let wave := (l.sent, l.received, s.activeLaunch lid l)
      let quiet := l.sent = l.received && !wave.2.2 && l.lastWave = some wave
      let holes := !(s.holesLeft lid l).isEmpty
      if quiet && !holes && s.hub.fw.running then s.declareStable lid
      else s.modLaunch lid fun l => { l with lastWave := some wave, holesDue := decide quiet && holes }

/-- `STABILITY_WAVE` (02 R71). -/
def execStabilityWave (lid : Nat) (s : State) : Host.Outcome State Fault Refusal := .next (s.stabilityWave lid)

/-! ### Turns of logical quads (18 R436) -/

/-- A logical quad has an unprocessed trigger at its quad. -/
def State.hasTrigger (s : State) (quad lid lq : Nat) : Bool :=
  ((s.fret quad).of lid lq).any fun r => r.pending && !r.reserved

/-- A logical quad is quiescent. -/
def State.quiescent (s : State) (quad lid lq : Nat) : Bool :=
  !(s.ctxs.any fun c => quadOf (coreOf c.1) = quad && c.2.lid = some lid && c.2.lq.toNat = lq && c.2.status ≠ .free) &&
    !(((s.fret quad).of lid lq).any fun r => r.reserved) && !s.hasTrigger quad lid lq &&
    !(s.net.any fun f => match f.ev with
      | .firingDelivery _ x => x.lid = lid && x.quad = quad && x.lq = lq
      | .commandCompletion c _ => c.lid = some lid && quadOf (coreOf c.th) = quad
      | _ => false) &&
    !((s.quad quad).recon.held.any fun f => f.lid = lid && f.lq = lq) &&
    !((s.outstanding lid).any fun c => quadOf (coreOf c.th) = quad)

/-- The logical quad that has the next turn: the first after `lq`, cyclically, with a trigger. -/
def State.nextTurn (s : State) (l : Launch) (quad lid lq : Nat) : Option Nat :=
  let all := s.lqsOn l quad
  (all.filter (lq < ·) ++ all.filter (· < lq)).find? (s.hasTrigger quad lid)

/-- The half that a byte of an accumulator tile or a stationary plane belongs to (08 R244). -/
def matrixHalf (quad : Nat) (key : Nat) : Option Nat :=
  let a := (Place.acc quad 0).key
  let p := (Place.plane quad 0).key
  if a ≤ key && key < a + 0x10000 then some ((key - a) % 256 / 128)
  else if p ≤ key && key < p + 0x4000 then some ((key - p) % 128 / 64)
  else none

/-- The bytes of the accumulators and planes that a launch holds in a quad: all, or those of its half. -/
def State.matrixCells (s : State) (half : Option Nat) (quad : Nat) : List Host.Cell :=
  s.mem.filter fun c => match matrixHalf quad c.1 with
    | some h => half.all (· = h)
    | none => false

/-- Those bytes replaced. -/
def State.setMatrixCells (s : State) (half : Option Nat) (quad : Nat) (l : List Host.Cell) : State :=
  let rest := s.mem.filter fun c => match matrixHalf quad c.1 with
    | some h => !half.all (· = h)
    | none => true
  { s with mem := l.foldl (fun m c => Memory.setByte m c.1 c.2) rest }

/-- The units of a quad whose state is the launch's own. -/
def ownUnits (half : Option Nat) : List Nat := match half with
  | some h => [h, 2, 3]
  | none => [0, 1, 2, 3]

/-- The keys of a combining node with the cycles that they have waited in place of the cycle of their first arrival, and
back: the two are the same subtraction. -/
def combElapsed (now : Nat) (l : List CombKey) : List CombKey := l.map fun k => { k with since := now - k.since }

/-- What the turn of a launch's logical quad leaves behind in its quad. -/
def State.turnState (s : State) (lid : Nat) (half : Option Nat) (quad : Nat) : TurnSave :=
  let q := s.quad quad
  { mx := q.mx.filter fun p => half.all (· = p.1)
    acc := s.matrixCells half quad
    slots := (ownUnits half).foldl (fun m u => put [] m u (slotsOf lid (get {} q.eng u).slots)) []
    comb := combElapsed s.hub.cycle (q.comb.filter fun k => k.reqs.any fun c => c.lid = some lid) }

/-- The state of a turn put in place of what the launch has there. -/
def State.setTurnState (s : State) (lid : Nat) (half : Option Nat) (quad : Nat) (t : TurnSave) : State :=
  let s1 := s.modQuad quad fun q => { q with
    mx := t.mx.foldl (fun m p => put {} m p.1 p.2) (q.mx.filter fun p => !half.all (· = p.1))
    comb := (q.comb.filter fun k => !k.reqs.any fun c => c.lid = some lid) ++ combElapsed s.hub.cycle t.comb
    eng := (ownUnits half).foldl (fun m u =>
      let e := get {} m u
      let rest := e.slots.filter fun p => p.1 / 16 ≠ lid + 1
      put {} m u { e with slots := (get [] t.slots u).foldl (fun n p => put none n p.1 p.2) rest }) q.eng }
  s1.setMatrixCells half quad t.acc

/-- One half's turn ends when its logical quad is quiescent and another has a trigger. -/
def State.turnEnds (s : State) (quad half : Nat) : State :=
  match get none (s.quad quad).turn half with
  | none => s
  | some k =>
    let lid := k / 32768
    let lq := k % 32768
    match s.launch lid with
    | none => s
    | some l =>
      if !s.quiescent quad lid lq then s
      else match s.nextTurn l quad lid lq with
        | none => s
        | some n =>
          let h := s.halfOf l.part
          let out := s.turnState lid h quad
          let into := ((s.quad quad).turnSaves.find? fun p => p.1 = trigKey lid n).elim ⟨[], [], [], []⟩ Prod.snd
          (s.setTurnState lid h quad into).modQuad quad fun q => { q with
            turn := put none q.turn half (some (trigKey lid n))
            turnSaves := (q.turnSaves.filter fun p => p.1 ≠ k && p.1 ≠ trigKey lid n) ++ [(k, out)] }

/-- LOGICAL_QUAD_TURN (18 R436). -/
def State.logicalQuadTurn (s : State) (quad : Nat) : State := (s.turnEnds quad 0).turnEnds quad 1

/-- `LOGICAL_QUAD_TURN` (18 R436). -/
def execLogicalQuadTurn (quad : Nat) (s : State) : Host.Outcome State Fault Refusal := .next (s.logicalQuadTurn quad)

end Sys2Proof.Machine
end

