-- ==== Sys2Proof/Machine/Install.lean ====
section
/-! DEFINITION. Installation: the vumas image of a launch, its tables, and the checks made of them in order (02
R39-R42, R75, 11 R365-R371, 17 R415, R422, 18 R425-R441, 19 R457-R458). A table index for which the spec gives no number
is a constant of which nothing is known. -/

namespace Sys2Proof.Machine

/-- A failure of installation: error code and table index. -/
abbrev Reject := Nat × Nat

/-- The index that goes with an error for which none is stated. -/
def anyIndex (code : Nat) : Nat := (Config.freeWord code).toNat % 2 ^ 32

/-- A check: its error and index where it does not hold. -/
def check (ok : Bool) (code index : Nat) : Except Reject Unit := if ok then .ok () else .error (code, index)

/-- The first failure of a list of things numbered from 0. -/
def checkAll {α : Type} (f : Nat → α → Except Reject Unit) (l : List α) : Except Reject Unit :=
  ((List.range l.length).zip l).forM fun p => f p.1 p.2

/-- An image: the number that n bytes at an offset give. -/
abbrev Image := Nat → Nat → Nat

/-! ### Header and sections (18 R425-R427) -/

/-- A section: type, offset, size. -/
structure Sect where
  type : Nat
  off : Nat
  size : Nat
deriving DecidableEq, Repr

/-- The reserved fields and limits of the header. -/
def headerOk (m : Image) : Bool :=
  let n := m 6 2
  1 ≤ n && n ≤ 64 && m 8 8 / 4 = 0 && m 0x10 4 / 2 ^ 16 = 0 && m 0x14 4 / 2 ^ 24 % 128 = 0 && m 0x18 4 / 2 ^ 24 % 128 = 0 &&
    m 0x1C 4 % 256 = 0 && 256 ≤ m 0x1C 4 && m 0x1C 4 ≤ 2 ^ 20 && m 0x20 4 % 16 = 0 && m 0x20 4 ≤ 16384 && m 0x24 28 = 0

/-- The logical grid of a placement word (18 R434). -/
def gridX (w : Nat) : Nat := w % 1024 + 1
def gridY (w : Nat) : Nat := w / 1024 % 1024 + 1
def gridExplicit (w : Nat) : Bool := w / 2 ^ 20 % 2 = 1

/-- The size of a section fits its type (18 R426, R434). -/
def sizeOk (m : Image) (x : Sect) : Bool :=
  let rows := fun n top => x.size % n = 0 && 1 ≤ x.size / n && x.size / n ≤ top
  match x.type with
  | 1 => x.size % 128 = 0 && x.size ≤ 2 ^ 24
  | 2 => rows 48 64
  | 3 => rows 8 256
  | 4 => rows 224 256
  | 5 => let w := m x.off 8; x.size = if gridExplicit w then 8 + 2 * gridX w * gridY w else 8
  | 6 => x.size = 64
  | 7 => x.size = 192
  | 8 => x.size % 16 = 0
  | 9 => rows 4 256
  | t => 0x100 ≤ t && t ≤ 0xFFFF

/-- Entry i of the section table, checked against those before it. -/
def readSect (m : Image) (i : Nat) (before : List Sect) : Except Reject Sect := do
  let e := 0x40 + 16 * i
  let x : Sect := ⟨m e 4, m (e + 8) 4, m (e + 12) 4⟩
  let known := 1 ≤ x.type && x.type ≤ 9
  check (m (e + 4) 4 = 0 && x.off % (if x.type = 1 then 128 else 8) = 0 && x.off + x.size ≤ 2 ^ 32 && sizeOk m x &&
    !(known && before.any fun y => y.type = x.type) &&
    !(before.any fun y => 0 < x.size && 0 < y.size && x.off < y.off + y.size && y.off < x.off + x.size)) 3 i
  return x

/-- The sections of one type. -/
def ofType (l : List Sect) (t : Nat) : Option Sect := l.find? fun x => x.type = t

/-- The rows of n bytes of a section, by offset. -/
def rowsOf (l : List Sect) (t n : Nat) : List Nat := match ofType l t with
  | some x => (List.range (x.size / n)).map fun k => x.off + n * k
  | none => []

/-- Step 1: the header and the section table. -/
def readSections (m : Image) : Except Reject (List Sect) := do
  check (m 0 4 = 0x5556574B) 1 (anyIndex 1)
  check (m 4 2 = 1) 2 (anyIndex 2)
  check (headerOk m) 3 0xFFFFFFFF
  let l ← (List.range (m 6 2)).foldlM (fun l i => do return l ++ [← readSect m i l]) []
  check ([1, 2, 3, 4].all fun t => (ofType l t).isSome) 3 (anyIndex 3)
  check ((ofType l 7).isNone || (ofType l 6).isSome) 3 ((l.findIdx? fun x => x.type = 7).getD 0)
  check ((ofType l 5).isSome || !((rowsOf l 3 8).any fun o => m o 8 / 2 ^ 63 = 1 && m o 8 / 64 % 2 = 0)) 3 (anyIndex 3)
  return l

/-! ### Descriptors and kinds (18 R428-R429) -/

/-- Step 2, one descriptor. -/
def readTensor (m : Image) (i o : Nat) : Except Reject (Option Tensor) := do
  let w := m o 8
  if w / 2 ^ 63 = 0 then
    check (m o 48 = 0) 4 i
    return none
  else
    let n := w / 64 % 4 + 1
    let ext := fun d => m (o + 8 + 2 * d) 2
    let stride := fun d => m (o + 8 + 8 * d) 8
    check (w / 2 ^ 16 % 2 ^ 47 = 0 && ([1, 2, 3].all fun d => stride d / 2 ^ 40 = 0) && m (o + 0x28) 8 = 0 &&
      ([1, 2, 3].all fun d => d < n || (ext d = 0 && stride d = 0))) 4 i
    check (fmtCode (BitVec.ofNat 6 w)) 5 i
    return some { fmt := BitVec.ofNat 6 w, dims := n, base := sbits w 15 8, ext := (List.range 4).map fun d => ext d + 1
                  strides := [stride 1, stride 2, stride 3] }

/-- Step 3, one kind. -/
def readKind (m : Image) (tds : List (Option Tensor)) (cover : Bool) (i o : Nat) : Except Reject (Option Kind) := do
  let w := m o 8
  if w / 2 ^ 63 = 0 then
    check (w = 0) 6 i
    return none
  else
    let page := w / 64 % 2 = 1
    let k : Kind := { td := w % 64, page := page, f1 := bits w 8 7, h1 := bits w 12 9, f2 := bits w 14 13, h2 := bits w 18 15
                      cls := bits w 20 19 }
    check (bits w 62 21 = 0 && k.cls ≠ 3 && k.f1 ≠ 3 && (!page || bits w 18 7 = 0) && (k.cls = 0 || cover)) 6 i
    check ((tds.getD k.td none).isSome) 7 i
    return some k

/-- The kind table as a list of the defined kinds. -/
def kindList (l : List (Option Kind)) : List (Nat × Kind) :=
  ((List.range l.length).zip l).filterMap fun p => p.2.map fun k => (p.1, k)

def kindAt (l : List (Nat × Kind)) (k : Nat) : Option Kind := (l.find? fun p => p.1 = k).map Prod.snd

/-! ### Placement (18 R434-R437) -/

/-- Step 4: the grid and the map, for a partition of P quads. DESIGN CHOICE (log 121): without a placement section the grid is
1 × 1, and its one logical quad, whose identity has code 0, lies on partition quad 0 (the spec gives the section no default,
02 R583). -/
def readPlacement (m : Image) (l : List Sect) (ordered : Bool) (P : Nat) : Except Reject (Nat × Nat × List Nat) :=
  match ofType l 5 with
  | none => .ok (1, 1, [0])
  | some x => do
    let w := m x.off 8
    let n := gridX w * gridY w
    check (w / 2 ^ 21 = 0 && n ≤ 1024) 8 (anyIndex 8)
    let map := (List.range n).map fun k => if gridExplicit w then m (x.off + 8 + 2 * k) 2 else k % P
    checkAll (fun k q => check (q < P) 9 k) map
    check (!(ordered && P < n && (rowsOf l 8 16).any fun o => m (o + 8) 8 / 2 ^ 54 % 4 = 1)) 10 (anyIndex 10)
    return (gridX w, gridY w, map)

/-! ### Rules (02 R39-R42, R75, 18 R430-R433) -/

/-- A condition word, and whether a field of it is wrong (18 R432). -/
def readCond (w : Nat) : Cond × Bool :=
  let a := bits w 31 16
  let b := bits w 47 32
  let junk := bits w 15 2 ≠ 0 || bits w 63 48 ≠ 0
  match w % 4 with
  | 0 => (.any, junk || a ≠ 0 || b ≠ 0)
  | 1 => (.eq a, junk || b ≠ 0)
  | 2 => (.same (a % 8) (a / 16 % 4), junk || b ≠ 0 || a / 64 ≠ 0 || a / 8 % 2 ≠ 0 || a / 16 % 4 = 3)
  | _ => (.range a b, junk)

/-- A pattern block, and whether a field of it is wrong (18 R431). -/
def readPat (m : Image) (o : Nat) : Pat × Bool :=
  let w := m o 8
  let conds := (List.range 3).map fun f => readCond (m (o + 8 + 8 * f) 8)
  ({ kind := w % 256, cat := w / 256 % 2 = 1, gen := bits w 10 9, conds := conds.map Prod.fst },
   bits w 63 11 ≠ 0 || bits w 10 9 = 3 || conds.any Prod.snd)

/-- The labels of the nodes (position, field) of a rule after the joins of its conditions: joined nodes have one
label, and a label of 1000 or more stands for a constant. -/
def relabel (l : List Nat) (a b : Nat) : List Nat := l.map fun x => if x = a then b else x

def joinCond (valued : Bool) (node : Nat) (l : List Nat) : Cond → List Nat
  | .eq c => relabel l (l.getD node 0) (1000 + if valued then c else 0)
  | .same p f =>
    let a := l.getD node 0
    let b := l.getD (3 * p + f) a
    relabel l (min a b) (max a b)
  | _ => l

def labels (valued : Bool) (pats : List Pat) : List Nat :=
  ((List.range pats.length).zip pats).foldl (fun l p =>
    (List.range 3).foldl (fun l f => joinCond valued (3 * p.1 + f) l (p.2.conds.getD f .any)) l) (List.range (3 * pats.length))

/-- The home function of a pattern, rewritten by the equalities of its rule (02 R39). -/
def rewrittenHome (lab : List Nat) (p : Nat) (k : Kind) : Option (Nat × Nat × Option (Nat × Nat)) :=
  if k.page then none
  else some (lab.getD (3 * p + k.f1) 0, k.h1, if k.f2 = 3 then none else some (lab.getD (3 * p + k.f2) 0, k.h2))

/-- The values that a condition admits by itself (18 R433). -/
def Cond.span : Cond → Nat × Nat
  | .eq c => (c, c)
  | .range a b => (a, b)
  | _ => (0, 65535)

/-- Two patterns are not disjoint (02 R75, 18 R433). -/
def overlap (p q : Pat) : Bool :=
  p.kind = q.kind && p.gen = q.gen && (List.range 3).all fun f =>
    let a := (p.conds.getD f .any).span
    let b := (q.conds.getD f .any).span
    max a.1 b.1 ≤ min a.2 b.2

/-- Every key field of every position is joined to a constant or to a field of every position (18 R433). -/
def keyComplete (pats : List Pat) : Bool :=
  let lab := labels false pats
  (List.range pats.length).all fun p => lab.all fun x => 1000 ≤ x || (List.range 3).any fun g => lab.getD (3 * p + g) 0 = x

/-- A condition names the same or a later position. -/
def forward (p : Nat) : Cond → Bool
  | .same q _ => p ≤ q
  | _ => false

def emptyRange : Cond → Bool
  | .range a b => b < a
  | _ => false

/-- Pairs of patterns of one rule overlap. -/
def overlapWithin : List Pat → Bool
  | [] => false
  | p :: l => l.any (overlap p) || overlapWithin l

/-- The checks of 02 R42 in the order of its table. -/
def checkRule (kinds : List (Nat × Kind)) (ordered : Bool) (before : List Rule) (n : Nat) (r : Rule) (count : Nat) :
    Except Reject Unit := do
  let pats := r.pats
  let numbered := (List.range pats.length).zip pats
  let lab := labels true pats
  check (count ≤ 6 && (pats.filter fun p => !p.cat).length ≤ 4) 0x10 n
  check (pats.any fun p => !p.cat) 0x11 n
  check (pats.all fun p => (kindAt kinds p.kind).isSome) 0x12 n
  let homes := (numbered.filterMap fun p => (kindAt kinds p.2.kind).map (rewrittenHome lab p.1)).eraseDups
  check (homes.length ≤ 1) 0x13 n
  check (pats.length = 1 || !pats.any fun p => (kindAt kinds p.kind).any (·.page)) 0x14 n
  check (!numbered.any fun p => p.2.conds.any (forward p.1)) 0x15 n
  check (!pats.any fun p => p.conds.any emptyRange) 0x16 n
  if ordered then
    check (keyComplete pats) 0x17 n
    check (!overlapWithin pats && !before.any fun q => q.pats.any fun a => pats.any (overlap a)) 0x18 n
    check (pats.all fun p => p.gen ≠ 2) 0x19 n

/-- Step 5, one rule. -/
def readRule (m : Image) (kinds : List (Nat × Kind)) (ordered : Bool) (codeSize : Nat) (before : List Rule) (n o : Nat) :
    Except Reject (Option Rule) := do
  let h := m o 8
  let entry := m (o + 8) 8
  if h / 128 % 2 = 0 then
    check (m o 224 = 0) 12 n
    return none
  else
    let count := h % 8 + 1
    let k := min count 6
    let recon := h / 256 % 2 = 1
    let pats := (List.range k).map fun p => readPat m (o + 32 + 32 * p)
    check (recon || (entry % 8 = 0 && entry < codeSize)) 11 n
    check (bits h 3 3 = 0 && bits h 63 15 = 0 && m (o + 0x10) 16 = 0 && bits h 14 13 ≠ 3 &&
      (if recon then bits h 11 9 ≤ 5 && entry = 0 else bits h 11 9 = 0) && (!ordered || bits h 12 12 = 1) &&
      !pats.any Prod.snd && m (o + 32 + 32 * k) (192 - 32 * k) = 0) 12 n
    let r : Rule := { index := n, prio := bits h 6 4, recon := recon, kernel := bits h 11 9, byKey := bits h 12 12 = 1
                      keyField := bits h 14 13, entry := entry, pats := pats.map Prod.fst }
    checkRule kinds ordered before n r count
    return some r

/-! ### Walk and coverage (11 R365-R371, 18 R438-R439) -/

/-- A kind of the walk or coverage section is defined. -/
def needKind (kinds : List (Nat × Kind)) (k : Nat) : Except Reject Kind := match kindAt kinds k with
  | some x => .ok x
  | none => .error (0x12, k)

/-- The walk section. -/
def readWalk (m : Image) (kinds : List (Nat × Kind)) (o : Nat) : Except Reject Walk := do
  let w := m o 8
  let e := m (o + 8) 8
  let b := m (o + 16) 8
  let st := fun d => m (o + 0x18 + 8 * d) 8
  let k1 ← needKind kinds (w % 256)
  let k2 ← needKind kinds (bits w 15 8)
  check (k1.cls = 0) 6 (w % 256)
  check (k2.cls = 0) 6 (bits w 15 8)
  let x : Walk := { work := w % 256, out := bits w 15 8, scale := bits w 23 16, window := bits w 35 24 + 1
                    nx := e % 65536 + 1, ny := bits e 31 16 + 1, nz := bits e 47 32 + 1, base := b % 2 ^ 54, space := bits b 54 54
                    sx := st 0, sy := st 1, sz := st 2 }
  check (bits w 63 36 = 0 && bits e 63 48 = 0 && bits b 63 55 = 0 && m (o + 0x30) 16 = 0 &&
    st 0 ≤ 2 ^ 40 && st 1 ≤ 2 ^ 40 && st 2 ≤ 2 ^ 40 &&
    x.base + (x.nx - 1) * x.sx + (x.ny - 1) * x.sy + (x.nz - 1) * x.sz < 2 ^ 54) 0x28 0
  return x

/-- A pattern word, its four bytes above, and the limits of its mask. -/
def patBits (m : Image) (o : Nat) : Bool :=
  let w := BitVec.ofNat 96 (m o 12)
  m (o + 12) 4 = 0 && w.extractLsb' 64 23 = 0 &&
    (List.range 64).all fun b => !w.getLsbD b || (b % 8 < patPx w && b / 8 < patPy w)

/-- Every point of a period that one pattern keeps, the next keeps too. -/
def ladderStep (a b : BitVec 96) : Bool :=
  (List.range 512).all fun n =>
    let p : Point := ⟨n % 8, n / 8 % 8, n / 64⟩
    !patKeeps a p || patKeeps b p

/-- A threshold is a finite number that is not negative. -/
def thresholdOk (x : BitVec 32) : Bool := x.extractLsb' 23 8 ≠ 0xFF && (!x.getLsbD 31 || x.extractLsb' 0 31 = 0)

/-- The coverage section. -/
def readCover (m : Image) (kinds : List (Nat × Kind)) (tds : List (Option Tensor)) (rules : List Rule) (ordered : Bool)
    (out o : Nat) : Except Reject Cover := do
  let w := m o 8
  let hole := w % 256
  let nk := bits w 15 8
  let n := bits w 21 19 + 1
  let pat := fun i => BitVec.ofNat 96 (m (o + 0x40 + 16 * i) 12)
  let notices := (List.range 4).map (nk + ·)
  let kh ← needKind kinds hole
  notices.forM fun k => do let _ ← needKind kinds k
  let ko ← needKind kinds out
  let sameHome := fun a b : Kind => a.page = b.page && a.f1 = b.f1 && a.h1 = b.h1 && a.f2 = b.f2 && (a.f2 = 3 || a.h2 = b.h2)
  check (kh.cls = 1) 6 hole
  notices.forM fun k => check ((kindAt kinds k).any fun x => x.cls = 2 && x.td = ko.td && sameHome x ko) 6 k
  checkAll (fun i b => check b 0x20 i) ((List.range 8).map fun i =>
    if i < n then patBits m (o + 0x40 + 16 * i) else m (o + 0x40 + 16 * i) 16 = 0)
  checkAll (fun i b => check b 0x21 i) ((List.range n).map fun i => (pat i).extractLsb' 0 64 ≠ 0)
  checkAll (fun i b => check b 0x22 i) ((List.range n).map fun i => i = 0 || ladderStep (pat (i - 1)) (pat i))
  let c : Cover := { hole := hole, nk := nk, rate := 8 * 2 ^ bits w 18 16, ladder := (List.range n).map pat
                     start := bits w 24 22, floor := bits w 27 25, ceil := bits w 30 28, holdN := bits w 38 31
                     upd := bits w 51 39, fallK0 := bits w 52 52 = 1, axisY := bits w 53 53 = 1, near := bits w 56 54
                     mask := bits w 57 57 = 1, hi := BitVec.ofNat 32 (m (o + 8) 4), lo := BitVec.ofNat 32 (m (o + 12) 4) }
  check (c.floor ≤ c.start && c.start ≤ c.ceil && c.ceil < n && c.holdN ≠ 0 && c.upd ≤ 4096 && thresholdOk c.hi &&
    thresholdOk c.lo && !f32Lt c.hi c.lo && bits w 63 58 = 0 && m (o + 0x10) 48 = 0) 0x23 0
  check (bits w 18 16 ≤ 5) 0x24 0
  let recons := rules.filter (·.recon)
  check (c.near ≤ 4 && recons.all fun r => (tds.getD ko.td none).all fun t => kernelLegal r.kernel t c.mask) 0x25 0
  check (match recons with
    | [r] => match r.pats with
      | [p] => !p.cat && p.kind = hole && p.gen = 0 && p.conds.all fun x => x = .any
      | _ => false
    | _ => false) 0x26 0
  check (!ordered || c.upd = 0) 0x27 0
  check (!kh.page && sameHome kh ko) 0x29 0
  return c

/-! ### Seeds, barriers, groups (18 R440-R441, 19 R458) -/

/-- Step 7, one seed. -/
def readSeed (m : Image) (kinds : List (Nat × Kind)) (i o : Nat) : Except Reject Rec := do
  let r : Rec := ⟨BitVec.ofNat 64 (m o 8), BitVec.ofNat 64 (m (o + 8) 8)⟩
  check (r.gen = 0 && (kindAt kinds r.kind).isSome) 14 i
  check (!r.badLoc && !((kindAt kinds r.kind).any (·.page) && r.space = 2)) 0x30 i
  check ((kindAt kinds r.kind).all fun k => k.cls = 0) kACCESS i
  return r

/-- Step 8, one barrier: level, id, arrivals of a core. DESIGN CHOICE (log 142): a `.quad` id outside the half of a shared-quad
launch installs; 09 R294 lets it declare its own half's alone, and 18 R441 lists no
error for another. -/
def readBarrier (m : Image) (most : Nat) (before : List (Nat × Nat × Nat)) (i o : Nat) :
    Except Reject (Nat × Nat × Nat) := do
  let w := m o 4
  let level := w % 8
  let id := bits w 8 3
  let per := bits w 12 9 + 1
  check (bits w 31 13 = 0 && level ≤ 4 && id < barrierIds level && per ≤ most &&
    !before.any fun b => b.1 = level && b.2.1 = id) 15 i
  return (level, id, per)

/-- Rows read one after another, each with those read before it. -/
def readRows {α : Type} (f : List α → Nat → Nat → Except Reject (Option α)) (rows : List Nat) : Except Reject (List α) :=
  ((List.range rows.length).zip rows).foldlM (fun l p => do return l ++ (← f l p.1 p.2).toList) []

/-- The sixteen groups of a collective table; a nonzero zero field, or a die that is none, is malformed. -/
def readGroups (m : Image) : Nat → Nat → List (List Nat) → Except Reject (List (List Nat))
  | 0, _, l => .ok l
  | k + 1, o, l => do
    let n := m o 8
    let ws := (List.range (n % 65536)).map fun j => m (o + 8 + 4 * j) 4
    check (n / 65536 = 0 && ws.all fun w => w / 2 ^ 11 = 0 && w / 256 % 8 ≤ 3) kBAD_REQUEST (anyIndex kBAD_REQUEST)
    readGroups m k (o + 8 + 4 * ws.length) (l ++ [ws])

/-- Where the collective table ends, and the image: as far as the header gives it. -/
def groupsEnd (m : Image) : Nat → Nat → Nat
  | 0, o => o
  | k + 1, o => groupsEnd m k (o + 8 + 4 * (m o 8 % 65536))
def imageEnd (m : Image) : Nat := match readSections m with
  | .ok secs => secs.foldl (fun n x => max n (x.off + x.size)) 0x40
  | .error _ => 0x40

/-! ### A launch is installed -/

/-- The smallest context count of a launch's cores. -/
def State.leastContexts (s : State) (part : Nat) : Nat :=
  ((s.partQuads part).flatMap (s.partCores part)).foldl (fun n c => min n (ctxCount (s.core c).mode)) 16

/-- Lines of code that a quad holds pinned. -/
def State.pinnedLines (s : State) (quad : Nat) : Nat := ((s.quad quad).icache.filter fun l => !l.pins.isEmpty).length

/-- INSTALLATION (18 R427): the launch with its tables, or the first failure. -/
def State.install (s : State) (l : Launch) (base coll : Nat) : Except Reject Launch := do
  let m : Image := fun o n => s.virtRead l.xctx (base + o) n
  let secs ← readSections m
  let ordered := m 8 1 % 2 = 1
  let P := (s.partQuads l.part).length
  let tds ← ((List.range 64).zip (rowsOf secs 2 48)).mapM fun p => readTensor m p.1 p.2
  let rawKinds ← ((List.range 256).zip (rowsOf secs 3 8)).mapM fun p => readKind m tds (ofType secs 7).isSome p.1 p.2
  let kinds := kindList rawKinds
  let (gx, gy, map) ← readPlacement m secs ordered P
  let code := (ofType secs 1).getD ⟨1, 0, 0⟩
  let rules ← readRows (fun l n o => readRule m kinds ordered code.size l n o) (rowsOf secs 4 224)
  let walk ← match ofType secs 6 with
    | some x => (readWalk m kinds x.off).map some
    | none => .ok none
  let cover ← match ofType secs 7, walk with
    | some x, some w => (readCover m kinds tds rules ordered w.out x.off).map some
    | _, _ => .ok none
  let seeds ← readRows (fun _ n o => do return some (← readSeed m kinds n o)) (rowsOf secs 8 16)
  let most := s.leastContexts l.part
  let barriers ← readRows (fun l n o => do return some (← readBarrier m most l n o)) (rowsOf secs 9 4)
  let groups ← if coll = 0 then .ok [] else readGroups (fun o n => s.virtRead l.xctx (coll + o) n) 16 0 []
  check (!barriers.any (fun b => b.1 = 4) || !(groups.getD 0 []).isEmpty) kPOD_GROUP (anyIndex kPOD_GROUP)
  check (!l.rsv || (s.partQuads l.part).all fun q => s.pinnedLines q + code.size / 128 ≤ 512) 13 (anyIndex 13)
  let given := fun o d => if m o 4 / 2 ^ 31 = 1 then m o 4 % 2 ^ 24 else d
  return { l with
    ordered := ordered, isOpen := m 8 1 / 2 % 2 = 1, agelimit := m 0x10 2, fewait := given 0x14 0x10000
    qstall := given 0x18 0x100000, spill := m 0x1C 4, z := m 0x20 4
    codeBase := base + code.off, codeSize := code.size, tds := tds, kinds := kinds, rules := rules, gx := gx, gy := gy
    map := map, walk := walk, cover := cover, seeds := seeds, barriers := barriers, groups := groups
    walkDone := walk.isNone, ctl := { l.ctl with level := cover.elim 0 (·.start) } }

end Sys2Proof.Machine
end

