-- ==== Sys2Proof/Machine/Move.lean ====
section
/-! DEFINITION. What a saved launch names of its quads, in the numbers of the quads that it is restored to (20 R498). Words that
its program holds, as addresses, endpoints and channel words, stay as they are (log 126). -/

namespace Sys2Proof.Machine

/-- Where each quad of a saved launch goes: old number and new. -/
abbrev Moves := List (Nat × Nat)

def moveQuad (m : Moves) (q : Nat) : Nat := ((m.find? fun p => p.1 = q).map Prod.snd).getD q
def moveCore (m : Moves) (c : Nat) : Nat := 4 * moveQuad m (quadOf c) + c % 4
def moveTh (m : Moves) (th : Nat) : Nat := 16 * moveCore m (coreOf th) + ctxOf th
def moveDie (m : Moves) (d : Nat) : Nat := ((m.find? fun p => dieOf p.1 = d).map fun p => dieOf p.2).getD d

def moveReq (m : Moves) (r : Req) : Req := { r with th := moveTh m r.th }
def moveFiring (m : Moves) (f : Firing) : Firing := { f with quad := moveQuad m f.quad }

def moveCmd (m : Moves) (c : Cmd) : Cmd :=
  { c with th := moveTh m c.th, place := if c.unit = 4 then moveDie m c.place else moveQuad m c.place }

def moveSender (m : Moves) : Sender → Sender
  | .thread th k => .thread (moveTh m th) k
  | .engine th unit seq => .engine (moveTh m th) unit seq
  | .join d => .join d

def moveStart (m : Moves) : Start → Start
  | .firing f => .firing (moveFiring m f)
  | .wake w => .wake { w with core := moveCore m w.core, sender := moveSender m w.sender }

/-- The place of a barrier by its level: a core, a logical quad on a quad, a die, or the package. -/
def moveInst (m : Moves) (level inst : Nat) : Nat :=
  if level = 0 then moveCore m inst
  else if level = 1 then moveQuad m (inst / 32768) * 32768 + inst % 32768
  else if level = 2 then moveDie m inst else inst

def moveBarrierMsg (m : Moves) (b : BarrierMsg) : BarrierMsg :=
  { b with th := moveTh m b.th, inst := moveInst m b.level b.inst }

/-- A message of a launch. -/
def moveMessage (m : Moves) : Instr → Instr
  | .commandCompletion c r => .commandCompletion (moveCmd m c) r
  | .recordArrival a => .recordArrival { a with quad := moveQuad m a.quad }
  | .firingDelivery core f => .firingDelivery (moveCore m core) (moveFiring m f)
  | .wakeMessage w => match moveStart m (.wake w) with
    | .wake x => .wakeMessage x
    | .firing _ => .wakeMessage w
  | .contextFreeNotice core x => .contextFreeNotice (moveCore m core) (moveStart m x)
  | .refusalRetry core x => .refusalRetry (moveCore m core) (moveStart m x)
  | .withdrawal r => .withdrawal (moveReq m r)
  | .presenceAnswer th seq x => .presenceAnswer (moveTh m th) seq x
  | .storeAck th k => .storeAck (moveTh m th) k
  | .loadResult l => .loadResult { l with th := moveTh m l.th }
  | .channelEntry core buf x => .channelEntry (moveCore m core) buf x
  | .creditReturn th core buf => .creditReturn (moveTh m th) (moveCore m core) buf
  | .bindAnswer th win seq x => .bindAnswer (moveTh m th) win seq x
  | .barrierArrival b => .barrierArrival (moveBarrierMsg m b)
  | i => i

/-- The end of a route: of a core, an engine, a fretboard, a channel buffer; those of dies, ports and the hub stay. -/
def moveEnd (m : Moves) (e : Nat) : Nat :=
  if e < endMatrix 0 then moveCore m e
  else if e < endFret 0 then endMatrix (moveQuad m (e - endMatrix 0))
  else if e < endSync 0 then endFret (moveQuad m (e - endFret 0))
  else if endEngine 0 0 ≤ e && e < endTel 0 && (e - endEngine 0 0) % 8 ≠ 4 then
    endEngine ((e - endEngine 0 0) % 8) (moveQuad m ((e - endEngine 0 0) / 8))
  else if endChan 0 0 ≤ e then endChan (moveCore m ((e - endChan 0 0) / 16)) ((e - endChan 0 0) % 16)
  else e

/-- A message in flight, with its route, so that it stays in order with what its source sends later (08 R251). -/
def moveFlight (m : Moves) (f : Flight) : Flight :=
  { f with ev := moveMessage m f.ev, pair := f.pair.map fun p => (moveEnd m p.1, moveEnd m p.2) }

def moveItem (m : Moves) : XItem → XItem
  | .access r => .access (moveReq m r)
  | .insert src th lid level r k => .insert (moveEnd m src) (moveTh m th) lid level r k
  | .engine c k a w => .engine (moveCmd m c) k a w
  | x => x

def moveEngine (m : Moves) (e : Engine) : Engine :=
  { e with
    queues := e.queues.foldl (fun t p => put [] t (moveTh m p.1) (p.2.map (moveCmd m))) []
    loose := e.loose.map (moveCmd m)
    running := e.running.map fun r => { r with cmd := moveCmd m r.cmd }
    slots := e.slots.map fun p => (p.1, p.2.map fun
      | .parked c => .parked (moveCmd m c)
      | .released th seq => .released (moveTh m th) seq
      | .cancelled => .cancelled) }

/-- The key of a byte of the accumulators or planes of a quad. -/
def moveKey (m : Moves) (k : Nat) : Nat :=
  let o := k % 2 ^ 44
  if k / 2 ^ 44 = 2 then (Place.acc (moveQuad m (o / 2 ^ 16)) (o % 2 ^ 16)).key
  else if k / 2 ^ 44 = 3 then (Place.plane (moveQuad m (o / 2 ^ 14)) (o % 2 ^ 14)).key
  else k

def moveTurn (m : Moves) (t : TurnSave) : TurnSave :=
  { t with
    acc := t.acc.map fun c => (moveKey m c.1, c.2)
    comb := t.comb.map fun k => { k with reqs := k.reqs.map (moveCmd m) }
    slots := t.slots.map fun p => (p.1, p.2.map fun q => (q.1, q.2.map fun
      | .parked c => .parked (moveCmd m c)
      | .released th seq => .released (moveTh m th) seq
      | .cancelled => .cancelled)) }

def moveCtx (m : Moves) (c : Ctx) : Ctx :=
  { c with
    held := c.held.map fun h => { h with req := moveReq m h.req }
    notes := c.notes.map fun n => { n with th := moveTh m n.th } }

def moveCoreState (m : Moves) (k : Core) : Core :=
  { k with
    round := k.round.map fun r =>
      { members := r.members.map (moveTh m), arrived := r.arrived.map fun p => (moveTh m p.1, p.2) }
    repart := k.repart.map fun p => (moveTh m p.1, p.2)
    refusal := k.refusal.map (moveStart m)
    heldFor := k.heldFor.map fun p => (moveTh m p.1, moveStart m p.2.1, p.2.2) }

def moveRecon (m : Moves) (r : Recon) : Recon :=
  { r with held := r.held.map (moveFiring m), refusal := r.refusal.map (moveFiring m) }

/-- A saved quad in new numbers. -/
def moveShadow (m : Moves) (x : Shadow) : Shadow :=
  { x with
    ctxs := x.ctxs.map fun p => (p.1, moveCtx m p.2)
    cores := x.cores.map fun p => (p.1, moveCoreState m p.2)
    fret := { x.fret with refused := x.fret.refused.map (moveFiring m) }
    matrix := moveTurn m x.matrix
    eng := x.eng.map fun p => (p.1, moveEngine m p.2)
    recon := moveRecon m x.recon
    turnSaves := x.turnSaves.map fun p => (p.1, moveTurn m p.2)
    inbox := x.inbox.map (moveFlight m)
    pend := x.pend.map (moveItem m) }

/-- A saved die in new numbers. -/
def moveDieShadow (m : Moves) (x : DieShadow) : DieShadow :=
  { x with
    die := moveDie m x.die
    barriers := x.barriers.map fun p =>
      (p.1 / 2 ^ 28 * 2 ^ 28 + moveInst m (p.1 / 2 ^ 34 % 8) (p.1 % 2 ^ 28),
       { p.2 with
          arrivals := p.2.arrivals.map (moveBarrierMsg m)
          samples := p.2.samples.map fun q => (q.1, moveCore m q.2.1, q.2.2) })
    coll := moveEngine m x.coll
    pend := x.pend.map (moveItem m) }

end Sys2Proof.Machine
end

