-- ==== Sys2Proof/Machine/System.lean ====
section
/-! DEFINITION. System instructions: control registers, `repart`, `slotw`, `sleep`, cache and translation
maintenance, saving and loading a context, user events (06 R204-R218, 03 R95). -/

namespace Sys2Proof.Machine

/-- `ctlr` (06 R204). -/
def execCtlr (d : BitVec 5) (i : BitVec 12) (s : State) : Host.Outcome State Fault Refusal :=
  issueS (.ctlr d i) d (fun s => s.ctlRead s.cur i.toNat) s

/-- `ctlw`: field by field (06 R204-R205). -/
def execCtlw (a : BitVec 5) (t : BitVec 1) (i : BitVec 12) (s : State) : Host.Outcome State Fault Refusal :=
  issue (.ctlw a t i) (fun s => s.ctlWrite s.cur i.toNat (s.S a)) s

/-- `repart`: the task retires, and the new mode takes effect when its context is free (06 R206-R207, 03 R95). -/
def execRepart (m : BitVec 2) (s : State) : Host.Outcome State Fault Refusal :=
  issue (.repart m) (fun s =>
    (s.modCore (coreOf s.cur) fun k => { k with repart := some (s.cur, m.toNat) }).retireNow) s

/-- `slotw`: it issues once its round has accepted the table; the last member to arrive ends the round (06 R208-R209). -/
def execSlotw (a : BitVec 5) (t : BitVec 1) (s : State) : Host.Outcome State Fault Refusal :=
  let waited := decide ((s.ctx s.cur).synced = some (s.ctx s.cur).pc)
  issue (.slotw a t) (fun s => if waited then s else s.slotwArrive (s.S a)) s

/-- `sleep` (06 R211). -/
def execSleep (a : BitVec 5) (t : BitVec 1) (s : State) : Host.Outcome State Fault Refusal :=
  issue (.sleep a t) (fun s =>
    let n := (s.S a).toNat
    if n = 0 then s
    else s.modCtx s.cur fun c => { c with status := .sleeping, sleepUntil := s.now + n }) s

/-- `iflush`: where lines are pinned, it waits until they have been read afresh (06 R213). -/
def execIflush (s : State) : Host.Outcome State Fault Refusal :=
  let waited := decide ((s.ctx s.cur).synced = some (s.ctx s.cur).pc)
  issue .iflush (fun s => if waited then s else s.flushQuad (quadOf (coreOf s.cur))) s

/-- A cached translation that an `xlinv` drops (06 R214). -/
def xlinvDrops (extent id va : Nat) (t : Tlb) : Bool :=
  2 ≤ extent || (t.xctx = id && (extent = 1 || (t.va ≤ va && va < t.va + t.size)))

/-- Translations of every quad that `reach` names, and of the walker of every die that `walker` names, are dropped
(06 R214, 20 R492). -/
def State.dropTlb (s : State) (reach walker : Nat → Bool) (drop : Tlb → Bool) : State :=
  let s1 := (s.quads.map Prod.fst).foldl (fun s q =>
    if reach q then s.modQuad q fun k => { k with tlb := k.tlb.filter fun t => !drop t } else s) s
  (s1.dies.map Prod.fst).foldl (fun s d =>
    if walker d then s.modDie d fun k => { k with tlb := k.tlb.filter fun t => !drop t } else s) s1

/-- The launches that an `xlinv` reaches while they run: their context is one that it names, and it reaches a quad of theirs
(17 R416). -/
def State.xlReached (s : State) (u : Nat) : List Nat :=
  (s.launches.filter fun p => p.2.any fun l => l.holding && (2 ≤ u / 2 ^ 16 % 4 || l.xctx = u % 65536) &&
    (s.partQuads l.part).any (s.xlReach u)).map Prod.fst

/-- `xlinv`: it issues when the walks in flight for what it drops have ended (06 R214). -/
def execXlinv (a : BitVec 5) (t : BitVec 1) (b : BitVec 5) (u : BitVec 1) (s : State) :
    Host.Outcome State Fault Refusal :=
  issue (.xlinv a t b u) (fun s =>
    let x := (s.S b).toNat
    let reach := x / 2 ^ 18 % 4
    ((s.xlReached x).foldl (fun s l => s.loseBound (some l)) s).dropTlb (s.xlReach x) (fun d => 2 ≤ reach || (reach = 1 && d = dieOfTh s.cur))
      (xlinvDrops (x / 2 ^ 16 % 4) (x % 65536) (s.S a).toNat)) s

/-- The record of `ctxsv` or `ctxld` passes the ownership check (06 R216, 20 R488). -/
def State.recordOwned (s : State) (pa : Nat) : Bool :=
  s.owned pa (get {} s.hub.xctxs (s.xctxOf s.cur)).tenant (s.ctx s.cur).level

/-- A failed access of a save record: SAVE_OWNER is logged, and the monitor takes MACHINE (06 R216, 20 R499). -/
def State.saveOwner (s : State) (die : Nat) (loc : Word) (lid : Option Nat) : State :=
  let k := (s.die die).err.head
  (s.logErr die errSaveOwner loc lid 0).defer (monitorCore * 16)
    { cause := cMACHINE, tval := BitVec.ofNat 64 k }

/-- `ctxsv`: requests of the context that still wait are withdrawn (06 R215-R216, 08 R271). -/
def execCtxsv (a : BitVec 5) (t : BitVec 1) (b : BitVec 5) (u : BitVec 1) (s : State) :
    Host.Outcome State Fault Refusal :=
  issue (.ctxsv a t b u) (fun s =>
    let pa := (s.S b).toNat
    match s.ctxTarget (s.S a) with
    | none => s
    | some th => if s.recordOwned pa then (s.withdrawHeld th).writeRecord th pa else s.saveOwner (dieOfTh s.cur) (s.S b) (s.lidOf th)) s

/-- `ctxld`: the context is left Halted (06 R215-R216). -/
def execCtxld (a : BitVec 5) (t : BitVec 1) (b : BitVec 5) (u : BitVec 1) (s : State) :
    Host.Outcome State Fault Refusal :=
  issue (.ctxld a t b u) (fun s =>
    let pa := (s.S b).toNat
    match s.ctxTarget (s.S a) with
    | none => s
    | some th =>
      if s.recordOwned pa then s.loadRecord th pa
      else s.saveOwner (dieOfTh s.cur) (s.S b) (s.lidOf th)) s

/-- `tel.ev`: a USER event (06 R217-R218, 22 R528). -/
def execTelEv (a : BitVec 5) (t : BitVec 1) (b : BitVec 5) (u : BitVec 1) (s : State) :
    Host.Outcome State Fault Refusal :=
  issue (.telEv a t b u) (fun s =>
    let x := s.S a
    s.post (dieOfTh s.cur) 0x11 (s.lidOf s.cur) (coreOf s.cur) (ctxOf s.cur) (x.extractLsb' 0 32)
      (x.extractLsb' 32 32) (((s.S b).extractLsb' 0 16).setWidth 32)) s

end Sys2Proof.Machine
end

