-- ==== Sys2Proof/Machine/Preempt.lean ====
section
/-! DEFINITION. The pre-emption ladder: drain, save, reset, and the restore of a saved launch (03 R116, 08 R271, 20
R494-R502), and the order of the run list (19 R454, 21 R508-R510). A save moves a launch out of its quads into what luthier
keeps of it and writes the partition's save area. -/

namespace Sys2Proof.Machine

/-! ### Rung 1 -/

/-- A rung is reached: noted on the queue and in the launch, with its cycle (19 R449, R456, 20 R494). -/
def State.reachRung (s : State) (lid rung : Nat) : State :=
  match s.launch lid with
  | none => s
  | some l => (s.modQueue l.queue fun q => { q with rung := rung }).modLaunch lid fun l => { l with
      rung := max l.rung rung, since := s.hub.cycle }

/-- Fields of `QPRE` (19 R448). -/
def State.t1Of (s : State) (l : Launch) : Nat := (s.queueOf l.queue).pre.toNat % 65536
def State.t2Of (s : State) (l : Launch) : Nat :=
  let t := (s.queueOf l.queue).pre.toNat / 65536 % 65536
  if t = 0 then 4 else t

/-- So many microseconds have passed since the launch reached its rung, at 1,100 cycles each (01 R23, 20 R494). -/
def State.rungPast (s : State) (l : Launch) (us : Nat) : Bool := l.since + 1100 * us ≤ s.hub.cycle

/-- The launch's contexts that are not Free. -/
def State.launchThreads (s : State) (lid : Nat) : List Nat :=
  (s.ctxs.filter fun c => c.2.lid = some lid && c.2.status ≠ .free).map Prod.fst

/-- Rung 2 begins: PREEMPT goes to every running context (20 R494). -/
def State.beginSave (s : State) (lid : Nat) : State :=
  (s.launchThreads lid).foldl (fun s th =>
    let c := s.ctx th
    if c.status = .halted || c.status = .retiring then s
    else (s.modCtx th fun c => { c with nextSeq := c.nextSeq + 1 }).defer th { cause := cPREEMPT, tval := 0, seq := c.nextSeq })
    ((s.modLaunch lid fun l => { l with ladder := .save }).reachRung lid 2)

/-- A launch that the ladder may be climbed for: it runs, and is not of the reserved class. -/
def Launch.preemptible (l : Launch) : Bool := (l.state = .seeding || l.state = .running) && !l.rsv

/-- A launch waits for its quads: accepted, or saved, every slot written, with work to do, a dump that is held for it included (21
R509). -/
def Launch.waiting (l : Launch) : Bool :=
  l.state = .pending || (l.ladder = .saved && !l.holding && (l.state = .seeding || l.state = .running || l.requests.any fun r => r.kind = 5))

/-- Two partitions are shared peers: they hold the same quads (20 R480). -/
def State.peers (s : State) (a b : Nat) : Bool :=
  let p := get 0 s.hub.part a
  partShared p && partPeer p = b && a ≠ b

/-- Two launches cannot hold their quads together: of one partition, or of two shared peers when one alone is of the reserved
class (21 R508, R510). -/
def State.contend (s : State) (a b : Launch) : Bool :=
  a.part = b.part || (a.rsv != b.rsv && s.peers a.part b.part)

/-- A launch that waits for the quads outranks the one that runs (21 R508, R510). -/
def State.outranked (s : State) (lid : Nat) (l : Launch) : Bool :=
  s.launches.any fun p => p.1 ≠ lid && p.2.any fun x => s.contend x l && x.waiting && (x.rsv || l.prio < x.prio)

/-- PREEMPT_DRAIN: rung 1, for a launch that outranks, a time slice, or a change of configuration; a t1 of 0 skips it. -/
def State.preemptDrain (s : State) (lid : Nat) : State :=
  match s.launch lid with
  | none => s
  | some l =>
    if !s.hub.fw.running || !l.preemptible || l.ladder ≠ .none then s
    else if s.t1Of l = 0 then s.beginSave lid
    else (s.modLaunch lid fun l => { l with ladder := .drain }).reachRung lid 1

/-- The scheduler pre-empts a launch that is outranked (21 R508). -/
def State.preemptOutranked (s : State) (lid : Nat) : State :=
  if (s.launch lid).any (s.outranked lid) then s.preemptDrain lid else s

/-- `PREEMPT_DRAIN` (20 R494). -/
def execPreemptDrain (lid : Nat) (s : State) : Host.Outcome State Fault Refusal := .next (s.preemptDrain lid)

/-- PREEMPT_SAVE: T1 has passed in the drain. -/
def State.preemptSave (s : State) (lid : Nat) : State :=
  match s.launch lid with
  | none => s
  | some l => if s.hub.fw.running && l.ladder = .drain && s.rungPast l (s.t1Of l) then s.beginSave lid else s

/-- `PREEMPT_SAVE` (20 R494). -/
def execPreemptSave (lid : Nat) (s : State) : Host.Outcome State Fault Refusal := .next (s.preemptSave lid)

/-! ### When the state can be captured (20 R494, R496) -/

/-- A message whose effect a capture would miss. -/
def settles (lid : Nat) : Instr → Bool
  | .barrierArrival b => b.lid = some lid
  | .remoteAccess r | .syncWordUpdate r | .joinArrival r => r.lid = some lid
  | _ => false

/-- No task runs or retires, no command is outstanding, and no message whose effect a capture would miss is on its way: an arrival
at a barrier counts at its node first (09 R322). -/
def State.drained (s : State) (lid : Nat) : Bool :=
  (s.launchThreads lid).isEmpty && (s.outstanding lid).isEmpty &&
    !(s.net.any fun f => settles lid f.ev || match f.ev with
      | .commandCompletion c _ => c.lid = some lid
      | _ => false)

/-- A context is stopped, and waits for nothing but pages and requests that can be taken back. -/
def State.ctxReady (s : State) (th : Nat) : Bool :=
  let c := s.ctx th
  let p := s.pendingOf th
  (c.status = .halted || c.status = .retiring) &&
    c.c0 + c.c1 + c.c2 + c.c3 ≤ (p.filter fun r => r.cls.isSome).length &&
    (c.prods.all fun x => p.any fun r => r.seq = x.seq) &&
    c.held.all fun h => h.answer.isSome || h.dropped || (s.takeBack h.req).isSome

/-- The core that a message is on its way to, where a save parks it in the core's inbox. -/
def inboxCore : Instr → Option Nat
  | .firingDelivery core _ | .contextFreeNotice core _ | .refusalRetry core _ | .channelEntry core _ _ => some core
  | .wakeMessage w => some w.core
  | .commandCompletion c _ => some (coreOf c.th)
  | .presenceAnswer th _ _ | .creditReturn th _ _ | .bindAnswer th .. | .storeAck th .. => some (coreOf th)
  | .loadResult l => some (coreOf l.th)
  | _ => none

/-- The messages of a launch on their way to a core it holds. -/
def State.inboxOf (s : State) (lid core : Nat) : List Flight :=
  s.net.filter fun f => inboxCore f.ev = some core && (s.messageOf lid f.ev || match f.ev with
    | .channelEntry .. => true
    | _ => false)

/-- The state of rung 2 can be captured; an inbox holds 256 messages. -/
def State.capturable (s : State) (lid : Nat) : Bool :=
  (s.launchThreads lid).all s.ctxReady && !(s.net.any fun f => settles lid f.ev) &&
    (s.launch lid).any fun l => (s.partQuads l.part).all fun q => (s.partCores l.part q).all fun c => (s.inboxOf lid c).length ≤ 256

/-! ### The save area (20 R499-R500) -/

/-- The bytes of keys `lo` to `hi` - 1 replaced by cells of rising keys in that range. -/
def Memory.splice (m : List Host.Cell) (lo hi : Nat) (cells : List Host.Cell) : List Host.Cell :=
  (m.filter fun c => c.1 < lo) ++ (cells.filter fun c => lo ≤ c.1 && c.1 < hi && c.2 ≠ emptyByte) ++
    m.filter fun c => hi ≤ c.1

/-- n bytes copied from one key to another. -/
def Memory.copy (m : List Host.Cell) (src dst n : Nat) : List Host.Cell :=
  Memory.splice m dst (dst + n) ((m.filter fun c => src ≤ c.1 && c.1 < src + n).map fun c => (c.1 - src + dst, c.2))

/-- n computed bytes put at a key. -/
def Memory.fill (m : List Host.Cell) (dst n : Nat) (f : Nat → Byte) : List Host.Cell :=
  Memory.splice m dst (dst + n) ((List.range n).map fun k => (dst + k, f k))

/-- The slot of a quad in its partition's save area: physical address. -/
def State.slotPa (s : State) (part quad : Nat) : Nat :=
  (get 0 s.hub.psave part).toNat / 2 ^ 21 % 2 ^ 20 * 2 ^ 21 + 2 ^ 21 * (s.partQuadNo part quad).getD 0

/-- Every granule of a slot is luthier's. -/
def State.slotOwned (s : State) (pa : Nat) : Bool :=
  (List.range 32).all fun k =>
    let e := get (0 : BitVec 16) s.hub.own (pa / 65536 + k)
    paExists (pa + 65536 * k) && e.getLsbD 15 && e.getLsbD 14

/-- Byte k of the presence bits of a core. -/
def State.presByte (s : State) (core k : Nat) : Byte :=
  BitVec.ofNat 8 ((List.range 8).foldl (fun a j => a + if s.full core (8 * k + j) then 2 ^ j else 0) 0)

/-- The contexts of a core that a save of a launch takes: its own, and the Free ones. -/
def State.savedCtxs (s : State) (lid core : Nat) : List Nat :=
  (s.coreCtxs core).filter fun th => (s.ctx th).status = .free || (s.ctx th).lid = some lid

/-- A place in a slot: the record of a context (20 R500). -/
def recordPa (slot th : Nat) : Nat := slot + 0x108000 + 0x8000 * (coreOf th % 4) + 0x800 * ctxOf th

/-- The bytes of a slot that hold another saved launch of the partition are kept aside. DESIGN CHOICE (log 116): the area has
one slot for each quad, and the spec does not say where a second saved launch goes. -/
def State.keepSlot (s : State) (lid part quad : Nat) : State :=
  let pa := s.slotPa part quad
  let other := fun x : Shadow => x.lid ≠ lid && x.slot.isNone && some x.no = s.partQuadNo part quad &&
    (s.launch x.lid).any fun l => l.part = part
  s.modHub fun h => { h with saved := h.saved.map fun x =>
    if (other x) then { x with slot := some (s.mem.filter fun c => pa ≤ c.1 && c.1 < pa + 2 ^ 21) } else x }

/-- The records of some contexts, at their offsets in a slot. -/
def State.recordImage (s : State) (ths : List Nat) : List Host.Cell :=
  (ths.foldl (fun (t : State) th => t.writeRecord th (recordPa 0 th)) { s with mem := [] }).mem

/-- The lines of a slot. -/
def slotLines : Nat := 2 ^ 21 / 64

/-- A line of a slot holds something of a saved quad: of a core that the launch held, of a context that was saved, or of the
image. -/
def State.lineHeld (s : State) (part quad : Nat) (x : Shadow) (o : Nat) : Bool :=
  let mine := fun k => (s.partCores part quad).contains (4 * quad + k)
  if o < 0x100000 then mine (o / 0x40000)
  else if o < 0x108000 then mine ((o - 0x100000) / 0x2000)
  else if o < 0x128000 then x.ctxs.any fun p => p.1 = (o - 0x108000) / 0x800
  else true

/-- A byte of a slot: of the scratchpads and presence bits, which stay in place until they are moved, of the context records, or of
the shadow image (20 R497, R500). -/
def State.slotByte (s : State) (quad : Nat) (x : Shadow) (o : Nat) : Byte :=
  if o < 0x100000 then s.byteAt (.scratch (4 * quad + o / 0x40000) (o % 0x40000))
  else if o < 0x108000 then s.presByte (4 * quad + (o - 0x100000) / 0x2000) (o % 0x2000)
  else if o < 0x128000 then Memory.byte x.image o
  else Config.shadowByte quad (o - 0x128000) x.capture

/-- A line of a slot is written. -/
def State.writeLine (s : State) (pa quad : Nat) (x : Shadow) (o : Nat) : State :=
  ({ s with mem := Memory.fill s.mem (pa + o) 64 fun k => s.slotByte quad x (o + k) } : State).noteWrite (.tier (pa + o)) 64

/-- The bytes of a slot that were kept aside come back. -/
def State.slotBack (s : State) (part quad : Nat) (x : Shadow) : State :=
  match x.slot with
  | some cells =>
    let pa := s.slotPa part quad
    ({ s with mem := Memory.splice s.mem pa (pa + 2 ^ 21) cells } : State).noteWrite (.tier pa) (2 ^ 21)
  | none => s

/-- A quad's scratchpads and presence bits are read back (20 R497). -/
def State.readSlot (s : State) (part quad : Nat) : State :=
  let pa := s.slotPa part quad
  (s.partCores part quad).foldl (fun s c =>
    let k := c % 4
    let bits := Memory.bytes s.mem (pa + 0x100000 + 0x2000 * k) 0x2000
    let s1 := { s with mem := Memory.copy s.mem (pa + 0x40000 * k) (Place.scratch c 0).key 0x40000 }
    ((List.range 0x2000).zip bits).foldl (fun s p =>
      (List.range 8).foldl (fun s j => s.setFull c (8 * p.1 + j) (p.2.getLsbD j)) s) s1) s

/-! ### Capture (20 R495-R496) -/

/-- Before a capture: the waiting requests of a launch are withdrawn, and the stores in the buffers of its cores are written
(08 R271, R273, 20 R496). -/
def State.settleLaunch (s : State) (lid : Nat) (l : Launch) : State :=
  (((s.partQuads l.part).flatMap (s.partCores l.part))).foldl (fun s c => s.writeEntries c (s.core c).stbuf.length)
    ((s.launchThreads lid).foldl State.withdrawHeld s)

/-- What a launch holds of a fretboard. -/
def fretPart (lid : Nat) (f : Fret) : Fret :=
  { recs := f.recs.filter fun r => r.lid = lid
    arrCount := f.arrCount.filter fun p => p.1 = lid
    trigCount := f.trigCount.filter fun p => p.1 / 32768 = lid
    firings := f.firings.filter fun p => p.1 = lid
    refused := f.refused.filter fun x => x.lid = lid }

/-- What a launch holds of an engine. -/
def enginePart (lid : Nat) (e : Engine) : Engine :=
  let mine := fun c : Cmd => c.lid = some lid
  { queues := e.queues.foldl (fun m p => put [] m p.1 (p.2.filter mine)) []
    loose := e.loose.filter mine
    running := e.running.filter fun r => mine r.cmd
    slots := slotsOf lid e.slots }

/-- Both put together. -/
def joinEngine (a b : Engine) : Engine :=
  { a with
    queues := b.queues.foldl (fun m p => put [] m p.1 (get [] m p.1 ++ p.2)) a.queues
    loose := a.loose ++ b.loose
    running := a.running ++ b.running
    slots := b.slots.foldl (fun m p => put none m p.1 p.2) a.slots }

def joinFret (a b : Fret) : Fret :=
  { a with
    recs := a.recs ++ b.recs
    arrCount := b.arrCount.foldl (fun m p => put 0 m p.1 p.2) a.arrCount
    trigCount := b.trigCount.foldl (fun m p => put 0 m p.1 p.2) a.trigCount
    firings := b.firings.foldl (fun m p => put 0 m p.1 p.2) a.firings
    refused := a.refused ++ b.refused }

/-- A core's refusal list and held contexts, as far as they are a launch's. -/
def corePart (lid : Nat) (k : Core) : Core :=
  { k with
    refusal := k.refusal.filter fun m => startLid m = some lid
    heldFor := k.heldFor.filter fun p => startLid p.2.1 = some lid }

/-- A core as it is when a launch has left it. -/
def leftCore (lid : Nat) (k : Core) : Core :=
  { k with
    refusal := k.refusal.filter fun m => startLid m ≠ some lid
    heldFor := k.heldFor.filter fun p => startLid p.2.1 ≠ some lid
    round := none, repart := none, chans := [], claims := [] }

/-- A context as it is kept: what it still has to sleep in place of the cycle in which it wakes, and the cycles that its task
has run in place of that of its first issue. -/
def State.keptCtx (s : State) (th : Nat) : Ctx :=
  let c := s.ctx th
  let now := (s.core (coreOf th)).cycle
  { c with
    sleepUntil := c.sleepUntil - now, ran := c.ran + (now - c.firstIssue.getD now), firstIssue := c.firstIssue.map fun _ => 0
    lastIssue := none }

/-- The quad that a source of records belongs to: a core's, an engine's, a fretboard's. Those of a die, a port or the hub belong to
none, and the records that they have still to send stay in their order there (02 R580). -/
def sourceQuad (src : Nat) : Option Nat :=
  if src < endMatrix 0 then some (quadOf src)
  else if src < endFret 0 then some (src - endMatrix 0)
  else if src < endSync 0 then some (src - endFret 0)
  else if endEngine 0 0 ≤ src && src < endTel 0 then some ((src - endEngine 0 0) / 8)
  else none

/-- What waits for a translation on behalf of a launch in a quad. -/
def itemIn (lid quad : Nat) (x : XItem) : Bool :=
  itemLid x = some lid && match x with
    | .access r => quadOf (coreOf r.th) = quad
    | .insert src _ _ _ _ _ => sourceQuad src = some quad
    | .engine c _ _ _ => c.unit ≠ 4 && quadOf (coreOf c.th) = quad
    | .fetch .. | .host .. | .own .. | .ownRead .. => false

/-- A lock is of a command or a firing of a launch. -/
def State.lockOf (s : State) (lid : Nat) (x : Lock) : Bool :=
  x.seq / 2 ^ 48 = lid + 1 || (s.outstanding lid).any fun c => c.th = x.th && c.seq = x.seq

/-- What a capture of a quad takes out of it (20 R495). -/
def State.shadowOf (s : State) (lid : Nat) (l : Launch) (quad : Nat) : Shadow :=
  let cores := s.partCores l.part quad
  let half := s.halfOf l.part
  let q := s.quad quad
  let d := s.die (dieOf quad)
  { lid := lid
    quad := quad
    no := (s.partQuadNo l.part quad).getD 0
    ctxs := (cores.flatMap (s.savedCtxs lid)).map fun th => (th % 64, s.keptCtx th)
    cores := cores.map fun c => (c % 4, corePart lid (s.core c))
    fret := fretPart lid q.fret
    agelimit := get 0 q.fret.agelimit (half.getD 0)
    cmbwait := q.cmbwait
    matrix := s.turnState lid half quad
    eng := (ownUnits half).foldl (fun m u => put {} m u (enginePart lid (get {} q.eng u))) []
    locks := q.locks.filter (s.lockOf lid)
    recon := q.recon.part lid
    turn := get none q.turn (half.getD 0)
    turnSaves := q.turnSaves.filter fun p => p.1 / 32768 = lid
    inbox := cores.flatMap (s.inboxOf lid)
    pend := d.pending.filter (itemIn lid quad)
    image := s.recordImage (cores.flatMap (s.savedCtxs lid))
    capture := s.hub.captures
    left := slotLines }

/-- THE CAPTURE of one quad; the quad is left without the launch. -/
def State.captureQuad (s : State) (lid : Nat) (l : Launch) (quad : Nat) : State :=
  let cores := s.partCores l.part quad
  let half := s.halfOf l.part
  let x := s.shadowOf lid l quad
  let s1 := ((s.setTurnState lid half quad ⟨[], [], [], []⟩).modQuad quad fun k => { k with
    fret := dropRecs lid k.fret
    eng := k.eng.foldl (fun m p => put {} m p.1 (dropCmds lid p.2)) []
    locks := k.locks.filter fun x => !s.lockOf lid x
    recon := k.recon.without lid
    turn := put none k.turn (half.getD 0) none
    turnSaves := k.turnSaves.filter fun p => p.1 / 32768 ≠ lid }).modHub fun h => { h with saved := h.saved ++ [x] }
  let s2 := ({ s1 with net := s1.net.filter fun f => !x.inbox.contains f } : State).modDie (dieOf quad) fun k => { k with
    walks := k.walks.filter fun x => !itemIn lid quad x
    parked := k.parked.filter fun p => !itemIn lid quad p.item }
  cores.foldl (fun s c => s.modCore c (leftCore lid))
    (((s2.launchThreads lid).filter fun th => quadOf (coreOf th) = quad).foldl State.freeNow s2)

/-- The commands of a launch at its die's collective engine that wait for a translation. -/
def itemColl (lid : Nat) : XItem → Bool
  | .engine c _ _ _ => c.unit = 4 && c.lid = some lid
  | _ => false

/-- What a launch holds in a die is captured: the counts of its barrier nodes, its part of the collective engine, the accesses
that it waits for there with the rest of its commands (09 R322, 10 R363). -/
def State.captureDie (s : State) (lid die : Nat) : State :=
  let d := s.die die
  let x : DieShadow :=
    { lid := lid, die := die
      barriers := d.barriers.filter fun p => barrierOwner p.1 = lid
      coll := enginePart lid d.coll
      collSeq := d.collSeq.filter fun p => p.1 / 16 = lid
      collIn := (d.collIn ++ d.collWay).filter fun m => m.lid = some lid
      pend := d.pending.filter (itemColl lid) }
  (s.modHub fun h => { h with savedDies := h.savedDies ++ [x] }).modDie die fun d => { d with
    barriers := d.barriers.filter fun p => barrierOwner p.1 ≠ lid
    coll := dropCmds lid d.coll
    collSeq := d.collSeq.filter fun p => p.1 / 16 ≠ lid
    collIn := d.collIn.filter fun m => m.lid ≠ some lid
    collWay := d.collWay.filter fun m => m.lid ≠ some lid
    walks := d.walks.filter fun x => !itemColl lid x
    parked := d.parked.filter fun p => !itemColl lid p.item }

/-! ### Rung 3 (20 R494) -/

/-- PREEMPT_RESET: the launch is emptied out of its quads and fails; status 5. A Complete launch, whose save has failed, stays
Complete, as one that is swapped out, of which nothing is kept: 02 R43 knows no way from there to Failed (DEDUCED, log 134). -/
def State.resetRung (s : State) (lid : Nat) : State :=
  match s.launch lid with
  | none => s
  | some l =>
    let done := l.state = .complete
    let s1 := ((s.vacate lid).reachRung lid 3).modLaunch lid fun l => { l with
      state := if done then .complete else .failed, ladder := if done then .saved else .none, holding := false }
    if done then s1
    else
    match s1.launch lid with
    | none => s1
    | some l1 => (s1.writeStatus l.queue l.compl 5 (s1.launchFields lid l1 0 0 0 none)).serveHeld lid

/-- PREEMPT_RESET: rung 3, T2 after rung 2 began. -/
def State.preemptReset (s : State) (lid : Nat) : State :=
  match s.launch lid with
  | none => s
  | some l => if s.hub.fw.running && l.ladder = .save && s.rungPast l (s.t2Of l) then s.resetRung lid else s

/-- `PREEMPT_RESET` (20 R494). -/
def execPreemptReset (lid : Nat) (s : State) : Host.Outcome State Fault Refusal := .next (s.preemptReset lid)

/-- A slot that is not luthier's: SAVE_OWNER, MACHINE at the monitor, the partition failed, rung 3 (20 R499). -/
def State.saveFailed (s : State) (lid part pa : Nat) : State :=
  (((s.saveOwner (s.schedDie part) (BitVec.ofNat 64 pa) (some lid)).modHub fun h => { h with
    partFailed := if h.partFailed.contains part then h.partFailed else h.partFailed ++ [part] })).resetRung lid

/-- The first slot of a partition that is not luthier's. -/
def State.badSlot (s : State) (part : Nat) : Option Nat :=
  ((s.partQuads part).map (s.slotPa part)).find? fun pa => !s.slotOwned pa

/-! ### Save (20 R494-R497) -/

/-- A launch is captured: settled first, then each quad's state taken. It holds its quads until their slots have been written (20
R495, R497). -/
def State.captureLaunch (s : State) (lid : Nat) (l : Launch) : State :=
  match s.badSlot l.part with
  | some pa => s.saveFailed lid l.part pa
  | none =>
    let s1 := (s.partQuads l.part).foldl (fun s q => (s.keepSlot lid l.part q).captureQuad lid l q) (s.settleLaunch lid l)
    (((List.range 5).foldl (fun s d => s.captureDie lid d) s1).modHub fun h => { h with captures := h.captures + 1 }).modLaunch
      lid fun l => { l with ladder := .saved }

/-- SAVE_CAPTURE_COMPLETE: a drained launch, or one stopped by rung 2, has been captured (20 R494-R495). -/
def State.saveCapture (s : State) (lid : Nat) : State :=
  match s.launch lid with
  | none => s
  | some l =>
    if s.hub.fw.running && ((l.ladder = .drain && s.drained lid) || (l.ladder = .save && s.capturable lid)) then
      s.captureLaunch lid l
    else s

/-- `SAVE_CAPTURE_COMPLETE` (20 R495). -/
def execSaveCaptureComplete (lid : Nat) (s : State) : Host.Outcome State Fault Refusal := .next (s.saveCapture lid)

/-- A Complete launch leaves its quads to another: a drain that meets no task (21 R509). -/
def State.saveComplete (s : State) (lid : Nat) : State :=
  match s.launch lid with
  | none => s
  | some l =>
    if l.state = .complete && l.ladder = .none && s.drained lid then (s.reachRung lid 1).captureLaunch lid l else s

/-! ### Restore (20 R497-R498) -/

/-- A context as it resumes, of what the record gives and what luthier kept besides: in the state it was saved in; a context
that PREEMPT halted returns at `ctl.epc`, with the trap registers that a handler in progress had (03 R116). -/
def resumeCtx (kept c : Ctx) : Ctx :=
  let c := { c with held := kept.held, deferred := kept.deferred.filter fun t => t.cause ≠ cPREEMPT, outer := none }
  if kept.status = .halted && c.cause.toNat = cPREEMPT then
    let o := kept.outer.getD (c.cause, c.epc, c.tval, c.tstate)
    { c with status := c.before, pc := c.epc &&& ~~~7#64, cause := o.1, epc := o.2.1, tval := o.2.2.1, tstate := o.2.2.2 }
  else if kept.status = .halted then { c with status := .halted }
  else { c with status := c.before }

/-- A core as a save kept it, over what goes on meanwhile. -/
def resumeCore (k saved : Core) : Core :=
  { k with
    mode := saved.mode, slots := saved.slots, nextSlots := saved.nextSlots, quiet := saved.quiet, round := saved.round
    repart := saved.repart, donate := saved.donate, chans := saved.chans, order := saved.order, ex := saved.ex
    refusal := k.refusal ++ saved.refusal, heldFor := k.heldFor ++ saved.heldFor }

/-- A context comes back from its record; its task has gone on from this cycle on. -/
def State.restoreCtx (s : State) (slot th : Nat) (kept0 : Ctx) : State :=
  let kept := { kept0 with firstIssue := kept0.firstIssue.map fun _ => (s.core (coreOf th)).cycle }
  let t := s.modCtx th fun _ => kept
  t.modCtx th fun _ => resumeCtx kept (t.readRecord th (recordPa slot th))

/-- Where the quads of a saved launch go: to the quads that now have their partition quad numbers (20 R498). -/
def State.movesOf (s : State) (lid : Nat) (l : Launch) : Moves :=
  (s.hub.saved.filter fun x => x.lid = lid).map fun x => (x.quad, (s.partQuads l.part).getD x.no x.quad)

/-- A lock of a saved command in new numbers: one on the accumulators of its engine is on those of the new one (10 R332). -/
def State.moveLock (s : State) (m : Moves) (cmds : List Cmd) (l : Lock) : Lock :=
  let l1 := { l with th := moveTh m l.th }
  match cmds.find? fun c => c.th = l.th && c.seq = l.seq with
  | some c => ((s.cmdLocks (moveCmd m c))[(s.cmdLocks c).idxOf l]?).getD l1
  | none => l1

/-- What has come for a saved launch to the cores and the routes of its old quads, and what waits at the dies for pages, goes to
the new ones. -/
def State.moveOn (s : State) (lid : Nat) (m : Moves) : State :=
  let moved := m.filter fun p => p.1 ≠ p.2
  let s1 := (moved.flatMap fun p => (List.range 4).map (4 * p.1 + ·)).foldl (fun t c =>
    let part := moveCoreState m (corePart lid (s.core c))
    (t.modCore c fun k => { k with
      refusal := k.refusal.filter fun x => startLid x ≠ some lid
      heldFor := k.heldFor.filter fun p => startLid p.2.1 ≠ some lid }).modCore (moveCore m c) fun k =>
      { k with refusal := k.refusal ++ part.refusal, heldFor := k.heldFor ++ part.heldFor }) s
  let item := fun x => if itemLid x = some lid then moveItem m x else x
  if moved.isEmpty then s1
  else (s1.dies.map Prod.fst).foldl (fun s d => s.modDie d fun d => { d with
      walks := d.walks.map item, got := d.got.map fun p => (item p.1, p.2)
      parked := d.parked.map fun p => { p with item := item p.item } })
    { s1 with net := s1.net.map fun f => if s.messageOf lid f.ev then moveFlight m f else f }

/-- One quad is restored, its slot read: the state goes into the quad, and then the scratchpads (20 R497). -/
def State.restoreQuad (s0 : State) (lid : Nat) (l : Launch) (m : Moves) (quad : Nat) : State :=
  match s0.hub.saved.find? fun x => x.lid = lid && some x.no = s0.partQuadNo l.part quad with
  | none => s0
  | some kept =>
    let sh := moveShadow m kept
    let half := s0.halfOf l.part
    let s1 := (s0.setTurnState lid half quad sh.matrix).modQuad quad fun k => { k with
      fret := { joinFret k.fret sh.fret with agelimit := put 0 k.fret.agelimit (half.getD 0) sh.agelimit }
      cmbwait := sh.cmbwait
      eng := sh.eng.foldl (fun m p => put {} m p.1 (joinEngine (get {} m p.1) p.2)) k.eng
      locks := k.locks ++ kept.locks.map (s0.moveLock m (kept.eng.flatMap (·.2.cmds) ++ kept.matrix.comb.flatMap (·.reqs)))
      recon := { held := k.recon.held ++ sh.recon.held, refusal := k.recon.refusal ++ sh.recon.refusal
                 begun := k.recon.begun ++ sh.recon.begun }
      turn := put none k.turn (half.getD 0) sh.turn
      turnSaves := k.turnSaves ++ sh.turnSaves
      tlb := k.tlb.filter fun t => t.xctx ≠ l.xctx }
    let s2 := sh.cores.foldl (fun s p => s.modCore (4 * quad + p.1) fun k => resumeCore k p.2) s1
    let s3 := sh.ctxs.foldl (fun s p => s.restoreCtx (s.slotPa l.part quad) (64 * quad + p.1) p.2) s2
    let s4 := (s3.modDie (dieOf quad) fun d => { d with walks := d.walks ++ sh.pend }).readSlot l.part quad
    { s4 with inbox := s4.inbox ++ sh.inbox }

/-- A launch's part of a die is restored; what other packages have announced meanwhile stands behind it. The translation cache of
its collective engine starts empty (20 R498). -/
def State.restoreDie (s : State) (xctx : Nat) (x : DieShadow) : State :=
  s.modDie x.die fun d => { d with
    tlb := d.tlb.filter fun t => t.xctx ≠ xctx
    barriers := x.barriers.foldl (fun m p => put {} m p.1 { p.2 with remote := p.2.remote ++ (get {} d.barriers p.1).remote }) d.barriers
    coll := joinEngine d.coll x.coll
    collSeq := x.collSeq.foldl (fun m p => put 0 m p.1 p.2) d.collSeq
    collIn := x.collIn ++ d.collIn
    walks := d.walks ++ x.pend }

/-- A launch is restored to its quads and dies, which may be others of the same logical grid, and luthier keeps nothing of it;
phases of its barriers that other packages have completed meanwhile complete (20 R498, 09 R322). -/
def State.restoreLaunch (s : State) (lid : Nat) (l : Launch) : State :=
  let m := s.movesOf lid l
  let dies := (s.hub.savedDies.filter fun x => x.lid = lid).map (moveDieShadow m)
  let s1 := (s.partQuads l.part).foldl (fun s q => s.restoreQuad lid l m q) (s.moveOn lid m)
  let s2 := ((dies.foldl (fun s x => s.restoreDie l.xctx x) s1).modHub fun h => { h with
    saved := h.saved.filter fun x => x.lid ≠ lid, savedDies := h.savedDies.filter fun x => x.lid ≠ lid }).modLaunch lid
      fun l => { l with ladder := .none, holding := true, reading := false }
  (dies.flatMap fun x => x.barriers.map Prod.fst).foldl (fun s k =>
    s.completePhases lid (k / 2 ^ 34 % 8) (k / 2 ^ 28 % 64) (k % 2 ^ 28) 4) s2

/-! ### The run list (19 R454, 21 R508-R510) -/

/-- A launch holds its quads, and none of what follows its save can be done at once. -/
def Launch.holds (l : Launch) : Bool :=
  l.holding && (l.state ≠ .complete || l.ladder = .saved)

/-- The other launches that want the quads of a launch. -/
def State.rivals (s : State) (lid : Nat) (l : Launch) (p : Launch → Bool) : List Nat :=
  (s.launches.filter fun x => x.1 ≠ lid && x.2.any fun y => s.contend l y && p y).map Prod.fst

/-- The quads are made free for a launch, and whether they are: the Complete launches in them are saved, and their slots written,
before (21 R508-R509). -/
def State.makeRoom (s : State) (lid : Nat) (l : Launch) : State × Bool :=
  if !(s.rivals lid l Launch.holds).isEmpty || s.hub.partFailed.contains l.part then (s, false)
  else
    let t := (s.rivals lid l fun x => x.state = .complete && x.ladder = .none).foldl State.saveComplete s
    (t, (t.rivals lid l fun x => x.holding).isEmpty)

/-- The class of a launch in the run list: the reserved class by deadline, then the priorities (21 R508, R510). -/
def Launch.rank (l : Launch) : List Nat :=
  [if l.rsv then 0 else 1,
   if l.rsv then (if l.deadline = 0 then 2 ^ 100 else stampNs l.accepted + l.deadline.toNat) else 7 - l.prio]

/-- How far a launch's queue is from its turn in its priority of a die's run list, round-robin. -/
def State.queueTurn (s : State) (l : Launch) : Nat :=
  (l.queue + 16383 - get 16383 s.hub.rr (s.schedDie l.part * 8 + l.prio)) % 16384

/-- A launch is the first in acceptance order of those of its service core and class that wait in its partition. -/
def State.headOfCore (s : State) (x : Launch) : Bool :=
  !(s.launches.any fun p => p.2.any fun y =>
    y.state = .pending && y.part = x.part && y.svc = x.svc && y.rank = x.rank && y.order < x.order)

/-- Another launch that waits comes before one: for the same quads, by class, a pre-empted launch first, those of one service
core in acceptance order, and the first of each service core round-robin by queue; for other quads, when one service core has
accepted both for one die (19 R454, 21 R508, log 33). -/
def State.ahead (s : State) (x l : Launch) : Bool :=
  decide (x.rank < l.rank) && (s.contend l x || (x.state = .pending && l.state = .pending && x.svc = l.svc &&
      s.schedDie x.part = s.schedDie l.part)) ||
    decide (x.rank = l.rank) &&
      (if s.contend l x then
        if x.ladder = .saved then l.ladder ≠ .saved || decide (x.order < l.order)
        else if l.ladder = .saved then false
        else if x.svc = l.svc then decide (x.order < l.order)
        else s.headOfCore x && decide ([s.queueTurn x, x.order] < [s.queueTurn l, l.order])
      else x.state = .pending && l.state = .pending && x.svc = l.svc && s.schedDie x.part = s.schedDie l.part &&
        decide (x.order < l.order))

/-- No launch that waits comes before this one. -/
def State.firstInLine (s : State) (lid : Nat) (l : Launch) : Bool :=
  s.launches.all fun p => p.1 = lid || p.2.all fun x => !(x.waiting && s.ahead x l)

/-- The places that a saved launch's contexts come back to are Free. -/
def State.placesFree (s : State) (lid : Nat) (l : Launch) : Bool :=
  (s.partQuads l.part).all fun q => (s.hub.saved.filter fun x => x.lid = lid && some x.no = s.partQuadNo l.part q).all fun x =>
    x.ctxs.all fun p => (s.ctx (64 * q + p.1)).status = .free

/-- The bytes of a launch's slots are where its restore reads them, and those of another saved launch of the partition are kept
aside (log 116). -/
def State.bringSlot (s : State) (lid part quad : Nat) : State :=
  match s.hub.saved.find? fun x => x.lid = lid && some x.no = s.partQuadNo part quad with
  | some x => if x.slot.isSome then (s.keepSlot lid part quad).slotBack part quad x else s
  | none => s

/-- A restore begins: the launch has its quads, and every line of its slots is to be read. -/
def State.beginRestore (s : State) (lid : Nat) (l : Launch) : State :=
  (((s.partQuads l.part).foldl (fun s q => s.bringSlot lid l.part q) s).modHub fun h => { h with
    saved := h.saved.map fun x => if x.lid = lid then { x with slot := none, left := slotLines } else x }).modLaunch lid fun l =>
      { l with holding := true, reading := true }

/-- PREEMPT_RESTORE: a saved launch that has work to do gets its quads back (20 R497, 21 R509). -/
def State.preemptRestore (s : State) (lid : Nat) : State :=
  match s.launch lid with
  | none => s
  | some l =>
    if s.hub.fw.running && l.ladder = .saved && l.waiting && s.firstInLine lid l then
      match s.makeRoom lid l with
      | (t, false) => t
      | (t, true) => match t.badSlot l.part with
        | some pa => t.saveFailed lid l.part pa
        | none => t.beginRestore lid l
    else s

/-- The last line has been moved: a saved launch leaves its quads, or one that is restored goes on in them, once the places of its
contexts are free, with what has waited for that. -/
def State.slotsMoved (s : State) (lid : Nat) (l : Launch) : State :=
  if !l.reading then s.modLaunch lid fun l => { l with holding := false }
  else if s.placesFree lid l then ((List.range 4).foldl State.collAdvance (s.restoreLaunch lid l)).serveHeld lid
  else s

/-- One line of a slot is moved as its home admits it; one that is not luthier's fails the save or restore (20 R499, 23 R550). -/
def State.moveLine (s : State) (lid : Nat) (l : Launch) (x : Shadow) : State :=
  let quad := (s.partQuads l.part).getD x.no x.quad
  let pa := s.slotPa l.part quad
  let o := 64 * (slotLines - x.left)
  let on := fun (s : State) => s.modHub fun h => { h with saved := h.saved.map fun y =>
    if y.lid = lid && y.no = x.no then { y with left := y.left - 1 } else y }
  if !s.lineHeld l.part quad x o then on s
  else if !s.slotOwned pa then s.saveFailed lid l.part pa
  else if !s.portAdmits (memPort (pa + o)) then s
  else
    let s1 := s.letIn (memPort (pa + o))
    on (if l.reading then s1 else s1.writeLine pa quad x o)

/-- The lines that a save or restore of a launch has still to move, that it has captured or begun. -/
def State.slotStep (s : State) (lid : Nat) : State :=
  match s.launch lid with
  | none => s
  | some l =>
    if l.ladder ≠ .saved || !l.holding || !s.hub.fw.running then s
    else if l.state = .failed then s.modLaunch lid fun l => { l with holding := false, reading := false }
    else match s.hub.saved.find? fun x => x.lid = lid && x.left ≠ 0 with
      | some x => s.moveLine lid l x
      | none => s.slotsMoved lid l

/-- `PREEMPT_RESTORE` (20 R497). -/
def execPreemptRestore (lid : Nat) (s : State) : Host.Outcome State Fault Refusal := .next (s.preemptRestore lid)

end Sys2Proof.Machine
end

