-- ==== Sys2Proof/Machine/Requests.lean ====
section
/-! DEFINITION. Hardware queues and the requests in them: doorbells, acceptance, the request types, the start of a
launch, and stealing (19 R448-R455, 21 R508-R511). -/

namespace Sys2Proof.Machine

/-! ### Queue registers (19 R448-R450) -/

/-- Writes that a queue has ignored. -/
def Queue.bad (q : Queue) : Queue := { q with dbbad := min 0xFFFF (q.dbbad + 1) }

/-- DOORBELL (19 R450). -/
def State.doorbell (s : State) (k : Nat) (p : Word) : State :=
  let q := s.queueOf k
  let x : BitVec 32 := p.setWidth 32
  let d := (x - q.cons).toNat
  if qSize q.cfg < d then s.modQueue k fun q => { q with ovf := true }
  else if d < (x - q.prod).toNat then s.modQueue k Queue.bad
  else
    let s1 := s.modQueue k fun q => { q with prod := x }
    if x = q.prod then s1 else s1.modHub fun h => { h with bells := h.bells ++ [(k, x.toNat)] }

/-- `DOORBELL` (19 R450). -/
def execDoorbell (q : Nat) (p : Word) (s : State) : Host.Outcome State Fault Refusal := .next (s.doorbell q p)

/-- QCFG_WRITE: registers 0 `QCFG`, 1 `QBASE`, 2 `QPRE`; `QIDX` is not written (19 R448). -/
def State.qcfgWrite (s : State) (k reg : Nat) (x : Word) : State :=
  let q := s.queueOf k
  if 2 < reg then s
  else if qEn q.cfg then s.modQueue k Queue.bad
  else if reg = 0 then
    let s1 := s.modQueue k fun q => { q with cfg := x &&& ~~~0x3FFFF#64 }
    if qEn x then
      (s1.modQueue k fun q => { q with prod := 0, cons := 0 }).modHub fun h => { h with bells := h.bells.filter fun b => b.1 ≠ k }
    else s1
  else if reg = 1 then s.modQueue k fun q => { q with base := x &&& 0xFFFFFFFFFFFC0 }
  else s.modQueue k fun q => { q with pre := x &&& 0xFFFFFFFF }

/-- `QCFG_WRITE` (19 R448). -/
def execQcfgWrite (q reg : Nat) (x : Word) (s : State) : Host.Outcome State Fault Refusal := .next (s.qcfgWrite q reg x)

/-! ### Acceptance (19 R451-R454) -/

/-- The request that 64 bytes hold, and whether it is well formed (19 R451). -/
def readRequest (queue w : Nat) : Request × Bool :=
  let f := fun o n => w / 256 ^ o % 256 ^ n
  let r : Request :=
    { queue := queue, kind := f 0 1, ring := f 2 2, handle := f 4 4, arg := BitVec.ofNat 64 (f 8 8)
      compl := BitVec.ofNat 64 (f 0x10 8), capacity := f 0x18 4, cmbwait := f 0x1C 2, deadline := BitVec.ofNat 64 (f 0x20 8)
      coll := BitVec.ofNat 64 (f 0x28 8), takeHandle := f 0x30 4, take := f 0x34 1 % 2 = 1 }
  let k := r.kind
  (r, f 1 1 = 0 && f 0x1E 2 = 0 && f 0x35 11 = 0 && f 0x34 1 / 2 = 0 && 1 ≤ k && k ≤ 6 &&
    (if k = 6 then r.ring < 64 else r.ring = 0) &&
    (if k = 1 then f 8 8 % 128 = 0 else if k = 5 then f 8 8 % 16 = 0 else f 8 8 = 0) &&
    f 0x10 8 % 128 = 0 && (k = 5 || r.capacity = 0) &&
    (if k = 1 then f 0x28 8 % 8 = 0
     else r.cmbwait = 0 && f 0x20 8 = 0 && f 0x28 8 = 0 && r.takeHandle = 0 && !r.take))

/-- The service core of a queue: the one its configuration names, or one that has stolen it. -/
def Queue.server (q : Queue) : Nat := q.stolenBy.getD (qSvc q.cfg)

/-- A queue holds a record not yet accepted. -/
def Queue.full (q : Queue) : Bool := qEn q.cfg && q.prod ≠ q.cons

/-- The queue whose doorbell a service core serves next. -/
def State.nextBell (s : State) (svc : Nat) : Option Nat :=
  (s.hub.bells.find? fun b => (s.queueOf b.1).server = svc && (s.queueOf b.1).full).map Prod.fst

/-- The commit: `cons` advances, and doorbells that are served are done with (19 R454). -/
def State.commit (s : State) (k : Nat) : State :=
  let c := (s.queueOf k).cons + 1
  (s.modQueue k fun q => { q with cons := c, begun := true }).modHub fun h => { h with
    bells := (match h.bells.findIdx? fun b => b.1 = k with
      | some i => if (h.bells[i]?).any fun b => b.2 = c.toNat then h.bells.eraseIdx i else h.bells
      | none => h.bells)
    accepts := h.accepts + 1 }

/-- The event that performs a request. -/
def requestEvent (r : Request) : Instr :=
  match r.kind with
  | 1 => .launch r
  | 2 => .replay r
  | 3 => .closeSources r
  | 4 => .release r
  | 5 => .dump r
  | _ => .attachRing r

/-- The launch that a take-over names is Complete when the request is accepted, and no request accepted before is to change
that: requests of a queue take effect in acceptance order (19 R453-R454). -/
def State.takesOver (s : State) (r : Request) : Bool :=
  let old := r.queue * 2 ^ 32 + r.takeHandle
  (s.launch old).any (fun l => l.state = .complete) && !(s.net.any fun f => match f.ev with
    | .replay q | .release q => q.queue * 2 ^ 32 + q.handle = old
    | _ => false)

/-- What the acceptance of a request does at once: close sources cuts its launch off from frames that come later (19 R473). -/
def State.atAcceptance (s : State) (r : Request) : State :=
  if r.kind = 3 then s.modLaunch (r.queue * 2 ^ 32 + r.handle) fun l => { l with closing := l.closing || l.state ≠ .failed } else s

/-- REQUEST_ACCEPT: a service core accepts its next record, unless luthier is down or updating, once the record has been read
and memory has room for what the acceptance writes (19 R454, 20 R491, 21 R516, 23 R550). A launch whose queue names a context
of another partition fails with ACCESS; a record of a queue that names an invalid context is taken, and names no place that
its failure could be written to (20 R483, log 135). -/
def State.requestAccept (s0 : State) (svc : Nat) : State :=
  if !s0.hub.fw.running || s0.hub.fw.busy then s0
  else match s0.nextBell svc with
    | none => s0
    | some k =>
      let q := s0.queueOf k
      let a := q.base.toNat + 64 * (q.cons.toNat % qSize q.cfg)
      if !(get {} s0.hub.xctxs (qXctx q.cfg)).valid then s0.commit k else
      let s := s0.reachBytes (qXctx q.cfg) a 64
      if !s.reached (qXctx q.cfg) a 64 then s else
      let p := readRequest k (s.virtRead (qXctx q.cfg) a 64)
      let r := { p.1 with stamp := s.stamp, order := s.hub.accepts, svc := svc, takeOk := s.takesOver p.1 }
      let asks := s.ownPorts (qXctx q.cfg) r.compl.toNat 0x1C true
      if (s.ask asks 0).2 < asks.length then s else
      let s1 := (((s.ask asks 0).1.readOver (qXctx q.cfg) a 64).commit k).writeAccepted k r
      if r.kind = 1 && (get {} s.hub.xctxs (qXctx q.cfg)).part ≠ qPart q.cfg then s1.answerReq r 3 kACCESS 0
      else if p.2 then (s1.atAcceptance r).send (some (endHub, 70000 + svc)) (requestEvent r) else s1.answerReq r 3 kBAD_REQUEST 0

/-- `REQUEST_ACCEPT` (19 R454). -/
def execRequestAccept (svc : Nat) (s : State) : Host.Outcome State Fault Refusal := .next (s.requestAccept svc)

/-! ### The request types (19 R452) -/

/-- The launch that a request names before its image has been read. -/
def State.newLaunch (s : State) (r : Request) : Launch :=
  let cfg := (s.queueOf r.queue).cfg
  { queue := r.queue, handle := r.handle, state := .installing, part := qPart cfg, xctx := qXctx cfg, prio := qPrio cfg
    rsv := qRsv cfg, order := r.order, cmbwait := if r.cmbwait = 0 then 0x400 else r.cmbwait, deadline := r.deadline
    compl := r.compl, accepted := r.stamp, svc := r.svc }

/-- The code of a reserved launch is loaded into its quads and pinned (17 R415): each line has its place in the cache, and is read
from memory as any other is. -/
def State.pinCode (s : State) (l : Launch) : State :=
  if !l.rsv then s
  else (s.partQuads l.part).foldl (fun s q => (List.range (l.codeSize / 128)).foldl (fun s k =>
    (s.modQuad q (fillLine { xctx := l.xctx, line := l.codeBase / 128 + k, bytes := [], pins := [l.queue * 2 ^ 32 + l.handle]
                             stale := true })).send none (.instructionCacheFill q l.xctx (l.codeBase / 128 + k))) s) s

/-- A line of a launch's pinned code is still being read. -/
def State.codeLoading (s : State) (lid : Nat) (l : Launch) : Bool :=
  (s.partQuads l.part).any fun q => (s.quad q).icache.any fun x => x.stale && x.pins.contains lid

/-- The launch whose pool a new one takes over, if it may (19 R453). -/
def State.takenFrom (s : State) (r : Request) : Option (Nat × Launch) :=
  let old := r.queue * 2 ^ 32 + r.takeHandle
  match s.launch old with
  | some l => if r.takeOk && l.state = .complete then some (old, l) else none
  | none => none

/-- A launch is installed, and enters the run list (18 R427, 19 R453). -/
def State.installLaunch (s : State) (r : Request) : State :=
  let lid := r.queue * 2 ^ 32 + r.handle
  let l := s.newLaunch r
  let s1 := ({ s with launches := put none s.launches lid (some l) }).postLaunch lid 0x09
  match s.install l r.arg.toNat r.coll.toNat with
  | .error e => s1.failLaunch lid e.1 e.2 0
  | .ok l1 =>
    let l1 := { l1 with state := .pending }
    let t := if r.take then s.takenFrom r else none
    let s2 := s1.modLaunch lid fun x => { l1 with
      requests := x.requests, taken := t.elim [] fun p => s.dumpOrder p.1 p.2 }
    (match t with
      | some p => s2.releaseLaunch p.1
      | none => s2).pinCode l1

/-- LAUNCH (19 R452). -/
def State.doLaunch (s : State) (r : Request) : State :=
  if (s.launch (r.queue * 2 ^ 32 + r.handle)).isSome || (r.take && (s.takenFrom r).isNone) then
    s.answerReq r 3 kBAD_REQUEST 0
  else s.installLaunch r

/-- What a launch reads: the header of its image, the image, which the header says the length of, and its collective table. -/
def State.imageParts (s : State) (r : Request) : List (Nat × Nat) :=
  let x := qXctx (s.queueOf r.queue).cfg
  [(r.arg.toNat, 0x40), (r.arg.toNat, imageEnd fun o n => s.virtRead x (r.arg.toNat + o) n)] ++
    if r.coll = 0 then [] else [(r.coll.toNat, groupsEnd (fun o n => s.virtRead x (r.coll.toNat + o) n) 16 0)]

/-- The first part of them that has not been read. -/
def State.imageNext (s : State) (r : Request) : Option (Nat × Nat) :=
  (s.imageParts r).find? fun p => !s.reached (qXctx (s.queueOf r.queue).cfg) p.1 p.2

/-- Bytes of them are being read. -/
def State.imageWaits (s : State) (r : Request) : Bool :=
  (s.imageParts r).any fun p => s.ownWaits (qXctx (s.queueOf r.queue).cfg) p.1 (p.1 + p.2)

/-- The service core launches once the image and its collective table have been read, part by part; until then the request is the
next that it performs (20 R491, log 125). -/
def State.launchRead (s : State) (r : Request) : State :=
  let x := qXctx (s.queueOf r.queue).cfg
  match s.imageNext r with
  | none => (s.imageParts r).foldl (fun t p => t.readOver x p.1 p.2) (s.doLaunch r)
  | some p => { s.reachBytes x p.1 p.2 with net := { pair := some (endHub, 70000 + r.svc), ev := .launch r } :: s.net }

/-- `LAUNCH` (19 R452). -/
def execLaunch (r : Request) (s : State) : Host.Outcome State Fault Refusal := .next (s.launchRead r)

/-- `REPLAY` (02 R69, 19 R452). -/
def execReplay (r : Request) (s : State) : Host.Outcome State Fault Refusal := .next (s.serveReq { r with kind := 2 })

/-- `CLOSE_SOURCES` (19 R452). -/
def execCloseSources (r : Request) (s : State) : Host.Outcome State Fault Refusal := .next (s.applyReq { r with kind := 3 })

/-- `RELEASE` (19 R452). -/
def execRelease (r : Request) (s : State) : Host.Outcome State Fault Refusal := .next (s.applyReq { r with kind := 4 })

/-- `DUMP` (19 R452). -/
def execDump (r : Request) (s : State) : Host.Outcome State Fault Refusal := .next (s.applyReq { r with kind := 5 })

/-- `ATTACH_RING` (19 R452). -/
def execAttachRing (r : Request) (s : State) : Host.Outcome State Fault Refusal := .next (s.applyReq { r with kind := 6 })

/-! ### The start of a launch (02 R43, 10 R340-R341, 21 R508) -/

/-- A quad as a launch finds it at its start: limits of its image, matrix state zero, its part of the fretboard
empty. -/
def State.startQuad (s : State) (lid : Nat) (l : Launch) (quad : Nat) : State :=
  let half := s.halfOf l.part
  (s.setTurnState lid half quad ⟨[], [], [], []⟩).modQuad quad fun q => { q with
    cmbwait := l.cmbwait
    turn := put none q.turn (half.getD 0) none
    fret := { dropRecs lid q.fret with agelimit := put 0 q.fret.agelimit (half.getD 0) l.agelimit } }

/-- The queue of a launch that starts has had its turn in its priority (21 R508). -/
def State.queueServed (s : State) (l : Launch) : State :=
  s.modHub fun h => { h with rr := put 16383 h.rr (s.schedDie l.part * 8 + l.prio) l.queue }

/-- LAUNCH_START: the first launch in line, its pinned code loaded, gets its quads and begins to seed; an attach that waited
for that is served. -/
def State.launchStart (s : State) (lid : Nat) : State :=
  match s.launch lid with
  | none => s
  | some l =>
    if l.state = .pending && s.hub.fw.running && s.firstInLine lid l && !s.codeLoading lid l then
      match s.makeRoom lid l with
      | (t, false) => t
      | (t, true) =>
        ((((t.partQuads l.part).foldl (fun s q => s.startQuad lid l q) t).queueServed l).modLaunch lid fun l =>
          { l with state := .seeding, holding := true }.seeded).serveHeld lid
    else s

/-- `LAUNCH_START` (21 R508). -/
def execLaunchStart (lid : Nat) (s : State) : Host.Outcome State Fault Refusal := .next (s.launchStart lid)

/-! ### Stealing and the mailbox (21 R511) -/

/-- The queues of a service core. -/
def State.queuesOf (s : State) (svc : Nat) : List Nat :=
  (s.hub.queues.filter fun q => q.2.server = svc && qEn q.2.cfg).map Prod.fst

/-- The next service core along the ring that has a queue with records. -/
def State.victim (s : State) (thief : Nat) : Option Nat :=
  ((List.range 15).map fun k => (thief + 1 + k) % 16).find? fun v => (s.queuesOf v).any fun q => (s.queueOf q).full

/-- QUEUE_STEAL: an idle service core takes over a queue that it may serve. -/
def State.queueSteal (s : State) (thief q : Nat) : State :=
  if thief < 16 && s.hub.fw.running && (s.queueOf q).full && !((s.queuesOf thief).any fun k => (s.queueOf k).full) &&
      (s.queueOf q).stolenBy.isNone && s.victim thief = some (s.queueOf q).server && s.dieInPart (qPart (s.queueOf q).cfg) (thief / 4) then
    s.modQueue q fun x => { x with stolenBy := some thief, begun := false }
  else s

/-- A service core holds a request of a queue: accepted, and not performed yet. -/
def State.holdsRequest (s : State) (svc k : Nat) : Bool :=
  (s.net.any fun f => f.pair = some (endHub, 70000 + svc) && match f.ev with
    | .launch r | .replay r | .closeSources r | .release r | .dump r | .attachRing r => r.queue = k
    | _ => false) ||
  s.launches.any fun p => p.2.any fun l => l.requests.any fun r => r.queue = k && r.svc = svc

/-- A stolen queue of which its stealer has accepted a request goes back to its own service core once the stealer holds none of
it (21 R511). -/
def State.returnQueues (s : State) : State :=
  (s.hub.queues.filterMap fun p => p.2.stolenBy.bind fun t => if p.2.begun && !s.holdsRequest t p.1 then some p.1 else none).foldl
    (fun s k => s.modQueue k fun q => { q with stolenBy := none }) s

/-- `QUEUE_STEAL` (21 R511). -/
def execQueueSteal (thief q : Nat) (s : State) : Host.Outcome State Fault Refusal := .next (s.queueSteal thief q)

/-- The words that wait on the ring enter a scheduler's inbox as far as it has room: 16 words, in the order sent. -/
def Die.fillMail (d : Die) : Die :=
  { d with mail := d.mail ++ d.mailWait.take (16 - d.mail.length), mailWait := d.mailWait.drop (16 - d.mail.length) }

/-- MAILBOX_MESSAGE: a word has come along the ring to the scheduler of a compute die; it waits while the inbox is full. -/
def State.mailboxMessage (s : State) (die : Nat) (x : Word) : State :=
  if 4 ≤ die then s else s.modDie die fun d => ({ d with mailWait := d.mailWait ++ [x] } : Die).fillMail

/-- A scheduler takes the oldest word out of its inbox, unless luthier is down (21 R511, R518). What the words mean is
luthier's own. -/
def State.readMail (s : State) (die : Nat) : State :=
  if !s.hub.fw.running then s else s.modDie die fun d => ({ d with mail := d.mail.drop 1 } : Die).fillMail

/-- `MAILBOX_MESSAGE` (21 R511). -/
def execMailboxMessage (die : Nat) (x : Word) (s : State) : Host.Outcome State Fault Refusal :=
  .next (s.mailboxMessage die x)

end Sys2Proof.Machine
end

