-- ==== Sys2Proof/Machine/Packets.lean ====
section
/-! DEFINITION. Packets: rings, the classifier, frames in and frames out (19 R459-R464). -/

namespace Sys2Proof.Machine

/-! ### Ring configuration (19 R460) -/

/-- Fields of a ring's word 0. -/
def ringEn (x : Word) : Bool := x.getLsbD 63
def ringPart (x : Word) : Nat := bits x.toNat 58 54
def ringCount (x : Word) : Nat := bits x.toNat 53 40 + 1
def ringSize (x : Word) : Nat := bits x.toNat 39 36
def ringCore (x : Word) : Nat := bits x.toNat 35 23
def ringBase (x : Word) : Nat := bits x.toNat 19 0

/-- A word 0 that the hub accepts. -/
def State.ringOk (s : State) (x : Word) : Bool :=
  6 ≤ ringSize x && ringSize x ≤ 14 && ringBase x + ringCount x * 2 ^ ringSize x ≤ 0x40000 &&
    s.coreInPart (ringPart x) (ringCore x)

def State.modRing (s : State) (r : Nat) (f : Ring → Ring) : State :=
  s.modHub fun h => { h with rings := put {} h.rings r (f (get {} h.rings r)) }

/-- RING_CONFIG_WRITE: word 0 of a ring, while it is disabled. -/
def State.ringConfigWrite (s : State) (r : Nat) (x : Word) : State :=
  if ringEn (get {} s.hub.rings r).word || !s.ringOk x then s
  else s.modRing r fun g => { g with word := x &&& 0x87FFFFFFFF8FFFFF }

/-- `RING_CONFIG_WRITE` (19 R460). -/
def execRingConfigWrite (ring : Nat) (x : Word) (s : State) : Host.Outcome State Fault Refusal :=
  .next (s.ringConfigWrite ring x)

/-! ### Classifier entries (19 R462) -/

def State.clsEntry (s : State) (e : Nat) : ClsEntry := get {} s.hub.cls e
def State.modCls (s : State) (e : Nat) (f : ClsEntry → ClsEntry) : State :=
  s.modHub fun h => { h with cls := put {} h.cls e (f (get {} h.cls e)) }

def ClsEntry.valid (c : ClsEntry) : Bool := c.control.getLsbD 63
def ClsEntry.joins (c : ClsEntry) : Bool := c.control.getLsbD 62

/-- The entries before `e` that its group takes in: valid, and joined to the next; lowest first. -/
def State.groupBefore (s : State) : Nat → List Nat
  | 0 => []
  | e + 1 => if (s.clsEntry e).valid && (s.clsEntry e).joins then s.groupBefore e ++ [e] else []

/-- The group that ends at an entry. -/
def State.groupOf (s : State) (e : Nat) : List Nat := s.groupBefore e ++ [e]

/-- The fields of a group keep the layout. -/
def State.groupOk (s : State) (e : Nat) : Bool :=
  ((s.groupOf e).all fun k => bits (s.clsEntry k).control.toNat 57 56 = 0 && bits (s.clsEntry k).control.toNat 41 0 = 0) &&
    ((s.groupBefore e).all fun k => (s.clsEntry k).action = 0) &&
    bits (s.clsEntry e).action.toNat 8 2 = 0 && bits (s.clsEntry e).action.toNat 1 0 ≤ 1

/-- A group holds an entry. -/
def ClsGroup.holds (g : ClsGroup) (e : Nat) : Bool := g.first ≤ e && e < g.first + g.entries.length

/-- The action of a group is that of its last entry. -/
def ClsGroup.action (g : ClsGroup) : Word := (g.entries.getLastD {}).action

/-- The groups in effect that hold an entry end. -/
def State.disableGroup (s : State) (e : Nat) : State :=
  s.modHub fun h => { h with groups := h.groups.filter fun g => !g.holds e }

/-- The group that ends at an entry takes effect, with its entries as they are, or is refused; what was in effect of them ends. -/
def State.enableGroup (s : State) (e : Nat) : State :=
  let l := s.groupOf e
  let g : ClsGroup := { first := l.headD e, entries := l.map s.clsEntry }
  let s1 := l.foldl State.disableGroup s
  if s.groupOk e then s1.modHub fun h => { h with
    groups := (h.groups.filter fun x => x.first < g.first) ++ [g] ++ h.groups.filter fun x => g.first < x.first }
  else if s.hub.clsErr then s1
  else s1.modHub fun h => { h with clsErr := true, clsBad := g.first }

/-- CLASSIFIER_WRITE: words 0 control, 1 mask, 2 value, 3 action of an entry. A valid control word that ends a group checks the
group and puts it into effect; one that breaks a group in effect takes it out. DESIGN CHOICE (log 131): every other write waits
for that: a group in effect keeps the words that it had when its last entry's valid bit was written (19 R462). -/
def State.classifierWrite (s : State) (e word : Nat) (x : Word) : State :=
  if word = 1 then s.modCls e fun c => { c with mask := x }
  else if word = 2 then s.modCls e fun c => { c with value := x }
  else if word = 3 then s.modCls e fun c => { c with action := x }
  else
    let s0 := if x.getLsbD 63 && x.getLsbD 62 = (s.clsEntry e).joins then s else s.disableGroup e
    let s1 := s0.modCls e fun c => { c with control := x }
    if x.getLsbD 63 && !x.getLsbD 62 then s1.enableGroup e else s1

/-- `CLASSIFIER_WRITE` (19 R462). -/
def execClassifierWrite (entry word : Nat) (x : Word) (s : State) : Host.Outcome State Fault Refusal :=
  .next (s.classifierWrite entry word x)

/-! ### A frame arrives (19 R461, R463) -/

/-- n bytes at an offset of a frame, the first the most significant; zero beyond the end. -/
def beAt (l : List Byte) (o n : Nat) : Nat := (List.range n).foldl (fun a k => a * 256 + (l.getD (o + k) 0).toNat) 0

/-- One entry's test of a frame. -/
def ClsEntry.matches (port : Nat) (l : List Byte) (c : ClsEntry) : Bool :=
  c.control.getLsbD (58 + port) &&
    (BitVec.ofNat 64 (beAt l (bits c.control.toNat 55 42) 8) &&& c.mask) = c.value

/-- The group that a frame matches: the first in effect each of whose entries it matches. -/
def State.groupFor (s : State) (port : Nat) (l : List Byte) : Option ClsGroup :=
  s.hub.groups.find? fun g => g.entries.all (ClsEntry.matches port l)

/-- A frame is dropped and counted, by cause (19 R463). -/
def State.dropFrame (s : State) (port c : Nat) : State :=
  s.modPort port fun p => { p with drops := put 0 p.drops c (min (2 ^ 32 - 1) (get 0 p.drops c + 1)) }

/-- The frame fills a slot of a ring, and its record is inserted. -/
def State.fillSlot (s : State) (port r first lid : Nat) (l : Launch) (act : Word) (frame : List Byte) : State :=
  let g := get {} s.hub.rings r
  let core := ringCore g.word
  let size := 2 ^ ringSize g.word
  let off := ringBase g.word + g.head * size
  let room := size - 16
  let len := (if room < frame.length then 2 ^ 31 else 0) + port * 2 ^ 29 + frame.length % 2 ^ 15
  let key := fun k hi : Nat => if act.getLsbD (44 - k) then beAt frame (bits act.toNat hi (hi - 10)) 2 else 0
  let r1 : Rec := ⟨mkTag (bits act.toNat 52 45) l.gen (key 0 41) (key 1 30) (key 2 19), BitVec.ofNat 64 (2 ^ 54 + core * 2 ^ 23 + off)⟩
  let s1 := { s with mem := Memory.setBytes s.mem (Place.scratch core (off + 16)).key (frame.take room) }
  let s2 := ((s1.wr (.scratch core (off + 4)) 12 s.stamp.toNat).wr (.scratch core off) 4 len).setFull core (off / 4) true
  let s3 := (s2.servePres core).insertRecord (endHub + 1) 0 0 (l.schedWho 0 lid) lid r1 none
  (s3.modRing r fun g => { g with head := (g.head + 1) % ringCount g.word }).post 4 0x08 (some lid) 4096 0 (BitVec.ofNat 32 len)
    (BitVec.ofNat 32 (r + 256 * g.head)) (BitVec.ofNat 32 first)

/-- The frame goes to the ring of an action. -/
def State.deliverFrame (s : State) (port first : Nat) (act : Word) (frame : List Byte) : State :=
  let r := bits act.toNat 58 53
  let g := get {} s.hub.rings r
  match g.att, g.att.bind s.launch with
  | some lid, some l =>
    if !ringEn g.word || l.closing || ringPart g.word ≠ bits act.toNat 63 59 then s.dropFrame port 3
    else if !(l.kind (bits act.toNat 52 45)).any fun k => k.cls = 0 then s.dropFrame port 5
    else if s.full (ringCore g.word) ((ringBase g.word + g.head * 2 ^ ringSize g.word) / 4) then s.dropFrame port 4
    else s.fillSlot port r first lid l act frame
  | _, _ => s.dropFrame port 3

/-- FRAME_ARRIVAL: checked, classified, written to a ring and inserted, or dropped. -/
def State.frameArrival (s : State) (port : Nat) (good : Bool) (frame : List Byte) : State :=
  if !good || (!(s.port port).galsol && 9216 < frame.length) then s.dropFrame port 0
  else match s.groupFor port frame with
    | none => s.dropFrame port 1
    | some g => if g.action.getLsbD 0 then s.dropFrame port 2 else s.deliverFrame port g.first g.action frame

/-- `FRAME_ARRIVAL` (19 R463). -/
def execFrameArrival (port : Nat) (good : Bool) (frame : List Byte) (s : State) : Host.Outcome State Fault Refusal :=
  .next (s.frameArrival port good frame)

/-! ### Frames out (19 R464) -/

/-- A departure stamp enters its port's FIFO of 64, or is counted as lost. -/
def State.stampFrame (s : State) (port q : Nat) : State :=
  s.modPort port fun p =>
    if p.stamps.length < 64 then { p with stamps := p.stamps ++ [(q, s.stamp)] }
    else { p with stampsLost := min (2 ^ 32 - 1) (p.stampsLost + 1) }

/-- The egress queue that a port serves next: the first after the last served whose head is for the port. -/
def State.nextEgress (s : State) (port : Nat) : Option Nat :=
  let last := (s.port port).lastEg
  ((List.range 64).map fun k => (last + 1 + k) % 64).find? fun q =>
    ((get {} s.hub.egress q).frames.head?).any fun f => f.1 = port

/-- The form of a frame on its port: padded on Ethernet; on Galsol a class 0 message, its source written. -/
def State.leave (s : State) (port : Nat) (f : List Byte) : State :=
  if (s.port port).galsol then
    let body := f.set 1 (BitVec.ofNat 8 s.hub.pkgnum)
    s.routeMessage port none (mkMessage (leAt f 0 1) s.hub.pkgnum 0 0 0 0 0 0 body)
  else s.emit (.frame port (f ++ List.replicate (60 - f.length) 0))

/-- EGRESS_FRAME: the next frame of a port leaves it. -/
def State.egressFrame (s : State) (port : Nat) : State :=
  if (s.port port).down || ((s.port port).galsol && !(s.port port).up) then s
  else match s.nextEgress port with
    | none => s
    | some q =>
      let e := get {} s.hub.egress q
      let s1 := (s.modHub fun h => { h with egress := put {} h.egress q { e with frames := e.frames.drop 1 } }).modPort port
        fun p => { p with lastEg := q }
      let s2 := if e.conf.getLsbD 57 then s1.stampFrame port q else s1
      match e.frames with
      | f :: _ => s2.leave port f.2
      | [] => s2

/-- `EGRESS_FRAME` (19 R464). -/
def execEgressFrame (port : Nat) (s : State) : Host.Outcome State Fault Refusal := .next (s.egressFrame port)

/-- The three words of `EGSTAMP`. -/
def State.egstampWord (s : State) (port k : Nat) : Word :=
  let p := s.port port
  match p.stamps, k with
  | (q, t) :: _, 0 => BitVec.ofNat 64 (2 ^ 63 + q * 2 ^ 56 + t.toNat / 2 ^ 48)
  | (_, t) :: _, 1 => BitVec.ofNat 64 (t.toNat % 2 ^ 48 * 65536)
  | _, 2 => BitVec.ofNat 64 p.stampsLost
  | _, _ => 0

/-- The head entry of the stamps leaves. -/
def State.popStamp (s : State) (port : Nat) : State := s.modPort port fun p => { p with stamps := p.stamps.drop 1 }

/-- `EGSTAMP_READ`: a read of word 1 by the host (19 R464). -/
def execEgstampRead (port : Nat) (s : State) : Host.Outcome State Fault Refusal :=
  .next ((s.emit (.egstamp port (s.egstampWord port 1))).popStamp port)

end Sys2Proof.Machine
end

