-- ==== Sys2Proof/Machine/Galsol.lean ====
section
/-! DEFINITION. The Galsol link: training, data flits, sequence numbers, credits, messages received, and the loss of a
link (19 R465-R471, 21 R524). -/

namespace Sys2Proof.Machine

/-! ### Flits (19 R465) -/

/-- The CRC32C of some bytes, inverted. -/
def crc32c (l : List Byte) : Nat := (l.foldl (fun c b => crcStep c b.toNat) 0xFFFFFFFF) ^^^ 0xFFFFFFFF

/-- Bytes filled up with zeros to a length. -/
def padTo (n : Nat) (l : List Byte) : List Byte := l ++ List.replicate (n - l.length) 0

/-- A flit of a header and a payload. -/
def mkFlit (h : Nat) (payload : List Byte) : List Byte :=
  let l := leBytes 8 h ++ padTo 116 payload
  l ++ leBytes 4 (crc32c l)

/-- The channel whose freed flits the next header returns, and their number. -/
def Port.nextReturn (p : Port) : Nat × Nat := match p.freed with
  | (c, n) :: _ => (c, min 1023 n)
  | [] => (0, 0)

/-- What every header carries: the last data flit received in order, and credits. -/
def Port.common (p : Port) : Nat :=
  (p.rxSeq + 4095) % 4096 * 2 ^ 34 + p.nextReturn.1 * 2 ^ 32 + p.nextReturn.2 * 2 ^ 22

/-- The credits of a header have been returned. -/
def Port.returned (p : Port) : Port :=
  let r := p.nextReturn
  { p with freed := put 0 p.freed r.1 (get 0 p.freed r.1 - r.2) }

/-- A flit of a type, with a payload, leaves a port. -/
def State.sendPlain (s : State) (port type : Nat) (payload : List Byte) : State :=
  let p := s.port port
  (s.emit (.flit port (mkFlit (type * 2 ^ 60 + p.common) payload))).modPort port Port.returned

/-- A LINK event (22 R528): 0 retry, 1 corrected, 2 failed, 3 width drop. The hub's links, and on a compute die the hops: the
unit of a hop is the quad it starts at, as the event's source is, or from 256 up a die port. -/
def State.postLink (s : State) (die unit status count : Nat) : State :=
  s.post die 0x0F none (if die < 4 && unit < 256 then (quadAt die 0 0 + unit) * 4 else die * 1024) 0 (BitVec.ofNat 32 unit) (BitVec.ofNat 32 status) (BitVec.ofNat 32 count)

/-- The location of a port in error records: its `GSTAT` in the hub's map. -/
def portLoc (port : Nat) : Word := BitVec.ofNat 64 (2 ^ 62 + 4 * 2 ^ 33 + 0x403000 + 8 * port)

/-! ### Training (19 R466, 21 R524) -/

/-- Receive buffer of a channel in flits (19 R467). -/
def vcSize (vc : Nat) : Nat := if vc = 0 || vc = 2 then 512 else if vc = 1 then 64 else 0

/-- Training begins: nothing sent or received yet. -/
def Port.train (p : Port) : Port :=
  { p with up := false, losses := p.losses + (if p.up then 1 else 0), trainSent := 0, trainGood := 0, peer := [] }

/-- PCS_LOCK: the port's link comes back. The first lock since reset shows the mode that firmware chose: a Galsol port
begins to train at the width offered (0 full, 1 half, 2 quarter), and width 3 stands for an Ethernet port. -/
def State.pcsLock (s : State) (port width : Nat) : State :=
  s.modPort port fun p => { p.train with
    locked := true, down := false, offered := width % 3, moded := true
    galsol := if p.moded then p.galsol else width < 3 }

/-- `PCS_LOCK` (19 R466). -/
def execPcsLock (port width : Nat) (s : State) : Host.Outcome State Fault Refusal := .next (s.pcsLock port width)

/-- A link below its full width is logged, and counted as capacity lost (21 R524, 23 R547). -/
def State.linkDegraded (s : State) (link : Nat) (loc : Word) : State :=
  ((s.logErr 4 errLinkDegraded loc none 0).postLink 4 link 3 1).modHub fun h => { h with links := h.links ||| (1 <<< link) }

/-- A link at full width clears its bit (23 R547). -/
def State.linkWhole (s : State) (link : Nat) : State :=
  s.modHub fun h => { h with links := h.links &&& ~~~(1 <<< link : BitVec 6) }

/-- LINK UP: 16 train flits sent, 16 good ones received (19 R466). -/
def State.linkUp (s : State) (port : Nat) : State :=
  let p := s.port port
  if p.galsol && p.locked && !p.up && 16 ≤ p.trainSent && 16 ≤ p.trainGood then
    let width := max p.offered (leAt p.peer 3 1 % 4)
    let s1 := s.modPort port fun p => { p with
      up := true, width := width, ppkg := leAt p.peer 1 1, pport := leAt p.peer 2 1 % 4
      retrains := min (2 ^ 32 - 1) (p.retrains + 1)
      credits := (List.range 4).foldl (fun m c => put 0 m c (leAt p.peer (4 + 2 * c) 2)) []
      freed := [], txSeq := 0, rxSeq := 0, replay := [], rxbuf := [], nakking := false }
    if width = 0 then s1.linkWhole port else s1.linkDegraded port (portLoc port)
  else s

/-- The payload of a train flit. -/
def State.trainPayload (s : State) (port : Nat) : List Byte :=
  leBytes 1 1 ++ leBytes 1 s.hub.pkgnum ++ leBytes 1 port ++ leBytes 1 (s.port port).offered ++
    (List.range 4).flatMap fun c => leBytes 2 (vcSize c)

/-- TRAIN_FLIT: a locked Galsol port sends a train flit. -/
def State.trainFlit (s : State) (port : Nat) : State :=
  let p := s.port port
  if p.galsol && p.locked then
    ((s.sendPlain port 1 (s.trainPayload port)).modPort port fun p => { p with trainSent := p.trainSent + 1 }).linkUp port
  else s

/-- `TRAIN_FLIT` (19 R466). -/
def execTrainFlit (port : Nat) (s : State) : Host.Outcome State Fault Refusal := .next (s.trainFlit port)

/-- A train flit received: one more in a row, or a peer that keeps the link down. -/
def State.trainReceived (s : State) (port : Nat) (x : List Byte) : State :=
  if leAt x 0 1 ≠ 1 || leAt x 1 1 = s.hub.pkgnum then
    (s.modPort port fun p => { p with trainGood := 0 }).postLink 4 port 2 1
  else (s.modPort port fun p => { p with trainGood := p.trainGood + 1, peer := x }).linkUp port

/-! ### Sending (19 R467-R468) -/

/-- A channel may send a data flit. -/
def Port.maySend (p : Port) (vc : Nat) : Bool := !(get [] p.txq vc).isEmpty && 0 < get 0 p.credits vc

/-- The channel served next, round-robin. -/
def Port.nextVc (p : Port) : Option Nat := ((List.range 4).map fun k => (p.lastVc + 1 + k) % 4).find? p.maySend

/-- No data flit can be sent now: no channel has one and a credit for it, or the replay buffer is full. -/
def Port.idle (p : Port) : Bool := !p.up || 1024 ≤ p.replay.length || p.nextVc.isNone

/-- DATA_FLIT_SEND: the next flit of a channel, when it is that channel's turn; an idle flit when none can be sent, since
the stream of flits is continuous (19 R465). -/
def State.dataFlitSend (s : State) (port vc : Nat) : State :=
  let p := s.port port
  if p.galsol && p.locked && p.idle then s.sendPlain port 0 []
  else if p.up && p.replay.length < 1024 && p.nextVc = some vc then
    match get [] p.txq vc with
    | [] => s
    | m :: rest =>
      let now := m.rest.take 116
      let later := m.rest.drop 116
      let h := 2 * 2 ^ 60 + vc * 2 ^ 58 + p.txSeq * 2 ^ 46 + p.common + now.length * 2 ^ 15 + if later.isEmpty then 2 ^ 14 else 0
      let f := mkFlit h now
      (s.emit (.flit port f)).modPort port fun p => { p.returned with
        txSeq := (p.txSeq + 1) % 4096, lastVc := vc
        credits := put 0 p.credits vc (get 0 p.credits vc - 1)
        replay := p.replay ++ [{ seq := p.txSeq, times := 1, flit := f, head := m.head, lid := m.lid }]
        txq := put [] p.txq vc (if later.isEmpty then rest else { m with rest := later } :: rest) }
  else s

/-- `DATA_FLIT_SEND` (19 R467). -/
def execDataFlitSend (port vc : Nat) (s : State) : Host.Outcome State Fault Refusal := .next (s.dataFlitSend port vc)

/-! ### The loss of a link (19 R468, 10 R358) -/

/-- The messages that a link has in flight, one of each: header, and the launch of this package that sends it. -/
def Port.inFlight (p : Port) : List (List Byte × Option Nat) :=
  let tx := p.txq.flatMap fun q => q.2.map fun m => (m.head, m.lid)
  (tx ++ p.replay.map (fun x : Sent => (x.head, x.lid)) ++ p.rxbuf.map fun q : Nat × List Byte => (q.2.take 16, none)).eraseDups

/-- A message from another package is for a launch: of a collective, for a member of its group from another, whose command has
not ended there; of a pod barrier, for a phase that has not completed, from a package of group 0 (19 R458, R469). -/
def State.inboundFor (s : State) (lid : Nat) (l : Launch) (h : List Byte) : Bool :=
  let cls := leAt h 2 1
  let id := leAt h 10 1
  let n := leAt h 12 4
  let g := l.groups.getD id []
  leAt h 0 1 = s.hub.pkgnum &&
    if cls = 3 then (l.barriers.any fun b => b.1 = 4 && b.2.1 = id) && (s.barrierNode lid 4 id 0).phases ≤ n &&
      (s.otherPackages (l.groups.getD 0 [])).contains (leAt h 1 1)
    else (cls = 1 || cls = 2) && g.contains (s.memberOf (leAt h 8 1)) && g.contains (leAt h 1 1 + 256 * leAt h 9 1) &&
      s.collOpen (some lid) id n (leAt h 8 1)

/-- A launch has lost a collective or pod-barrier message: one that it sent, or one that was on its way to it. -/
def State.lostFor (s : State) (lid : Nat) (l : Launch) (h : List Byte × Option Nat) : Bool :=
  if h.2.isSome then h.2 = some lid else s.inboundFor lid l h.1

/-- The launch fails with MACHINE, its collective commands end with PORT. -/
def State.loseLaunch (s : State) (lid : Nat) : State :=
  let cmds := (s.outstanding lid).filter fun c => c.unit = 4
  let s1 := cmds.foldl (fun s c =>
    let k := (s.started c).elim 0 (·.progress)
    (s.modEngine c.unit c.place (dropCmds lid)).endCmd c ⟨2, ePORT, s.elemOf c k⟩) s
  s1.failLaunch lid kMACHINE (anyIndex kMACHINE) 0

/-- A Galsol link goes down: what is in flight on it is lost, and it trains again. -/
def State.linkLost (s : State) (port : Nat) : State :=
  let heads := (s.port port).inFlight
  let hit := s.launches.filterMap fun x => x.2.bind fun l => if heads.any (s.lostFor x.1 l) then some x.1 else none
  hit.foldl State.loseLaunch (s.modPort port fun p => { p.train with
    replay := [], rxbuf := [], txq := [], credits := [], freed := [], nakking := false })

/-- A link that has failed: HOP_FAIL, and a LINK event. -/
def State.linkFail (s : State) (port : Nat) : State :=
  ((s.logErr 4 errHopFail (portLoc port) none 0).postLink 4 port 2 1).linkLost port

/-- PORT_DOWN: a network port loses its link until it locks again. -/
def State.portDown (s : State) (port : Nat) : State :=
  let s1 := s.modPort port fun p => { p with down := true, locked := false, losses := p.losses + 1 }
  if (s.port port).galsol then (s1.postLink 4 port 2 1).linkLost port else s1

/-- `PORT_DOWN` (10 R358). -/
def execPortDown (port : Nat) (s : State) : Host.Outcome State Fault Refusal := .next (s.portDown port)

/-- LINK_WIDTH_CHANGE: links 0 to 3 are network ports, 4 and 5 the PCIe links; width 0 is full. -/
def State.linkWidthChange (s : State) (link width : Nat) : State :=
  let s1 := if link < 4 then s.modPort link fun p => { p with offered := width, width := width } else s
  if width = 0 then s1.linkWhole link else s1.linkDegraded link (portLoc link)

/-- `LINK_WIDTH_CHANGE` (21 R524). -/
def execLinkWidthChange (link width : Nat) (s : State) : Host.Outcome State Fault Refusal :=
  .next (s.linkWidthChange link width)

/-! ### Messages received (19 R469-R471) -/

/-- The arrivals of another package to a phase of a pod barrier (19 R469). -/
def State.podArrive (s : State) (m : List Byte) : State :=
  let src := leAt m 1 1
  let id := leAt m 10 1
  let phase := leAt m 12 4
  (s.launches.filterMap fun x => x.2.bind fun l =>
    if (l.barriers.any fun b => b.1 = 4 && b.2.1 = id) && (s.otherPackages (l.groups.getD 0 [])).contains src then some x.1
    else none).foldl (fun s lid =>
      (s.modBarrier lid 4 id 0 fun b => { b with remote := b.remote ++ [(phase, src, leAt m 16 4)] }).completePhases
        lid 4 id 0 4) s

/-- A whole message: delivered by its class, forwarded, or dropped. -/
def State.messageArrives (s : State) (port : Nat) (m : List Byte) : State :=
  let cls := leAt m 2 1
  if 4 ≤ cls then s.gdrop port 2
  else if 15 ≤ leAt m 3 1 then s.gdrop port 1
  else if leAt m 0 1 = s.hub.pkgnum then
    if cls = 0 then s.frameArrival port true (m.drop 16)
    else if cls = 3 then s.podArrive m
    else s.collArrive m
  else s.routeMessage port none (m.set 3 (BitVec.ofNat 8 (leAt m 3 1 + 1)))

/-- The payload of an accepted data flit joins its message; the flits of a whole message leave the buffer. -/
def State.dataAccepted (s : State) (port vc : Nat) (last : Bool) (x : List Byte) : State :=
  let m := get [] (s.port port).rxbuf vc ++ x
  if last then
    (s.modPort port fun p => { p with
      rxbuf := put [] p.rxbuf vc [], freed := put 0 p.freed vc (get 0 p.freed vc + (m.length + 115) / 116) }).messageArrives
      port m
  else s.modPort port fun p => { p with rxbuf := put [] p.rxbuf vc m }

/-- A nak that names the expected data flit. -/
def State.sendNak (s : State) (port : Nat) : State := s.sendPlain port 3 (leBytes 2 (s.port port).rxSeq)

/-- A data flit, or one that cannot be read, is discarded; the first such discard is answered by a nak (19 R468). -/
def State.discard (s : State) (port : Nat) : State :=
  let p := s.port port
  if p.up then
    if p.nakking then s else (s.modPort port fun p => { p with nakking := true }).sendNak port
  else s.modPort port fun p => { p with trainGood := 0 }

/-- NAK_RESEND: a receiver that still waits sends its nak again. -/
def State.nakResend (s : State) (port : Nat) : State :=
  if (s.port port).up && (s.port port).nakking then s.sendNak port else s

/-- `NAK_RESEND` (19 R468). -/
def execNakResend (port : Nat) (s : State) : Host.Outcome State Fault Refusal := .next (s.nakResend port)

/-- Every flit's ack and credits. -/
def State.acksCredits (s : State) (port h : Nat) : State :=
  s.modPort port fun p =>
    let vc := bits h 33 32
    { p with
      replay := match p.replay.findIdx? fun x => x.seq = bits h 45 34 with
        | some k => p.replay.drop (k + 1)
        | none => p.replay
      credits := put 0 p.credits vc (get 0 p.credits vc + bits h 31 22) }

/-- A flit of the replay buffer leaves again, with the ack and the credits of now (19 R465, R468). -/
def State.resendFlit (s : State) (port : Nat) (x : Sent) : State :=
  let h := leAt x.flit 0 8
  (s.emit (.flit port (mkFlit (h / 2 ^ 46 * 2 ^ 46 + (s.port port).common + h % 2 ^ 22) ((x.flit.drop 8).take 116)))).modPort port
    Port.returned

/-- A nak: the flits from the one named are sent again, in order; one that has been sent 16 times fails the link. -/
def State.nakReceived (s : State) (port n : Nat) : State :=
  match (s.port port).replay.findIdx? fun x => x.seq = n with
  | none => s
  | some k =>
    let again := (s.port port).replay.drop k
    if again.any fun x => 16 ≤ x.times then s.linkFail port
    else (again.foldl (fun s x => s.resendFlit port x) (s.postLink 4 port 0 again.length)).modPort port fun p => { p with
      replay := p.replay.take k ++ (p.replay.drop k).map fun x => { x with times := x.times + 1 } }

/-- FLIT_RECEIVE: a received flit is checked, sequenced, acknowledged or nakked. -/
def State.flitReceive (s : State) (port : Nat) (flit : List Byte) : State :=
  let h := leAt flit 0 8
  let x := (flit.drop 8).take 116
  let p := s.port port
  if !p.galsol || !p.locked then s
  else if flit.length ≠ 128 || leAt flit 124 4 ≠ crc32c (flit.take 124) || 4 ≤ bits h 63 60 then s.discard port
  else
    let s1 := if p.up then s.acksCredits port h else s
    match bits h 63 60 with
    | 1 => if p.up then s1 else s1.trainReceived port x
    | 2 =>
      if !p.up then s1
      else if bits h 57 46 = p.rxSeq then
        (s1.modPort port fun p => { p with rxSeq := (p.rxSeq + 1) % 4096, nakking := false }).dataAccepted port
          (bits h 59 58) (bits h 14 14 = 1) (x.take (bits h 21 15))
      else s1.discard port
    | 3 => if p.up then s1.nakReceived port (leAt x 0 2) else s1
    | _ => s1

/-- `FLIT_RECEIVE` (19 R468). -/
def execFlitReceive (port : Nat) (flit : List Byte) (s : State) : Host.Outcome State Fault Refusal :=
  .next (s.flitReceive port flit)

end Sys2Proof.Machine
end

