-- ==== Sys2Proof/Machine/Partition.lean ====
section
/-! DEFINITION. The hub's clock registers, partitions and the connection matrix, translation contexts, ownership of
granules and the translation fence (19 R472, 20 R474-R492). -/

namespace Sys2Proof.Machine

/-! ### The clock (19 R472) -/

/-- `CLKLATCH`: the time is copied into `CLKHI` and `CLKLO`. -/
def State.clkLatch (s : State) (x : Word) : State :=
  if x.getLsbD 0 then
    s.modHub fun h => { h with
      clkhi := (s.stamp.extractLsb' 48 48).setWidth 64
      clklo := (s.stamp.extractLsb' 0 48 ++ 0#16 : BitVec 64) }
  else s

/-- `CLKLATCH_WRITE` (19 R472). -/
def execClklatchWrite (x : Word) (s : State) : Host.Outcome State Fault Refusal := .next (s.clkLatch x)

/-- The clock count after a step of signed nanoseconds. The spec gives no time before zero: there the count is
free. -/
def steppedTime (t : Nat) (off : Int) : Nat :=
  let u : Int := t + off * (11 * 2 ^ 40)
  if 0 ≤ u then u.toNat else (Config.freeWord (2 ^ 64 + (-u).toNat)).toNat

/-- Every launch that runs has seen a step. -/
def markStepped (l : Launch) : Launch :=
  if l.state = .seeding || l.state = .running then { l with stepped := true } else l

/-- `CLKSTEP`. -/
def State.clkStep (s : State) (x : Word) : State :=
  let s1 := s.modHub fun h => { h with time := steppedTime h.time x.toInt }
  { s1 with launches := s1.launches.map fun p => (p.1, p.2.map markStepped) }

/-- `CLKSTEP_WRITE` (19 R472). -/
def execClkstepWrite (x : Word) (s : State) : Host.Outcome State Fault Refusal := .next (s.clkStep x)

/-! ### Partitions and the connection matrix (20 R474-R478) -/

/-- The bits of `PART` that are not reserved (20 R476). -/
def partBits : Word := 0xFE000000FFFFFFFF

/-- A refusal is recorded in `PARTERR`, whose cause and partition are those of the first since err was cleared
(20 R478). -/
def State.partRefuse (s : State) (n cause : Nat) : State :=
  s.modHub fun h => { h with partErr := true, partBad := if h.partErr then h.partBad else (cause, n) }

/-- The requester port is usable: its quadrant is in service (21 R523). -/
def State.portOk (s : State) (p : Nat) : Bool := !s.hub.heldOut.contains (p / 2)

/-- A launch of the partition has not been released. -/
def State.partHolds (s : State) (n : Nat) : Bool := s.launches.any fun p => p.2.any fun l => l.part = n

/-- The cause that refuses a write of `PART`n that would enable it, the first of the table (20 R478, 21 R523). -/
def State.partCause (s : State) (n : Nat) (x : Word) : Option Nat :=
  let req := partReq x
  let peer := get 0 s.hub.part (partPeer x)
  if (List.range 16).any fun j => req.getLsbD (2 * j) ≠ req.getLsbD (2 * j + 1) then some 0
  else if (List.range 32).any (fun m => m ≠ n && partEn (get 0 s.hub.part m) &&
      partReq (get 0 s.hub.part m) &&& req ≠ 0 && !(partShared x && partPeer x = m)) ||
      (List.range 32).any (fun p => req.getLsbD p && !s.portOk p) then some 1
  else if partShared x && (!partShared peer || partPeer peer ≠ n || partReq peer ≠ req) then some 2
  else if s.partHolds n then some 3
  else none

/-- A write of `PART`n (20 R478). -/
def State.partWrite (s : State) (n : Nat) (x : Word) : State :=
  let set := fun s : State => s.modHub fun h => { h with part := put 0 h.part n (x &&& partBits) }
  if 32 ≤ n then s
  else if partEn (get 0 s.hub.part n) then s.partRefuse n 3
  else if partEn x then
    match s.partCause n x with
    | some c => s.partRefuse n c
    | none => set s
  else set s

/-- `PART_WRITE` (20 R478). -/
def execPartWrite (n : Nat) (x : Word) (s : State) : Host.Outcome State Fault Refusal := .next (s.partWrite n x)

/-- The enabled partition that a requester port belongs to. -/
def State.partOfPort (s : State) (p : Nat) : Option Nat :=
  (List.range 32).find? fun n => partEn (get 0 s.hub.part n) && (partReq (get 0 s.hub.part n)).getLsbD p

/-- A write of `XCONN`p (20 R477-R478). -/
def State.xconnWrite (s : State) (p : Nat) (x : Word) : State :=
  if 32 ≤ p then s
  else match s.partOfPort p with
    | some n => s.partRefuse n 3
    | none => s.modHub fun h => { h with xconn := put 0 h.xconn p (x &&& 0x3FFFFFFFFFF) }

/-- `XCONN_WRITE` (20 R478). -/
def execXconnWrite (p : Nat) (x : Word) (s : State) : Host.Outcome State Fault Refusal := .next (s.xconnWrite p x)

/-! ### Translation contexts (20 R482-R483) -/

/-- The context that `XCW0` and `XCW1` describe. -/
def xctxOfWords (a b : Word) : Xctx :=
  { valid := a.getLsbD 63
    part := (a.extractLsb' 58 5).toNat
    tenant := (a.extractLsb' 50 8).toNat
    root := (b.extractLsb' 16 36).toNat }

/-- A write of `XCSEL` commits the context and drops every translation of its id. -/
def State.xcselWrite (s : State) (x : Word) : State :=
  let id := x.toNat % 65536
  (s.modHub fun h => { h with xcsel := id, xctxs := put {} h.xctxs id (xctxOfWords h.xcw0 h.xcw1) }).dropTlb
    (fun _ => true) (fun _ => true) (xlinvDrops 1 id 0)

/-- `XCSEL_WRITE` (20 R483). -/
def execXcselWrite (x : Word) (s : State) : Host.Outcome State Fault Refusal := .next (s.xcselWrite x)

/-! ### Ownership (20 R488-R489) -/

/-- The entry of a granule is written; a change of its tenant or its luthier bit fills it with zeros. -/
def State.setOwner (s : State) (e : BitVec 16) (g : Nat) : State :=
  if 2 ^ 25 ≤ g then s
  else
    let old := get (0 : BitVec 16) s.hub.own g
    let s1 := s.modHub fun h => { h with own := put 0 h.own g e }
    if old &&& 0x40FF = e &&& 0x40FF then s1
    else ({ s1 with mem := Memory.clear s1.mem (g * 65536) ((g + 1) * 65536) } : State).noteWrite (.tier (g * 65536)) 65536

/-- A write of `OWNSET`: its fields are set, and go runs the operation over the range of `OWNRANGE`. Ownership is read
afresh by every access, so no cached outcome is left to discard. -/
def State.ownsetWrite (s : State) (x : Word) : State :=
  let s1 := s.modHub fun h => { h with ownSet := x &&& 0x3FF }
  if x.getLsbD 10 then
    let e : BitVec 16 := x.extractLsb' 9 1 ++ x.extractLsb' 8 1 ++ 0#6 ++ x.extractLsb' 0 8
    let first := (s.hub.ownRange.extractLsb' 16 25).toNat
    let count := (s.hub.ownRange.extractLsb' 41 23).toNat + 1
    (List.range count).foldl (fun s k => s.setOwner e (first + k)) s1
  else s1

/-- `OWNSET_GO` (20 R489). -/
def execOwnsetGo (x : Word) (s : State) : Host.Outcome State Fault Refusal := .next (s.ownsetWrite x)

/-! ### The fence (20 R492) -/

/-- A translated global access on its way to its home. -/
def globalInFlight : Instr → Option (Nat × Nat)
  | .remoteAccess r => if r.pa.isSome then some (r.th, r.seq) else none
  | _ => none

/-- `XFENCE`.go: the fence waits for the accesses that are on their way now. -/
def State.xfenceWrite (s : State) (x : Word) : State :=
  if x.getLsbD 0 then s.modHub fun h => { h with fence := s.net.filterMap fun f => globalInFlight f.ev } else s

/-- `XFENCE_GO` (20 R492). -/
def execXfenceGo (x : Word) (s : State) : Host.Outcome State Fault Refusal := .next (s.xfenceWrite x)

/-- `XFENCE`.busy. -/
def State.fenceBusy (s : State) : Bool :=
  s.net.any fun f => (globalInFlight f.ev).any s.hub.fence.contains

end Sys2Proof.Machine
end

