-- ==== Sys2Proof/Machine/Firmware.lean ====
section
/-! DEFINITION. Luthier's hardware: trap records, the hang watchdog, live update, the sync overflow areas, errors,
sparing and reset (21 R512-R525, 23 R550-R551). -/

namespace Sys2Proof.Machine

/-! ### Trap records (21 R512) -/

/-- A trap record is served. PREEMPT is the scheduler's own; every other cause fails the launch, PAGE among them, which
comes only once the fault has been answered with a refusal (02 R43, 03 R113, 20 R491). -/
def State.serveTrap (s : State) (r : TrapRec) : State :=
  if r.trap.cause = cPREEMPT then s
  else s.failOf r.lid kTRAP r.lq r.trap.cause

/-- TRAP_RECORD: the die scheduler serves the oldest record of its queue. A BREAK record is held for a debugger, and
while luthier is down all wait. DESIGN CHOICE (log 129): no BREAK comes about by itself, since the spec names no way to set a
breakpoint (03 R110, 21 R512). -/
def State.trapRecord (s : State) (die : Nat) : State :=
  if !s.hub.fw.running then s
  else match (s.die die).trapq.find? fun r => r.trap.cause ≠ cBREAK with
    | none => s
    | some r => (s.modDie die fun d => { d with trapq := d.trapq.erase r }).serveTrap r

/-- `TRAP_RECORD` (21 R512). -/
def execTrapRecord (die : Nat) (s : State) : Host.Outcome State Fault Refusal := .next (s.trapRecord die)

/-! ### The watchdog (21 R513-R514) -/

/-- The power cap gates a slot-table entry: the 5-bit reversal of its number is below twice the throttle level
(23 R548, R550). -/
def State.gated (s : State) (e : Nat) : Bool :=
  s.hub.pwrMode ≠ 2 && ((List.range 5).foldl (fun a k => 2 * a + e / 2 ^ k % 2) 0) < 2 * s.hub.pwrLevel
/-- The launch that holds a partition's quads. -/
def State.runningOf (s : State) (n : Nat) : Option Nat :=
  (s.launches.find? fun p => p.2.any fun l =>
    l.part = n && (l.state = .seeding || l.state = .running) && l.ladder ≠ .saved).map Prod.fst

/-- One of the launch's contexts owns a slot that the power cap does not gate. -/
def State.ownsLive (s : State) (lid : Nat) : Bool :=
  s.ctxs.any fun p => p.2.lid = some lid && p.2.status ≠ .free && (List.range 32).any fun e =>
    (s.core (coreOf p.1)).slots.getD e 0 = BitVec.ofNat 8 (64 + ctxOf p.1) && !s.gated e

/-- The launch has a context allocated or a command outstanding. -/
def State.busyLaunch (s : State) (lid : Nat) : Bool :=
  (s.ctxs.any fun p => p.2.lid = some lid && p.2.status ≠ .free) || !(s.outstanding lid).isEmpty

/-- What a launch's engines are at: the commands that run, with their next steps. -/
def State.engineWork (s : State) (lid : Nat) : List Running :=
  ((s.quads.flatMap fun q => q.2.eng.flatMap fun e => e.2.running) ++ s.dies.flatMap fun d => d.2.coll.running).filter
    fun r => r.cmd.lid = some lid

/-- A memory rate limiter holds a request of the launch (23 R550). -/
def State.limited (s : State) (lid : Nat) : Bool :=
  (s.net.any fun f => s.messageOf lid f.ev && !s.mayAdmit f.ev) ||
    (s.dies.any fun d => (d.2.walks.take 64).any fun x => itemLid x = some lid && !s.walkAsked d.1 x) ||
    (s.engineWork lid).any (·.full) || s.quads.any fun q => q.2.recon.begun.any fun a => a.lid = lid && a.full

/-- The limit of a partition's watchdog. -/
def State.wdogLimitOf (s : State) (n : Nat) : Nat := (get 0x100000 s.hub.wdogLimit n).toNat

/-- Of the cycles that have passed, those since the cycle in which the launch of a partition last progressed. -/
def State.idleCycles (s : State) (n cycles : Nat) : Nat :=
  (get none s.hub.moved n).elim cycles fun c => min cycles (s.hub.cycle - 1 - c)

/-- WATCHDOG: cycles pass, and those in which nothing of the partition's launch progresses are counted. At the limit the launch
fails. -/
def State.wdogTick (s : State) (n cycles : Nat) : State :=
  match s.runningOf n with
  | none => s
  | some lid =>
    if s.hub.fw.busy || !s.hub.fw.running || !s.busyLaunch lid || !s.ownsLive lid || s.limited lid ||
        s.idleCycles n cycles = 0 then s
    else
      let k := get 0 s.hub.wdogCount n + s.idleCycles n cycles
      let set := fun (s : State) k => s.modHub fun h => { h with wdogCount := put 0 h.wdogCount n k }
      if s.wdogLimitOf n = 0 || k < 1024 * s.wdogLimitOf n then set s k
      else ((set s 0).logErr (s.schedDie n) errWatchdog (windowAddr (schedCore (s.schedDie n)) 0 0) (some lid) 0).failLaunch
        lid kWATCHDOG (anyIndex kWATCHDOG) 0

/-- `WATCHDOG` (21 R513). -/
def execWatchdog (part cycles : Nat) (s : State) : Host.Outcome State Fault Refusal := .next (s.wdogTick part cycles)

/-- The commands of engines whose elements are written: no configuration, no swap, no comparison, none that only reads. -/
def writesElems (c : Cmd) : Bool := !([0x01, 0x03, 0x15, 0x16, 0x31] : List Nat).contains c.op

/-- The elements that a started command has written: of a stream the sums, of a multicast those of each destination. -/
def State.written (s : State) (r : Running) : Nat :=
  let n := 64 + (colsOf s r.cmd).2
  if r.cmd.op = 0x04 then r.progress / n * (n - 64) + (r.progress % n - 64)
  else if r.cmd.op = 0x11 then r.ways.foldl (fun a w => a + w.next / 2) 0
  else if r.cmd.op = 0x20 || r.cmd.op = 0x21 || r.cmd.op = 0x22 then (if r.phase = 3 then r.progress else 0)
  else if writesElems r.cmd then r.progress / (cmdReads r.cmd + 1)
  else 0

/-- A command of a launch that has ended between two states has written an element in between. -/
def State.endedWriting (s t : State) (lid : Nat) : Bool :=
  t.net.any fun f => !s.net.contains f && match f.ev with
    | .commandCompletion c r => c.lid = some lid && writesElems c &&
        (r.outcome ≤ 1 || (r.outcome = 2 && (s.started c).elim 0 (fun x => s.elemOf c x.progress) < r.detail))
    | _ => false

/-- A reconstruction unit has written an element for a launch, or has performed a firing of it. -/
def State.reconWritten (s t : State) (lid : Nat) : Bool :=
  t.quads.any fun q =>
    let a := (s.quad q.1).recon
    (a.held.filter fun f => f.lid = lid).length ≠ (q.2.recon.held.filter fun f => f.lid = lid).length ||
      q.2.recon.begun.any fun x => x.lid = lid &&
        ((a.begun.find? fun y => y.lid = lid && y.number = x.number && y.hole = x.hole).elim 0 (·.next)) < x.next

/-- Between two states a launch has issued a bundle, processed a trigger, dispatched a firing or an insert, or written an
engine element (21 R513). -/
def progressed (s t : State) (lid : Nat) : Bool :=
  (t.ctxs.any fun p => p.2.lid = some lid && p.2.issued ≠ (s.ctx p.1).issued) ||
    (s.ctxs.any fun p => p.2.lid = some lid && p.2.status ≠ .free && p.2.status ≠ .retiring && (t.ctx p.1).status = .free) ||
    (t.quads.any fun q => q.2.fret.trigCount.any fun p =>
      p.1 / 32768 = lid && p.2 ≠ get 0 (s.quad q.1).fret.trigCount p.1) ||
    (match s.launch lid, t.launch lid with
      | some a, some b => a.firings ≠ b.firings || a.inserts ≠ b.inserts || a.sent ≠ b.sent
      | _, _ => true) ||
    ((t.engineWork lid).any fun r => ((s.started r.cmd).elim 0 s.written) < t.written r) ||
    s.endedWriting t lid || s.reconWritten t lid

/-- The watchdog counts of launches that have progressed from `s` to `t` return to zero, and the cycle in which they did is
noted (21 R513). -/
def State.watched (s t : State) : State :=
  ((t.launches.filterMap fun p => p.2.map (·.part)).eraseDups).foldl (fun u n =>
    if (t.runningOf n).any (progressed s t) then u.modHub fun h => { h with
      wdogCount := put 0 h.wdogCount n 0, moved := put none h.moved n (some s.hub.cycle) }
    else u) t

/-! ### Live update (21 R515-R517) -/

/-- The address of a hub register. -/
def hubAddr (off : Nat) : Word := BitVec.ofNat 64 (2 ^ 62 + 4 * 2 ^ 33 + off)

/-- The control quads restart: their cores, engines and contexts are as after reset, and the monitor's context is
ready (03 R105, 19 R455). -/
def State.restartControl (s : State) : State :=
  let quads := (List.range 4).flatMap fun d => (List.range 4).map (controlQuad d)
  let s1 := quads.foldl (fun s q => (List.range 4).foldl (fun s c => s.modCore (4 * q + c) fun _ => {})
    (s.modQuad q fun _ => {})) s
  let s2 := (s1.ctxs.map Prod.fst).foldl (fun s th =>
    if quads.contains (quadOf (coreOf th)) then s.modCtx th fun c => { nextSeq := c.nextSeq } else s) s1
  s2.modCtx (monitorCore * 16) fun c => { monitorCtx with nextSeq := c.nextSeq }

/-- The image of a slot. -/
def Firmware.image (f : Firmware) (k : Nat) : ImageSlot := get {} f.slots k

/-- The inactive slot. -/
def Firmware.other (f : Firmware) : Nat := 1 - f.slot

/-- `FWCTL`.go starts an update: the service cores accept no more requests (21 R515-R516). -/
def State.fwctl (s : State) (x : Word) : State :=
  if !x.getLsbD 0 || s.hub.fw.busy then s
  else s.modHub fun h => { h with fw := { h.fw with busy := true, state := 1 } }

/-- `FWCTL_GO` (21 R516). -/
def execFwctlGo (x : Word) (s : State) : Host.Outcome State Fault Refusal := .next (s.fwctl x)

/-- A granule of luthier's (20 R488). -/
def State.luthiers (s : State) (pa : Nat) : Bool :=
  let e := get (0 : BitVec 16) s.hub.own (pa / 65536)
  paExists pa && e.getLsbD 15 && e.getLsbD 14

/-- The granule that holds the hand-over structure, one of luthier's. DESIGN CHOICE (log 113): which of them, and the contents, are
the old image's; the structure fits a granule, and its header is magic (4 bytes), version (2), two zero bytes, size (4), CRC32C
of the rest (4). -/
def State.handGranule (s : State) : Option Nat :=
  let l := (s.hub.own.map Prod.fst).filter fun g => s.luthiers (g * 65536)
  l[Config.handPlace % l.length]?

/-- A byte of that granule. -/
def handPlace (g k : Nat) : Place := .tier (g * 65536 + k)

/-- The old image writes its hand-over structure into luthier's memory (21 R516). -/
def State.writeHandOver (s : State) : State :=
  let f := s.hub.fw
  let rest := (List.range (Config.handSize f.copies % 65521)).map (Config.handByte f.copies)
  let head := Config.handMagic.toNat + (Config.handVersion (f.image f.slot).version).toNat * 2 ^ 32 +
    rest.length % 2 ^ 32 * 2 ^ 64 + crc32c rest * 2 ^ 96
  match s.handGranule with
  | none => s
  | some g =>
    let s1 := s.wrHome (handPlace g 0) 16 head
    ({ s1 with mem := Memory.setBytes s1.mem (handPlace g 16).key rest } : State).noteWrite (handPlace g 16) rest.length

/-- A LIVE UPDATE goes on by one step, which the state field shows: from quiescing to checking; from checking, with the image
refused, or measured, to handing over; and from there, the structure written, to starting, with the control quads restarted in
the new slot (21 R516). -/
def State.fwStep (s : State) : State :=
  let f := s.hub.fw
  let i := f.image f.other
  if !f.busy then s
  else if f.state = 1 then s.modHub fun h => { h with fw := { f with state := 2 } }
  else if f.state = 2 then
    if !i.valid || i.secver < f.minSec then s.modHub fun h => { h with fw := { f with busy := false, state := 7 } }
    else s.modHub fun h => { h with fw := { f with
      state := 3, measured := f.measured ++ [Config.measurement f.other i.version] } }
  else if f.state = 3 then
    (s.writeHandOver.modHub fun h => { h with fw := { f with
      state := 4, running := false, since := h.cycle, heard := false, copies := f.copies + 1 } }).restartControl
  else s

/-- Nanoseconds since the last heartbeat, or since the image started, at 11 cycles in 10 of them (01 R23). -/
def Hub.sinceBeat (h : Hub) : Nat := (h.cycle - h.fw.since) * 10 / 11

/-- FW_ROLLBACK: no first heartbeat within 50 ms of the start; the old slot restarts with the same hand-over structure
(21 R517). -/
def State.fwRollback (s : State) : State :=
  let f := s.hub.fw
  if f.busy && f.state = 4 && 50000000 < s.hub.sinceBeat then
    ((s.modHub fun h => { h with fw := { f with
      busy := false, state := 5, running := true, since := h.cycle, heard := false } }).restartControl).logErr 4
      errFwRollback (hubAddr 0x600000) none 0
  else s

/-- `FW_ROLLBACK` (21 R517). -/
def execFwRollback (s : State) : Host.Outcome State Fault Refusal := .next s.fwRollback

/-- FW_HANG: a gap of more than 100 ms after a heartbeat; the active slot restarts (21 R517, 19 R455). DESIGN CHOICE (log 113): an
update that has not started the new image yet goes on after it. -/
def State.fwHang (s : State) : State :=
  let f := s.hub.fw
  if (!f.busy || f.state < 4) && f.heard && 100000000 < s.hub.sinceBeat then
    ((s.modHub fun h => { h with fw := { f with since := h.cycle, heard := false } }).restartControl).logErr 4
      errFwHang (hubAddr 0x600000) none 0
  else s

/-- `FW_HANG` (21 R517). -/
def execFwHang (s : State) : Host.Outcome State Fault Refusal := .next s.fwHang

/-- `FWBEAT`: any write is a heartbeat; the first of a new image in time makes its slot active, and one that is late finds the
device rolled back or restarted. That an image which does not accept the hand-over structure writes none is its own doing (21
R517). -/
def State.fwbeat (s : State) : State :=
  let t := s.fwRollback.fwHang
  let f := t.hub.fw
  if f.busy && f.state = 4 then
    t.modHub fun h => { h with fw := { f with
      busy := false, state := 6, slot := f.other, running := true, since := h.cycle, heard := true } }
  else t.modHub fun h => { h with fw := { f with since := h.cycle, heard := true } }

/-- `FWBEAT_WRITE` (21 R517). -/
def execFwbeatWrite (_ : Word) (s : State) : Host.Outcome State Fault Refusal := .next s.fwbeat

/-- The cycles of a window of the telemetry budget, and of a core's SLOTS record (22 R528, R535). -/
def windowCycles : Nat := 1100000
def slotsCycles : Nat := 2 ^ 20

/-- The ends of a filter's export periods that have passed by a cycle (22 R544). -/
def Filter.periodsPast (f : Filter) (now : Nat) : Nat :=
  if f.period = 0 || now < f.exportAt then 0 else (now - f.exportAt) / (f.period * windowCycles) + 1

/-- What the passing of cycles brings about at the telemetry coprocessors: windows of the budget, exports, and the periodic
records of cores and dies (22 R528, R535, R544). DESIGN CHOICE (log 143): the windows and intervals of all dies and cores
begin at reset, an export period at the attach; a die posts one sensor, whose number and temperature are free values. -/
def State.timedEvents (s : State) (old : Nat) : List Timed :=
  let now := s.hub.cycle
  let windows := now / windowCycles - old / windowCycles
  (List.replicate windows ((List.range 5).flatMap fun d =>
      let x := Config.sensor d now
      [.window d, .therm d x.1.toNat x.2])).flatten ++
    (List.replicate (now / slotsCycles - old / slotsCycles) (s.cores.map fun p => .slots p.1)).flatten ++
    s.dies.flatMap fun d => d.2.tel.filters.flatMap fun p =>
      p.2.elim [] fun f => List.replicate (f.periodsPast now) (.snap d.1 p.1)

/-- The cycle in which each filter's export period ends next. -/
def State.periodsOn (s : State) : State :=
  { s with dies := s.dies.map fun d => (d.1, { d.2 with tel := { d.2.tel with
      filters := d.2.tel.filters.map fun p => (p.1, p.2.map fun f =>
        { f with exportAt := f.exportAt + f.periodsPast s.hub.cycle * (f.period * windowCycles) }) } }) }

/-- The clock has advanced from a cycle: what that brings about is due. -/
def State.timed (s : State) (old : Nat) : State :=
  let l := s.timedEvents old
  if l.isEmpty then s else s.periodsOn.modHub fun h => { h with due := h.due ++ l }

/-- The hub's clock advances by n cycles: the time, the watchdogs of the partitions, the time-outs of luthier's heartbeats, and the
windows and periods of telemetry (19 R472, 21 R513, R517, 22 R528). -/
def State.tick (s : State) (n : Nat) : State :=
  (((List.range 32).foldl (fun s p => s.wdogTick p n)
    (s.modHub fun h => { h with time := h.time + n * cycleUnits h.clkrate, cycle := h.cycle + n })).timed s.hub.cycle).fwRollback.fwHang

/-- The words of `FWINV` (23 R555). -/
def Firmware.inventory (f : Firmware) (k : Nat) : Nat :=
  let w := fun i : ImageSlot => i.version % 2 ^ 32 + i.secver % 65536 * 2 ^ 32
  if k = 0 then w (f.image f.slot) else if k = 1 then w (f.image f.other)
  else if k = 2 then f.minSec % 65536 else f.rot % 2 ^ 32

/-- A message to the root of trust (20 R490, 21 R515-R516, 23 R555). -/
def State.spdm (s : State) : Spdm → State
  | .writeSlot version secver valid => s.modHub fun h => { h with fw := { h.fw with
      slots := put {} h.fw.slots h.fw.other ⟨version, secver, valid⟩ } }
  | .tenantKey tenant key => s.modHub fun h => { h with keys := put 0 h.keys (tenant % 256) key }
  | .measure => s.emit (.spdm ((List.range 4).map s.hub.fw.inventory ++ s.hub.fw.measured))

/-- `SPDM_MESSAGE` (21 R515). -/
def execSpdmMessage (m : Spdm) (s : State) : Host.Outcome State Fault Refusal := .next (s.spdm m)

/-! ### The sync overflow areas (21 R582) -/

/-- A write of `SYNCOVF`d. -/
def State.syncovfWrite (s : State) (d : Nat) (x : Word) : State :=
  let held := (List.range 32).any fun n => s.dieInPart n d && s.partHolds n
  if 4 ≤ d || held || 128 < x.toNat % 256 then s
  else s.modHub fun h => { h with syncOvf := put 0 h.syncOvf d (x &&& 0x1FFFFFF00FF) }

/-- `SYNCOVF_WRITE` (21 R582). -/
def execSyncovfWrite (die : Nat) (x : Word) (s : State) : Host.Outcome State Fault Refusal :=
  .next (s.syncovfWrite die x)

/-! ### Errors (21 R519-R525) -/

/-- The commands that have started, of every engine. -/
def State.runningAll (s : State) : List Running :=
  s.quads.flatMap (fun q => q.2.eng.flatMap fun e => e.2.running) ++ s.dies.flatMap fun d => d.2.coll.running

/-- A started command ends with an error where it stands; of a multicast every destination not written in full fails (10
R354), and a collective leaves nothing behind. -/
def State.breakCmd (s : State) (c : Cmd) (e : Nat) : State :=
  match s.started c with
  | none => s
  | some r =>
    if c.op = 0x11 then
      (((List.range r.ways.length).filter (r.wayLeft (s.waySteps c))).foldl (fun s d =>
        s.mcastFail c d e ((r.ways.getD d {}).next / 2)) s).mcastRest c
    else if c.unit = 4 then s.collEnd c r.acc ⟨2, e, s.elemOf c r.progress⟩
    else s.endCmd c ⟨2, e, s.elemOf c r.progress⟩

/-- An engine command consumes an uncorrectable error, as one that has started may, and ends with MACHINE (10 R336). -/
def State.machineCmd (s : State) (th seq : Nat) : State :=
  match s.runningAll.find? fun r => r.cmd.th = th && r.cmd.seq = seq with
  | none => s
  | some r => s.breakCmd r.cmd eMACHINE

/-- A spare taken at reset is logged when the log of its die is first on (21 R519, R523): SPARE_CONSUMED. -/
def State.logSpares (s : State) (die : Nat) : State :=
  if !(s.die die).err.en then s
  else (s.hub.spareDue.filter fun q => dieOf q = die).foldl
    (fun s q => s.logErr die errSpareConsumed (windowAddr (4 * q) 0 0) none 0)
    (s.modHub fun h => { h with spareDue := h.spareDue.filter fun q => dieOf q ≠ die })

/-- A quad found failing joins the failure list, and the launches that hold it fail (21 R523). -/
def State.quadFails (s : State) (q : Nat) : State :=
  let hit := s.launches.filterMap fun p => p.2.bind fun l =>
    if s.quadInPart l.part q && (l.state = .seeding || l.state = .running) && (l.ladder ≠ .saved || l.holding) then some p.1 else none
  hit.foldl (fun s l => s.failLaunch l kMACHINE (anyIndex kMACHINE) 0)
    (s.modHub fun h => { h with failList := if h.failList.contains q then h.failList else h.failList ++ [q] })

/-- The record of a fretboard entry that a location names. -/
def State.fretEntry (s : State) (loc : Word) : Option FRec := match decodeAddr loc with
  | .win core 6 off => (s.fret (quadOf core)).recs.find? fun r => r.entry = some (off / 16)
  | _ => none

/-- The launch that an error touches: of a fretboard's parity, that of the record whose tag the entry holds (02 R67). -/
def State.errorLid (s : State) (e : HwError) : Option Nat :=
  if e.code = errFretParity then (s.fretEntry e.loc).map (·.lid) else e.lid

/-- UNCORRECTABLE_ERROR: logged, and MACHINE to the thread, command or reconstruction that consumes it. A fretboard's parity
is an error of the tag in one entry, which the record names, and fails the launch (02 R67). -/
def State.uncorrectable (s : State) (e : HwError) : State :=
  if e.code = errFretParity && (s.fretEntry e.loc).isNone then s else
  let k := (s.die e.die).err.head
  let s1 := s.logErr e.die e.code e.loc (s.errorLid e) e.detail
  let s2 := match e.th with
    | some th => s1.defer th { cause := cMACHINE, tval := BitVec.ofNat 64 k }
    | none => s1
  let s3 := match e.cmd with
    | some c => s2.machineCmd c.1 c.2
    | none => s2
  let s4 := match e.tile with
    | some t => s3.breakTile t.1 { lid := t.2.1, number := t.2.2.1, hole := t.2.2.2, next := 0, err := 0 } eMACHINE
    | none => s3
  let s5 := if e.code = errFretParity then s4.failOf (s.errorLid e) kMACHINE ((s.fretEntry e.loc).elim 0 (·.lq)) 0 else s4
  if e.unit = 0 then s5 else s5.quadFails (e.unit - 1)

/-- `UNCORRECTABLE_ERROR` (21 R521). -/
def execUncorrectableError (e : HwError) (s : State) : Host.Outcome State Fault Refusal := .next (s.uncorrectable e)

/-- CORRECTED_ERROR: repaired in place, and counted in telemetry, for tenant 0 (22 R531); on a hop or a link (code 4 or 5) as
a LINK event too. -/
def State.corrected (s : State) (e : HwError) : State :=
  let s1 := s.post e.die 0x14 none (unitOfLoc e.die e.loc) 0 (BitVec.ofNat 32 e.unit) (e.loc.extractLsb' 0 32) 0
  if e.code = errHopFail || e.code = errLinkDegraded then s1.postLink e.die e.unit 1 1 else s1

/-- `CORRECTED_ERROR` (21 R521). -/
def execCorrectedError (e : HwError) (s : State) : Host.Outcome State Fault Refusal := .next (s.corrected e)

/-- The flights of a list with the k-th changed. -/
def modFlight (f : Flight → Flight) (k : Nat) (l : List Flight) : List Flight := match l[k]? with
  | some x => l.set k (f x)
  | none => l

/-- The launches that a line of code on its way is for: those whose threads wait for it, and those that have it pinned. -/
def State.fetchLids (s : State) (quad xctx line : Nat) : List Nat :=
  (s.fetchWaiters quad xctx line).filterMap s.lidOf ++
    ((s.quad quad).icache.filter fun l => l.stale && l.xctx = xctx && l.line = line).flatMap (·.pins)

/-- A message in flight belongs to a launch: as its own, as an entry of a channel that its thread writes, or as a line of its
code. -/
def State.launchMessage (s : State) (lid : Nat) (ev : Instr) : Bool :=
  s.messageOf lid ev || match ev with
    | .channelEntry core buf _ => s.writerLid core buf = some lid
    | .instructionCacheFill quad xctx line => (s.fetchLids quad xctx line).contains lid
    | _ => false

/-- A hop has failed `n` times to carry what it holds. -/
def triesAt (die unit : Nat) : Option (Nat × Nat × Nat) → Nat
  | some (d, u, n) => if d = die && u = unit then n else 0
  | none => 0

/-- It is held for that hop. -/
def heldAt (die unit : Nat) (h : Option (Nat × Nat × Nat)) : Bool := h.any fun x => x.1 = die && x.2.1 = unit

/-- The lines that a save or restore of a launch has still to move (20 R497). -/
def State.linesLeft (s : State) (lid : Nat) : Nat :=
  if (s.launch lid).any fun l => l.holding && l.state ≠ .failed then
    ((s.hub.saved.filter fun x => x.lid = lid).map (·.left)).foldl (· + ·) 0
  else 0

/-- The transfers under way that are no message in flight and no element of a command (01 R12). -/
def State.transfers (s : State) : List Transfer :=
  s.dies.flatMap (fun d => (d.2.walks.take 64).map (.walk d.1)) ++
    s.quads.flatMap (fun q => q.2.recon.begun.map fun a => .tile q.1 { a with full := false }) ++
    s.launches.filterMap (fun x => if s.linesLeft x.1 = 0 then none else some (.slot x.1 (s.linesLeft x.1))) ++
    s.quads.flatMap (fun q => (q.2.fret.recs.filter fun r => r.entry.isNone).map fun r => .spill q.1 r.lid r.arr) ++
    s.dies.flatMap (fun d => d.2.collWay.map (.coll d.1)) ++
    (s.hub.streams.filter fun x => x.off < x.len).map fun x => .line x.bulk x.next x.off

/-- The launches that a transfer is for. -/
def State.transferLids (s : State) : Transfer → List Nat
  | .walk _ (.fetch quad xctx line) => s.fetchLids quad xctx line
  | .walk _ x => (itemLid x).toList
  | .tile _ a => [a.lid]
  | .slot lid _ => [lid]
  | .spill _ lid _ => [lid]
  | .coll die m => (s.collNames die m).filter fun lid =>
      m.lid.isSome || (s.collBoth die m lid && s.collOpen (some lid) m.group m.number die)
  | .line .. => []

/-- The stream of a tier changes. -/
def State.setStream (s : State) (x : Stream) : State :=
  s.modHub fun h => { h with streams := h.streams.map fun y => if y.bulk = x.bulk then x else y }

/-- The range that a stream is at ends, with a CRC and a status, which its descriptor is to get (23 R553). -/
def State.rangeEnds (s : State) (x : Stream) (crc status : Nat) : State :=
  s.setStream { x with off := x.len, buf := [], done := some (crc, status) }

/-- A transfer is lost: the access is not made, the tile is not finished, the record or the message is gone; a command that made the
access ends with its launch, and a range of a checkpoint as one whose sink has failed (log 87). -/
def State.loseTransfer (s : State) : Transfer → State
  | .walk die x =>
    let s1 := s.modDie die fun d => { d with walks := d.walks.erase x }
    match x with
    | .engine c _ _ _ => s1.breakCmd c eMACHINE
    | .fetch quad xctx line => s1.dropStale quad xctx line
    | _ => s1
  | .tile quad a =>
    let s1 := s.endBegun quad a
    match (s1.quad quad).recon.held.find? fun f => !a.hole && f.lid = a.lid && f.number = a.number with
    | some f => s1.reconFree quad f
    | none => s1
  | .slot _ _ => s
  | .spill quad lid arr => s.modFret quad fun f => { f with recs := f.recs.filter fun r => !(r.lid = lid && r.arr = arr) }
  | .coll die m => s.modDie die fun d => { d with collWay := d.collWay.erase m }
  | .line bulk next off => match s.hub.streams.find? fun x => x.bulk = bulk && x.next = next && x.off = off with
    | some x => s.rangeEnds x 0 1
    | none => s

/-- How often a hop has failed to carry a transfer. -/
def State.transferTries (s : State) (die unit : Nat) (x : Transfer) : Nat :=
  (s.hub.hops.find? fun h => h.1 = x && h.2.1 = die && h.2.2.1 = unit).elim 0 (·.2.2.2)

/-- A transfer that has got through, or is under way no more, is held for no hop. -/
def State.hopsLeft (s : State) : State :=
  if s.hub.hops.isEmpty then s
  else
    let l := s.transfers
    s.modHub fun h => { h with hops := h.hops.filter fun x => l.contains x.1 }

/-- What a hop holds is lost: messages, elements of engine commands, which end with their launches, and other transfers; the
launches fail, and HOP_FAIL is logged (21 R521). -/
def State.hopFails (s : State) (die unit : Nat) : State :=
  let lost := s.net.filter fun f => heldAt die unit f.hop
  let cmds := (s.runningAll.filter fun r => heldAt die unit r.hop).map (·.cmd)
  let moves := (s.hub.hops.filter fun h => h.2.1 = die && h.2.2.1 = unit).map Prod.fst
  let hit := (s.launches.map Prod.fst).filter fun lid =>
    (lost.any fun f => s.launchMessage lid f.ev) || cmds.any (fun c => c.lid = some lid) ||
      moves.any fun x => (s.transferLids x).contains lid
  let s1 := cmds.foldl (fun s c => s.breakCmd c eMACHINE)
    (lost.foldl (fun s f => match f.ev with
      | .instructionCacheFill quad xctx line => s.dropStale quad xctx line
      | _ => s) { s with net := s.net.filter fun f => !heldAt die unit f.hop })
  let s2 := (moves.foldl State.loseTransfer s1).modHub fun h => { h with
    hops := h.hops.filter fun x => !(x.2.1 = die && x.2.2.1 = unit) }
  hit.foldl (fun s l => s.failLaunch l kMACHINE (anyIndex kMACHINE) 0)
    ((s2.logErr die errHopFail (windowAddr ((die * 256 + unit % 256) * 4) 0 0) none (BitVec.ofNat 32 unit)).postLink die unit 2 1)

/-- HOP_CRC_ERROR: a hop fails to carry the msg-th message in flight, or, counted on from those, an element that the next
started command reads or writes, or, counted on from those, another transfer. It tries again, 16 times at most. -/
def State.hopError (s : State) (die unit msg : Nat) : State :=
  let again := fun (s : State) (n : Nat) => if n < 16 then s.postLink die unit 0 (n + 1) else s.hopFails die unit
  match s.net[msg]?, s.runningAll[msg - s.net.length]?, s.transfers[msg - s.net.length - s.runningAll.length]? with
  | some f, _, _ =>
    let n := triesAt die unit f.hop
    again { s with net := modFlight (fun f => { f with hop := some (die, unit, n + 1) }) msg s.net } n
  | none, some r, _ =>
    let n := triesAt die unit r.hop
    again (s.modRun r.cmd fun r => { r with hop := some (die, unit, n + 1) }) n
  | none, none, some x =>
    let n := s.transferTries die unit x
    again (s.modHub fun h => { h with
      hops := (h.hops.filter fun y => !(y.1 = x && y.2.1 = die && y.2.2.1 = unit)) ++ [(x, die, unit, n + 1)] }) n
  | none, none, none => s

/-- `HOP_CRC_ERROR` (21 R521). -/
def execHopCrcError (die unit msg : Nat) (s : State) : Host.Outcome State Fault Refusal := .next (s.hopError die unit msg)

/-- A granule has a byte in a near-tier channel group. -/
def granuleIn (group g : Nat) : Bool :=
  g < 2 ^ 24 && (memPort (g * 65536) = group || memPort (g * 65536 + 65535) = group)

/-- CHANNEL_RETIRED: the group leaves every connection row, its granules lose their entries. The launches that use it fail
by the accesses that the ownership check then refuses. -/
def State.channelRetired (s : State) (g : Nat) : State :=
  if 32 ≤ g then s
  else
    (s.modHub fun h => { h with
      xconn := h.xconn.foldl (fun m p => put 0 m p.1 (p.2 &&& ~~~(1#64 <<< g))) []
      own := h.own.filter fun p => !granuleIn g p.1
      retired := if h.retired.contains g then h.retired else h.retired ++ [g] }).logErr (g / 8) errChannelRetired
      (BitVec.ofNat 64 (g / 4 * 2 ^ 36 + g % 4 * 16000000000)) none 0

/-- `CHANNEL_RETIRED` (21 R524). -/
def execChannelRetired (group : Nat) (s : State) : Host.Outcome State Fault Refusal := .next (s.channelRetired group)

/-! ### Reset and sparing (21 R523) -/

/-- Failed quads of a quadrant with the spares that replace them, first unused spare first. -/
def sparing (fails : List Nat) (die quadrant : Nat) : List (Nat × Nat) :=
  (fails.filter (computeAtReset die quadrant).contains).zip ((sparesOf die quadrant).filter fun q => !fails.contains q)

/-- A quadrant with more failed quads than spares. -/
def shortOfSpares (fails : List Nat) (die quadrant : Nat) : Bool :=
  ((sparesOf die quadrant).filter fun q => !fails.contains q).length <
    (fails.filter (computeAtReset die quadrant).contains).length

/-- RESET: everything is as after reset but what the root of trust keeps, its failure list and the images. Each spare
taken is to be logged, once the monitor has turned the log of its die on (log 114). -/
def State.deviceReset (s : State) : State :=
  let f := s.hub.fw
  let fails := s.hub.failList
  let pairs := (List.range 4).flatMap fun d => (List.range 4).flatMap (sparing fails d)
  let held := (List.range 16).filter fun k => shortOfSpares fails (k / 4) (k % 4)
  let hub : Hub := { failList := fails, spare := pairs, heldOut := held, spareDue := pairs.map Prod.fst
                     fw := { slot := f.slot, slots := f.slots, minSec := f.minSec, rot := f.rot } }
  { State.reset with hub := hub, turns := s.turns, out := s.out }

/-- `RESET` (21 R523). -/
def execReset (s : State) : Host.Outcome State Fault Refusal := .next s.deviceReset

end Sys2Proof.Machine
end

