-- ==== Sys2Proof/Machine/Telemetry.lean ====
section
/-! DEFINITION. The telemetry coprocessors: offering records to filters and trace rings, running a filter, its triggers,
attach, detach, budgets and exports, and the periodic records (22 R528-R545). -/

namespace Sys2Proof.Machine

def State.tel (s : State) (d : Nat) : Tel := (s.die d).tel
def State.modTel (s : State) (d : Nat) (f : Tel → Tel) : State := s.modDie d fun k => { k with tel := f k.tel }
def Tel.filter (t : Tel) (slot : Nat) : Option Filter := get none t.filters slot
def Tel.modFilter (t : Tel) (slot : Nat) (f : Filter → Filter) : Tel :=
  { t with filters := put none t.filters slot ((t.filter slot).map f) }
def State.modFilter (s : State) (d slot : Nat) (f : Filter → Filter) : State := s.modTel d fun t => t.modFilter slot f

/-- One more in a status word (22 R536). -/
def Filter.count (k : Nat) (f : Filter) : Filter := { f with words := put 0 f.words k (get 0 f.words k + 1) }

/-- The cost of an event (22 R535). -/
def Filter.cost (f : Filter) : Nat := f.prog.length + 2

/-- The cycles that a tenant has left in this window (22 R535). -/
def Tel.left (t : Tel) (tenant : Nat) : Nat := get 0 t.limit tenant - get 0 t.spent tenant

/-- A count that saturates at 32 bits. -/
def bump32 (m : FMap Nat) (k : Nat) : FMap Nat := put 0 m k (min (2 ^ 32 - 1) (get 0 m k + 1))

/-! ### A record at its coprocessor (22 R530-R531, R545) -/

/-- The record is offered to the filter of a slot: dropped, skipped, or queued and paid for. -/
def Tel.offer (cls tenant : Nat) (e : List (BitVec 32)) (t : Tel) (slot : Nat) : Tel :=
  match t.filter slot with
  | none => t
  | some f =>
    if f.leaving || f.cls ≠ cls || (f.tenant ≠ 0 && f.tenant ≠ tenant) then t
    else if 64 ≤ f.queue.length then { t.modFilter slot (Filter.count 2) with clsDrops := bump32 t.clsDrops cls }
    else if t.left f.tenant < f.cost then t.modFilter slot (Filter.count 3)
    else { t.modFilter slot fun f => { f with queue := f.queue ++ [e] } with
      spent := put 0 t.spent f.tenant (get 0 t.spent f.tenant + f.cost) }

/-- A trace ring keeps a record of its classes and tenant. -/
def TraceRing.keep (r : TraceRing) (cls tenant : Nat) (e : List (BitVec 32)) : TraceRing :=
  if r.en && !r.frozen && r.mask.getLsbD cls && (r.tenant = 0 || r.tenant = tenant) then
    { r with recs := put [] r.recs r.head e, head := (r.head + 1) % 1024 }
  else r

/-- A record reaches a coprocessor. -/
def Tel.take (t : Tel) (e : List (BitVec 32)) : Tel :=
  let w := (e.headD 0).toNat
  let cls := w % 256
  let tenant := w / 256 % 256
  let t1 := { t with
    clsPosted := bump32 t.clsPosted cls
    rings := t.rings.foldl (fun m p => put {} m p.1 (p.2.keep cls tenant e)) [] }
  (List.range 64).foldl (Tel.offer cls tenant e) t1

/-- `TELEMETRY_RECORD` (22 R530). -/
def execTelemetryRecord (die : Nat) (e : List (BitVec 32)) (s : State) : Host.Outcome State Fault Refusal :=
  .next (s.modTel die fun t => t.take e)

/-! ### A filter event (22 R530, R541) -/

/-- The slot served next, round-robin. -/
def Tel.nextSlot (t : Tel) : Option Nat :=
  ((List.range 64).map fun k => (t.last + k) % 64).find? fun k => (t.filter k).any fun f => !f.queue.isEmpty

/-- FILTER_EVENT: a coprocessor at rest takes the next record, with its working registers zero. Its instructions follow
one by one. -/
def State.filterEvent (s : State) (d : Nat) : State :=
  s.modTel d fun t =>
    match t.run, t.nextSlot with
    | none, some k =>
      match (t.filter k).bind fun f => f.queue.head? with
      | some e =>
        { t.modFilter k fun f => { f with queue := f.queue.drop 1 } with
          last := (k + 1) % 64
          run := some { slot := k, ip := 0, w := [], e := e, skip := 0, ended := false } }
      | none => t
    | _, _ => t

/-- `FILTER_EVENT` (22 R541). -/
def execFilterEvent (die : Nat) (s : State) : Host.Outcome State Fault Refusal := .next (s.filterEvent die)

/-- The instruction that a coprocessor runs next. -/
def Tel.nextInstr (t : Tel) : Option Instr :=
  t.run.bind fun r => (t.filter r.slot).bind fun f => (f.prog[r.ip]?).bind decodeFilter

/-- The event has run: it is counted, and a filter that leaves is gone (22 R534, R536). -/
def Tel.endEvent (t : Tel) (r : FilterRun) : Tel :=
  let t1 := { t with run := none }
  match t.filter r.slot with
  | none => t1
  | some f =>
    if f.leaving then { t1 with filters := put none t1.filters r.slot none } else t1.modFilter r.slot (Filter.count 1)

/-- On to the next instruction: all L of them run (22 R541). -/
def Tel.nextIp (t : Tel) : Tel :=
  match t.run with
  | none => t
  | some r =>
    if ((t.filter r.slot).elim 0 fun f => f.prog.length) ≤ r.ip + 1 then t.endEvent r
    else { t with run := some { r with ip := r.ip + 1 } }

/-- Status word k of a slot (22 R536). -/
def Tel.statusWord (t : Tel) (slot k : Nat) : Word :=
  match t.filter slot with
  | none => 0
  | some f =>
    if k = 0 then BitVec.ofNat 64 (2 ^ 63 + f.tenant % 256 * 2 ^ 40 + f.cls % 256 * 2 ^ 32 + (f.prog.length - 1) % 32 * 2 ^ 24 +
      (f.cost - 3) % 64)
    else if k ≤ 6 then get 0 f.words k else 0

/-- The export record of a slot: header and state block (22 R544). -/
def State.exportBytes (s : State) (d slot : Nat) (f : Filter) : List Byte :=
  let t := s.tel d
  leBytes 1 d ++ leBytes 1 slot ++ leBytes 1 f.cls ++ leBytes 1 0 ++ leBytes 4 (get 0 f.words 6).toNat ++
    leBytes 12 s.stamp.toNat ++ leBytes 12 0 ++ (List.range 4).flatMap (fun k => leBytes 8 (t.statusWord slot (k + 1)).toNat) ++
    (List.range 1024).flatMap fun n => leBytes 4 (get 0 f.k n).toNat

/-- EXPORT: a period ends, and a snapshot is written to the host between two events: at once, or after the event that the
filter runs (22 R544, R546). -/
def State.exportSlot (s : State) (d slot : Nat) : State :=
  match (s.tel d).filter slot with
  | none => s
  | some f =>
    if f.period = 0 || f.leaving then s
    else if (s.tel d).run.any fun r => r.slot = slot then s.modFilter d slot fun f => { f with exportDue := true }
    else (s.emit (.hostWrite f.fn f.host (s.exportBytes d slot f))).modFilter d slot fun f =>
      { f.count 6 with k := if f.clear then [] else f.k, exportDue := false }

/-- The snapshots of a coprocessor that have waited for the end of an event. -/
def State.exportsDue (s : State) (d : Nat) : State :=
  if (s.tel d).run.isSome then s
  else (((s.tel d).filters.filter fun p => p.2.any (·.exportDue)).map Prod.fst).foldl (fun s k => s.exportSlot d k) s

/-- An instruction of the running event on the coprocessor that steps: skipped, or without effect after `end`, or
performed. -/
def quinud (eff : Nat → State → State) (s : State) : Host.Outcome State Fault Refusal :=
  let d := s.curDie
  .next (match (s.tel d).run with
    | none => s
    | some r =>
      ((if r.ended then s
        else if 0 < r.skip then s.modTel d fun t => { t with run := t.run.map fun r => { r with skip := r.skip - 1 } }
        else eff d s).modTel d Tel.nextIp).exportsDue d)

/-! ### What a filter reads and writes (22 R537) -/

def State.modRunF (s : State) (d : Nat) (f : FilterRun → FilterRun) : State :=
  s.modTel d fun t => { t with run := t.run.map f }

/-- Working register a. -/
def State.qw (s : State) (d : Nat) (a : BitVec 3) : BitVec 32 :=
  (s.tel d).run.elim 0 fun r => get 0 r.w a.toNat

/-- Record word e. -/
def State.qe (s : State) (d : Nat) (e : BitVec 3) : BitVec 32 :=
  (s.tel d).run.elim 0 fun r => r.e.getD e.toNat 0

/-- State word n. -/
def State.qk (s : State) (d n : Nat) : BitVec 32 :=
  (s.tel d).run.elim 0 fun r => ((s.tel d).filter r.slot).elim 0 fun f => get 0 f.k n

def State.setQw (s : State) (d : Nat) (a : BitVec 3) (x : BitVec 32) : State :=
  s.modRunF d fun r => { r with w := put 0 r.w a.toNat x }

def State.setQk (s : State) (d n : Nat) (x : BitVec 32) : State :=
  match (s.tel d).run with
  | none => s
  | some r => s.modFilter d r.slot fun f => { f with k := put 0 f.k n x }

/-- A sum that does not pass 0xFFFF_FFFF (22 R539). -/
def satAdd (x y : BitVec 32) : BitVec 32 := sat32 (x.toNat + y.toNat)

/-- An instruction that writes a working register. -/
def quinudW (d : BitVec 3) (f : Nat → State → BitVec 32) : State → Host.Outcome State Fault Refusal :=
  quinud fun die s => s.setQw die d (f die s)

/-- An instruction that combines a working register into a state word. -/
def quinudK (a : BitVec 3) (k : BitVec 10) (f : BitVec 32 → BitVec 32 → BitVec 32) : State → Host.Outcome State Fault Refusal :=
  quinud fun die s => s.setQk die k.toNat (f (s.qk die k.toNat) (s.qw die a))

/-- An instruction of two working registers. -/
def quinudR (d a b : BitVec 3) (f : BitVec 32 → BitVec 32 → BitVec 32) : State → Host.Outcome State Fault Refusal :=
  quinudW d fun die s => f (s.qw die a) (s.qw die b)

/-! ### Quinud (22 R539) -/

/-- `end`: effects stop. -/
def execQuinudEnd (s : State) : Host.Outcome State Fault Refusal :=
  quinud (fun die s => s.modRunF die fun r => { r with ended := true }) s

/-- `fx`: a field of a record word. -/
def execQuinudFx (d e : BitVec 3) (l n : BitVec 5) (s : State) : Host.Outcome State Fault Refusal :=
  quinudW d (fun die s => BitVec.ofNat 32 ((s.qe die e).toNat / 2 ^ l.toNat % 2 ^ (n.toNat + 1))) s

/-- `li`. -/
def execQuinudLi (d : BitVec 3) (i : BitVec 20) (s : State) : Host.Outcome State Fault Refusal :=
  quinudW d (fun _ _ => i.signExtend 32) s

/-- `addi`. -/
def execQuinudAddi (d a : BitVec 3) (i : BitVec 20) (s : State) : Host.Outcome State Fault Refusal :=
  quinudW d (fun die s => s.qw die a + i.signExtend 32) s

/-- `add`. -/
def execQuinudAdd (d a b : BitVec 3) (s : State) : Host.Outcome State Fault Refusal := quinudR d a b (fun x y => x + y) s
/-- `sub`. -/
def execQuinudSub (d a b : BitVec 3) (s : State) : Host.Outcome State Fault Refusal := quinudR d a b (fun x y => x - y) s
/-- `and`. -/
def execQuinudAnd (d a b : BitVec 3) (s : State) : Host.Outcome State Fault Refusal := quinudR d a b (fun x y => x &&& y) s
/-- `or`. -/
def execQuinudOr (d a b : BitVec 3) (s : State) : Host.Outcome State Fault Refusal := quinudR d a b (fun x y => x ||| y) s
/-- `xor`. -/
def execQuinudXor (d a b : BitVec 3) (s : State) : Host.Outcome State Fault Refusal := quinudR d a b (fun x y => x ^^^ y) s
/-- `shl`: by Y mod 32. -/
def execQuinudShl (d a b : BitVec 3) (s : State) : Host.Outcome State Fault Refusal :=
  quinudR d a b (fun x y => x <<< (y.toNat % 32)) s
/-- `shr`: by Y mod 32. -/
def execQuinudShr (d a b : BitVec 3) (s : State) : Host.Outcome State Fault Refusal :=
  quinudR d a b (fun x y => x >>> (y.toNat % 32)) s
/-- `mul`: the low 32 bits. -/
def execQuinudMul (d a b : BitVec 3) (s : State) : Host.Outcome State Fault Refusal := quinudR d a b (fun x y => x * y) s

/-- The lesser and the greater, natural. -/
def minN (x y : BitVec 32) : BitVec 32 := if x.toNat ≤ y.toNat then x else y
def maxN (x y : BitVec 32) : BitVec 32 := if x.toNat ≤ y.toNat then y else x

/-- `min`. -/
def execQuinudMin (d a b : BitVec 3) (s : State) : Host.Outcome State Fault Refusal := quinudR d a b minN s
/-- `max`. -/
def execQuinudMax (d a b : BitVec 3) (s : State) : Host.Outcome State Fault Refusal := quinudR d a b maxN s

/-- The conditions of `cmp` (22 R539). -/
def cmpHolds (c : BitVec 3) (x y : BitVec 32) : Bool :=
  if c = 0 then x = y else if c = 1 then x ≠ y else if c = 2 then x.toNat < y.toNat
  else if c = 3 then y.toNat ≤ x.toNat else if c = 4 then x.toInt < y.toInt else y.toInt ≤ x.toInt

/-- `cmp`. -/
def execQuinudCmp (d a b c : BitVec 3) (s : State) : Host.Outcome State Fault Refusal :=
  quinudR d a b (fun x y => if cmpHolds c x y then 1 else 0) s

/-- `sel`. -/
def execQuinudSel (d a b c : BitVec 3) (s : State) : Host.Outcome State Fault Refusal :=
  quinudW d (fun die s => if s.qw die c ≠ 0 then s.qw die a else s.qw die b) s

/-- `ld`. -/
def execQuinudLd (d : BitVec 3) (k : BitVec 10) (s : State) : Host.Outcome State Fault Refusal :=
  quinudW d (fun die s => s.qk die k.toNat) s

/-- `st`. -/
def execQuinudSt (a : BitVec 3) (k : BitVec 10) (s : State) : Host.Outcome State Fault Refusal :=
  quinudK a k (fun _ x => x) s

/-- `kadd`. -/
def execQuinudKadd (a : BitVec 3) (k : BitVec 10) (s : State) : Host.Outcome State Fault Refusal := quinudK a k satAdd s
/-- `kmin`. -/
def execQuinudKmin (a : BitVec 3) (k : BitVec 10) (s : State) : Host.Outcome State Fault Refusal := quinudK a k minN s
/-- `kmax`. -/
def execQuinudKmax (a : BitVec 3) (k : BitVec 10) (s : State) : Host.Outcome State Fault Refusal := quinudK a k maxN s

/-- `ewma`: K + floor((X - K) / 2^s), signed and wrapped. -/
def execQuinudEwma (a : BitVec 3) (k : BitVec 10) (n : BitVec 5) (s : State) : Host.Outcome State Fault Refusal :=
  quinudK a k (fun k x => k + (x - k).sshiftRight n.toNat) s

/-- One more in a state word. -/
def State.bumpQk (s : State) (d n : Nat) : State := s.setQk d n (satAdd (s.qk d n) 1)

/-- `hlin`: a linear bucket (22 R540). -/
def execQuinudHlin (d a : BitVec 3) (k : BitVec 10) (m : BitVec 6) (n : BitVec 4) (s : State) :
    Host.Outcome State Fault Refusal :=
  quinud (fun die s =>
    let x := (s.qw die a).toNat
    let lo := (s.qw die d).toNat
    s.bumpQk die (k.toNat + if x < lo then 0 else min ((x - lo) / 2 ^ n.toNat) m.toNat)) s

/-- `hlog`: a log2 bucket (22 R540). -/
def execQuinudHlog (a : BitVec 3) (k : BitVec 10) (m : BitVec 6) (s : State) : Host.Outcome State Fault Refusal :=
  quinud (fun die s =>
    let x := (s.qw die a).toNat
    s.bumpQk die (k.toNat + if x = 0 then 0 else min (1 + Nat.log2 x) m.toNat)) s

/-- The two hash units (22 R540). -/
def hashUnit (j m : Nat) (x : BitVec 32) : Nat :=
  (x * if j = 0 then 0x9E3779B1#32 else 0x85EBCA77#32).toNat / 2 ^ (32 - m)

/-- The two state words of a sketch that a value counts in (22 R540). -/
def sketchWord (k m j : Nat) (x : BitVec 32) : Nat := k + (if j = 0 then 0 else 2 ^ m) + hashUnit j m x

/-- `cms`: a sketch update (22 R540). -/
def execQuinudCms (a : BitVec 3) (k : BitVec 10) (m : BitVec 4) (s : State) : Host.Outcome State Fault Refusal :=
  quinud (fun die s =>
    let x := s.qw die a
    (s.bumpQk die (sketchWord k.toNat m.toNat 0 x)).bumpQk die (sketchWord k.toNat m.toNat 1 x)) s

/-- `cmq`: a sketch query (22 R540). -/
def execQuinudCmq (d a : BitVec 3) (k : BitVec 10) (m : BitVec 4) (s : State) : Host.Outcome State Fault Refusal :=
  quinudW d (fun die s =>
    let x := s.qw die a
    minN (s.qk die (sketchWord k.toNat m.toNat 0 x)) (s.qk die (sketchWord k.toNat m.toNat 1 x))) s

/-- The next off - 1 instructions do nothing. -/
def State.skipNext (s : State) (d : Nat) (o : BitVec 5) : State := s.modRunF d fun r => { r with skip := o.toNat - 1 }

/-- `bz`. -/
def execQuinudBz (a : BitVec 3) (o : BitVec 5) (s : State) : Host.Outcome State Fault Refusal :=
  quinud (fun die s => if s.qw die a = 0 then s.skipNext die o else s) s

/-- `bnz`. -/
def execQuinudBnz (a : BitVec 3) (o : BitVec 5) (s : State) : Host.Outcome State Fault Refusal :=
  quinud (fun die s => if s.qw die a ≠ 0 then s.skipNext die o else s) s

/-! ### Triggers (22 R542-R543) -/

/-- The action of a trigger slot word. -/
def trigAction (w : Word) : Nat := bits w.toNat 62 60

/-- The stamp of an event record. -/
def eventStamp (e : List (BitVec 32)) : Nat :=
  (e.getD 2 0).toNat + (e.getD 3 0).toNat * 2 ^ 32 + (e.getD 4 0).toNat * 2 ^ 64

/-- A stamp ring entry: record, argument, zero, the stamp of the trigger, zeros. -/
def State.stampEntry (s : State) (e : List (BitVec 32)) (x : BitVec 32) : List Byte :=
  e.flatMap (fun w => leBytes 4 w.toNat) ++ leBytes 4 x.toNat ++ leBytes 4 0 ++ leBytes 12 s.stamp.toNat ++ leBytes 12 0

/-- An entry is appended to a slot's stamp ring of 64, over the oldest. -/
def State.appendStamp (s : State) (d slot : Nat) (b : List Byte) : State :=
  s.modFilter d slot fun f => { f with stamps := put [] f.stamps f.stampHead b, stampHead := (f.stampHead + 1) % 64 }

/-- The open launch of a queue that an insert goes to: in Seeding or Running, accepted last. -/
def State.insertTarget (s : State) (q : Nat) : Option (Nat × Launch) :=
  s.launches.foldl (fun best p => match p.2 with
    | none => best
    | some l =>
      if l.queue = q && l.isOpen && (l.state = .seeding || l.state = .running) &&
          (match best with
            | some (_, b) => b.order ≤ l.order
            | none => true) then some (p.1, l) else best) none

/-- The record of an insert trigger. -/
def trigRecord (d slot kind gen : Nat) (x : BitVec 32) (e : List (BitVec 32)) : Rec :=
  ⟨mkTag kind gen (x.toNat / 65536) (x.toNat % 65536) (64 * d + slot), BitVec.ofNat 64 (2 * 2 ^ 54 + eventStamp e / 65536 % 2 ^ 48)⟩

/-- An insert trigger, unless its target refuses it. -/
def State.trigInsert (s : State) (d slot : Nat) (w : Word) (x : BitVec 32) (e : List (BitVec 32)) : Option State :=
  match s.insertTarget (bits w.toNat 31 18) with
  | none => none
  | some (lid, l) =>
    let r := trigRecord d slot (bits w.toNat 39 32) l.gen x e
    if l.closed || (s.recordFault (some lid) r).isSome then none
    else some (s.insertRecord (endTel d) (s.schedDie l.part) (schedCore (s.schedDie l.part) * 16)
      (l.schedWho (s.schedDie l.part) lid) lid r none)

/-- What a performed trigger does, inserts aside. -/
def State.trigAct (s : State) (d slot : Nat) (f : Filter) (w : Word) (x : BitVec 32) (e : List (BitVec 32)) : State :=
  let t := trigAction w
  if t = 0 then (s.appendStamp d slot (s.stampEntry e x)).emit (.interrupt f.fn (bits w.toNat 28 18))
  else if t = 1 then s.modTel d fun k =>
    let r := get {} k.rings (w.toNat % 8)
    { k with rings := put {} k.rings (w.toNat % 8) { r with frozen := true } }
  else if t = 2 then s.appendStamp d slot (s.stampEntry e x)
  else s.emit (.pin (w.toNat % 4))

/-- TRIGGER: suppressed within its minimum interval of the filter's last performed trigger, refused by its target, or
performed (22 R543). -/
def State.trigger (s : State) (d : Nat) (t : Nat) (x : BitVec 32) : State :=
  match (s.tel d).run with
  | none => s
  | some r => match (s.tel d).filter r.slot with
    | none => s
    | some f =>
      let w := f.trigs.getD t 0
      let early := f.lastTrig.any fun k => s.cycles - k < 1024 * bits w.toNat 59 40
      let refused := s.modFilter d r.slot (Filter.count 4)
      let done := fun s : State => s.modFilter d r.slot fun f =>
        { f.count 5 with lastTrig := some s.cycles }
      if early then refused
      else if trigAction w = 3 then
        match s.trigInsert d r.slot w x r.e with
        | some s1 => done s1
        | none => refused
      else done (s.trigAct d r.slot f w x r.e)

/-- `trig`. -/
def execQuinudTrig (a : BitVec 3) (t : BitVec 3) (s : State) : Host.Outcome State Fault Refusal :=
  quinud (fun die s => s.trigger die t.toNat (s.qw die a)) s

/-! ### Attach and detach (22 R533-R534, R541-R542) -/

/-- The class is posted to the coprocessor, and the tenant may see it (22 R528, R531). -/
def classSeen (cls d tenant : Nat) : Bool :=
  (if d < 4 then (1 ≤ cls && cls ≤ 7) || (0x0C ≤ cls && cls ≤ 0x14)
   else d = 4 && ((8 ≤ cls && cls ≤ 0x0B) || cls = 0x0F || cls = 0x10 || cls = 0x12)) &&
    (tenant = 0 || !(cls = 0x0F || cls = 0x10 || cls = 0x14))

/-- A program word is legal at its place (22 R541). -/
def progWordOk (trigs : List Word) (n pc : Nat) (w : BitVec 32) : Bool :=
  match decodeFilter w with
  | none => false
  | some (.quinudBz _ o) | some (.quinudBnz _ o) => pc + o.toNat ≤ n
  | some (.quinudTrig _ t) => (trigs.getD t.toNat 0).getLsbD 63
  | some _ => true

/-- A trigger word, valid or not, is legal for its function and tenant (22 R542). -/
def State.trigWordOk (s : State) (fn tenant d : Nat) (w : Word) : Bool :=
  let x := w.toNat
  let a := trigAction w
  a ≤ 4 && bits x 17 3 = 0 && (a = 3 || bits x 39 32 = 0) && (a = 1 || a = 4 || x % 8 = 0) &&
    (if a = 0 then bits x 31 29 = 0
     else if a = 3 then
       let q := bits x 31 18
       if fn < 1024 then q / 16 = fn else q / 8192 = fn - 1024
     else bits x 31 18 = 0) &&
    (a ≠ 1 || (get {} (s.tel d).rings (x % 8)).tenant = tenant) && (a ≠ 4 || (tenant = 0 && x % 8 < 4))

/-- The lowest free slot. -/
def Tel.freeSlot (t : Tel) : Option Nat := (List.range 64).find? fun k => (t.filter k).isNone

/-- The bytes of an attach descriptor, where it can be read. -/
def State.descriptor (s : State) (fn : Nat) (x : Word) : State × Option (List Byte) :=
  match decodeAddr x with
  | .global va =>
    if va % 16 ≠ 0 then (s, none)
    else (List.range 208).foldl (fun (p : State × Option (List Byte)) k =>
      match p.2 with
      | none => p
      | some l => let b := p.1.fnByte fn (va + k); (b.1, b.2.map fun x => l ++ [x])) (s, some [])
  | _ => (s, none)

/-- The result of an attach in `TATTST`: error, or the slot taken. -/
def State.attachResult (s : State) (fn : Nat) (r : Except Nat Nat) : State :=
  s.modHub fun h => { h with fns := put {} h.fns fn { get {} h.fns fn with attst := match r with
    | .ok slot => BitVec.ofNat 64 (128 + slot)
    | .error e => BitVec.ofNat 64 (e * 256) } }

/-- The filter of a descriptor. -/
def filterOf (fn tenant : Nat) (b : List Byte) : Filter :=
  let n := bits (leAt b 0 4) 20 16 + 1
  { tenant := tenant, fn := fn, cls := leAt b 0 1
    prog := (List.range n).map fun k => BitVec.ofNat 32 (leAt b (0x50 + 4 * k) 4)
    trigs := (List.range 8).map fun k => BitVec.ofNat 64 (leAt b (0x10 + 8 * k) 8)
    period := leAt b 4 2, clear := leAt b 6 1 % 2 = 1, host := BitVec.ofNat 64 (leAt b 8 8) }

/-- The program of a descriptor is accepted: its words, the words beyond it, and the reserved fields. -/
def descriptorOk (f : Filter) (b : List Byte) : Bool :=
  bits (leAt b 0 4) 15 11 = 0 && bits (leAt b 0 4) 31 21 = 0 && bits (leAt b 4 4) 31 17 = 0 && f.host.toNat % 64 = 0 &&
    ((List.range f.prog.length).zip f.prog).all (fun p => progWordOk f.trigs f.prog.length p.1 p.2) &&
    (List.range 32).all fun k => k < f.prog.length || leAt b (0x50 + 4 * k) 4 = 0

/-- TATTACH: the descriptor is read and checked, and a slot taken. -/
def State.tattach (s0 : State) (fn : Nat) (x : Word) : State :=
  let s := (s0.descriptor fn x).1
  match (s0.descriptor fn x).2 with
  | none => s.attachResult fn (.error 5)
  | some b =>
    let tenant := s.fnTenant fn
    let d := bits (leAt b 0 4) 10 8
    let f := filterOf fn tenant b
    if !classSeen f.cls d tenant then s.attachResult fn (.error 1)
    else match (s.tel d).freeSlot with
      | none => s.attachResult fn (.error 2)
      | some k =>
        if !descriptorOk f b then s.attachResult fn (.error 3)
        else if !(f.trigs.all (s.trigWordOk fn tenant d)) then s.attachResult fn (.error 4)
        else
          let f := { f with exportAt := s.hub.cycle + f.period * windowCycles }
          (s.modTel d fun t => { t with filters := put none t.filters k (some f) }).attachResult fn (.ok k)

/-- `TATTACH_WRITE` (22 R534). -/
def execTattachWrite (fn : Nat) (x : Word) (s : State) : Host.Outcome State Fault Refusal := .next (s.tattach fn x)

/-- A function may use a filter (22 R533). -/
def State.mayUse (s : State) (fn : Nat) (f : Filter) : Bool := 1024 ≤ fn || f.tenant = s.fnTenant fn

/-- TDETACH: the queued records go, and the slot is free, after the event it runs. -/
def State.tdetach (s : State) (fn : Nat) (x : Word) : State :=
  let d := x.toNat / 64 % 8
  let k := x.toNat % 64
  match (s.tel d).filter k with
  | none => s
  | some f =>
    if 4 < d || !s.mayUse fn f then s
    else if (s.tel d).run.any fun r => r.slot = k then
      s.modFilter d k fun f => { f with leaving := true, queue := [] }
    else s.modTel d fun t => { t with filters := put none t.filters k none }

/-- `TDETACH_WRITE` (22 R534). -/
def execTdetachWrite (fn : Nat) (x : Word) (s : State) : Host.Outcome State Fault Refusal := .next (s.tdetach fn x)

/-! ### Budgets and exports (22 R535, R544) -/

/-- TBUDGET: the limits of all tenants may come to 900,000. -/
def Tel.budget (t : Tel) (tenant : Nat) (x : Word) : Tel :=
  let m := put 0 t.limit tenant (x.toNat % 2 ^ 20)
  if 900000 < (m.map Prod.snd).foldl (· + ·) 0 then t else { t with limit := m }

/-- `TBUDGET_WRITE` (22 R535). -/
def execTbudgetWrite (die tenant : Nat) (x : Word) (s : State) : Host.Outcome State Fault Refusal :=
  .next (if die ≤ 4 && tenant < 256 then s.modTel die fun t => t.budget tenant x else s)

/-- `BUDGET_WINDOW`: a window begins, nothing of it spent (22 R535). -/
def execBudgetWindow (die : Nat) (s : State) : Host.Outcome State Fault Refusal :=
  .next (s.modTel die fun t => { t with spent := [] })

/-- `EXPORT` (22 R544). -/
def execExportSnap (die slot : Nat) (s : State) : Host.Outcome State Fault Refusal := .next (s.exportSlot die slot)

/-! ### Periodic records (22 R528) -/

/-- SLOTS: an interval of 2^20 cycles has ended, and a core that holds a launch's context posts its counts, which begin anew. -/
def State.slotsRecord (s : State) (core : Nat) : State :=
  let k := s.core core
  let lid := ((s.coreCtxs core).filterMap s.lidOf).head?
  let s1 := s.modCore core fun k => { k with ivIssued := 0, ivForfeit := 0, ivBank := 0 }
  if lid.isNone then s1
  else s1.post (dieOf (quadOf core)) 0x06 lid core 0 (sat32 k.ivIssued) (sat32 k.ivForfeit) (sat32 k.ivBank)

/-- `SLOTS` (22 R528). -/
def execSlots (core : Nat) (s : State) : Host.Outcome State Fault Refusal := .next (s.slotsRecord core)

/-- `THERM`: a sensor's temperature (22 R528). -/
def execTherm (die sensor : Nat) (temp : BitVec 32) (s : State) : Host.Outcome State Fault Refusal :=
  .next (s.post die 0x10 none (die * 1024) 0 (BitVec.ofNat 32 sensor) temp (BitVec.ofNat 32 s.hub.pwrLevel))

end Sys2Proof.Machine
end

