-- ==== Sys2Proof/Machine/Fleet.lean ====
section
/-! DEFINITION. Power and thermal limits, the thermal trip, the health word, and checkpoints of physical memory
(23 R547-R554). -/

namespace Sys2Proof.Machine

/-! ### Throttle and trip (23 R547-R551) -/

/-- The throttle level after an update (23 R549). -/
def nextLevel (level watts cap hottest limit : Nat) : Nat :=
  if cap < watts || limit ≤ hottest then min (level + 1) 15
  else if 100 * watts ≤ 95 * cap && hottest + 2 ≤ limit then level - 1
  else level

/-- THROTTLE_UPDATE: the average power, the hottest sensor in degrees, and the level they give. A thermal throttle is in
force from a temperature at the limit until the temperature has fallen or the level is 0. -/
def State.throttle (s : State) (watts hottest : Nat) : State :=
  s.modHub fun h =>
    let n := nextLevel h.pwrLevel watts h.pwrCap hottest h.tThrottle
    { h with
      pwrNow := watts
      pwrLevel := n
      therm := h.tThrottle ≤ hottest || (h.therm && n ≠ 0 && h.tThrottle < hottest + 2) }

/-- `THROTTLE_UPDATE` (23 R549). -/
def execThrottleUpdate (watts hottest : Nat) (s : State) : Host.Outcome State Fault Refusal :=
  .next (s.throttle watts hottest)

/-- `THERMTRIP`: the pin, the flag, and no clock until the next reset (23 R551). -/
def execThermtrip (s : State) : Host.Outcome State Fault Refusal :=
  .next ((s.modHub fun h => { h with trip := true }).emit .tripPin)

/-- Spares consumed on a die: those in use, and those that have failed (21 R523, 23 R547, log 89). -/
def Hub.sparesOn (h : Hub) (die : Nat) : Nat :=
  (((h.spare.map Prod.snd) ++ h.failList.filter fun q => (List.range 4).any fun k => (sparesOf (dieOf q) k).contains q).filter
    fun q => dieOf q = die).eraseDups.length

/-- The health word: a quad found failing asks for replacement at once (21 R523, R525, 23 R547). -/
def Hub.health (h : Hub) : Word :=
  let lost := h.links.toNat * 2 ^ 48 + h.heldOut.length % 32 * 2 ^ 40 + h.retired.length % 64 * 2 ^ 32 +
    (List.range 4).foldl (fun a d => a + h.sparesOn d % 16 * 2 ^ (16 + 4 * d)) 0
  BitVec.ofNat 64 ((if lost = 0 && h.failList.isEmpty then 0 else 2 ^ 63) + (if h.therm then 2 ^ 62 else 0) + (if h.trip then 2 ^ 61 else 0) + lost)

/-! ### Checkpoints (23 R552-R554) -/

/-- A physical range that names something: whole lines of one tier. -/
def rangeExists (start len : Nat) : Bool :=
  start % 64 = 0 && len % 64 = 0 && 0 < len && paExists start && paExists (start + len - 1) &&
    (2 ^ 40 ≤ start || start / 2 ^ 36 = (start + len - 1) / 2 ^ 36)

/-- A line as its home stores it, under the key of its granule's owner (20 R490). -/
def State.storedLine (s : State) (pa : Nat) : List Byte :=
  let e := get (0 : BitVec 16) s.hub.own (pa / 65536)
  let key := if e.getLsbD 14 then Config.deviceKey else get 0 s.hub.keys (e.toNat % 256)
  leBytes 64 (Config.cipherLine key pa (s.rd (.tier pa) 64))

/-- The CRC32C of a range as it is streamed, no inversion, taken on by a line (07 R232). -/
def crcLine (crc : Nat) (l : List Byte) : Nat := l.foldl (fun c b => crcStep c b.toNat) crc

/-- The port that a network sink leads to, when its queue and its route work. -/
def State.sinkPort (s : State) (sink : Nat) : Option Nat :=
  let route := get 0 s.hub.groute (bits sink 15 8)
  let port := route.toNat % 4
  if bits sink 61 16 = 0 && bits sink 7 6 = 0 && (get {} s.hub.egress (sink % 64)).conf.getLsbD 63 && route.getLsbD 63 &&
      (s.port port).galsol && (s.port port).up then some port else none

/-- A sink that can be sent to. -/
def State.sinkOk (s : State) (sink : Nat) : Bool := sink / 2 ^ 62 < 2 || (sink / 2 ^ 62 = 2 && (s.sinkPort sink).isSome)

/-- The stream of a tier ends. -/
def State.endStream (s : State) (bulk : Bool) : State :=
  s.modHub fun h => { h with streams := h.streams.filter fun y => y.bulk ≠ bulk }

def State.ckptFlag (s : State) : State := s.modHub fun h => { h with ckptErr := true }

/-- The memory home of a physical address admits a request, which is then made, or holds it (23 R550). -/
def State.atTier (s : State) (pa : Nat) (f : State → State) : State :=
  if s.portAdmits (memPort pa) then f (s.letIn (memPort pa)) else s

/-- The descriptor gets them, and the next one follows. -/
def State.rangeDone (s : State) (x : Stream) (crc status : Nat) : State :=
  s.atTier (x.list + 32 * x.next + 24) fun s =>
    let s1 := (s.setStream { bulk := x.bulk, list := x.list, count := x.count, next := x.next + 1 }).wrHome
      (.tier (x.list + 32 * x.next + 24)) 8 (crc + status * 2 ^ 32)
    if status = 0 then s1 else s1.ckptFlag

/-- A stream takes up the next descriptor, when its range is of the stream's tier. -/
def State.openRange (s : State) (x : Stream) : State :=
  s.atTier (x.list + 32 * x.next) fun s =>
  let a := x.list + 32 * x.next
  let w := fun k : Nat => s.rd (.tier (a + 8 * k)) 8
  let skip := s.setStream { x with next := x.next + 1 }
  if !s.luthiers a then if x.bulk then skip else skip.ckptFlag
  else if decide (2 ^ 40 ≤ w 0) ≠ x.bulk then skip
  else if !rangeExists (w 0) (w 1) then s.rangeEnds x 0 2
  else if !s.sinkOk (w 2) then s.rangeEnds x 0 1
  else s.setStream { x with start := w 0, len := w 1, sink := w 2, off := 0, crc := 0, buf := [] }

/-- A stream sends the next line of its range as its home stores it now. A network sink gets a frame of a raw header, the
physical address and up to 8,192 bytes of lines (23 R553-R554). -/
def State.sendLine (s : State) (x : Stream) : State := s.atTier (x.start + x.off) fun s =>
  let line := s.storedLine (x.start + x.off)
  let crc := crcLine x.crc line
  let off := x.off + 64
  let buf := x.buf ++ line
  let next := fun (s : State) (buf : List Byte) =>
    if off = x.len then s.rangeEnds x crc 0 else s.setStream { x with off := off, crc := crc, buf := buf }
  if x.sink / 2 ^ 62 < 2 then
    next (s.emit (.hostWrite (1024 + x.sink / 2 ^ 62) (BitVec.ofNat 64 (x.sink % 2 ^ 62 + x.off)) line)) []
  else match s.sinkPort x.sink with
    | none => s.rangeEnds x 0 1
    | some port =>
      if off = x.len || buf.length = 8192 then
        let frame := leBytes 1 (bits x.sink 15 8) ++ leBytes 7 0 ++ leBytes 8 (x.start + off - buf.length) ++ buf
        next (s.modHub fun h =>
          let q := get {} h.egress (x.sink % 64)
          { h with egress := put {} h.egress (x.sink % 64) { q with frames := q.frames ++ [(port, frame)] } }) []
      else next s buf

/-- A CHECKPOINT goes on: the stream of a tier sends a line, ends a range, takes up another, or ends (23 R553). -/
def State.ckptStep (s : State) (bulk : Bool) : State :=
  match s.hub.streams.find? fun x => x.bulk = bulk with
  | none => s
  | some x =>
    if let some r := x.done then s.rangeDone x r.1 r.2
    else if x.len ≠ 0 then s.sendLine x
    else if x.next < x.count then s.openRange x
    else s.endStream bulk

/-- `CKPTCTL`: its flags are cleared, and go starts the two streams over the list, or is refused while one runs or during a
live update (23 R552-R553). -/
def State.ckptWrite (s : State) (x : Word) : State :=
  let s1 := s.modHub fun h => { h with
    ckptDirty := h.ckptDirty && !x.getLsbD 62, ckptErr := h.ckptErr && !x.getLsbD 61 }
  let of := fun b : Bool => ({ bulk := b, list := bits s.hub.ckptList.toNat 40 5 * 32
                               count := bits s.hub.ckptList.toNat 63 52 + 1 } : Stream)
  if !x.getLsbD 0 then s1
  else if !s.hub.streams.isEmpty || s.hub.fw.busy then s1.ckptFlag
  else s1.modHub fun h => { h with streams := [of false, of true] }

/-- `CKPT_GO` (23 R553). -/
def execCkptGo (x : Word) (s : State) : Host.Outcome State Fault Refusal := .next (s.ckptWrite x)

end Sys2Proof.Machine
end

