-- ==== Sys2Proof/Machine/Queue.lean ====
section
/-! DEFINITION. Queue windows and channels as a thread uses them (08 R280-R285). -/

namespace Sys2Proof.Machine

/-- A window of the issuing context is set. -/
def State.setWin (s : State) (k : Nat) (w : Option Window) : State :=
  s.modCtx s.cur fun c => { c with win := put none c.win k w }

/-- `qbind`: an outbound channel's credits come with the answer of its target to this bind (08 R283). -/
def execQbind (a : BitVec 5) (t : BitVec 1) (k : BitVec 2) (s : State) : Host.Outcome State Fault Refusal :=
  issue (.qbind a t k) (fun s =>
    let w : Window := { word := s.S a }
    if w.kind = 1 then
      let n := s.seqNow
      ((s.takeSeq.setWin k.toNat (some { w with answered := false, bind := n })).modCtx s.cur fun c => { c with
        binds := c.binds ++ [n] }).send (some (coreOf s.cur, w.target)) (.bindAnswer s.cur k.toNat n w.word)
    else s.setWin k.toNat (some w)) s

/-- A window of the issuing context is unbound; the words of a command that was never accepted go
(08 R283, 10 R327). -/
def State.unbind (s : State) (k : Nat) : State :=
  match (s.ctx s.cur).window k with
  | none => s
  | some w =>
    let s1 := s.setWin k none
    if w.kind = 2 then s1.modCtx s.cur fun c => { c with partialCmd := put [] c.partialCmd w.sel [] } else s1

/-- `qunbind` (08 R283). -/
def execQunbind (k : BitVec 2) (s : State) : Host.Outcome State Fault Refusal :=
  issue (.qunbind k) (fun s => s.unbind k.toNat) s

/-- The status word of a window (08 R284). -/
def State.winStatus (s : State) (k : Nat) : Word :=
  match (s.ctx s.cur).window k with
  | some w => BitVec.ofNat 64 (2 ^ 63 + w.kind * 2 ^ 61 + s.winCount s.cur w % 32)
  | none => 0

/-- `qstat` (08 R284). -/
def execQstat (d : BitVec 5) (k : BitVec 2) (s : State) : Host.Outcome State Fault Refusal :=
  issueS (.qstat d k) d (fun s => s.winStatus k.toNat) s

/-- The head entry of a window that is read. -/
def State.winHead (s : State) (k : Nat) : VWord :=
  match (s.ctx s.cur).window k with
  | some w => (s.winEntries s.cur w).headD 0
  | none => 0

/-- `qpeek` (08 R284). -/
def execQpeek (d : BitVec 5) (k : BitVec 2) (s : State) : Host.Outcome State Fault Refusal :=
  issueS (.qpeek d k) d (fun s => (s.winHead k.toNat).setWidth 64) s

/-- `vqpush` (08 R285). -/
def execVqpush (v : BitVec 5) (t x : BitVec 1) (k : BitVec 2) (s : State) : Host.Outcome State Fault Refusal :=
  issue (.vqpush v t x k) (fun s => match (s.ctx s.cur).window k.toNat with
    | some w => s.pushWin s.cur k.toNat w (s.V (vreg v x))
    | none => s) s

/-- `vqpop` (08 R285). -/
def execVqpop (v : BitVec 5) (x : BitVec 1) (k : BitVec 2) (s : State) : Host.Outcome State Fault Refusal :=
  issue (.vqpop v x k) (fun s => match (s.ctx s.cur).window k.toNat with
    | some w => (s.setV (vreg v x) (s.winHead k.toNat)).popWin s.cur w
    | none => s) s

/-- The buffer of the issuing core that a register names (08 R281). -/
def State.bufOf (s : State) (a : BitVec 5) : Nat := (s.S a).toNat % 16

/-- `qcfgr` (08 R281). -/
def execQcfgr (d a : BitVec 5) (t : BitVec 1) (s : State) : Host.Outcome State Fault Refusal :=
  issueS (.qcfgr d a t) d (fun s => (get {} (s.core (coreOf s.cur)).chans (s.bufOf a)).conf) s

/-- The bits of a configuration word that are not reserved (08 R280). -/
def chanBits : Word := 0x800000FFFF80000F

/-- `qcfgw`: the buffer is emptied (08 R281). -/
def execQcfgw (a : BitVec 5) (t : BitVec 1) (b : BitVec 5) (u : BitVec 1) (s : State) :
    Host.Outcome State Fault Refusal :=
  issue (.qcfgw a t b u) (fun s => s.modCore (coreOf s.cur) fun k => { k with
    chans := put {} k.chans (s.bufOf a) { conf := s.S b &&& chanBits, entries := [] } }) s

end Sys2Proof.Machine
end

