-- ==== Sys2Proof/Machine/Registers.lean ====
section
/-! DEFINITION. The hub register map: every register of 19 to 23 by its offset, as it reads and as it takes a write; the
pages of the functions; accesses to the map and through the apertures (08 R250, 19 R446-R449, 21 R505). -/

namespace Sys2Proof.Machine

/-! ### The page of a function (19 R446-R447, R449, 22 R533-R534) -/

def State.fnRegs (s : State) (fn : Nat) : Fn := get {} s.hub.fns fn
def State.modFn (s : State) (fn : Nat) (f : Fn → Fn) : State :=
  s.modHub fun h => { h with fns := put {} h.fns fn (f (get {} h.fns fn)) }

/-- `QSTAT` (19 R449). -/
def Queue.stat (q : Queue) : Word := BitVec.ofNat 64 (q.dbbad % 65536 * 65536 + (if q.ovf then 4 else 0) + q.rung % 4)

/-- `QIDX` (19 R448). -/
def Queue.idx (q : Queue) : Word := q.prod ++ q.cons

/-- `TRDDAT`: the state word that `TRDSEL` selects, for a function that may read it. -/
def State.trddat (s : State) (fn : Nat) : Word :=
  let x := (s.fnRegs fn).rdsel.toNat
  let d := bits x 34 32
  match (s.tel d).filter (bits x 29 24) with
  | some f => if s.mayUse fn f then (get 0 f.k (x % 1024)).setWidth 64 else 0
  | none => 0

/-- A read of a function's page. -/
def State.pageRead (s : State) (fn off : Nat) : Word :=
  if off % 8 ≠ 0 then 0
  else if 0x100 ≤ off && off < 0x180 then if fn < 1024 then (s.queueOf (16 * fn + (off - 0x100) / 8)).stat else 0
  else if off = 0x200 then (s.fnRegs fn).apbase
  else if off = 0x208 then BitVec.ofNat 64 (s.fnRegs fn).apfault
  else if off = 0x810 then (s.fnRegs fn).attst
  else if off = 0x820 then s.trddat fn
  else 0

/-- A write of a function's page. -/
def State.pageWrite (s : State) (fn off : Nat) (x : Word) : State :=
  if off % 8 ≠ 0 then s
  else if off < 0x80 then if fn < 1024 then s.doorbell (16 * fn + off / 8) x else s
  else if off = 0x200 then s.modFn fn fun f => { f with apbase := x }
  else if off = 0x800 then s.tattach fn x
  else if off = 0x808 then s.tdetach fn x
  else if off = 0x818 then s.modFn fn fun f => { f with rdsel := x &&& 0x73F0003FF }
  else s

/-! ### Fields that are computed -/

def b2n (b : Bool) (k : Nat) : Nat := if b then 2 ^ k else 0

/-- `GSTAT` (19 R466). -/
def Port.stat (p : Port) : Word :=
  BitVec.ofNat 64 (b2n p.up 63 + p.width % 4 * 2 ^ 61 + p.pport % 4 * 2 ^ 48 + p.ppkg % 256 * 2 ^ 40 + p.retrains % 2 ^ 32)

/-- `PARTERR` (20 R478). -/
def Hub.partErrWord (h : Hub) : Word := BitVec.ofNat 64 (b2n h.partErr 7 + h.partBad.1 % 4 * 32 + h.partBad.2 % 32)

/-- `CLSERR` (19 R462). -/
def Hub.clsErrWord (h : Hub) : Word := BitVec.ofNat 64 (b2n h.clsErr 63 + h.clsBad % 256)

/-- `ERRBASE` (21 R519). -/
def ErrLog.word (e : ErrLog) : Word :=
  BitVec.ofNat 64 (e.head % 256 * 2 ^ 56 + e.lost % 256 * 2 ^ 48 + bits e.base 40 13 * 2 ^ 13 + if e.en then 1 else 0)

/-- Eight bytes of a die quad map (21 R526). -/
def State.quadMap (s : State) (d l : Nat) : Word :=
  BitVec.ofNat 64 ((List.range 8).foldl (fun a k =>
    a + (if l + k < 240 then quadX (physicalOf s d (l + k)) * 16 + quadY (physicalOf s d (l + k)) else 0) * 256 ^ k) 0)

/-- `PORTOK` (21 R523). -/
def State.portOkWord (s : State) : Word :=
  BitVec.ofNat 64 ((List.range 32).foldl (fun a p => a + if s.portOk p then 2 ^ p else 0) 0)

/-- `TRING` (22 R545). -/
def TraceRing.word (r : TraceRing) : Word :=
  BitVec.ofNat 64 (b2n r.en 63 + b2n r.frozen 62 + r.head % 1024 * 2 ^ 48 + r.tenant % 256 * 2 ^ 40 + r.mask.toNat)

/-- Eight bytes of a list of bytes. -/
def wordAt (b : List Byte) (o : Nat) : Word := BitVec.ofNat 64 (leAt b o 8)

/-! ### A coprocessor's block (22 R532-R536, R544-R545) -/

/-- A read at an offset of a coprocessor's block. -/
def Tel.read (t : Tel) (o : Nat) : Word :=
  if o < 0x100 then BitVec.ofNat 64 (get 0 t.clsPosted (o / 8) * 2 ^ 32 + get 0 t.clsDrops (o / 8))
  else if o < 0x900 then BitVec.ofNat 64 (t.left ((o - 0x100) / 8) * 2 ^ 32 + get 0 t.limit ((o - 0x100) / 8))
  else if o = 0x900 then BitVec.ofNat 64 (t.tcfg % 16)
  else if 0xA00 ≤ o && o < 0xA40 then (get {} t.rings ((o - 0xA00) / 8)).word
  else if 0x1000 ≤ o && o < 0x2000 then t.statusWord ((o - 0x1000) / 64) (o % 64 / 8)
  else if 0x40000 ≤ o && o < 0x80000 then
    match t.filter ((o - 0x40000) / 0x1000) with
    | some f => (get 0 f.k (o % 0x1000 / 4 + 1) ++ get 0 f.k (o % 0x1000 / 4) : BitVec 64)
    | none => 0
  else if 0x80000 ≤ o && o < 0xC0000 then
    wordAt ((get [] (get {} t.rings ((o - 0x80000) / 0x8000)).recs (o % 0x8000 / 32)).flatMap fun w => leBytes 4 w.toNat) (o % 32)
  else if 0xC0000 ≤ o && o < 0x100000 then
    match t.filter ((o - 0xC0000) / 0x1000) with
    | some f => wordAt (get [] f.stamps (o % 0x1000 / 64)) (o % 64)
    | none => 0
  else 0

/-- A write of `TRING` (22 R545). -/
def TraceRing.write (r : TraceRing) (x : Word) : TraceRing :=
  { r with en := x.getLsbD 63, frozen := r.frozen && !x.getLsbD 62, tenant := bits x.toNat 47 40, mask := x.extractLsb' 0 32 }

/-- A write at an offset of a coprocessor's block: `TBUDGET`, `TCFG` and `TRING` are written through physical function 0
only. -/
def Tel.write (t : Tel) (o : Nat) (x : Word) : Tel :=
  if 0x100 ≤ o && o < 0x900 then t.budget ((o - 0x100) / 8) x
  else if o = 0x900 then { t with tcfg := x.toNat % 16 }
  else if 0xA00 ≤ o && o < 0xA40 then
    { t with rings := put {} t.rings ((o - 0xA00) / 8) ((get {} t.rings ((o - 0xA00) / 8)).write x) }
  else t

/-! ### The map (21 R505) -/

/-- A queue that an access may reach: a physical function (level 4 or 5) those it carries, luthier all (19 R447). -/
def queueSeen (level q : Nat) : Bool := if level = 4 then q < 8192 else if level = 5 then 8192 ≤ q else true

/-- The page at the start of the map: the accessing physical function's own, physical function 0's for luthier. -/
def pageFn (level : Nat) : Nat := if level = 5 then 1025 else 1024

/-- What physical function 1 (level 5) has in its BAR0: its page, and the blocks of its queues (19 R447). -/
def hasOffset (level off : Nat) : Bool := level ≠ 5 || off < 0x1000 || (0x100000 ≤ off && off < 0x1C0000)

/-- Offsets below 0x40_0000: the page of a physical function, queues, rings, the classifier. -/
def State.lowRead (s : State) (off level : Nat) : Word :=
  if off < 0x1000 then s.pageRead (pageFn level) off
  else if 0x100000 ≤ off && off < 0x180000 then
    let q := s.queueOf ((off - 0x100000) / 32)
    if !queueSeen level ((off - 0x100000) / 32) then 0
    else if off % 32 = 0 then q.cfg else if off % 32 = 8 then q.base else if off % 32 = 16 then q.pre else q.idx
  else if 0x180000 ≤ off && off < 0x1C0000 then
    if off % 16 = 8 && queueSeen level ((off - 0x180000) / 16) then (s.queueOf ((off - 0x180000) / 16)).stat else 0
  else if 0x200000 ≤ off && off < 0x200400 then
    let r := get {} s.hub.rings ((off - 0x200000) / 16)
    if off % 16 = 0 then r.word else BitVec.ofNat 64 (r.head * 2 ^ 32 + if r.att.isSome then 1 else 0)
  else if 0x300000 ≤ off && off < 0x302000 then
    let c := s.clsEntry ((off - 0x300000) / 32)
    if off % 32 = 0 then c.control else if off % 32 = 8 then c.mask else if off % 32 = 16 then c.value else c.action
  else if off = 0x302000 then s.hub.clsErrWord
  else if 0x303000 ≤ off && off < 0x303100 then
    if off % 64 / 8 < 6 then BitVec.ofNat 64 (get 0 (s.port ((off - 0x303000) / 64)).drops (off % 64 / 8)) else 0
  else 0

/-- Offsets 0x40_0000 to 0x4F_FFFF: egress, package number, clock, routes, links. -/
def State.linkRead (s : State) (off : Nat) : Word :=
  if off < 0x400200 then (get {} s.hub.egress ((off - 0x400000) / 8)).conf
  else if off < 0x400280 then s.egstampWord ((off - 0x400200) / 32) (off % 32 / 8)
  else if off = 0x401000 then BitVec.ofNat 64 (s.hub.pkgnum % 256)
  else if off = 0x401108 then s.hub.clkhi
  else if off = 0x401110 then s.hub.clklo
  else if off = 0x401118 then s.hub.clkrate.setWidth 64
  else if 0x402000 ≤ off && off < 0x402800 then get 0 s.hub.groute ((off - 0x402000) / 8)
  else if 0x403000 ≤ off && off < 0x403020 then (s.port ((off - 0x403000) / 8)).stat
  else if 0x403100 ≤ off && off < 0x403180 then
    if off % 32 / 8 < 3 then BitVec.ofNat 64 (get 0 (s.port ((off - 0x403100) / 32)).gdrops (off % 32 / 8)) else 0
  else 0

/-- Offsets 0x50_0000 to 0x5F_FFFF: partitions, contexts, ownership. -/
def State.partRead (s : State) (off : Nat) : Word :=
  if off < 0x500100 then get 0 s.hub.part ((off - 0x500000) / 8)
  else if off < 0x500200 then get 0 s.hub.xconn ((off - 0x500100) / 8)
  else if off = 0x500200 then s.hub.partErrWord
  else if off = 0x500208 then BitVec.ofNat 64 s.hub.partDrop
  else if 0x500300 ≤ off && off < 0x500400 then get 0 s.hub.psave ((off - 0x500300) / 8)
  else if off = 0x501000 then BitVec.ofNat 64 (s.hub.xcsel % 65536)
  else if off = 0x501008 then s.hub.xcw0
  else if off = 0x501010 then s.hub.xcw1
  else if off = 0x502000 then s.hub.ownRange
  else if off = 0x502008 then s.hub.ownSet
  else if off = 0x503000 then BitVec.ofNat 64 (b2n s.fenceBusy 63)
  else 0

/-- Offsets 0x60_0000 to 0x6F_FFFF: luthier's registers. -/
def State.fwRead (s : State) (off : Nat) : Word :=
  if off = 0x600000 then
    BitVec.ofNat 64 (b2n s.hub.fw.busy 63 + s.hub.fw.state % 8 * 2 ^ 60 + s.hub.fw.slot % 2 * 2)
  else if 0x600010 ≤ off && off < 0x600110 then
    let n := (off - 0x600010) / 8
    BitVec.ofNat 64 (get 0 s.hub.wdogCount n / 1024 % 2 ^ 32 * 2 ^ 32 + s.wdogLimitOf n)
  else if 0x600200 ≤ off && off < 0x600228 then (s.die ((off - 0x600200) / 8)).err.word
  else if 0x600300 ≤ off && off < 0x600700 then s.quadMap ((off - 0x600300) / 256) ((off - 0x600300) % 256)
  else if off = 0x600800 then s.portOkWord
  else if 0x600900 ≤ off && off < 0x600920 then get 0 s.hub.syncOvf ((off - 0x600900) / 8)
  else 0

/-- Offsets from 0xC0_0000: the operator's registers. -/
def State.fleetRead (s : State) (off : Nat) : Word :=
  if off = 0xC00000 then s.hub.health
  else if off = 0xC00008 then
    BitVec.ofNat 64 (s.hub.pwrLevel % 16 * 2 ^ 44 + s.hub.pwrMode % 4 * 2 ^ 40 + s.hub.pwrCap % 2048)
  else if off = 0xC00010 then BitVec.ofNat 64 (s.hub.pwrNow % 2048)
  else if off = 0xC00018 then BitVec.ofNat 64 (s.hub.tThrottle % 256 * 256 + 115)
  else if off = 0xC00100 then s.hub.ckptList
  else if off = 0xC00108 then
    BitVec.ofNat 64 (b2n (!s.hub.streams.isEmpty) 63 + b2n s.hub.ckptDirty 62 + b2n s.hub.ckptErr 61)
  else if 0xC00200 ≤ off && off < 0xC00220 then BitVec.ofNat 64 (s.hub.fw.inventory ((off - 0xC00200) / 8))
  else 0

/-- A register read, and the state after it: a read of word 1 of `EGSTAMP` removes its entry (19 R464). -/
def State.hubRead (s : State) (off level : Nat) : State × Word :=
  if off % 8 ≠ 0 || !hasOffset level off then (s, 0)
  else if off < 0x400000 then (s, s.lowRead off level)
  else if off < 0x500000 then
    (if 0x400200 ≤ off && off < 0x400280 && off % 32 = 8 then s.popStamp ((off - 0x400200) / 32) else s, s.linkRead off)
  else if off < 0x600000 then (s, s.partRead off)
  else if off < 0x700000 then (s, s.fwRead off)
  else if off < 0xC00000 then (s, (s.tel ((off - 0x700000) / 0x100000)).read (off % 0x100000))
  else (s, s.fleetRead off)

/-- Writes below 0x40_0000. -/
def State.lowWrite (s : State) (off level : Nat) (x : Word) : State :=
  if off < 0x1000 then s.pageWrite (pageFn level) off x
  else if 0x100000 ≤ off && off < 0x180000 then
    if queueSeen level ((off - 0x100000) / 32) then s.qcfgWrite ((off - 0x100000) / 32) (off % 32 / 8) x else s
  else if 0x180000 ≤ off && off < 0x1C0000 then
    let q := (off - 0x180000) / 16
    if !queueSeen level q then s
    else if off % 16 = 0 then s.doorbell q x
    else s.modQueue q fun k => { k with ovf := k.ovf && !x.getLsbD 2 }
  else if 0x200000 ≤ off && off < 0x200400 then if off % 16 = 0 then s.ringConfigWrite ((off - 0x200000) / 16) x else s
  else if 0x300000 ≤ off && off < 0x302000 then s.classifierWrite ((off - 0x300000) / 32) (off % 32 / 8) x
  else if off = 0x302000 then s.modHub fun h => { h with clsErr := h.clsErr && !x.getLsbD 63 }
  else s

/-- Writes at 0x40_0000 to 0x4F_FFFF. -/
def State.linkWrite (s : State) (off : Nat) (x : Word) : State :=
  if off < 0x400200 then s.modHub fun h =>
    let q := get {} h.egress ((off - 0x400000) / 8)
    { h with egress := put {} h.egress ((off - 0x400000) / 8) { q with conf := x &&& 0xFE00000000000000 } }
  else if off = 0x401000 then s.modHub fun h => { h with pkgnum := x.toNat % 256 }
  else if off = 0x401100 then s.clkLatch x
  else if off = 0x401118 then s.modHub fun h => { h with clkrate := x.extractLsb' 0 40 }
  else if off = 0x401120 then s.clkStep x
  else if 0x402000 ≤ off && off < 0x402800 then s.modHub fun h =>
    { h with groute := put 0 h.groute ((off - 0x402000) / 8) (x &&& 0x8000000000000003) }
  else s

/-- Writes at 0x50_0000 to 0x5F_FFFF. -/
def State.partsWrite (s : State) (off : Nat) (x : Word) : State :=
  if off < 0x500100 then s.partWrite ((off - 0x500000) / 8) x
  else if off < 0x500200 then s.xconnWrite ((off - 0x500100) / 8) x
  else if off = 0x500200 then s.modHub fun h => { h with partErr := h.partErr && !x.getLsbD 7 }
  else if 0x500300 ≤ off && off < 0x500400 then s.modHub fun h =>
    { h with psave := put 0 h.psave ((off - 0x500300) / 8) (x &&& 0x1FFFFE00000) }
  else if off = 0x501000 then s.xcselWrite x
  else if off = 0x501008 then s.modHub fun h => { h with xcw0 := x &&& 0xFFFC000000000000 }
  else if off = 0x501010 then s.modHub fun h => { h with xcw1 := x &&& 0xFFFFFFFFF0000 }
  else if off = 0x502000 then s.modHub fun h => { h with ownRange := x &&& 0xFFFFFFFFFFFF0000 }
  else if off = 0x502008 then s.ownsetWrite x
  else if off = 0x503000 then s.xfenceWrite x
  else s

/-- Writes at 0x60_0000 to 0x6F_FFFF: `FWCTL` by the monitor and physical function 0, `ERRBASE` and `SYNCOVF` at level 3. -/
def State.fwWrite (s : State) (off level : Nat) (x : Word) : State :=
  if off = 0x600000 then if 3 ≤ level then s.fwctl x else s
  else if off = 0x600008 then s.fwbeat
  else if 0x600010 ≤ off && off < 0x600110 then s.modHub fun h =>
    { h with wdogLimit := put 0x100000 h.wdogLimit ((off - 0x600010) / 8) (x.extractLsb' 0 32) }
  else if 0x600200 ≤ off && off < 0x600228 then
    if level = 3 then (s.modDie ((off - 0x600200) / 8) fun d =>
      { d with err := { d.err with base := bits x.toNat 40 13 * 2 ^ 13, en := x.getLsbD 0 } }).logSpares ((off - 0x600200) / 8)
    else s
  else if 0x600900 ≤ off && off < 0x600920 then if level = 3 then s.syncovfWrite ((off - 0x600900) / 8) x else s
  else s

/-- Writes from 0xC0_0000. -/
def State.fleetWrite (s : State) (off : Nat) (x : Word) : State :=
  if off = 0xC00008 then s.modHub fun h => { h with
    pwrMode := if bits x.toNat 41 40 = 3 then h.pwrMode else bits x.toNat 41 40
    pwrCap := if 600 ≤ x.toNat % 2048 && x.toNat % 2048 ≤ 1500 then x.toNat % 2048 else h.pwrCap }
  else if off = 0xC00018 then s.modHub fun h => { h with
    tThrottle := if 70 ≤ bits x.toNat 15 8 && bits x.toNat 15 8 ≤ 105 then bits x.toNat 15 8 else h.tThrottle }
  else if off = 0xC00100 then s.modHub fun h => { h with ckptList := x &&& 0xFFF001FFFFFFFFE0 }
  else if off = 0xC00108 then s.ckptWrite x
  else s

/-- A register write, field by field by its access codes (00 R5-R6). Levels 4 and 5 stand for physical functions 0 and 1. -/
def State.hubWrite (s : State) (off level : Nat) (x : Word) : State :=
  if off % 8 ≠ 0 || !hasOffset level off then s
  else if off < 0x400000 then s.lowWrite off level x
  else if off < 0x500000 then s.linkWrite off x
  else if off < 0x600000 then s.partsWrite off x
  else if off < 0x700000 then s.fwWrite off level x
  else if off < 0xC00000 then
    if level = 4 then s.modTel ((off - 0x700000) / 0x100000) fun t => t.write (off % 0x100000) x else s
  else s.fleetWrite off x

/-- REGISTER_WRITE: a write of the map at a level, 4 and 5 for physical functions 0 and 1. Offsets from 2^33 up are the pages of the
functions: 2^33 + 4,096 fn + offset. -/
def State.registerWrite (s : State) (off level : Nat) (x : Word) : State :=
  if 2 ^ 33 ≤ off then s.pageWrite ((off - 2 ^ 33) / 4096) (off % 4096) x
  else if level < 2 then s
  else s.hubWrite off level x

/-- `REGISTER_WRITE` (00 R5). -/
def execRegisterWrite (off level : Nat) (x : Word) (s : State) : Host.Outcome State Fault Refusal :=
  .next (s.registerWrite off level x)

/-! ### Accesses that reach the hub (08 R250, 21 R505) -/

/-- A load or a store of a hub register. -/
def State.hubAccess (s : State) (r : Req) (off : Nat) : State :=
  match r.op with
  | .load _ => let p := s.hubRead off r.level; p.1.answerLoad r (p.2.setWidth 128) []
  | .store => (s.hubWrite off r.level (r.data.setWidth 64)).ack r
  | _ => s

/-- `REMOTE_ACCESS`: a load, store or atomic reaches its home (08 R250). -/
def execRemoteAccess (r : Req) (s : State) : Host.Outcome State Fault Refusal :=
  .next (match decodeAddr r.addr with
    | .hub off => s.hubAccess r off
    | _ => s.accessHome r)

/-! ### The apertures (19 R446) -/

/-- APERTURE_ACCESS: n bytes at `APBASE` + off, in the function's translation context. -/
def State.apertureAccess (s : State) (fn off n : Nat) (write : Bool) (x : Word) : State :=
  let a := (s.fnRegs fn).apbase + BitVec.ofNat 64 (off % 2 ^ 32)
  if n = 0 || 8 < n || s.apertureFault fn a n write then s.hostAbort fn
  else match decodeAddr a with
    | .hub o =>
      if write then s.hubWrite o (fnLevel fn) x
      else let p := s.hubRead o (fnLevel fn); p.1.emit (.apertureData fn (some p.2))
    | _ => s.hostSend fn a n write x

/-- `APERTURE_ACCESS` (19 R446). -/
def execApertureAccess (fn off size : Nat) (write : Bool) (x : Word) (s : State) : Host.Outcome State Fault Refusal :=
  .next (s.apertureAccess fn off size write x)

end Sys2Proof.Machine
end

