-- ==== Sys2Proof/Machine/Special.lean ====
section
/-! DEFINITION. The six special functions (07 R237-R238, 04 R142-R143). -/

namespace Sys2Proof.Machine

/-- A special function of every lane: a long-latency producer. The result and its conditions arrive as a
LOAD_RESULT (07 R238). -/
def special (i : Instr) (f : Val → Val × List Nat) (d a : BitVec 6) (y : BitVec 6) (s : State) :
    Host.Outcome State Fault Refusal :=
  issue i (fun s =>
    let r := eachLane y (laneOp y noInt fun fm _ l => sfResult fm (f (valFloat fm (l.getD 0 0)))) [s.V a.toNat]
    let n := s.seqNow
    (s.addProd (.v d.toNat) 1 0 false).send none
      (.loadResult { th := s.cur, seq := n, dst := .v d.toNat, lane := none, size := 16, value := r.1, conds := r.2
                     ends := some { start := s.now, addr := 0, pa := 0, kind := 3, lid := s.lidOf s.cur } })) s

/-- `rcp` (07 R237). -/
def execRcp (d a : BitVec 6) (t : BitVec 1) (y : BitVec 6) (s : State) : Host.Outcome State Fault Refusal :=
  special (.rcp d a t y) sfRcp d a y s

/-- `rsqrt` (07 R237). -/
def execRsqrt (d a : BitVec 6) (t : BitVec 1) (y : BitVec 6) (s : State) : Host.Outcome State Fault Refusal :=
  special (.rsqrt d a t y) sfRsqrt d a y s

/-- `sqrt` (07 R237). -/
def execSqrt (d a : BitVec 6) (t : BitVec 1) (y : BitVec 6) (s : State) : Host.Outcome State Fault Refusal :=
  special (.sqrt d a t y) sfSqrt d a y s

/-- `exp2` (07 R237). -/
def execExp2 (d a : BitVec 6) (t : BitVec 1) (y : BitVec 6) (s : State) : Host.Outcome State Fault Refusal :=
  special (.exp2 d a t y) sfExp2 d a y s

/-- `log2` (07 R237). -/
def execLog2 (d a : BitVec 6) (t : BitVec 1) (y : BitVec 6) (s : State) : Host.Outcome State Fault Refusal :=
  special (.log2 d a t y) sfLog2 d a y s

/-- `tanh` (07 R237). -/
def execTanh (d a : BitVec 6) (t : BitVec 1) (y : BitVec 6) (s : State) : Host.Outcome State Fault Refusal :=
  special (.tanh d a t y) sfTanh d a y s

end Sys2Proof.Machine
end

