-- ==== Sys2Proof/Machine/Sync.lean ====
section
/-! DEFINITION. Join counters, signals, `swait` and barriers as a thread issues them (09 R307-R320). -/

namespace Sys2Proof.Machine

/-- A posted sync-word operation leaves its thread, counted by the die of its word (09 R307). -/
def State.postSync (s : State) (op : ReqOp) (a : Word) (x : Word) (ev : Req → Instr) : State :=
  let k := classOf s.cur a
  let r := s.request op a 8 (x.setWidth 128) .none s.seqNow (some k) false
  ((s.takeSeq.count s.cur k).evc (coreOf s.cur) 12).send (routeOf r) (ev r)

/-- `join.init`: bits [36:0] of the operand become word 0 (09 R309). -/
def execJoinInit (a : BitVec 5) (t : BitVec 1) (b : BitVec 5) (u : BitVec 1) (s : State) :
    Host.Outcome State Fault Refusal :=
  issue (.joinInit a t b u) (fun s => s.postSync .joinInit (s.S a) (s.S b &&& 0x1FFFFFFFFF) .syncWordUpdate) s

/-- `join.arrive` (09 R310). -/
def execJoinArrive (a : BitVec 5) (t : BitVec 1) (b : BitVec 5) (u : BitVec 1) (s : State) :
    Host.Outcome State Fault Refusal :=
  issue (.joinArrive a t b u) (fun s => s.postSync .joinArrive (s.S a) (s.S b &&& 0xFFFFFFFF) .joinArrival) s

/-- `ssig.set` (09 R312). -/
def execSsigSet (a : BitVec 5) (t : BitVec 1) (b : BitVec 5) (u : BitVec 1) (s : State) :
    Host.Outcome State Fault Refusal :=
  issue (.ssigSet a t b u) (fun s => s.postSync .ssigSet (s.S a) (s.S b) .syncWordUpdate) s

/-- `ssig.add` (09 R312). -/
def execSsigAdd (a : BitVec 5) (t : BitVec 1) (b : BitVec 5) (u : BitVec 1) (s : State) :
    Host.Outcome State Fault Refusal :=
  issue (.ssigAdd a t b u) (fun s => s.postSync .ssigAdd (s.S a) (s.S b) .syncWordUpdate) s

/-- `swait`: issues at the first slot after its answer (09 R313). -/
def execSwait (d a : BitVec 5) (t : BitVec 1) (b : BitVec 5) (u : BitVec 1) (c : BitVec 3) (s : State) :
    Host.Outcome State Fault Refusal := issueAnswer (.swait d a t b u c) d s

/-- `barr.arr`: arrives and continues (09 R319). -/
def execBarrArr (l : BitVec 3) (i : BitVec 6) (s : State) : Host.Outcome State Fault Refusal :=
  issue (.barrArr l i) (fun s => s.arrive l.toNat i.toNat none) s

/-- `barr.wait`: issues when the lead is 0 (09 R319). -/
def execBarrWait (l : BitVec 3) (i : BitVec 6) (s : State) : Host.Outcome State Fault Refusal :=
  issue (.barrWait l i) (fun s => s) s

/-- `barr.sync`: the arrival is made at its first slot, and the bundle issues when the lead is 0 (09 R319). -/
def execBarrSync (l : BitVec 3) (i : BitVec 6) (s : State) : Host.Outcome State Fault Refusal :=
  issue (.barrSync l i) (fun s => s) s

/-- `barr.sync.cmb`: as `barr.sync`, its arrival carrying the record's address (09 R320). -/
def execBarrSyncCmb (a : BitVec 5) (t : BitVec 1) (l : BitVec 3) (i : BitVec 6) (s : State) :
    Host.Outcome State Fault Refusal :=
  issue (.barrSyncCmb a t l i) (fun s => s) s

end Sys2Proof.Machine
end

