-- ==== Sys2Proof/Machine/Dispatch.lean ====
section
/-! DEFINITION. What each row of the table of operations and events does: one arm per constructor. -/

namespace Sys2Proof.Machine

/-- One instruction, command or event is performed. -/
def exec (i : Instr) (s : State) : Host.Outcome State Fault Refusal :=
  match i with
  | .add d a t b u => Sys2Proof.Machine.execAdd d a t b u s
  | .sub d a t b u => Sys2Proof.Machine.execSub d a t b u s
  | .and d a t b u => Sys2Proof.Machine.execAnd d a t b u s
  | .or d a t b u => Sys2Proof.Machine.execOr d a t b u s
  | .xor d a t b u => Sys2Proof.Machine.execXor d a t b u s
  | .andn d a t b u => Sys2Proof.Machine.execAndn d a t b u s
  | .sll d a t b u => Sys2Proof.Machine.execSll d a t b u s
  | .srl d a t b u => Sys2Proof.Machine.execSrl d a t b u s
  | .sra d a t b u => Sys2Proof.Machine.execSra d a t b u s
  | .slt d a t b u => Sys2Proof.Machine.execSlt d a t b u s
  | .sltn d a t b u => Sys2Proof.Machine.execSltn d a t b u s
  | .min d a t b u => Sys2Proof.Machine.execMin d a t b u s
  | .max d a t b u => Sys2Proof.Machine.execMax d a t b u s
  | .minn d a t b u => Sys2Proof.Machine.execMinn d a t b u s
  | .maxn d a t b u => Sys2Proof.Machine.execMaxn d a t b u s
  | .lea d a t b u k => Sys2Proof.Machine.execLea d a t b u k s
  | .mul d a t b u => Sys2Proof.Machine.execMul d a t b u s
  | .mulh d a t b u => Sys2Proof.Machine.execMulh d a t b u s
  | .mulhn d a t b u => Sys2Proof.Machine.execMulhn d a t b u s
  | .mulhsn d a t b u => Sys2Proof.Machine.execMulhsn d a t b u s
  | .div d a t b u => Sys2Proof.Machine.execDiv d a t b u s
  | .divn d a t b u => Sys2Proof.Machine.execDivn d a t b u s
  | .rem d a t b u => Sys2Proof.Machine.execRem d a t b u s
  | .remn d a t b u => Sys2Proof.Machine.execRemn d a t b u s
  | .clz d a t => Sys2Proof.Machine.execClz d a t s
  | .ctz d a t => Sys2Proof.Machine.execCtz d a t s
  | .popc d a t => Sys2Proof.Machine.execPopc d a t s
  | .sel d a t b u => Sys2Proof.Machine.execSel d a t b u s
  | .bext d a t b u => Sys2Proof.Machine.execBext d a t b u s
  | .bexts d a t b u => Sys2Proof.Machine.execBexts d a t b u s
  | .bins d a t b u => Sys2Proof.Machine.execBins d a t b u s
  | .jr a t => Sys2Proof.Machine.execJr a t s
  | .callr d a t => Sys2Proof.Machine.execCallr d a t s
  | .lpset a t => Sys2Proof.Machine.execLpset a t s
  | .lpidx d l => Sys2Proof.Machine.execLpidx d l s
  | .lpaddr d l => Sys2Proof.Machine.execLpaddr d l s
  | .addi d a t z => Sys2Proof.Machine.execAddi d a t z s
  | .andi d a t z => Sys2Proof.Machine.execAndi d a t z s
  | .ori d a t z => Sys2Proof.Machine.execOri d a t z s
  | .xori d a t z => Sys2Proof.Machine.execXori d a t z s
  | .slti d a t z => Sys2Proof.Machine.execSlti d a t z s
  | .sltni d a t z => Sys2Proof.Machine.execSltni d a t z s
  | .slli d a t n => Sys2Proof.Machine.execSlli d a t n s
  | .srli d a t n => Sys2Proof.Machine.execSrli d a t n s
  | .srai d a t n => Sys2Proof.Machine.execSrai d a t n s
  | .cadr d a t g x y c => Sys2Proof.Machine.execCadr d a t g x y c s
  | .trap n => Sys2Proof.Machine.execTrap n s
  | .ctlr d z => Sys2Proof.Machine.execCtlr d z s
  | .ctlw a t z => Sys2Proof.Machine.execCtlw a t z s
  | .beq a t b u o => Sys2Proof.Machine.execBeq a t b u o s
  | .bne a t b u o => Sys2Proof.Machine.execBne a t b u o s
  | .blt a t b u o => Sys2Proof.Machine.execBlt a t b u o s
  | .bge a t b u o => Sys2Proof.Machine.execBge a t b u o s
  | .bltn a t b u o => Sys2Proof.Machine.execBltn a t b u o s
  | .bgen a t b u o => Sys2Proof.Machine.execBgen a t b u o s
  | .lpnext l o => Sys2Proof.Machine.execLpnext l o s
  | .ldN8 d b t w r p => Sys2Proof.Machine.execLdN8 d b t w r p s
  | .ldN16 d b t w r p => Sys2Proof.Machine.execLdN16 d b t w r p s
  | .ldN32 d b t w r p => Sys2Proof.Machine.execLdN32 d b t w r p s
  | .ld64 d b t w r p => Sys2Proof.Machine.execLd64 d b t w r p s
  | .ldS8 d b t w r p => Sys2Proof.Machine.execLdS8 d b t w r p s
  | .ldS16 d b t w r p => Sys2Proof.Machine.execLdS16 d b t w r p s
  | .ldS32 d b t w r p => Sys2Proof.Machine.execLdS32 d b t w r p s
  | .vld v b t w r x p => Sys2Proof.Machine.execVld v b t w r x p s
  | .st8 d b t w r p => Sys2Proof.Machine.execSt8 d b t w r p s
  | .st16 d b t w r p => Sys2Proof.Machine.execSt16 d b t w r p s
  | .st32 d b t w r p => Sys2Proof.Machine.execSt32 d b t w r p s
  | .st64 d b t w r p => Sys2Proof.Machine.execSt64 d b t w r p s
  | .vst v b t w r x p => Sys2Proof.Machine.execVst v b t w r x p s
  | .ldAcq32 d b t z p => Sys2Proof.Machine.execLdAcq32 d b t z p s
  | .ldAcq64 d b t z p => Sys2Proof.Machine.execLdAcq64 d b t z p s
  | .stRel32 d b t z p => Sys2Proof.Machine.execStRel32 d b t z p s
  | .stRel64 d b t z p => Sys2Proof.Machine.execStRel64 d b t z p s
  | .ldfe d b t w r p => Sys2Proof.Machine.execLdfe d b t w r p s
  | .stef d b t w r p => Sys2Proof.Machine.execStef d b t w r p s
  | .ldPw d b t w r p => Sys2Proof.Machine.execLdPw d b t w r p s
  | .vlds v a t b u x w r z => Sys2Proof.Machine.execVlds v a t b u x w r z s
  | .vldx v a t b u x w r => Sys2Proof.Machine.execVldx v a t b u x w r s
  | .mwait k => Sys2Proof.Machine.execMwait k s
  | .qbind a t k => Sys2Proof.Machine.execQbind a t k s
  | .qunbind k => Sys2Proof.Machine.execQunbind k s
  | .qstat d k => Sys2Proof.Machine.execQstat d k s
  | .qpeek d k => Sys2Proof.Machine.execQpeek d k s
  | .vqpush v t x k => Sys2Proof.Machine.execVqpush v t x k s
  | .vqpop v x k => Sys2Proof.Machine.execVqpop v x k s
  | .qcfgr d a t => Sys2Proof.Machine.execQcfgr d a t s
  | .qcfgw a t b u => Sys2Proof.Machine.execQcfgw a t b u s
  | .ttag d a t b u => Sys2Proof.Machine.execTtag d a t b u s
  | .tfld d a t f => Sys2Proof.Machine.execTfld d a t f s
  | .tins a t b u => Sys2Proof.Machine.execTins a t b u s
  | .tinsd a t b u => Sys2Proof.Machine.execTinsd a t b u s
  | .tgen d => Sys2Proof.Machine.execTgen d s
  | .covQ d a t => Sys2Proof.Machine.execCovQ d a t s
  | .covRd d z => Sys2Proof.Machine.execCovRd d z s
  | .poolCnt d => Sys2Proof.Machine.execPoolCnt d s
  | .amoAdd d a t b u l r w => Sys2Proof.Machine.execAmoAdd d a t b u l r w s
  | .amoAnd d a t b u l r w => Sys2Proof.Machine.execAmoAnd d a t b u l r w s
  | .amoOr d a t b u l r w => Sys2Proof.Machine.execAmoOr d a t b u l r w s
  | .amoXor d a t b u l r w => Sys2Proof.Machine.execAmoXor d a t b u l r w s
  | .amoMin d a t b u l r w => Sys2Proof.Machine.execAmoMin d a t b u l r w s
  | .amoMax d a t b u l r w => Sys2Proof.Machine.execAmoMax d a t b u l r w s
  | .amoMinu d a t b u l r w => Sys2Proof.Machine.execAmoMinu d a t b u l r w s
  | .amoMaxu d a t b u l r w => Sys2Proof.Machine.execAmoMaxu d a t b u l r w s
  | .amoSwap d a t b u l r w => Sys2Proof.Machine.execAmoSwap d a t b u l r w s
  | .amoCas d a t b u l r w => Sys2Proof.Machine.execAmoCas d a t b u l r w s
  | .amoFaddF32 d a t b u r w => Sys2Proof.Machine.execAmoFaddF32 d a t b u r w s
  | .amoInclt d a t b u l r w => Sys2Proof.Machine.execAmoInclt d a t b u l r w s
  | .joinInit a t b u => Sys2Proof.Machine.execJoinInit a t b u s
  | .joinArrive a t b u => Sys2Proof.Machine.execJoinArrive a t b u s
  | .ssigSet a t b u => Sys2Proof.Machine.execSsigSet a t b u s
  | .ssigAdd a t b u => Sys2Proof.Machine.execSsigAdd a t b u s
  | .swait d a t b u c => Sys2Proof.Machine.execSwait d a t b u c s
  | .barrArr l z => Sys2Proof.Machine.execBarrArr l z s
  | .barrWait l z => Sys2Proof.Machine.execBarrWait l z s
  | .barrSync l z => Sys2Proof.Machine.execBarrSync l z s
  | .barrSyncCmb a t l z => Sys2Proof.Machine.execBarrSyncCmb a t l z s
  | .repart m => Sys2Proof.Machine.execRepart m s
  | .slotw a t => Sys2Proof.Machine.execSlotw a t s
  | .sleep a t => Sys2Proof.Machine.execSleep a t s
  | .xlinv a t b u => Sys2Proof.Machine.execXlinv a t b u s
  | .ctxsv a t b u => Sys2Proof.Machine.execCtxsv a t b u s
  | .ctxld a t b u => Sys2Proof.Machine.execCtxld a t b u s
  | .telEv a t b u => Sys2Proof.Machine.execTelEv a t b u s
  | .lim d z => Sys2Proof.Machine.execLim d z s
  | .call d o => Sys2Proof.Machine.execCall d o s
  | .vcvtScaled k r d a t g z o => Sys2Proof.Machine.execVcvtScaled k r d a t g z o s
  | .spawn b a t h l o => Sys2Proof.Machine.execSpawn b a t h l o s
  | .vand d a t b u => Sys2Proof.Machine.execVand d a t b u s
  | .vor d a t b u => Sys2Proof.Machine.execVor d a t b u s
  | .vxor d a t b u => Sys2Proof.Machine.execVxor d a t b u s
  | .vandn d a t b u => Sys2Proof.Machine.execVandn d a t b u s
  | .vsel d a t b u => Sys2Proof.Machine.execVsel d a t b u s
  | .vmov d a t => Sys2Proof.Machine.execVmov d a t s
  | .vshuf d a t b u => Sys2Proof.Machine.execVshuf d a t b u s
  | .vcrc d a t => Sys2Proof.Machine.execVcrc d a t s
  | .vadd d a t b u y => Sys2Proof.Machine.execVadd d a t b u y s
  | .vsub d a t b u y => Sys2Proof.Machine.execVsub d a t b u y s
  | .vmul d a t b u y => Sys2Proof.Machine.execVmul d a t b u y s
  | .vmin d a t b u y => Sys2Proof.Machine.execVmin d a t b u y s
  | .vmax d a t b u y => Sys2Proof.Machine.execVmax d a t b u y s
  | .vfma d a t b u y => Sys2Proof.Machine.execVfma d a t b u y s
  | .vfms d a t b u y => Sys2Proof.Machine.execVfms d a t b u y s
  | .vabs d a t y => Sys2Proof.Machine.execVabs d a t y s
  | .vneg d a t y => Sys2Proof.Machine.execVneg d a t y s
  | .vclamp d a t b u y => Sys2Proof.Machine.execVclamp d a t b u y s
  | .vceq d a t b u y => Sys2Proof.Machine.execVceq d a t b u y s
  | .vcne d a t b u y => Sys2Proof.Machine.execVcne d a t b u y s
  | .vclt d a t b u y => Sys2Proof.Machine.execVclt d a t b u y s
  | .vcle d a t b u y => Sys2Proof.Machine.execVcle d a t b u y s
  | .vdot2F16 d a t b u r => Sys2Proof.Machine.execVdot2F16 d a t b u r s
  | .vdot4S8 d a t b u => Sys2Proof.Machine.execVdot4S8 d a t b u s
  | .vredadd d a t y => Sys2Proof.Machine.execVredadd d a t y s
  | .vredmin d a t y => Sys2Proof.Machine.execVredmin d a t y s
  | .vredmax d a t y => Sys2Proof.Machine.execVredmax d a t y s
  | .vsll d a t y k => Sys2Proof.Machine.execVsll d a t y k s
  | .vsrl d a t y k => Sys2Proof.Machine.execVsrl d a t y k s
  | .vsra d a t y k => Sys2Proof.Machine.execVsra d a t y k s
  | .vscale d a t y k => Sys2Proof.Machine.execVscale d a t y k s
  | .vsplat d z t y => Sys2Proof.Machine.execVsplat d z t y s
  | .vins d z t y q => Sys2Proof.Machine.execVins d z t y q s
  | .vext z a t y q => Sys2Proof.Machine.execVext z a t y q s
  | .vpack d a t y => Sys2Proof.Machine.execVpack d a t y s
  | .vunpack d a t h y => Sys2Proof.Machine.execVunpack d a t h y s
  | .vcvt r d a t g z o => Sys2Proof.Machine.execVcvt r d a t g z o s
  | .rcp d a t y => Sys2Proof.Machine.execRcp d a t y s
  | .rsqrt d a t y => Sys2Proof.Machine.execRsqrt d a t y s
  | .sqrt d a t y => Sys2Proof.Machine.execSqrt d a t y s
  | .exp2 d a t y => Sys2Proof.Machine.execExp2 d a t y s
  | .log2 d a t y => Sys2Proof.Machine.execLog2 d a t y s
  | .tanh d a t y => Sys2Proof.Machine.execTanh d a t y s
  | .mxCfg c => Sys2Proof.Machine.execMxCfg c s
  | .mxLdst c => Sys2Proof.Machine.execMxLdst c s
  | .mxSwap c => Sys2Proof.Machine.execMxSwap c s
  | .mxStream c => Sys2Proof.Machine.execMxStream c s
  | .mxZero c => Sys2Proof.Machine.execMxZero c s
  | .mxDrain c => Sys2Proof.Machine.execMxDrain c s
  | .cpCopy c => Sys2Proof.Machine.execCpCopy c s
  | .cpMcast c => Sys2Proof.Machine.execCpMcast c s
  | .cpGather c => Sys2Proof.Machine.execCpGather c s
  | .cpScatter c => Sys2Proof.Machine.execCpScatter c s
  | .cpFill c => Sys2Proof.Machine.execCpFill c s
  | .cpCrc c => Sys2Proof.Machine.execCpCrc c s
  | .cpSend c => Sys2Proof.Machine.execCpSend c s
  | .collReduce c => Sys2Proof.Machine.execCollReduce c s
  | .collBcast c => Sys2Proof.Machine.execCollBcast c s
  | .collAllgather c => Sys2Proof.Machine.execCollAllgather c s
  | .rcKern c => Sys2Proof.Machine.execRcKern c s
  | .rcCmp c => Sys2Proof.Machine.execRcCmp c s
  | .quinudFx d e l n => Sys2Proof.Machine.execQuinudFx d e l n s
  | .quinudLi d z => Sys2Proof.Machine.execQuinudLi d z s
  | .quinudAddi d a z => Sys2Proof.Machine.execQuinudAddi d a z s
  | .quinudAdd d a b => Sys2Proof.Machine.execQuinudAdd d a b s
  | .quinudSub d a b => Sys2Proof.Machine.execQuinudSub d a b s
  | .quinudAnd d a b => Sys2Proof.Machine.execQuinudAnd d a b s
  | .quinudOr d a b => Sys2Proof.Machine.execQuinudOr d a b s
  | .quinudXor d a b => Sys2Proof.Machine.execQuinudXor d a b s
  | .quinudShl d a b => Sys2Proof.Machine.execQuinudShl d a b s
  | .quinudShr d a b => Sys2Proof.Machine.execQuinudShr d a b s
  | .quinudMul d a b => Sys2Proof.Machine.execQuinudMul d a b s
  | .quinudMin d a b => Sys2Proof.Machine.execQuinudMin d a b s
  | .quinudMax d a b => Sys2Proof.Machine.execQuinudMax d a b s
  | .quinudCmp d a b c => Sys2Proof.Machine.execQuinudCmp d a b c s
  | .quinudSel d a b c => Sys2Proof.Machine.execQuinudSel d a b c s
  | .quinudLd d k => Sys2Proof.Machine.execQuinudLd d k s
  | .quinudSt a k => Sys2Proof.Machine.execQuinudSt a k s
  | .quinudKadd a k => Sys2Proof.Machine.execQuinudKadd a k s
  | .quinudKmin a k => Sys2Proof.Machine.execQuinudKmin a k s
  | .quinudKmax a k => Sys2Proof.Machine.execQuinudKmax a k s
  | .quinudEwma a k z => Sys2Proof.Machine.execQuinudEwma a k z s
  | .quinudHlin d a k m z => Sys2Proof.Machine.execQuinudHlin d a k m z s
  | .quinudHlog a k m => Sys2Proof.Machine.execQuinudHlog a k m s
  | .quinudCms a k m => Sys2Proof.Machine.execQuinudCms a k m s
  | .quinudCmq d a k m => Sys2Proof.Machine.execQuinudCmq d a k m s
  | .quinudBz a o => Sys2Proof.Machine.execQuinudBz a o s
  | .quinudBnz a o => Sys2Proof.Machine.execQuinudBnz a o s
  | .quinudTrig a t => Sys2Proof.Machine.execQuinudTrig a t s
  | .commandCompletion c r => Sys2Proof.Machine.execCommandCompletion c r s
  | .recordArrival a => Sys2Proof.Machine.execRecordArrival a s
  | .firingDelivery core f => Sys2Proof.Machine.execFiringDelivery core f s
  | .wakeMessage w => Sys2Proof.Machine.execWakeMessage w s
  | .contextFreeNotice core m => Sys2Proof.Machine.execContextFreeNotice core m s
  | .refusalRetry core m => Sys2Proof.Machine.execRefusalRetry core m s
  | .withdrawal r => Sys2Proof.Machine.execWithdrawal r s
  | .presenceRequest r => Sys2Proof.Machine.execPresenceRequest r s
  | .presenceAnswer th seq x => Sys2Proof.Machine.execPresenceAnswer th seq x s
  | .remoteAccess r => Sys2Proof.Machine.execRemoteAccess r s
  | .storeAck th k => Sys2Proof.Machine.execStoreAck th k s
  | .loadResult l => Sys2Proof.Machine.execLoadResult l s
  | .syncWordUpdate r => Sys2Proof.Machine.execSyncWordUpdate r s
  | .joinArrival r => Sys2Proof.Machine.execJoinArrival r s
  | .swaitRequest r => Sys2Proof.Machine.execSwaitRequest r s
  | .barrierArrival b => Sys2Proof.Machine.execBarrierArrival b s
  | .channelEntry core buf x => Sys2Proof.Machine.execChannelEntry core buf x s
  | .creditReturn th core buf => Sys2Proof.Machine.execCreditReturn th core buf s
  | .bindAnswer th win seq word => Sys2Proof.Machine.execBindAnswer th win seq word s
  | .launch r => Sys2Proof.Machine.execLaunch r s
  | .replay r => Sys2Proof.Machine.execReplay r s
  | .closeSources r => Sys2Proof.Machine.execCloseSources r s
  | .release r => Sys2Proof.Machine.execRelease r s
  | .dump r => Sys2Proof.Machine.execDump r s
  | .attachRing r => Sys2Proof.Machine.execAttachRing r s
  | .frameArrival port good frame => Sys2Proof.Machine.execFrameArrival port good frame s
  | .telemetryRecord die e => Sys2Proof.Machine.execTelemetryRecord die e s
  | .instructionCacheFill quad xctx line => Sys2Proof.Machine.execInstructionCacheFill quad xctx line s
  | .combineTimeout quad key => Sys2Proof.Machine.execCombineTimeout quad key s
  | .spillReturn quad => Sys2Proof.Machine.execSpillReturn quad s
  | .processTrigger quad => Sys2Proof.Machine.execProcessTrigger quad s
  | .contextFree th => Sys2Proof.Machine.execContextFree th s
  | .slotTableSwitch core => Sys2Proof.Machine.execSlotTableSwitch core s
  | .sleepEnd th => Sys2Proof.Machine.execSleepEnd th s
  | .deferredTrap th => Sys2Proof.Machine.execDeferredTrap th s
  | .qstall th => Sys2Proof.Machine.execQstall th s
  | .fewaitExpiry th => Sys2Proof.Machine.execFewaitExpiry th s
  | .presenceResend th => Sys2Proof.Machine.execPresenceResend th s
  | .storeBufferWrite core => Sys2Proof.Machine.execStoreBufferWrite core s
  | .translationWalk die => Sys2Proof.Machine.execTranslationWalk die s
  | .faultAnswer die index resume => Sys2Proof.Machine.execFaultAnswer die index resume s
  | .walkerEmit lid => Sys2Proof.Machine.execWalkerEmit lid s
  | .reconFiring quad => Sys2Proof.Machine.execReconFiring quad s
  | .holeUnresolved lid => Sys2Proof.Machine.execHoleUnresolved lid s
  | .stabilityWave lid => Sys2Proof.Machine.execStabilityWave lid s
  | .logicalQuadTurn quad => Sys2Proof.Machine.execLogicalQuadTurn quad s
  | .doorbell q p => Sys2Proof.Machine.execDoorbell q p s
  | .qcfgWrite q reg x => Sys2Proof.Machine.execQcfgWrite q reg x s
  | .requestAccept svc => Sys2Proof.Machine.execRequestAccept svc s
  | .launchStart lid => Sys2Proof.Machine.execLaunchStart lid s
  | .apertureAccess fn off size write x => Sys2Proof.Machine.execApertureAccess fn off size write x s
  | .ringConfigWrite ring x => Sys2Proof.Machine.execRingConfigWrite ring x s
  | .classifierWrite entry word x => Sys2Proof.Machine.execClassifierWrite entry word x s
  | .egressFrame port => Sys2Proof.Machine.execEgressFrame port s
  | .egstampRead port => Sys2Proof.Machine.execEgstampRead port s
  | .pcsLock port width => Sys2Proof.Machine.execPcsLock port width s
  | .trainFlit port => Sys2Proof.Machine.execTrainFlit port s
  | .dataFlitSend port vc => Sys2Proof.Machine.execDataFlitSend port vc s
  | .flitReceive port flit => Sys2Proof.Machine.execFlitReceive port flit s
  | .nakResend port => Sys2Proof.Machine.execNakResend port s
  | .clklatchWrite x => Sys2Proof.Machine.execClklatchWrite x s
  | .clkstepWrite x => Sys2Proof.Machine.execClkstepWrite x s
  | .partWrite n x => Sys2Proof.Machine.execPartWrite n x s
  | .xconnWrite p x => Sys2Proof.Machine.execXconnWrite p x s
  | .xcselWrite x => Sys2Proof.Machine.execXcselWrite x s
  | .ownsetGo x => Sys2Proof.Machine.execOwnsetGo x s
  | .xfenceGo x => Sys2Proof.Machine.execXfenceGo x s
  | .preemptDrain lid => Sys2Proof.Machine.execPreemptDrain lid s
  | .preemptSave lid => Sys2Proof.Machine.execPreemptSave lid s
  | .saveCaptureComplete lid => Sys2Proof.Machine.execSaveCaptureComplete lid s
  | .preemptReset lid => Sys2Proof.Machine.execPreemptReset lid s
  | .preemptRestore lid => Sys2Proof.Machine.execPreemptRestore lid s
  | .trapRecord die => Sys2Proof.Machine.execTrapRecord die s
  | .watchdog part cycles => Sys2Proof.Machine.execWatchdog part cycles s
  | .queueSteal thief q => Sys2Proof.Machine.execQueueSteal thief q s
  | .mailboxMessage die x => Sys2Proof.Machine.execMailboxMessage die x s
  | .fwctlGo x => Sys2Proof.Machine.execFwctlGo x s
  | .fwbeatWrite x => Sys2Proof.Machine.execFwbeatWrite x s
  | .syncovfWrite die x => Sys2Proof.Machine.execSyncovfWrite die x s
  | .uncorrectableError e => Sys2Proof.Machine.execUncorrectableError e s
  | .correctedError e => Sys2Proof.Machine.execCorrectedError e s
  | .hopCrcError die unit msg => Sys2Proof.Machine.execHopCrcError die unit msg s
  | .channelRetired group => Sys2Proof.Machine.execChannelRetired group s
  | .filterEvent die => Sys2Proof.Machine.execFilterEvent die s
  | .tattachWrite fn x => Sys2Proof.Machine.execTattachWrite fn x s
  | .tdetachWrite fn x => Sys2Proof.Machine.execTdetachWrite fn x s
  | .tbudgetWrite die tenant x => Sys2Proof.Machine.execTbudgetWrite die tenant x s
  | .budgetWindow die => Sys2Proof.Machine.execBudgetWindow die s
  | .exportSnap die slot => Sys2Proof.Machine.execExportSnap die slot s
  | .slots core => Sys2Proof.Machine.execSlots core s
  | .therm die sensor temp => Sys2Proof.Machine.execTherm die sensor temp s
  | .throttleUpdate watts hottest => Sys2Proof.Machine.execThrottleUpdate watts hottest s
  | .ckptGo x => Sys2Proof.Machine.execCkptGo x s
  | .registerWrite off level x => Sys2Proof.Machine.execRegisterWrite off level x s
  | .portDown port => Sys2Proof.Machine.execPortDown port s
  | .linkWidthChange link width => Sys2Proof.Machine.execLinkWidthChange link width s
  | .spdmMessage m => Sys2Proof.Machine.execSpdmMessage m s
  | .ret => Sys2Proof.Machine.execRet s
  | .retire => Sys2Proof.Machine.execRetire s
  | .eret => Sys2Proof.Machine.execEret s
  | .iflush => Sys2Proof.Machine.execIflush s
  | .vnop => Sys2Proof.Machine.execVnop s
  | .fwRollback => Sys2Proof.Machine.execFwRollback s
  | .fwHang => Sys2Proof.Machine.execFwHang s
  | .reset => Sys2Proof.Machine.execReset s
  | .thermtrip => Sys2Proof.Machine.execThermtrip s
  | .quinudEnd => Sys2Proof.Machine.execQuinudEnd s

end Sys2Proof.Machine
end

