-- ==== Sys2Proof/Machine/Slot.lean ====
section
/-! DEFINITION. One cycle of a core: the slot table chooses a context, and its next bundle issues, waits or
traps (03 R83-R94, R111-R112, 05 R150-R152, 17 R412-R414). -/

namespace Sys2Proof.Machine

/-- A slot of a context that is running but may not issue is forfeited (03 R89). -/
def State.forfeitIdle (s : State) : State :=
  (s.modCtx s.cur fun c => { c with forfeits := c.forfeits + 1 }).modCore (coreOf s.cur) fun k => { k with
    ivForfeit := k.ivForfeit + 1 }

/-- The V-syllable takes effect on the registers as they stood when the bundle issued (05 R152). -/
def State.execV (s : State) (at_ : Ctx) (j : Instr) : Host.Outcome State Fault Refusal :=
  match exec j { s with latch := some at_ } with
  | .next t => .next { t with latch := none }
  | r => r

/-- A bundle of two syllables at the slot of context `cur` (03 R90, R112, 05 R152). -/
def State.issuePair (s : State) (i j : Instr) : Host.Outcome State Fault Refusal :=
  match s.verdict [i, j] with
  | .go =>
    match exec i s with
    | .next t => if (t.ctx s.cur).issued = (s.ctx s.cur).issued then .next t else t.execV (s.ctx s.cur) j
    | r => r
  | .block k => .next (s.stallOrForfeit (s.waitWindow i) k)
  | .hold => .next (s.startWait i)
  | .trap t => .next (s.takeTrap s.cur t)

/-- ILLEGAL for a bundle of which a syllable is no instruction; a fault that the S-syllable has of its own comes
first (03 R112, 05 R171-R173). -/
def State.illegalBundle (s : State) (b : BitVec 64) : DecodeError → State
  | .illegalS => s.takeTrap s.cur { cause := cILLEGAL, tval := 0 }
  | .illegalV =>
    match (if (b.extractLsb' 58 6).toNat < 0x38 then decodeS (b.extractLsb' 32 32) else none).bind s.illegal with
    | some v => s.takeTrap s.cur { cause := cILLEGAL, tval := BitVec.ofNat 64 v }
    | none => s.takeTrap s.cur { cause := cILLEGAL, tval := 0, vsyl := true }

/-- A decoded bundle at the slot of context `cur`. -/
def State.issueBundle (s : State) (b : BitVec 64) : Host.Outcome State Fault Refusal :=
  match decodeBundle b with
  | .error e => .next (s.illegalBundle b e)
  | .ok (.long i) => exec i s
  | .ok (.pair i j) => s.issuePair i j

/-! ### Bank arbitration (17 R411-R412) -/

/-- The banks that n bytes at an offset need. -/
def banksOf (off n : Nat) : List Nat := (List.range ((n + 3) / 4)).map fun k => (off / 4 + k) % 16

/-- The banks that the local loads and atomics of an instruction need: an atomic those of its word, a load those of the bytes that
it does not find in the store buffer (08 R248, 09 R304). -/
def State.bankUse (s : State) (i : Instr) : List Nat :=
  ((s.accesses i).filter fun a => (a.kind = .load || a.kind = .atomic) && isLocal s.cur a.addr).flatMap fun a =>
    let off := a.addr.toNat % 2 ^ 20
    if a.kind = .atomic then banksOf off a.size
    else ((List.range a.size).filter fun k =>
      !(s.core (coreOf s.cur)).stbuf.any fun x => x.off ≤ off + k && off + k < x.off + x.size).map fun k => (off + k) / 4 % 16

/-- The context that holds the earliest claim on a bank. -/
def Core.claimant (k : Core) (b : Nat) : Option Nat := (k.claims.find? fun p => p.2 = b).map Prod.fst

/-- The context that issuing `th` is beaten on a bank: another context claimed it earlier, or the context has no claim on it and
other requesters have taken it. DEDUCED (log 18): a claim stands against the core's other contexts until its context's retry,
and against ports and store buffer in the slot of that retry, so that 17 R413 holds. -/
def State.beaten (s : State) (th b : Nat) : Bool := match (s.core (coreOf th)).claimant b with
  | some x => x ≠ th
  | none => s.taken.contains b

/-- The banks that the issuing context's access needs, when it loses one of them: an access is granted all its banks or
none (17 R412). -/
def State.lostBanks (s : State) : List Nat :=
  if s.taken.isEmpty && (s.core (coreOf s.cur)).claims.isEmpty then []
  else match s.instrsAt s.cur with
    | some (i :: l) =>
      let need := (s.bankUse i).eraseDups
      if need.any (s.beaten s.cur) && s.verdict (i :: l) = .go then need else []
    | _ => []

/-- A context that loses claims every bank of its access, none of which it is granted, and forfeits the slot (17 R412,
03 R89). -/
def State.loseBanks (s : State) : State :=
  s.forfeitBank.modCore (coreOf s.cur) fun k =>
    { k with claims := k.claims ++ (s.lostBanks.map fun b => (s.cur, b)).filter fun p => !k.claims.contains p }

/-- The banks that the local access of the bundle of context `cur` takes in this slot: all it needs, where it wins each, the context
is to issue, its bundle is there, and nothing else of it waits; else none (17 R412). -/
def State.bankGrant (s : State) : List Nat :=
  let c := s.ctx s.cur
  if !(c.status = .ready || c.status = .blocked) || !c.due.isEmpty || s.fetchFault s.cur then []
  else match s.instrsAt s.cur with
    | some (i :: l) => if (s.bankUse i).any (s.beaten s.cur) || s.verdict (i :: l) ≠ .go then [] else s.bankUse i
    | _ => []

/-- The head entry of a core's store buffer is granted its banks in this cycle: the context whose slot it is makes no access that
comes before it by a claim, and the ports have not taken them, which an entry that has waited 8 cycles comes before. An access that
does not win all its banks takes none of them (17 R412). -/
def State.headGranted (s : State) (core : Nat) : Bool :=
  let k := s.core core
  let slot := (k.slots.getD (k.cycle % 32) 0).toNat
  let th := core * 16 + slot % 16
  match k.stbuf with
  | [] => false
  | e :: _ =>
    let banks := banksOf e.off e.size
    let first := slot / 64 = 1 && k.quiet = 0 && !s.gated (k.cycle % 32) &&
      (({ s with cur := th, taken := s.taken ++ banks } : State).bankGrant.any fun b => banks.contains b && k.claimant b = some th)
    !first && (e.since + 8 ≤ k.cycle || !banks.any s.taken.contains)

/-- A core's store buffer writes its head entry, which takes its banks in this cycle from the context that issues (08 R248,
17 R412). -/
def State.drainHead (s : State) (core : Nat) : State :=
  if s.headGranted core then
    { s.storeBufferWrite core with taken := s.taken ++ ((s.core core).stbuf.head?).elim [] fun e => banksOf e.off e.size }
  else s

/-- The bundle at the pc of context `cur` is fetched (06 R178, 17 R414): a fault traps, a missing line forfeits
the slot until it has been filled; then its local reads win their banks, or it forfeits the slot (17 R412). -/
def State.fetchIssue (s : State) : Host.Outcome State Fault Refusal :=
  let c := s.ctx s.cur
  if s.fetchFault s.cur then .next (s.takeTrap s.cur { cause := cACCESS, tval := c.pc })
  else match s.bundleAt s.cur with
    | some b => if s.lostBanks.isEmpty then s.issueBundle (b.1 ++ b.2) else .next s.loseBanks
    | none =>
      let quad := quadOf (coreOf s.cur)
      let x := s.xctxOf s.cur
      let line := c.pc.toNat / 128
      let s1 := s.forfeit onBank
      .next (if s1.fillPending quad x line then s1 else s1.send none (.instructionCacheFill quad x line))

/-- A bank claim of the context that the slot is for has been used (17 R412). -/
def State.endClaim (s : State) : State :=
  s.modCore (coreOf s.cur) fun k => { k with claims := k.claims.filter fun p => p.1 ≠ s.cur }

/-- The bundle at the slot of context `cur` is an atomic of its core's own scratchpad. -/
def State.atomicNext (s : State) : Bool := match s.instrsAt s.cur with
  | some (i :: _) => (s.accesses i).any fun a => a.kind = .atomic && isLocal s.cur a.addr
  | _ => false

/-- A bundle of a thread has issued, whose context was `c` before: a local access that has lost banks, and the first bundle of
a task, are held to their bounds (17 R417); an atomic is held to its own when its answer comes. -/
def State.noteIssue (s : State) (c : Ctx) (atomic : Bool) : State :=
  let th := s.cur
  let s1 := match c.lostAt with
    | some x => (if atomic then s else s.overrun c.lid th 2 ((s.core (coreOf th)).cycle - x + 4) (4 + s.slotGap th x)).modCtx th fun c =>
        { c with lostAt := none }
    | none => s
  match (if c.firstIssue.isNone then c.dispatched else none) with
  | some x => s1.overrun c.lid th 12 (s.hub.cycle - x) 80
  | none => s1

/-- THE SLOT OF A CONTEXT THAT RUNS A TASK: a deferred trap, the end of a sleep, or its next bundle. -/
def State.slotOf (s0 : State) (th : Nat) : Host.Outcome State Fault Refusal :=
  let s := { s0 with cur := th }
  if !(s.ctx th).due.isEmpty then .next (s.deferredTrap th)
  else
    let s := s.sleepEnd th
    match (s.ctx th).status with
    | .ready | .blocked =>
      if !(s.ctx th).due.isEmpty then .next (s.deferredTrap th)
      else match s.fetchIssue with
        | .next t => .next (if (t.ctx th).issued = (s.ctx th).issued then t else t.endClaim.noteIssue (s.ctx th) s.atomicNext)
        | r => r
    | .free => .next s
    | _ => .next s.forfeitIdle

/-! ### Donation and handler entries (03 R91-R93) -/

/-- The next bundle of a context can issue now: its slot would issue it. -/
def State.canIssue (s0 : State) (th : Nat) : Bool :=
  let s := { s0 with cur := th }
  let c := s.ctx th
  (c.status = .ready || c.status = .blocked) && c.due.isEmpty &&
    (match s.fetchIssue with
      | .next t => (t.ctx th).issued ≠ c.issued
      | _ => false)

/-- The context has forfeited its last slot as one that lost bank arbitration: to a bank, a full store buffer or a missing line. It
retries at its next owned slot (17 R412, R414, 08 R248). -/
def State.heldToOwn (s : State) (core th : Nat) : Bool :=
  ((s.core core).claims.any fun p => p.1 = th) || ((s.ctx th).status = .blocked && (s.ctx th).waitKind = onBank)

/-- A context of a core may take an entry that is not its own in the current cycle (03 R92). -/
def State.mayTake (s : State) (core th : Nat) : Bool :=
  let k := s.core core
  !s.heldToOwn core th && s.canIssue th &&
    (match (s.ctx th).lastIssue with
      | some t => t + 4 ≤ k.cycle
      | none => true) &&
    (List.range 3).all fun j => k.slots.getD ((k.cycle + 1 + j) % 32) 0 ≠ BitVec.ofNat 8 (64 + ctxOf th)

/-- The context a forfeited slot of the current cycle is given to; none on a core of an ordered or reserved launch
(03 R91-R92). -/
def State.donee (s : State) (core : Nat) : Option Nat :=
  let k := s.core core
  if !k.donate || !s.mayDonate core then none
  else (List.range 31).findSome? fun j =>
    let b := (k.slots.getD ((k.cycle + 1 + j) % 32) 0).toNat
    let th := core * 16 + b % 16
    if b / 64 = 1 && s.mayTake core th then some th else none

/-- A forfeited slot is given away, if someone takes it (03 R92). -/
def State.donateSlot (s : State) (core : Nat) : Host.Outcome State Fault Refusal :=
  match s.donee core with
  | some th => (s.evc core 6).slotOf th
  | none => .next s

/-- The context a handler entry goes to (03 R93). -/
def State.handlerOf (s : State) (core : Nat) : Option Nat :=
  let l := (s.coreCtxs core).filter fun th => (s.ctx th).byWake && (s.ctx th).hflag && s.mayTake core th
  let first := (l.map fun th => (s.ctx th).order).foldl min ((l.map fun th => (s.ctx th).order).headD 0)
  l.find? fun th => (s.ctx th).order = first

/-- A type-1 entry: its owner's slot, or, when the owner forfeits it, a donation (03 R89, R92). -/
def State.ownerSlot (s : State) (core th : Nat) : Host.Outcome State Fault Refusal :=
  if (s.ctx th).status = .free then (s.evc core 1).donateSlot core
  else match s.slotOf th with
    | .next t =>
      if (t.ctx th).forfeits = (s.ctx th).forfeits then .next t else t.donateSlot core
    | r => r

/-- A type-2 entry (03 R93). -/
def State.handlerSlot (s : State) (core : Nat) : Host.Outcome State Fault Refusal :=
  match s.handlerOf core with
  | some th => (s.evc core 7).slotOf th
  | none => s.donateSlot core

/-- What a core does in every cycle beside its slot: waits are timed and refused requests sent again (08
R268-R269), a full store buffer is counted (22 R532). -/
def State.coreTick (s : State) (core : Nat) : State :=
  let k := s.core core
  let s1 := if 32 ≤ k.stbuf.length then s.evc core 14 else s
  (s.coreCtxs core).foldl (fun s th =>
    let s := s.fewaitExpiry th
    if (s.ctx th).held.any fun h => h.refused && (k.cycle - h.start) % 64 = 0 then s.presenceResend th else s) s1

/-- The cycle of a core ends, and with it what its requesters took of its banks (03 R107). -/
def State.nextCycle (s : State) (core : Nat) : State :=
  { s.modCore core fun k => { k with cycle := k.cycle + 1 } with taken := [] }

/-- ONE CYCLE OF A CORE (03 R83). -/
def State.coreCycle (s0 : State) (core : Nat) : Host.Outcome State Fault Refusal :=
  let s := ((s0.coreTick core).slotTableSwitch core).drainHead core
  let k := s.core core
  if 0 < k.quiet then
    .next ((s.modCore core fun k => { k with quiet := k.quiet - 1 }).nextCycle core)
  else if s.gated (k.cycle % 32) then .next (s.nextCycle core)
  else
    let b := (k.slots.getD (k.cycle % 32) 0).toNat
    match (if b / 64 = 1 then s.ownerSlot core (core * 16 + b % 16)
      else if b / 64 = 2 then s.handlerSlot core
      else .next (s.evc core 1)) with
    | .next t => .next (t.nextCycle core)
    | r => r

/-- A cycle in which the remote port and the engine port of the scratchpad request some of its banks (17 R412, log 18). -/
def State.lostCycle (s : State) (core : Nat) (banks : List Nat) : Host.Outcome State Fault Refusal :=
  ({ s with taken := banks } : State).coreCycle core

end Sys2Proof.Machine
end

