-- ==== Sys2Proof/Machine/Turn.lean ====
section
/-! DEFINITION. Who moves next: a core's cycle, a message, an engine, a coprocessor, the clock, or an event; and how an
instruction is placed where the next step fetches it. -/

namespace Sys2Proof.Machine

/-! ### Rows of the table that happen by themselves -/

/-- The row is an event: no instruction of a core, no engine command and no filter instruction, which their own units
perform. -/
def isEvent : Instr → Bool
  | .commandCompletion .. | .recordArrival .. | .firingDelivery .. | .wakeMessage .. | .contextFreeNotice .. | .refusalRetry ..
  | .withdrawal .. | .presenceRequest .. | .presenceAnswer .. | .remoteAccess .. | .storeAck .. | .loadResult ..
  | .syncWordUpdate .. | .joinArrival .. | .swaitRequest .. | .barrierArrival .. | .channelEntry .. | .creditReturn ..
  | .bindAnswer .. | .launch .. | .replay .. | .closeSources .. | .release .. | .dump .. | .attachRing .. | .frameArrival ..
  | .telemetryRecord .. | .instructionCacheFill .. | .combineTimeout .. | .spillReturn .. | .processTrigger ..
  | .contextFree .. | .slotTableSwitch .. | .sleepEnd .. | .deferredTrap .. | .qstall .. | .fewaitExpiry ..
  | .presenceResend .. | .storeBufferWrite .. | .translationWalk .. | .faultAnswer .. | .walkerEmit .. | .reconFiring ..
  | .holeUnresolved .. | .stabilityWave .. | .logicalQuadTurn .. | .doorbell .. | .qcfgWrite .. | .requestAccept ..
  | .launchStart .. | .apertureAccess .. | .ringConfigWrite .. | .classifierWrite .. | .egressFrame .. | .egstampRead ..
  | .pcsLock .. | .trainFlit .. | .dataFlitSend .. | .flitReceive .. | .nakResend .. | .clklatchWrite .. | .clkstepWrite ..
  | .partWrite .. | .xconnWrite .. | .xcselWrite .. | .ownsetGo .. | .xfenceGo .. | .preemptDrain .. | .preemptSave ..
  | .saveCaptureComplete .. | .preemptReset .. | .preemptRestore .. | .trapRecord .. | .watchdog .. | .queueSteal ..
  | .mailboxMessage .. | .fwctlGo .. | .fwbeatWrite .. | .syncovfWrite .. | .uncorrectableError .. | .correctedError ..
  | .hopCrcError .. | .channelRetired .. | .filterEvent .. | .tattachWrite .. | .tdetachWrite .. | .tbudgetWrite ..
  | .budgetWindow .. | .exportSnap .. | .slots .. | .therm .. | .throttleUpdate .. | .ckptGo .. | .registerWrite ..
  | .portDown .. | .linkWidthChange .. | .spdmMessage .. | .fwRollback | .fwHang | .reset | .thermtrip => true
  | _ => false

/-- An event that the clock brings about when its window, interval or period ends, and nothing else does (22 R528, R535, R544). -/
def isTimed : Instr → Bool
  | .budgetWindow .. | .exportSnap .. | .slots .. | .therm .. => true
  | _ => false

/-! ### Messages and coprocessors -/

/-- The message that is delivered when the k-th is chosen: the oldest of its ordered pair (08 R251). -/
def firstOfPair (l : List Flight) (k : Nat) : Nat :=
  match l[k]? with
  | some f => if f.pair.isNone then k else (l.findIdx? fun g => g.pair = f.pair).getD k
  | none => k

/-- A request that a service core performs. -/
def isRequest : Instr → Bool
  | .launch _ | .replay _ | .closeSources _ | .release _ | .dump _ | .attachRing _ => true
  | _ => false

/-- Luthier performs a request now: it runs (21 R518), and no part of what a launch reads is on its way. -/
def State.mayServe (s : State) : Instr → Bool
  | .launch r => s.hub.fw.running && !s.imageWaits r
  | i => s.hub.fw.running || !isRequest i

/-- A message may be delivered now: it has arrived, a memory home has room for it, and luthier serves it (02 R56, 21 R518, 23
R550). -/
def State.mayDeliver (s : State) (f : Flight) : Bool := f.due ≤ s.hub.cycle && s.mayAdmit f.ev && s.mayServe f.ev

/-- The message that moves when the k-th is chosen may be delivered. -/
def State.deliverable (s : State) (k : Nat) : Bool := (s.net[firstOfPair s.net k]?).any s.mayDeliver

/-- The sources that have messages for a home. -/
def sourcesFor (l : List Flight) (home : Nat) : List Nat :=
  (l.filterMap fun f => f.pair.bind fun p => if p.2 = home then some p.1 else none).eraseDups

/-- A home that has messages from more than 8 source ports: the launches of those messages lose their bounds (17 R416). -/
def State.crowded (s : State) (f : Flight) : State :=
  match f.pair with
  | none => s
  | some p =>
    if (sourcesFor s.net p.2).length ≤ 8 then s
    else ((s.launches.map Prod.fst).filter fun l => s.net.any fun g => g.pair.any (fun q => q.2 = p.2) && s.messageOf l g.ev).foldl
      (fun s l => s.loseBound (some l)) s

/-- A message in flight is delivered, when it may be. -/
def State.deliver (s : State) (k : Nat) : Host.Outcome State Fault Refusal :=
  let j := firstOfPair s.net k
  match s.net[j]? with
  | some f =>
    if s.mayDeliver f then exec f.ev ((s.portsFor f.ev).foldl State.letIn { s.crowded f with net := s.net.eraseIdx j })
    else .next s
  | none => .next s

/-- The sources whose next message for a home may be delivered. -/
def State.readySources (s : State) (home : Nat) : List Nat :=
  (sourcesFor s.net home).filter fun src => (s.net.find? fun f => f.pair = some (src, home)).any s.mayDeliver

/-- The source served after the one served last, round-robin by number. -/
def nextSource (last : Nat) (l : List Nat) : Nat :=
  match l.filter (last < ·) with
  | x :: r => r.foldl min x
  | [] => l.foldl min (l.headD 0)

/-- The home that the oldest message is for serves its sources round-robin (02 R78); a message off the ordered route is
delivered when it is the oldest. DESIGN CHOICE (log 110): a source port is the end of the ordered route that sends. -/
def State.serveOldest (s : State) : Host.Outcome State Fault Refusal :=
  match (List.range s.net.length).find? s.deliverable with
  | none => .next s
  | some k => match (s.net[k]?).bind (·.pair) with
    | none => s.deliver k
    | some p =>
      let src := nextSource (get 0 s.served p.2) (s.readySources p.2)
      ({ s with served := put 0 s.served p.2 src }).deliver
        ((s.net.findIdx? fun f : Flight => f.pair = some (src, p.2)).getD k)

/-- A coprocessor runs the next instruction of its filter event (22 R541). -/
def State.filterStep (s : State) (die : Nat) : Host.Outcome State Fault Refusal :=
  match (s.tel die).nextInstr with
  | some i => exec i { s with curDie := die }
  | none => .next s

/-! ### What the machine does by itself -/

/-- The work of an engine: its next command, and those of its started commands that are paused. -/
def State.engineWorks (s : State) (unit place : Nat) : List (State → State) :=
  (fun s => s.engineTurn unit place) ::
    (List.range (s.engine unit place).running.length).map fun k s => s.engineResume unit place k

/-- The work that waits in cores, quads, dies, launches and queues, one piece of each kind and place. -/
def State.background (s : State) : List (State → State) :=
  ((s.dies.map Prod.fst).map fun d s => s.translationWalk d) ++
    ((s.quads.map Prod.fst).flatMap fun q => (List.range 4).flatMap fun u => s.engineWorks u q) ++
    ((s.dies.map Prod.fst).flatMap fun d => s.engineWorks 4 d) ++
    ((s.quads.map Prod.fst).flatMap fun q =>
      [fun s => s.processTrigger q, fun s => s.reconTurn q, fun s => s.spillReturn q, fun s => s.logicalQuadTurn q] ++
        ((s.quad q).comb.map fun k s => s.combineTimeout q k.key)) ++
    ((s.launches.map Prod.fst).flatMap fun l =>
      [fun s => s.launchStart l, fun s => s.preemptOutranked l, fun s => s.saveCapture l, fun s => s.preemptSave l,
       fun s => s.preemptReset l, fun s => s.preemptRestore l,
       fun s => s.slotStep l, fun s => s.walkerEmit l, fun s => s.holeUnresolved l, fun s => s.stabilityWave l]) ++
    ((List.range 16).map fun svc s => s.requestAccept svc) ++
    [fun s => s.fwStep, fun s => s.ckptStep false, fun s => s.ckptStep true] ++
    ((List.range 4).map fun d s => s.readMail d) ++
    ((s.dies.map Prod.fst).map fun d s => s.collDeliver d 0) ++
    ((s.dies.map Prod.fst).map fun d s => s.trapRecord d) ++
    ((s.dies.map Prod.fst).map fun d s => s.filterEvent d)

/-- The core after the one in focus that has a context allocated, or a store to write. -/
def State.nextFocus (s : State) : Nat :=
  let l := s.allocated.map coreOf ++ (s.cores.filter fun p => !p.2.stbuf.isEmpty).map Prod.fst
  if l.isEmpty then s.focus else nextSource s.focus l

/-- With nothing said of who moves, four kinds of work take turns, so that none of them starves (02 R73, R78): a message, the
filter events, every piece of the work that waits, and a cycle of a core, the cores one after another. -/
def State.byItself (s : State) : Host.Outcome State Fault Refusal :=
  let s1 := { s with beat := (s.beat + 1) % 4, taken := [] }
  match s.beat with
  | 0 => s1.serveOldest
  | 1 => match (s1.dies.map Prod.fst).find? fun d => (s1.tel d).run.isSome with
    | some d => s1.filterStep d
    | none => .next s1
  | 2 => .next (s1.background.foldl (fun s f => f s) s1)
  | _ => match s1.coreCycle s1.focus with
    | .next t => .next (({ s.watched t with focus := t.nextFocus }).tick 1)
    | r => r

/-- One turn. -/
def State.turn (s : State) : Turn → Host.Outcome State Fault Refusal
  | .slot core => ({ s with focus := core, taken := [] }).coreCycle core
  | .slotLost core banks => ({ s with focus := core }).lostCycle core banks
  | .deliver k => s.deliver k
  | .engine unit place => .next (s.engineTurn unit place)
  | .engineElems unit place n => .next (s.withGrant n fun s => s.engineTurn unit place)
  | .resume unit place k n => .next (s.withGrant n fun s => s.engineResume unit place k)
  | .resumeDest place k d n => .next (s.withGrant n fun s => s.withAim d fun s => s.engineResume 2 place k)
  | .firing quad n => .next (s.withGrant n fun s => s.reconTurn quad)
  | .holes lid n => .next (s.withGrant n fun s => s.holeUnresolved lid)
  | .filter die => s.filterStep die
  | .clock n => .next (s.tick n)
  | .update => .next s.fwStep
  | .stream bulk => .next (s.ckptStep bulk)
  | .mail die => .next (s.readMail die)
  | .coll die k => .next (s.collDeliver die k)
  | .slots lid n => .next ((List.range n).foldl (fun s _ => s.slotStep lid) s)
  | .event i => if isEvent i && !isTimed i then exec i s else .next s

/-- The next turn is a reset. -/
def State.resetNext (s : State) : Bool := match s.turns with
  | .event .reset :: _ => true
  | _ => false

/-- What the clock has brought about happens (22 R528, R535, R544). -/
def State.happen (s : State) : Timed → Host.Outcome State Fault Refusal
  | .window d => execBudgetWindow d s
  | .therm d k x => execTherm d k x s
  | .slots c => execSlots c s
  | .snap d k => execExportSnap d k s

/-- The next message that a restore has put back, the next event that the clock has brought about, the next turn, or what the
machine does by itself (20 R497, 22 R528). -/
def State.move (s : State) : Host.Outcome State Fault Refusal :=
  match (if s.resetNext then [] else s.inbox), (if s.resetNext then [] else s.hub.due), s.turns with
  | f :: rest, _, _ => exec f.ev { s with inbox := rest }
  | [], i :: rest, _ => (s.modHub fun h => { h with due := rest }).happen i
  | [], [], t :: rest => ({ s with turns := rest }).turn t
  | [], [], [] => s.byItself

/-- Every Retiring context that may become free does so: in the first cycle in which its counters are zero and no
producer of it is outstanding (03 R82). -/
def State.freeRetired (s : State) : State :=
  ((s.ctxs.filter fun p => p.2.status = .retiring).map Prod.fst).foldl State.contextFree s

/-- Every core that has refused starts serves them as far as its contexts are free: also where a round or a rung has ended,
or a restore has brought the list back (02 R56, R63, R73). -/
def State.serveCores (s : State) : State :=
  ((s.cores.filter fun p => !p.2.refusal.isEmpty || !p.2.heldFor.isEmpty).map Prod.fst).foldl State.serveCore s

/-- So does every reconstruction unit with the firings that it has refused (11 R377). -/
def State.serveUnits (s : State) : State :=
  ((s.quads.filter fun p => !p.2.recon.refusal.isEmpty).map Prod.fst).foldl State.serveRecon s

/-- What follows every turn: contexts become free, and cores and reconstruction units serve what they have refused. -/
def State.settled (s : State) : State := s.freeRetired.serveCores.serveUnits.returnQueues.hopsLeft

/-- ONE STEP: after a thermal trip nothing moves but a reset; else the next turn, after which contexts that have ended
their tasks become free, and the watchdog counts of the launches that progressed are zero. -/
def State.stepOnce (s : State) : Host.Outcome State Fault Refusal :=
  if s.hub.trip && !s.resetNext then .fault .clocksStopped
  else match s.move with
    | .next t => .next (s.watched t.settled)
    | r => r

/-! ### An instruction where the next step fetches it -/

/-- The bundle of a table word: a syllable beside one that does nothing, or a whole bundle. -/
def bundleOfWord (nbits w : Nat) : BitVec 64 :=
  let x := BitVec.ofNat 32 w
  if nbits = 32 then
    match decodeS x with
    | some _ => x ++ 0#32
    | none => 0#32 ++ x
  else BitVec.ofNat 64 w

/-- Eight bytes over the bytes of a line. -/
def overLine (bytes : List Byte) (o : Nat) (b : BitVec 64) : List Byte :=
  (List.range 128).map fun k =>
    if o ≤ k && k < o + 8 then b.extractLsb' (8 * (k - o)) 8 else bytes.getD k 0

/-- A bundle stands in the cache line that the context chosen by the next slot of the core in focus fetches. -/
def State.placeBundle (s : State) (b : BitVec 64) : State :=
  let k := s.core s.focus
  let th := s.focus * 16 + (k.slots.getD (k.cycle % 32) 0).toNat % 16
  let pc := (s.ctx th).pc.toNat
  let q := quadOf s.focus
  let x := s.xctxOf th
  let old := (s.lineOf q x (pc / 128)).elim [] (·.bytes)
  { s.modQuad q (fillLine { xctx := x, line := pc / 128, bytes := overLine old (pc % 128) b }) with
    turns := [.slot s.focus], inbox := [], hub := { s.hub with due := [] } }

/-- A filter word is the program of slot 0 of die C0, and its event runs. -/
def State.placeFilter (s : State) (w : BitVec 32) : State :=
  let f : Filter := { tenant := 0, fn := 1024, cls := 0, prog := [w], trigs := [], period := 0, clear := false, host := 0 }
  { s.modTel 0 fun t => { t with
      filters := put none t.filters 0 (some f), run := some { slot := 0, ip := 0, w := [], e := [], skip := 0, ended := false } } with
    turns := [.filter 0], inbox := [], hub := { s.hub with due := [] } }

/-- An instruction is placed where the next step fetches it. -/
def State.placeWord (s : State) (nbits w : Nat) : State :=
  let x := BitVec.ofNat 32 w
  if nbits = 32 && (decodeS x).isNone && (decodeV x).isNone && (decodeFilter x).isSome then s.placeFilter x
  else s.placeBundle (bundleOfWord nbits w)

end Sys2Proof.Machine
end

