-- ==== Sys2Proof/Safety.lean ====
section
/-! DEFINITION. The terms claims use: when an instruction issues, what the state after it looks like, what a frame keeps,
and the invariants that every step keeps. -/

namespace Sys2Proof.Machine

/-! ### Issuing -/

/-- A bundle of `i` and `vnop`, or a long instruction `i`, stands at the slot of the context in focus, and every check and
wait of 03 R112 lets it issue. -/
def Issues (s : State) (i : Instr) : Prop := s.latch = none ∧ s.verdict [i] = .go

/-- The state takes the effect of a V-syllable: the S-syllable of its bundle has issued (05 R152). -/
def Follows (s : State) : Prop := s.latch.isSome = true

/-- The state after `i` has issued: the thread stands at the next bundle, `eff` has happened, and the windows that `i`
reads as operands have given up their heads. -/
def State.after (s : State) (i : Instr) (eff : State → State) : State :=
  (eff (s.advance i)).popSources (s.ctx s.cur) i

/-- `i` completes with the effect `eff`. -/
def Does (s : State) (i : Instr) (eff : State → State) : Prop := Issues s i → exec i s = .next (s.after i eff)

/-- `i` completes by writing `x` to the scalar destination `d`, and then with `eff`; a push that has to wait forfeits the
slot instead (03 R101). -/
def WritesThen (s : State) (i : Instr) (d : BitVec 5) (x : Word) (eff : State → State) : Prop :=
  Issues s i → (s.pushHolds d x = false → exec i s = .next (s.after i fun r => eff (r.setS d x))) ∧
    (s.pushHolds d x = true → exec i s = .next (s.stallOrForfeit (d.toNat - 28) onWindow))

/-- `i` completes by writing `x` to the scalar destination `d`. -/
def Writes (s : State) (i : Instr) (d : BitVec 5) (x : Word) : Prop := WritesThen s i d x id

/-- The V-syllable `i` has the effect `eff`, alone in its bundle or after its S-syllable. -/
def DoesV (s : State) (i : Instr) (eff : State → State) : Prop :=
  (Issues s i → exec i s = .next (s.after i eff)) ∧ (Follows s → exec i s = .next (eff s))

/-- The V-syllable `i` completes by writing `x` to vector register `d`, and the conditions `l` count at the core. -/
def WritesV (s : State) (i : Instr) (d : Nat) (x : VWord) (l : List Nat) : Prop :=
  DoesV s i fun r => (r.setV d x).addConds (coreOf s.cur) l

/-- The V-syllable `i` completes by writing to vector register `d` a value whose elements of width `w` are the codes of `f`,
and the conditions of `f` count at the core. -/
def WritesLanes (s : State) (i : Instr) (d w : Nat) (f : Nat → Nat × List Nat) : Prop :=
  ∃ x, WritesV s i d x ((List.range (128 / w)).flatMap fun k => (f k).2) ∧ ∀ k < 128 / w, lane w x k = (f k).1

/-- An event, command or filter instruction answers a next state of which `p` holds. -/
def Gives (s : State) (i : Instr) (p : State → Prop) : Prop := ∃ t, exec i s = .next t ∧ p t

/-- An event takes the machine to the state `t`. -/
def Goes (s : State) (i : Instr) (t : State) : Prop := exec i s = .next t

/-- An engine command (10 R341-R360, 11 R388). -/
def isCommand : Instr → Bool
  | .mxCfg .. | .mxLdst .. | .mxSwap .. | .mxStream .. | .mxZero .. | .mxDrain .. | .cpCopy .. | .cpMcast .. | .cpGather ..
  | .cpScatter .. | .cpFill .. | .cpCrc .. | .cpSend .. | .collReduce .. | .collBcast .. | .collAllgather .. | .rcKern ..
  | .rcCmp .. => true
  | _ => false

/-- A filter instruction (22 R539). -/
def isFilter : Instr → Bool
  | .quinudFx .. | .quinudLi .. | .quinudAddi .. | .quinudAdd .. | .quinudSub .. | .quinudAnd .. | .quinudOr ..
  | .quinudXor .. | .quinudShl .. | .quinudShr .. | .quinudMul .. | .quinudMin .. | .quinudMax .. | .quinudCmp ..
  | .quinudSel .. | .quinudLd .. | .quinudSt .. | .quinudKadd .. | .quinudKmin .. | .quinudKmax .. | .quinudEwma ..
  | .quinudHlin .. | .quinudHlog .. | .quinudCms .. | .quinudCmq .. | .quinudBz .. | .quinudBnz .. | .quinudTrig ..
  | .quinudEnd => true
  | _ => false

/-- An S-syllable, a V-syllable or a long instruction: what a thread issues. -/
def isSyllable (i : Instr) : Bool := !isEvent i && !isCommand i && !isFilter i

/-! ### The plain conditions of a register instruction -/

/-- Instructions that read and write registers only, with no check of their own: the arithmetic of 06 R180-R187 and the
V-syllables of 07. -/
def registerOnly : Instr → Bool
  | .add .. | .sub .. | .and .. | .or .. | .xor .. | .andn .. | .sll .. | .srl .. | .sra .. | .slt .. | .sltn ..
  | .min .. | .max .. | .minn .. | .maxn .. | .lea .. | .mul .. | .mulh .. | .mulhn .. | .mulhsn .. | .div .. | .divn ..
  | .rem .. | .remn .. | .clz .. | .ctz .. | .popc .. | .sel .. | .bext .. | .bexts .. | .bins .. | .addi .. | .andi ..
  | .ori .. | .xori .. | .slti .. | .sltni .. | .slli .. | .srli .. | .srai .. | .cadr .. | .lim .. => true
  | i => isVSyl i

/-- No scalar field of `i` is an encoding whose window is bound. -/
def noWindow (c : Ctx) (i : Instr) : Bool :=
  ((srcsOf i).all fun x => x.vec || !x.win || (c.winOf x.reg).isNone) &&
    (dstsOf i).all fun x => x.vec || !x.win || (c.winOf x.reg).isNone

/-- Every register that `i` names is full, and every vector register is one of the core's mode. -/
def registersFull (s : State) (i : Instr) : Bool :=
  let c := s.ctx s.cur
  let n := vregCount (s.core (coreOf s.cur)).mode
  let ok := fun (vec : Bool) (r : Nat) =>
    if vec then decide (r < n) && !c.vEmpty.getLsbD r else r = 0 || !c.sEmpty.getLsbD r
  ((srcsOf i).all fun x => ok x.vec x.reg) && (dstsOf i).all fun x => ok x.vec x.reg

/-! ### Frames -/

/-- What the slot of a thread moves in its context whatever it issues, set aside. -/
def Ctx.still (c : Ctx) : Ctx :=
  { c with status := .ready, pc := 0, issued := 0, forfeits := 0, winWait := none, waitKind := 0, held := [], synced := none
           firstIssue := none, lastIssue := none }

/-- The counts of a core, set aside. -/
def Core.still (k : Core) : Core := { k with ivIssued := 0, ivForfeit := 0, ivBank := 0, evc := [] }

/-- The same, and the exception counters of arithmetic (04 R147). -/
def Core.stillEx (k : Core) : Core := { k.still with ex := [] }

/-- The message is a telemetry record. -/
def isRecord : Instr → Bool
  | .telemetryRecord .. => true
  | _ => false

/-- From `s` to `t` nothing changes but the context in focus, what `g` sets aside in cores, and telemetry records sent. -/
structure OnlyCtx (g : Core → Core) (s t : State) : Prop where
  cur : t.cur = s.cur
  ctx : ∀ th, th ≠ s.cur → t.ctx th = s.ctx th
  core : ∀ c, g (t.core c) = g (s.core c)
  quads : t.quads = s.quads
  dies : t.dies = s.dies
  hub : t.hub = s.hub
  launches : t.launches = s.launches
  pres : t.pres = s.pres
  byte : ∀ k, Memory.byte t.mem k = Memory.byte s.mem k
  inbox : t.inbox = s.inbox
  turns : t.turns = s.turns
  net : ∃ l, t.net = s.net ++ l ∧ l.all (fun f => isRecord f.ev) = true
  latch : t.latch = s.latch
  out : t.out = s.out

/-! ### Where a cycle of a core issues -/

/-- The next step is a cycle of `core` in which context `th` is chosen, may issue and loses no bank: `u` is the state in which its
bundle is performed (03 R83-R94, 17 R412). -/
structure IssuePoint (s : State) (core th : Nat) (u : State) : Prop where
  trip : s.hub.trip = false
  inbox : s.inbox = []
  clock : s.hub.due = []
  turn : s.turns.head? = some (.slot core)
  start : u = { (((({ s with turns := s.turns.tail, focus := core, taken := [] } : State).coreTick core).slotTableSwitch
    core).drainHead core) with cur := th }
  own : coreOf th = core
  quiet : (u.core core).quiet = 0
  power : u.gated ((u.core core).cycle % 32) = false
  slot : (u.core core).slots.getD ((u.core core).cycle % 32) 0 = BitVec.ofNat 8 (64 + ctxOf th)
  runs : (u.ctx th).status = .ready ∨ (u.ctx th).status = .blocked
  due : (u.ctx th).due = []
  fetch : u.fetchFault th = false
  banks : u.lostBanks = []

/-- What the cycle of a core adds to the outcome `t` of the slot of `th` in `u`: a bank claim ends with an issue, which is held to
its bounds, a forfeited slot may be given away, and the core's cycle ends. -/
def closeSlot (u t : State) (core th : Nat) : Host.Outcome State Fault Refusal :=
  let t1 := if (t.ctx th).issued = (u.ctx th).issued then t else t.endClaim.noteIssue (u.ctx th) u.atomicNext
  match (if (t1.ctx th).forfeits = (u.ctx th).forfeits then .next t1 else t1.donateSlot core) with
  | .next v => .next (v.nextCycle core)
  | r => r

/-- What `step` adds to the outcome of a turn: contexts whose tasks have ended become free, and the watchdog counts of
launches that have progressed return to zero. -/
def closeStep (s : State) : Host.Outcome State Fault Refusal → Host.Outcome State Fault Refusal
  | .next t => .next (s.watched t.settled)
  | r => r

/-- The outcome `o` of the slot of `th` in `u` is what the step from `s` makes of it. -/
def SlotAnswers (s u : State) (core th : Nat) (o : Host.Outcome State Fault Refusal) : Prop :=
  step s = closeStep s (match o with
    | .next t => closeSlot u t core th
    | r => r)

/-- The operation number of an engine command (10 R330). -/
def commandOp : Instr → Nat
  | .mxCfg _ => 0x01
  | .mxLdst _ => 0x02
  | .mxSwap _ => 0x03
  | .mxStream _ => 0x04
  | .mxZero _ => 0x05
  | .mxDrain _ => 0x06
  | .cpCopy _ => 0x10
  | .cpMcast _ => 0x11
  | .cpGather _ => 0x12
  | .cpScatter _ => 0x13
  | .cpFill _ => 0x14
  | .cpCrc _ => 0x15
  | .cpSend _ => 0x16
  | .collReduce _ => 0x20
  | .collBcast _ => 0x21
  | .collAllgather _ => 0x22
  | .rcKern _ => 0x30
  | .rcCmp _ => 0x31
  | _ => 0

/-- The command that an engine command carries. -/
def commandOf : Instr → Option Cmd
  | .mxCfg c | .mxLdst c | .mxSwap c | .mxStream c | .mxZero c | .mxDrain c | .cpCopy c | .cpMcast c | .cpGather c
  | .cpScatter c | .cpFill c | .cpCrc c | .cpSend c | .collReduce c | .collBcast c | .collAllgather c | .rcKern c
  | .rcCmp c => some c
  | _ => none

/-- An instruction whose only trace outside its thread's registers is in counts: of `registerOnly`, all but the special
functions, which are long-latency producers (07 R237). -/
def plainRegister : Instr → Bool
  | .rcp .. | .rsqrt .. | .sqrt .. | .exp2 .. | .log2 .. | .tanh .. => false
  | i => registerOnly i

/-! ### The run of an engine command -/

/-- Where a run gets to: to `fin` after its last step, to a pause after the steps that its turn grants it, or to a stop before
the first step that fails (10 R333, R364). -/
def closeRun (c : Cmd) (n : Nat) (fin : State → State) (r : State × Nat × Option Stop) : State :=
  match r.2.2 with
  | none => if r.2.1 < n then r.1.modRun c fun x => { x.goes r.2.1 with paused := true } else fin r.1
  | some x => r.1.stopCmd c r.2.1 x

/-- The steps that a turn lets a command take, of those left: all, or as many as it grants. -/
def State.stepsOf (s : State) (left : Nat) : Nat := match s.grant with
  | none => left
  | some m => min m left

/-- The command `c` of the instruction `i` runs: it is refused at its start with the code `e` where that is not 0; it starts
with `start` and takes its `n` steps `f`; it goes on where it stood when it had to wait, or was paused (10 R330-R333). -/
structure Runs (s : State) (i : Instr) (c : Cmd) (e : Nat) (start : State → State) (n : Nat)
    (f : Nat → State → Except Stop State) (fin : State → State) : Prop where
  refused : s.started c = none → e ≠ 0 → exec i s = .next (s.endCmd c ⟨2, e, 0⟩)
  starts : s.started c = none → e = 0 →
    exec i s = .next (closeRun c n fin (steps f (s.stepsOf n) 0 (start (s.setRun { cmd := c, progress := 0 }))))
  resumes : ∀ r, s.started c = some r →
    exec i s = .next (closeRun c n fin
      (steps f (s.stepsOf (n - r.progress)) r.progress (s.modRun c fun x => { x with paused := false })))

/-- The steps `f` of a command whose elements take `p` reads each, in states of which `ok` holds: a read `rd` is kept, and the
step after an element's last read writes it with `put` from what was kept (10 R364, log 11). -/
def Elements (c : Cmd) (p : Nat) (f : Nat → State → Except Stop State) (ok : State → Prop)
    (rd : Nat → Nat → State → Except Stop (State × Nat)) (put : Nat → List Nat → State → Except Stop State) : Prop :=
  ∀ (e : Nat) (r : State), ok r →
    (∀ j < p, f (e * (p + 1) + j) r = (rd e j r).map fun x => x.1.hold c j x.2) ∧
      f (e * (p + 1) + p) r = put e (r.heldOf c) r

/-! ### A running filter event (22 R541) -/

/-- The coprocessor that steps runs the event `r` of the filter `f`, whose effects have not stopped, and skips nothing. -/
structure FilterPoint (s : State) (r : FilterRun) (f : Filter) : Prop where
  run : (s.tel s.curDie).run = some r
  filter : (s.tel s.curDie).filter r.slot = some f
  live : r.ended = false
  here : r.skip = 0

/-- The state `u` at the end of a filter instruction: the event goes on, or it ends after its last instruction and the
snapshots that waited for its end are taken (22 R541, R544). -/
def State.closeFilter (u : State) (die : Nat) : State := (u.modTel die Tel.nextIp).exportsDue die

/-- The filter instruction `i` changes the coprocessor that steps by `g`. -/
def Filters (s : State) (i : Instr) (g : Tel → Tel) : Prop :=
  exec i s = .next ((s.modTel s.curDie g).closeFilter s.curDie)

/-- The filter instruction `i` writes `x` to working register `d`. -/
def FiltersW (s : State) (i : Instr) (r : FilterRun) (d : BitVec 3) (x : BitVec 32) : Prop :=
  Filters s i fun t => { t with run := some { r with w := put 0 r.w d.toNat x } }

/-- The filter instruction `i` writes `x` to state word `n`. -/
def FiltersK (s : State) (i : Instr) (r : FilterRun) (n : Nat) (x : BitVec 32) : Prop :=
  Filters s i fun t => t.modFilter r.slot fun f => { f with k := put 0 f.k n x }

/-! ### Invariants -/

/-- The keys of a table rise strictly. -/
def tableSorted {α : Type} : FMap α → Bool
  | [] => true
  | [_] => true
  | (k, _) :: (j, y) :: m => decide (k < j) && tableSorted ((j, y) :: m)

/-- The tables of contexts, cores, quads and dies are sorted, and memory is in its canonical form: addresses strictly rising,
no listed byte equal to what an unlisted one reads as. -/
structure Canonical (s : State) : Prop where
  ctxs : tableSorted s.ctxs = true
  cores : tableSorted s.cores = true
  quads : tableSorted s.quads = true
  dies : tableSorted s.dies = true
  mem : Memory.wf s.mem = true

end Sys2Proof.Machine
end

