-- ==== Sys2Proof/Certificates/Slice0/Obligations.lean ====
section
/-! DEFINITION. What is claimed of this model, for the provers. -/

open Sys2Proof Sys2Proof.Machine

/-! ### Integer and address instructions (06 R180-R187) -/

/-- R180: the register arithmetic writes the value of its table, computed on the naturals and integers of its operands. -/
def Obligations.RegisterArithmetic : Prop :=
  ∀ (s : State) (d a b : BitVec 5) (t u : BitVec 1) (k : BitVec 3),
    Writes s (.add d a t b u) d (BitVec.ofNat 64 ((s.S a).toNat + (s.S b).toNat)) ∧
    Writes s (.sub d a t b u) d (BitVec.ofInt 64 ((s.S a).toNat - (s.S b).toNat)) ∧
    Writes s (.and d a t b u) d (s.S a &&& s.S b) ∧
    Writes s (.or d a t b u) d (s.S a ||| s.S b) ∧
    Writes s (.xor d a t b u) d (s.S a ^^^ s.S b) ∧
    Writes s (.andn d a t b u) d (s.S a &&& ~~~s.S b) ∧
    Writes s (.sll d a t b u) d (BitVec.ofNat 64 ((s.S a).toNat * 2 ^ ((s.S b).toNat % 64))) ∧
    Writes s (.srl d a t b u) d (BitVec.ofNat 64 ((s.S a).toNat / 2 ^ ((s.S b).toNat % 64))) ∧
    Writes s (.sra d a t b u) d (BitVec.ofInt 64 ((s.S a).toInt / 2 ^ ((s.S b).toNat % 64))) ∧
    Writes s (.slt d a t b u) d (if (s.S a).toInt < (s.S b).toInt then 1 else 0) ∧
    Writes s (.sltn d a t b u) d (if (s.S a).toNat < (s.S b).toNat then 1 else 0) ∧
    Writes s (.min d a t b u) d (BitVec.ofInt 64 (Min.min (s.S a).toInt (s.S b).toInt)) ∧
    Writes s (.max d a t b u) d (BitVec.ofInt 64 (Max.max (s.S a).toInt (s.S b).toInt)) ∧
    Writes s (.minn d a t b u) d (BitVec.ofNat 64 (Min.min (s.S a).toNat (s.S b).toNat)) ∧
    Writes s (.maxn d a t b u) d (BitVec.ofNat 64 (Max.max (s.S a).toNat (s.S b).toNat)) ∧
    Writes s (.lea d a t b u k) d (BitVec.ofNat 64 ((s.S a).toNat * 2 ^ k.toNat + (s.S b).toNat))

/-- R181: multiplication and division, with the values of the columns for a zero divisor and for the one quotient that
overflows; their words have major 0x01 and the functs 0 to 7. -/
def Obligations.MultiplyDivide : Prop :=
  ∀ (s : State) (d a b : BitVec 5) (t u : BitVec 1),
    (∀ (n : BitVec 9) (i : Instr), (n, i) ∈ [
        (0, Instr.mul d a t b u), (1, .mulh d a t b u), (2, .mulhn d a t b u), (3, .mulhsn d a t b u), (4, .div d a t b u),
        (5, .divn d a t b u), (6, .rem d a t b u), (7, .remn d a t b u)] →
      decodeS ((0x01#6 ++ d ++ a ++ t ++ b ++ u ++ n : BitVec 32)) = some i) ∧
    Writes s (.mul d a t b u) d (BitVec.ofNat 64 ((s.S a).toNat * (s.S b).toNat)) ∧
    Writes s (.mulh d a t b u) d (BitVec.ofInt 64 ((s.S a).toInt * (s.S b).toInt / 2 ^ 64)) ∧
    Writes s (.mulhn d a t b u) d (BitVec.ofNat 64 ((s.S a).toNat * (s.S b).toNat / 2 ^ 64)) ∧
    Writes s (.mulhsn d a t b u) d (BitVec.ofInt 64 ((s.S a).toInt * (s.S b).toNat / 2 ^ 64)) ∧
    Writes s (.div d a t b u) d
      (if s.S b = 0 then 0xFFFFFFFFFFFFFFFF
       else if (s.S a).toInt = -2 ^ 63 ∧ (s.S b).toInt = -1 then 0x8000000000000000
       else BitVec.ofInt 64 ((s.S a).toInt.tdiv (s.S b).toInt)) ∧
    Writes s (.divn d a t b u) d
      (if s.S b = 0 then 0xFFFFFFFFFFFFFFFF else BitVec.ofNat 64 ((s.S a).toNat / (s.S b).toNat)) ∧
    Writes s (.rem d a t b u) d
      (if s.S b = 0 then s.S a
       else if (s.S a).toInt = -2 ^ 63 ∧ (s.S b).toInt = -1 then 0
       else BitVec.ofInt 64 ((s.S a).toInt.tmod (s.S b).toInt)) ∧
    Writes s (.remn d a t b u) d
      (if s.S b = 0 then s.S a else BitVec.ofNat 64 ((s.S a).toNat % (s.S b).toNat))

/-- R182: counting, selecting and bit fields. A count is said by what it counts: the position of the highest one bit, of the
lowest one bit, and how many bits are one; a field by its bits. The words have major 0x02 and the functs 0 to 6. -/
def Obligations.BitOperations : Prop :=
  ∀ (s : State) (d a b : BitVec 5) (t u : BitVec 1),
    (∀ (n : BitVec 9) (i : Instr), (n, i) ∈ [
        (3, Instr.sel d a t b u), (4, .bext d a t b u), (5, .bexts d a t b u), (6, .bins d a t b u)] →
      decodeS ((0x02#6 ++ d ++ a ++ t ++ b ++ u ++ n : BitVec 32)) = some i) ∧
    (∀ (n : BitVec 9) (i : Instr), (n, i) ∈ [(0, Instr.clz d a t), (1, .ctz d a t), (2, .popc d a t)] →
      decodeS ((0x02#6 ++ d ++ a ++ t ++ 0#5 ++ 0#1 ++ n : BitVec 32)) = some i) ∧
    (s.S a = 0 → Writes s (.clz d a t) d 64 ∧ Writes s (.ctz d a t) d 64) ∧
    (∀ k : Nat, k < 64 → 2 ^ k ≤ (s.S a).toNat → (s.S a).toNat < 2 ^ (k + 1) →
      Writes s (.clz d a t) d (BitVec.ofNat 64 (63 - k))) ∧
    (∀ k : Nat, k < 64 → (s.S a).toNat % 2 ^ (k + 1) = 2 ^ k → Writes s (.ctz d a t) d (BitVec.ofNat 64 k)) ∧
    Writes s (.popc d a t) d (BitVec.ofNat 64 (((List.range 64).map fun k => (s.S a).toNat / 2 ^ k % 2).sum)) ∧
    Writes s (.sel d a t b u) d (if s.S d ≠ 0 then s.S a else s.S b) ∧
    Writes s (.bext d a t b u) d
      (BitVec.ofNat 64 ((s.S a).toNat / 2 ^ ((s.S b).toNat % 64) % 2 ^ ((s.S b).toNat / 64 % 128))) ∧
    ((s.S b).toNat / 64 % 128 = 0 → Writes s (.bexts d a t b u) d 0) ∧
    (∀ n : Nat, (s.S b).toNat / 64 % 128 = n + 1 →
      Writes s (.bexts d a t b u) d
        (BitVec.ofInt 64 (BitVec.ofNat (n + 1) ((s.S a).toNat / 2 ^ ((s.S b).toNat % 64))).toInt)) ∧
    (∀ m : Word, m = BitVec.ofNat 64 ((2 ^ ((s.S b).toNat / 64 % 128) - 1) * 2 ^ ((s.S b).toNat % 64)) →
      Writes s (.bins d a t b u) d
        ((s.S d &&& ~~~m) ||| (BitVec.ofNat 64 ((s.S a).toNat * 2 ^ ((s.S b).toNat % 64)) &&& m)))

/-- R184 to R187: the immediate forms compute as the register forms of R180 with the sign-extended immediate or the shift
count in the place of y; `lim` writes its sign-extended 48 bits; `cadr` writes the window address of the fields of its
immediate and of bits 22 to 0 of its operand. The words of R184 have the majors 0x04 to 0x09. -/
def Obligations.ImmediateForms : Prop :=
  ∀ (s : State) (d a : BitVec 5) (t : BitVec 1) (i : BitVec 15) (n : BitVec 6) (z : BitVec 48) (g : BitVec 3)
    (x y : BitVec 4) (c : BitVec 2),
    (∀ (m : BitVec 6) (j : Instr), (m, j) ∈ [
        (0x04, Instr.addi d a t i), (0x05, .andi d a t i), (0x06, .ori d a t i), (0x07, .xori d a t i), (0x08, .slti d a t i),
        (0x09, .sltni d a t i)] → decodeS ((m ++ d ++ a ++ t ++ i : BitVec 32)) = some j) ∧
    Writes s (.addi d a t i) d (BitVec.ofInt 64 ((s.S a).toNat + i.toInt)) ∧
    Writes s (.andi d a t i) d (s.S a &&& BitVec.ofInt 64 i.toInt) ∧
    Writes s (.ori d a t i) d (s.S a ||| BitVec.ofInt 64 i.toInt) ∧
    Writes s (.xori d a t i) d (s.S a ^^^ BitVec.ofInt 64 i.toInt) ∧
    Writes s (.slti d a t i) d (if (s.S a).toInt < i.toInt then 1 else 0) ∧
    Writes s (.sltni d a t i) d (if (s.S a).toNat < (BitVec.ofInt 64 i.toInt).toNat then 1 else 0) ∧
    Writes s (.slli d a t n) d (BitVec.ofNat 64 ((s.S a).toNat * 2 ^ n.toNat)) ∧
    Writes s (.srli d a t n) d (BitVec.ofNat 64 ((s.S a).toNat / 2 ^ n.toNat)) ∧
    Writes s (.srai d a t n) d (BitVec.ofInt 64 ((s.S a).toInt / 2 ^ n.toNat)) ∧
    Writes s (.lim d z) d (BitVec.ofInt 64 z.toInt) ∧
    Writes s (.cadr d a t g x y c) d ((1 : BitVec 2) ++ (0 : BitVec 26) ++ g ++ x ++ y ++ c ++ (s.S a).extractLsb' 0 23)

/-! ### Control, tasks and the system (06 R190-R218) -/

/-- 06 R190: a branch whose condition holds goes to its own address plus 8 times its signed offset. -/
def Obligations.Branches : Prop :=
  ∀ (s : State) (a b : BitVec 5) (t u : BitVec 1) (o : BitVec 14) (dest : Word),
    dest = (s.ctx s.cur).pc + BitVec.ofInt 64 (8 * o.toInt) →
      Does s (.beq a t b u o) (fun r => if s.S a = s.S b then r.goto dest else r) ∧
      Does s (.bne a t b u o) (fun r => if s.S a ≠ s.S b then r.goto dest else r) ∧
      Does s (.blt a t b u o) (fun r => if (s.S a).toInt < (s.S b).toInt then r.goto dest else r) ∧
      Does s (.bge a t b u o) (fun r => if (s.S a).toInt < (s.S b).toInt then r else r.goto dest) ∧
      Does s (.bltn a t b u o) (fun r => if (s.S a).toNat < (s.S b).toNat then r.goto dest else r) ∧
      Does s (.bgen a t b u o) (fun r => if (s.S a).toNat < (s.S b).toNat then r else r.goto dest)

/-- 06 R191, R200: a call links the address of the next bundle; an indirect jump issues only to a multiple of 8 and reads
its target before it links; a return through the entry value of `s15` retires the task, and retiring leaves the context
Retiring. The model's choices in it: log 13. -/
def Obligations.CallsAndReturns : Prop :=
  ∀ (s : State) (d a : BitVec 5) (t : BitVec 1) (o : BitVec 32),
    WritesThen s (.call d o) d ((s.ctx s.cur).pc + 8)
      (fun r => r.goto ((s.ctx s.cur).pc + BitVec.ofInt 64 (8 * o.toInt))) ∧
    Does s (.jr a t) (fun r => r.goto (s.S a)) ∧
    WritesThen s (.callr d a t) d ((s.ctx s.cur).pc + 8) (fun r => r.goto (s.S a)) ∧
    (Issues s (.jr a t) ∨ Issues s (.callr d a t) → (s.S a).toNat % 8 = 0) ∧
    Does s .ret (fun r => if (s.ctx s.cur).stub = some (s.S 15) then r.retireNow else r.goto (s.S 15)) ∧
    Does s .retire State.retireNow ∧
    (s.retireNow.ctx s.cur).status = .retiring

/-- 06 R195: the loop-nest sequencer. `lpset` reads base, trips and strides of a record in the core's own scratchpad and
zeroes the indices; `lpidx` and `lpaddr` write an index, and the base plus the products of indices and strides from level l
outward; `lpnext` counts and goes back until the trip is reached. -/
def Obligations.LoopNest : Prop :=
  ∀ (s : State) (d a : BitVec 5) (t : BitVec 1) (l : BitVec 2) (o : BitVec 14) (word : Nat → Word) (step : Nat → Word),
    (∀ k, word k = BitVec.ofNat 64 (s.localRead (coreOf s.cur) ((s.S a).toNat % 2 ^ 20 + k) 8)) →
    (∀ j, step j = if j < l.toNat then 0 else get 0 (s.ctx s.cur).lpIdx j * get 0 (s.ctx s.cur).lpStride j) →
      Does s (.lpset a t) (fun r => (r.modCtx s.cur fun c => { c with
        lpBase := word 0
        lpTrip := put 0 (put 0 (put 0 (put 0 [] 0 (word 8)) 1 (word 24)) 2 (word 40)) 3 (word 56)
        lpStride := put 0 (put 0 (put 0 (put 0 [] 0 (word 16)) 1 (word 32)) 2 (word 48)) 3 (word 64)
        lpIdx := [] }).evc (coreOf s.cur) 11) ∧
      Writes s (.lpidx d l) d (get 0 (s.ctx s.cur).lpIdx l.toNat) ∧
      Writes s (.lpaddr d l) d ((s.ctx s.cur).lpBase + step 0 + step 1 + step 2 + step 3) ∧
      ((get 0 (s.ctx s.cur).lpIdx l.toNat).toNat < (get 0 (s.ctx s.cur).lpTrip l.toNat).toNat →
        Does s (.lpnext l o) (fun r =>
          (r.modCtx s.cur fun c => { c with
            lpIdx := put 0 c.lpIdx l.toNat (get 0 (s.ctx s.cur).lpIdx l.toNat + 1) }).goto
              ((s.ctx s.cur).pc + BitVec.ofInt 64 (8 * o.toInt)))) ∧
      (¬ (get 0 (s.ctx s.cur).lpIdx l.toNat).toNat < (get 0 (s.ctx s.cur).lpTrip l.toNat).toNat →
        Does s (.lpnext l o) (fun r => r.modCtx s.cur fun c => { c with lpIdx := put 0 c.lpIdx l.toNat 0 }))

/-- 06 R204, R205 and 03 R107: `ctlr` writes the control register's value and `ctlw` sets it, and both are ILLEGAL for an
index without a register, whatever their operand is; a write is ILLEGAL below the register's level, with `ctl.tval` 0 where
its operand misuses a bound window and 1 otherwise (log 103 orders the two). Of a context that is not Free the trap
registers, the limits, the stack and the base of the loop nest read as they were written, with their reserved bits zero. The
model's choices in it: log 103. -/
def Obligations.ControlRegisters : Prop :=
  (∀ (s : State) (d a : BitVec 5) (t : BitVec 1) (i : BitVec 12),
    Writes s (.ctlr d i) d ((s.advance (.ctlr d i)).ctlRead s.cur i.toNat) ∧
    Does s (.ctlw a t i) (fun r => r.ctlWrite s.cur i.toNat (s.S a)) ∧
    (s.latch = none → ctlWriteLevel i.toNat = none →
      exec (.ctlr d i) s = .next (s.takeTrap s.cur { cause := cILLEGAL, tval := 0 })) ∧
    (s.latch = none → ctlWriteLevel i.toNat = none →
      exec (.ctlw a t i) s = .next (s.takeTrap s.cur { cause := cILLEGAL, tval := 0 })) ∧
    (s.latch = none → ∀ l, ctlWriteLevel i.toNat = some l → (l = 4 ∨ (s.ctx s.cur).level < l) →
      exec (.ctlw a t i) s = .next (s.takeTrap s.cur
        { cause := cILLEGAL, tval := if windowMisuse (s.ctx s.cur) (.ctlw a t i) then 0 else 1 }))) ∧
  (∀ (s : State) (th : Nat) (x : Word), (s.ctx th).status ≠ .free →
    (s.ctlWrite th 0x010 x).ctlRead th 0x010 = x &&& 0xFFFFFF ∧
    (s.ctlWrite th 0x011 x).ctlRead th 0x011 = x &&& 0xFFFFFF ∧
    (s.ctlWrite th 0x013 x).ctlRead th 0x013 = x &&& 0xFFFFFFFFFFFFFFF0 ∧
    (s.ctlWrite th 0x018 x).ctlRead th 0x018 = x &&& 0xFF ∧
    (s.ctlWrite th 0x019 x).ctlRead th 0x019 = x &&& 0xFFFFFFFFFFFFFFF8 ∧
    (s.ctlWrite th 0x01A x).ctlRead th 0x01A = x ∧
    (s.ctlWrite th 0x01B x).ctlRead th 0x01B = x &&& 0xFFF8 ∧
    (s.ctlWrite th 0x01C x).ctlRead th 0x01C = x &&& 0xFFFFFFFFFFFFFFF8 ∧
    (s.ctlWrite th 0x01D x).ctlRead th 0x01D = x &&& 0xFC0 ∧
    (s.ctlWrite th 0x040 x).ctlRead th 0x040 = x)

/-- 06 R202 and 03 R113, R115: `trap n` takes SOFT with `ctl.tval` n. A trap saves its cause, value and the bundle's
address; the thread's own handler, allowed by `ctl.hmask` and not inside a handler, goes on at `ctl.hbase` with `inh` set, a
`slotw` that it leaves not arrived any more (log 104); any other trap halts the context and leaves its record for the die
scheduler, which keeps any number of them (log 20); PREEMPT keeps the trap registers that it overwrites aside (log 95). 06
R203: `eret` clears `inh` and continues at `ctl.epc`, everything else of the context as it was; outside a handler at level 0
it is ILLEGAL. The model's choices in it: log 20, 95, 104. -/
def Obligations.TrapsAndReturns : Prop :=
  ((∀ (s : State) (n : BitVec 15), s.latch = none →
     exec (.trap n) s = .next (s.takeTrap s.cur { cause := 0x0B, tval := n.setWidth 64 })) ∧
   (∀ (s : State) (th : Nat) (t : TrapInfo), 6 ≤ t.cause → t.cause ≤ 11 → (s.ctx th).hmask.getLsbD t.cause = true →
     (s.ctx th).tstate.getLsbD 15 = false →
       let c := (s.takeTrap th t).ctx th
       c.cause = BitVec.ofNat 64 t.cause ∧ c.epc = (s.ctx th).pc &&& 0xFFFFFFFFFFFFFFF8 ∧ c.tval = t.tval ∧
         c.tstate = tstateOf t ||| 0x8000 ∧ c.pc = (s.ctx th).hbase &&& 0xFFFFFFFFFFFFFFF8 ∧ c.status = .ready ∧
         c.s = (s.ctx th).s ∧ c.v = (s.ctx th).v ∧ (∀ u, u ≠ th → (s.takeTrap th t).ctx u = s.ctx u) ∧
         (s.takeTrap th t).mem = s.mem ∧ (s.takeTrap th t).dies = s.dies ∧
         (s.takeTrap th t).cores = (s.modCore (coreOf th) (unarrive th)).cores ∧
         (∀ (k : Core) (r : SlotwRound), k.round = some r → unarrive th k = { k with
           round := some { r with arrived := r.arrived.filter fun p => p.1 ≠ th } })) ∧
   (∀ (s : State) (th : Nat) (t : TrapInfo),
     (t.cause < 6 ∨ 11 < t.cause ∨ (s.ctx th).hmask.getLsbD t.cause = false ∨ (s.ctx th).tstate.getLsbD 15 = true) →
       let c := (s.takeTrap th t).ctx th
       c.cause = BitVec.ofNat 64 (t.cause % 256) ∧ c.epc = (s.ctx th).pc &&& 0xFFFFFFFFFFFFFFF8 ∧ c.tval = t.tval ∧
         c.tstate = tstateOf t ||| ((s.ctx th).tstate &&& 0x8000) ∧ c.pc = (s.ctx th).pc ∧ c.status = .halted ∧
         c.s = (s.ctx th).s ∧ c.v = (s.ctx th).v ∧ (∀ u, u ≠ th → (s.takeTrap th t).ctx u = s.ctx u) ∧
         (s.takeTrap th t).mem = s.mem ∧
         (t.cause = 0x0D → c.outer = some ((s.ctx th).cause, (s.ctx th).epc, (s.ctx th).tval, (s.ctx th).tstate)) ∧
         ((s.takeTrap th t).die (dieOfTh th)).trapq =
           (s.die (dieOfTh th)).trapq ++ [{ th := th, lid := (s.ctx th).lid, lq := (s.ctx th).lq.toNat, trap := t }])) ∧
  (∀ (s : State),
     Does s .eret (fun r => r.modCtx s.cur fun c => { c with
       tstate := c.tstate &&& 0xFFFFFFFFFFFF7FFF, pc := c.epc &&& 0xFFFFFFFFFFFFFFF8 }) ∧
     (s.latch = none → (s.ctx s.cur).tstate.getLsbD 15 = false → (s.ctx s.cur).level = 0 →
       exec .eret s = .next (s.takeTrap s.cur { cause := 0x01, tval := 0 })) ∧
     (s.latch = none → ((s.ctx s.cur).tstate.getLsbD 15 = true ∨ (s.ctx s.cur).level ≠ 0) → Issues s .eret))

/-- 06 R199: `spawn` sends its wake message to the core it names, counted by how far that core is; what it names can be
woken, and its level is not above the thread's. 06 R206-R218: the system instructions. `repart` notes the new mode and
retires; `slotw` arrives in its round, or goes on where the round has ended; `sleep` suspends for its operand's cycles;
`iflush` drops the quad's unpinned lines, and where it has pinned ones has them read afresh and issues once they are there;
`xlinv` drops the translations of its extent in its reach, once no walk for them is in flight, and the launches that it
reaches lose their bounds; `ctxsv` withdraws the requests of the context the operand names and writes its record, and
`ctxld` reads it, when its owner allows; `tel.ev` posts the event. Privileged ones are ILLEGAL below level 2, with
`ctl.tval` 1 before any other cause of ILLEGAL that is not the encoding's (log 103). The model's choices in it: log 37, 50,
103. -/
def Obligations.SystemInstructions : Prop :=
  (∀ (s : State) (b a : BitVec 5) (t h : BitVec 1) (l : BitVec 2) (o : BitVec 32) (core k : Nat),
     s.wakeTarget (s.ctx s.cur).lid (s.ctx s.cur).level (s.S a) = some core →
     k = (if quadOf core = quadOf (coreOf s.cur) then 0 else if core / 1024 = dieOfTh s.cur then 1 else 2) →
       Does s (.spawn b a t h l o) (fun r => (r.count s.cur k).send (some (coreOf s.cur, core)) (.wakeMessage {
         core := core, entry := (s.ctx s.cur).pc + BitVec.ofInt 64 (8 * o.toInt)
         args := [s.S b, s.S (b + 1), s.S (b + 2), s.S (b + 3)], level := l.toNat, h := decide (h = 1)
         lid := (s.ctx s.cur).lid, sender := .thread s.cur k, since := s.hub.cycle })) ∧
       (Issues s (.spawn b a t h l o) → b.toNat ≤ 24 ∧ l.toNat ≤ (s.ctx s.cur).level) ∧
       (∀ x, Issues s (.spawn b x t h l o) → (s.wakeTarget (s.ctx s.cur).lid (s.ctx s.cur).level (s.S x)).isSome = true)) ∧
  (∀ (s : State) (m : BitVec 2) (a b : BitVec 5) (t u : BitVec 1) (th : Nat),
     Does s (.repart m) (fun r =>
       (r.modCore (coreOf s.cur) fun k => { k with repart := some (s.cur, m.toNat) }).retireNow) ∧
     Does s (.slotw a t) (fun r => if (s.ctx s.cur).synced = some (s.ctx s.cur).pc then r else r.slotwArrive (s.S a)) ∧
     ((s.S a).toNat = 0 → Does s (.sleep a t) id) ∧
     ((s.S a).toNat ≠ 0 → Does s (.sleep a t) (fun r => r.modCtx s.cur fun c => { c with
       status := .sleeping, sleepUntil := (s.core (coreOf s.cur)).cycle + (s.S a).toNat })) ∧
     ((s.ctx s.cur).synced ≠ some (s.ctx s.cur).pc → Does s .iflush (fun r => r.flushQuad (quadOf (coreOf s.cur)))) ∧
     ((s.ctx s.cur).synced = some (s.ctx s.cur).pc → Does s .iflush id) ∧
     (s.latch = none → s.verdict [.iflush] = .hold → exec .iflush s =
       .next (((s.flushQuad (quadOf (coreOf s.cur))).modCtx s.cur fun c => { c with synced := some c.pc }).forfeit onWait)) ∧
     (Issues s .iflush → if (s.ctx s.cur).synced = some (s.ctx s.cur).pc
       then (s.quad (quadOf (coreOf s.cur))).refetching = false else (s.quad (quadOf (coreOf s.cur))).pinned = []) ∧
     (Issues s (.xlinv a t b u) → s.walksFor (s.S b).toNat (s.S a).toNat = false) ∧
     Does s (.xlinv a t b u) (fun r => ((r.xlReached (s.S b).toNat).foldl (fun r l => r.loseBound (some l)) r).dropTlb
       (fun q => if (s.S b).toNat / 2 ^ 18 % 4 = 0 then q = quadOf (coreOf s.cur)
         else if (s.S b).toNat / 2 ^ 18 % 4 = 1 then dieOf q = dieOfTh s.cur else true)
       (fun d => 2 ≤ (s.S b).toNat / 2 ^ 18 % 4 || ((s.S b).toNat / 2 ^ 18 % 4 = 1 && d = dieOfTh s.cur))
       (xlinvDrops ((s.S b).toNat / 2 ^ 16 % 4) ((s.S b).toNat % 65536) (s.S a).toNat)) ∧
     (s.ctxTarget (s.S a) = some th → (s.advance (.ctxsv a t b u)).recordOwned (s.S b).toNat = true →
       Does s (.ctxsv a t b u) (fun r => (r.withdrawHeld th).writeRecord th (s.S b).toNat)) ∧
     (s.ctxTarget (s.S a) = some th → (s.advance (.ctxld a t b u)).recordOwned (s.S b).toNat = true →
       Does s (.ctxld a t b u) (fun r => r.loadRecord th (s.S b).toNat)) ∧
     Does s (.telEv a t b u) (fun r => r.post (dieOfTh s.cur) 0x11 (s.lidOf s.cur) (coreOf s.cur) (ctxOf s.cur)
       ((s.S a).extractLsb' 0 32) ((s.S a).extractLsb' 32 32) (((s.S b).extractLsb' 0 16).setWidth 32)) ∧
     Does s .vnop id ∧
     (s.latch = none → (s.ctx s.cur).level < 2 →
       exec .iflush s = .next (s.takeTrap s.cur { cause := 0x01, tval := 1 }) ∧
       (m.toNat ≠ 3 → exec (.repart m) s = .next (s.takeTrap s.cur { cause := 0x01, tval := 1 })) ∧
       exec (.xlinv a t b u) s = .next (s.takeTrap s.cur { cause := 0x01, tval := 1 }) ∧
       exec (.ctxsv a t b u) s = .next (s.takeTrap s.cur { cause := 0x01, tval := 1 }) ∧
       exec (.ctxld a t b u) s = .next (s.takeTrap s.cur { cause := 0x01, tval := 1 })))

/-! ### Memory, queues, records and synchronisation as a thread issues them (08, 09) -/

/-- 08 R248, R257, R258, R261: a local load reads the bytes of the own scratchpad, lowest address first, extended as its
name says; any other load empties its register and asks the home of its address. An acquiring load marks its producer. 08
R257-R260: `vld` loads 16 bytes as a scalar load does; a gather reads its local lanes at once and asks the homes of the
others one by one, its producer waiting for as many results. -/
def Obligations.Loads : Prop :=
  (∀ (s : State) (d b : BitVec 5) (t : BitVec 1) (w : BitVec 2) (r : BitVec 1) (p : BitVec 12) (sc : BitVec 3) (i : Instr) (n : Nat)
     (sx ad acq : Bool),
     (i, n, sx, ad, acq) ∈ [
       (Instr.ldN8 d b t w r p, 1, false, decide (r = 1), false), (.ldN16 d b t w r p, 2, false, decide (r = 1), false),
       (.ldN32 d b t w r p, 4, false, decide (r = 1), false), (.ld64 d b t w r p, 8, false, decide (r = 1), false),
       (.ldS8 d b t w r p, 1, true, decide (r = 1), false), (.ldS16 d b t w r p, 2, true, decide (r = 1), false),
       (.ldS32 d b t w r p, 4, true, decide (r = 1), false), (.ldAcq32 d b t sc p, 4, false, false, true),
       (.ldAcq64 d b t sc p, 8, false, false, true)] →
     ∀ (a : Word) (x : Nat), a = s.S b + BitVec.ofInt 64 (p.toInt * n) →
       x = s.localRead (coreOf s.cur) (a.toNat % 2 ^ 20) n →
       (isLocal s.cur a = true → WritesThen s i d
         (if sx then BitVec.ofInt 64 (BitVec.ofNat (8 * n) x).toInt else BitVec.ofNat 64 x)
         (fun r => r.evc (coreOf s.cur) 11)) ∧
       (isLocal s.cur a = false → Does s i fun r =>
         (r.addProd (dstS d).dest 1 0 acq).sendAccess
           (s.request (.load sx) a n 0 (dstS d).dest (s.ctx s.cur).nextSeq none ad))) ∧
  (∀ (s : State) (v a b : BitVec 5) (t u x : BitVec 1) (w : BitVec 2) (r : BitVec 1) (p : BitVec 11) (z : BitVec 2),
     (∀ (e : Word), e = s.S b + BitVec.ofInt 64 (p.toInt * 16) →
       (isLocal s.cur e = true → Does s (.vld v b t w r x p) fun q =>
         (q.setV (x.toNat * 32 + v.toNat) (BitVec.ofNat 128 (s.localRead (coreOf s.cur) (e.toNat % 2 ^ 20) 16))).evc
           (coreOf s.cur) 11) ∧
       (isLocal s.cur e = false → Does s (.vld v b t w r x p) fun q =>
         (q.addProd (.v (x.toNat * 32 + v.toNat)) 1 0 false).sendAccess
           (s.request (.load false) e 16 0 (.v (x.toNat * 32 + v.toNat)) (s.ctx s.cur).nextSeq none (decide (r = 1))))) ∧
     (∀ (i : Instr) (n : Nat) (l : List (Nat × Word)),
       (i, n, l) ∈ [
         (Instr.vlds v a t b u x w r z, 2 ^ z.toNat, (List.range (16 / 2 ^ z.toNat)).map fun (k : Nat) =>
           (k, s.S a + BitVec.ofInt 64 ((k : Int) * (s.S b).toInt))),
         (.vldx v a t b u x w r, 4, (List.range 4).map fun (k : Nat) =>
           (k, s.S a + BitVec.ofInt 64 ((s.V b.toNat).extractLsb' (32 * k) 32).toInt))] →
       ∀ (far : List (Nat × Word)) (acc : VWord), far = l.filter (fun q => !isLocal s.cur q.2) →
         acc = BitVec.ofNat 128 ((l.map fun q => if isLocal s.cur q.2 then
           s.localRead (coreOf s.cur) (q.2.toNat % 2 ^ 20) n * 2 ^ (8 * n * q.1) else 0).sum) →
         (far = [] → Does s i fun q => (q.evc (coreOf s.cur) 11).setV (x.toNat * 32 + v.toNat) acc) ∧
         (far ≠ [] → Does s i fun q =>
           far.foldl (fun q k => q.sendAccess { s.request (.load false) k.2 n 0 (.v (x.toNat * 32 + v.toNat))
               (s.ctx s.cur).nextSeq none (decide (r = 1)) with lane := some k.1 })
             ((if far.length < l.length then q.evc (coreOf s.cur) 11 else q).addProd (.v (x.toNat * 32 + v.toNat)) far.length
               acc false))))

/-- 08 R248, R252, R257, R258, R261: a local store joins the store buffer with the low bytes of its register; any other is
counted in the counter of its destination class and sent to the home of its address. -/
def Obligations.Stores : Prop :=
  ∀ (s : State) (d b : BitVec 5) (t : BitVec 1) (w : BitVec 2) (r x : BitVec 1) (p : BitVec 12) (p1 : BitVec 11) (sc : BitVec 3)
    (i : Instr) (n : Nat) (disp : Int) (data : VWord) (ad : Bool),
    (i, n, disp, data, ad) ∈ [
      (Instr.st8 d b t w r p, 1, p.toInt, (s.S d).setWidth 128, decide (r = 1)),
      (.st16 d b t w r p, 2, p.toInt, (s.S d).setWidth 128, decide (r = 1)),
      (.st32 d b t w r p, 4, p.toInt, (s.S d).setWidth 128, decide (r = 1)),
      (.st64 d b t w r p, 8, p.toInt, (s.S d).setWidth 128, decide (r = 1)),
      (.stRel32 d b t sc p, 4, p.toInt, (s.S d).setWidth 128, false),
      (.stRel64 d b t sc p, 8, p.toInt, (s.S d).setWidth 128, false),
      (.vst d b t w r x p1, 16, p1.toInt, s.V (x.toNat * 32 + d.toNat), decide (r = 1))] →
    ∀ (a : Word), a = s.S b + BitVec.ofInt 64 (disp * n) →
      (isLocal s.cur a = true → Does s i fun r => (r.modCore (coreOf s.cur) fun k => { k with
        stbuf := k.stbuf ++ [{ th := s.cur, off := a.toNat % 2 ^ 20, size := n, data := data, since := k.cycle }] }).evc (coreOf s.cur) 11) ∧
      (isLocal s.cur a = false → Does s i fun r =>
        (r.takeSeq.count s.cur (classOf s.cur a)).sendAccess
          (s.request .store a n data .none (s.ctx s.cur).nextSeq (some (classOf s.cur a)) ad))

/-- 08 R266-R268, 09 R313: a presence form or `swait` sends its request at its first slot and forfeits it, counted as a
local access where its word is in the own scratchpad, else as a remote access (22 R532); it issues once the answer is there,
`stef` with no other effect, the others writing the answer. The model's choices in it: log 41. -/
def Obligations.WaitingForms : Prop :=
  ∀ (s : State) (d a b : BitVec 5) (t u : BitVec 1) (w : BitVec 2) (r : BitVec 1) (p : BitVec 12) (c : BitVec 3),
    (∀ (h : Held) (x : Word), (s.ctx s.cur).heldHere = some h → h.answer = some x →
      Writes s (.ldfe d b t w r p) d x ∧ Writes s (.ldPw d b t w r p) d x ∧ Does s (.stef d b t w r p) id ∧
        Writes s (.swait d a t b u c) d x) ∧
    (∀ (i : Instr) (q : Req) (ev : Instr), (i, q, ev) ∈ [
        (Instr.ldfe d b t w r p, s.request .ldfe (s.S b + BitVec.ofInt 64 (p.toInt * 4)) 4 0 .none (s.ctx s.cur).nextSeq none
          (decide (r = 1)), Instr.presenceRequest (s.request .ldfe (s.S b + BitVec.ofInt 64 (p.toInt * 4)) 4 0 .none
            (s.ctx s.cur).nextSeq none (decide (r = 1)))),
        (.ldPw d b t w r p, s.request .ldpw (s.S b + BitVec.ofInt 64 (p.toInt * 4)) 4 0 .none (s.ctx s.cur).nextSeq none
          (decide (r = 1)), .presenceRequest (s.request .ldpw (s.S b + BitVec.ofInt 64 (p.toInt * 4)) 4 0 .none
            (s.ctx s.cur).nextSeq none (decide (r = 1)))),
        (.stef d b t w r p, s.request .stef (s.S b + BitVec.ofInt 64 (p.toInt * 4)) 4 ((s.S d).setWidth 128) .none
          (s.ctx s.cur).nextSeq none (decide (r = 1)),
          .presenceRequest (s.request .stef (s.S b + BitVec.ofInt 64 (p.toInt * 4)) 4 ((s.S d).setWidth 128) .none
            (s.ctx s.cur).nextSeq none (decide (r = 1)))),
        (.swait d a t b u c, s.request (.swait c.toNat) (s.S a) 8 ((s.S b).setWidth 128) .none (s.ctx s.cur).nextSeq none false,
          .swaitRequest (s.request (.swait c.toNat) (s.S a) 8 ((s.S b).setWidth 128) .none (s.ctx s.cur).nextSeq none
            false))] →
      s.latch = none → s.verdict [i] = .hold →
        exec i s = .next ((((s.evc (coreOf s.cur) (if isLocal s.cur q.addr then 11 else 12)).send (routeOf q) ev).modCtx s.cur
          fun c => { c with
            held := c.held ++ [{ pc := c.pc, req := q, start := s.now }], nextSeq := c.nextSeq + 1 }).forfeit onWait))

/-- 09 R302-R305: an atomic empties its register; on the own scratchpad it is performed there, its time counted from its
first lost slot (17 R417), and any other asks the home of its address for its operation, `amo.cas` with the old value of d
to compare. -/
def Obligations.Atomics : Prop :=
  ∀ (s : State) (d a b : BitVec 5) (t u l r : BitVec 1) (w : BitVec 2) (i : Instr) (op n : Nat) (cmp : Word),
    (i, op, n, cmp) ∈ [
      (Instr.amoAdd d a t b u l r w, 0, if l = 1 then 8 else 4, 0), (.amoAnd d a t b u l r w, 1, if l = 1 then 8 else 4, 0),
      (.amoOr d a t b u l r w, 2, if l = 1 then 8 else 4, 0), (.amoXor d a t b u l r w, 3, if l = 1 then 8 else 4, 0),
      (.amoMin d a t b u l r w, 4, if l = 1 then 8 else 4, 0), (.amoMax d a t b u l r w, 5, if l = 1 then 8 else 4, 0),
      (.amoMinu d a t b u l r w, 6, if l = 1 then 8 else 4, 0), (.amoMaxu d a t b u l r w, 7, if l = 1 then 8 else 4, 0),
      (.amoSwap d a t b u l r w, 8, if l = 1 then 8 else 4, 0), (.amoCas d a t b u l r w, 9, if l = 1 then 8 else 4, s.S d),
      (.amoFaddF32 d a t b u r w, 10, 4, 0), (.amoInclt d a t b u l r w, 11, if l = 1 then 8 else 4, 0)] →
    ∀ r0, r0 = { s.request (.amo op) (s.S a) n ((s.S b).setWidth 128) (dstS d).dest (s.ctx s.cur).nextSeq none
        (decide (r = 1)) with
          cmp := cmp, start := (s.ctx s.cur).lostAt.getD (s.request (.amo op) (s.S a) n ((s.S b).setWidth 128) (dstS d).dest
            (s.ctx s.cur).nextSeq none (decide (r = 1))).start } →
      (isLocal s.cur (s.S a) = true → Does s i fun q =>
        let u := ((q.addProd (dstS d).dest 1 0 false).evc (coreOf r0.th) 11)
        let own := Place.scratch (coreOf r0.th) (r0.addr.toNat % 2 ^ 20)
        let y := amoResult r0 op (u.rd own r0.size)
        (y.1.elim u (u.wr own r0.size)).answerLoad r0 y.2.1 y.2.2) ∧
      (isLocal s.cur (s.S a) = false → Does s i fun q => (q.addProd (dstS d).dest 1 0 false).sendAccess r0)

/-- 08 R265, R281-R285: `mwait` issues when its counter is zero. A window is bound to the endpoint word of its register, an
outbound one asking its target for credits under a number of its own; it is unbound with the words of a command not
accepted; its status, its head, and pushes and pops; the configuration word of a channel buffer is read, and its write
empties the buffer. -/
def Obligations.QueueForms : Prop :=
  ∀ (s : State) (d a b v : BitVec 5) (t u x : BitVec 1) (k : BitVec 2) (w : Window),
    Does s (.mwait k) id ∧ (Issues s (.mwait k) → (s.ctx s.cur).counter k.toNat = 0) ∧
    ((s.S a).toNat / 2 ^ 62 ≠ 1 → Does s (.qbind a t k) fun r => r.setWin k.toNat (some { word := s.S a })) ∧
    ((s.S a).toNat / 2 ^ 62 = 1 → Does s (.qbind a t k) fun r =>
      ((r.takeSeq.setWin k.toNat (some { word := s.S a, answered := false, bind := (s.ctx s.cur).nextSeq })).modCtx s.cur
        fun c => { c with binds := c.binds ++ [(s.ctx s.cur).nextSeq] }).send
          (some (coreOf s.cur, (s.S a).toNat / 2 ^ 23 % 8192))
          (.bindAnswer s.cur k.toNat (s.ctx s.cur).nextSeq (s.S a))) ∧
    ((s.ctx s.cur).window k.toNat = none →
      Does s (.qunbind k) id ∧ Writes s (.qstat d k) d 0) ∧
    ((s.ctx s.cur).window k.toNat = some w →
      (w.kind = 2 → Does s (.qunbind k) fun r => (r.setWin k.toNat none).modCtx s.cur fun c => { c with
        partialCmd := put [] c.partialCmd w.sel [] }) ∧
      (w.kind ≠ 2 → Does s (.qunbind k) fun r => r.setWin k.toNat none) ∧
      Writes s (.qstat d k) d (BitVec.ofNat 64 (2 ^ 63 + w.kind * 2 ^ 61 + s.winCount s.cur w % 32)) ∧
      Writes s (.qpeek d k) d (((s.winEntries s.cur w).headD 0).setWidth 64) ∧
      Does s (.vqpush v t x k) (fun r => r.pushWin s.cur k.toNat w (s.V (x.toNat * 32 + v.toNat))) ∧
      Does s (.vqpop v x k) (fun r => (r.setV (x.toNat * 32 + v.toNat) ((s.winEntries s.cur w).headD 0)).popWin s.cur w)) ∧
    Writes s (.qcfgr d a t) d (get {} (s.core (coreOf s.cur)).chans ((s.S a).toNat % 16)).conf ∧
    Does s (.qcfgw a t b u) (fun r => r.modCore (coreOf s.cur) fun c => { c with
      chans := put {} c.chans ((s.S a).toNat % 16) { conf := s.S b &&& 0x800000FFFF80000F, entries := [] } })

/-- 09 R295-R301, 11 R386, R387: tags are put together and taken apart; the generation, the occupancy and the coverage items
of the thread's launch are read, all zero without a launch; an insert sends its record on its way, a record of a by-keys
kind to the quad of its home (02 R37), or, whatever its home is, behind the records of its core that wait for a walk (log
46: 02 R580 and 09 R299 order those of one source to one home). The model's choices in it: log 38, 46. -/
def Obligations.TagsAndRecords : Prop :=
  ∀ (s : State) (d a b : BitVec 5) (t u : BitVec 1) (f i : BitVec 3) (lid : Nat) (l : Launch),
    Writes s (.ttag d a t b u) d (BitVec.ofNat 64 ((s.S a).toNat % 2 ^ 16 * 2 ^ 48 + (s.S b).toNat % 2 ^ 48)) ∧
    Writes s (.tfld d a t f) d (BitVec.ofNat 64 (if f = 0 then (s.S a).toNat / 2 ^ 56
      else if f = 1 then (s.S a).toNat / 2 ^ 48 % 256 else (s.S a).toNat / 2 ^ (16 * (4 - f.toNat)) % 65536)) ∧
    (s.lidOf s.cur = none → Writes s (.tgen d) d 0 ∧ Writes s (.covQ d a t) d 0 ∧ Writes s (.covRd d i) d 0) ∧
    Writes s (.poolCnt d) d (s.poolWord s.cur) ∧
    (s.lidOf s.cur = some lid → s.launch lid = some l →
      Writes s (.tgen d) d (BitVec.ofNat 64 l.gen) ∧
      Writes s (.covQ d a t) d (l.covQuery ⟨(s.S a).toNat / 2 ^ 32 % 65536, (s.S a).toNat / 65536 % 65536,
        (s.S a).toNat % 65536⟩) ∧
      Writes s (.covRd d i) d (BitVec.ofNat 64 (l.covItem i.toNat)) ∧
      Does s (.tins a t b u) (fun r => r.insertRecord (coreOf s.cur) (dieOfTh s.cur) s.cur (s.who s.cur) lid
        ⟨s.S a, s.S b⟩ none) ∧
      Does s (.tinsd a t b u) (fun r => r.insertRecord (coreOf s.cur) (dieOfTh s.cur) s.cur (s.who s.cur) lid
        ⟨s.S a, s.S b⟩ none) ∧
      (∀ (k : Kind) (x : Rec) (q : Nat), l.kind x.kind = some k → k.page = false →
        q = x.key k.f1 / 2 ^ k.h1 % l.gx + l.gx * (if k.f2 = 3 then 0 else x.key k.f2 / 2 ^ k.h2 % l.gy) →
        s.sourceWaits (dieOfTh s.cur) (2 * coreOf s.cur + 1) = false →
        s.insertRecord (coreOf s.cur) (dieOfTh s.cur) s.cur (s.who s.cur) lid x none =
          (s.modLaunch lid fun l => { l with sent := l.sent + 1 }).send
            (some (coreOf s.cur, endFret (s.quadOfLq l q)))
            (.recordArrival { lid := lid, quad := s.quadOfLq l q, lq := q, record := x, marks := none })) ∧
      (∀ (k : Kind) (x : Rec), l.kind x.kind = some k → s.sourceWaits (dieOfTh s.cur) (2 * coreOf s.cur + 1) = true →
        s.insertRecord (coreOf s.cur) (dieOfTh s.cur) s.cur (s.who s.cur) lid x none = s.modDie (dieOfTh s.cur) fun d =>
          { d with walks := d.walks ++ [.insert (coreOf s.cur) s.cur lid (s.who s.cur).level x none] }))

/-- 09 R307-R312, R318-R320: posted sync operations leave counted by the class of their word; a barrier arrival raises the
lead and travels to the node of its level; `barr.wait` issues with the lead at 0; `barr.sync` arrives at its first slot,
forfeits it, and issues once the lead is 0. The model's choices in it: log 39, 41. -/
def Obligations.SyncForms : Prop :=
  ∀ (s : State) (a b : BitVec 5) (t u : BitVec 1) (l : BitVec 3) (n : BitVec 6),
    (∀ (i : Instr) (op : ReqOp) (x : Word) (ev : Req → Instr),
      (i, op, x, ev) ∈ [
        (Instr.joinInit a t b u, ReqOp.joinInit, s.S b &&& 0x1FFFFFFFFF, Instr.syncWordUpdate),
        (.joinArrive a t b u, .joinArrive, s.S b &&& 0xFFFFFFFF, .joinArrival),
        (.ssigSet a t b u, .ssigSet, s.S b, .syncWordUpdate), (.ssigAdd a t b u, .ssigAdd, s.S b, .syncWordUpdate)] →
      Does s i fun r =>
        ((r.takeSeq.count s.cur (classOf s.cur (s.S a))).evc (coreOf s.cur) 12).send
          (some (coreOf s.cur, homeOf (s.S a) none))
          (ev (s.request op (s.S a) 8 (x.setWidth 128) .none (s.ctx s.cur).nextSeq (some (classOf s.cur (s.S a))) false))) ∧
    Does s (.barrArr l n) (fun r => r.arrive l.toNat n.toNat none) ∧
    Does s (.barrWait l n) id ∧ Does s (.barrSync l n) id ∧ Does s (.barrSyncCmb a t l n) id ∧
    (Issues s (.barrWait l n) ∨ Issues s (.barrSync l n) ∨ Issues s (.barrSyncCmb a t l n) →
      (s.ctx s.cur).lead l.toNat n.toNat = 0) ∧
    (s.latch = none → s.verdict [.barrSync l n] = .hold → exec (.barrSync l n) s =
      .next (((s.arrive l.toNat n.toNat none).modCtx s.cur fun c => { c with synced := some c.pc }).forfeit onWait)) ∧
    (s.latch = none → s.verdict [.barrSyncCmb a t l n] = .hold → exec (.barrSyncCmb a t l n) s =
      .next (((s.arrive l.toNat n.toNat (some (s.S a))).modCtx s.cur fun c => { c with synced := some c.pc }).forfeit
        onWait))

/-! ### Vector instructions (07 R219-R238, 04) -/

/-- 07 R224, R230-R232: bitwise operations, select by mask, byte shuffle, the CRC-32C of sixteen bytes, and lane moves.
`vsplat` and `vins` write the low bits of a scalar to every lane and to one lane; `vext` takes one lane out, sign-extended
for a signed integer type. -/
def Obligations.VectorMoves : Prop :=
  ∀ (s : State) (d a b : BitVec 6) (t u : BitVec 1) (r : BitVec 5) (y : BitVec 6) (i : BitVec 5),
    WritesV s (.vand d a t b u) d.toNat (s.V a.toNat &&& s.V b.toNat) [] ∧
    WritesV s (.vor d a t b u) d.toNat (s.V a.toNat ||| s.V b.toNat) [] ∧
    WritesV s (.vxor d a t b u) d.toNat (s.V a.toNat ^^^ s.V b.toNat) [] ∧
    WritesV s (.vandn d a t b u) d.toNat (s.V a.toNat &&& ~~~s.V b.toNat) [] ∧
    WritesV s (.vsel d a t b u) d.toNat ((s.V a.toNat &&& s.V d.toNat) ||| (s.V b.toNat &&& ~~~s.V d.toNat)) [] ∧
    WritesV s (.vmov d a t) d.toNat (s.V a.toNat) [] ∧
    WritesLanes s (.vshuf d a t b u) d.toNat 8 (fun k =>
      (if 128 ≤ lane 8 (s.V b.toNat) k then 0 else lane 8 (s.V a.toNat) (lane 8 (s.V b.toNat) k % 16), [])) ∧
    WritesV s (.vcrc d a t) d.toNat (BitVec.ofNat 128 ((List.range 128).foldl
      (fun (c : BitVec 32) k => let c1 := if k % 8 = 0 then c ^^^ BitVec.ofNat 32 (lane 8 (s.V a.toNat) (k / 8)) else c
        if c1.getLsbD 0 then c1 >>> 1 ^^^ 0x82F63B78 else c1 >>> 1) (BitVec.ofNat 32 (s.V d.toNat).toNat)).toNat) [] ∧
    (moveLane y = true →
      WritesLanes s (.vsplat d r t y) d.toNat (fmtWidth y) (fun _ => ((s.SV r).toNat % 2 ^ fmtWidth y, [])) ∧
      WritesLanes s (.vins d r t y i) d.toNat (fmtWidth y) (fun k =>
        (if k = i.toNat then (s.SV r).toNat % 2 ^ fmtWidth y else lane (fmtWidth y) (s.V d.toNat) k, [])) ∧
      DoesV s (.vext r a t y i) fun q => q.setSV r.toNat
        (if 9 ≤ y.toNat ∧ y.toNat ≤ 12 then
          BitVec.ofInt 64 (BitVec.ofNat (fmtWidth y) (lane (fmtWidth y) (s.V a.toNat) i.toNat)).toInt
         else BitVec.ofNat 64 (lane (fmtWidth y) (s.V a.toNat) i.toNat)))

/-- 07 R222, R223, R227, R228 for integer lane types: arithmetic wraps to the lane, comparisons and the lesser and greater
read the lane as its type does, shifts fill as named, a reduction leaves the sum, least or greatest of the lanes in lane 0
and zero in the others, and no condition counts. -/
def Obligations.IntegerLanes : Prop :=
  ∀ (s : State) (d a b : BitVec 6) (t u : BitVec 1) (y : BitVec 6) (n : BitVec 7) (w : Nat) (v : Nat → Int) (A B D : Nat → Nat),
    intLane y = true → w = fmtWidth y →
    (∀ c, v c = if 9 ≤ y.toNat then (BitVec.ofNat w c).toInt else ((c % 2 ^ w : Nat) : Int)) →
    A = lane w (s.V a.toNat) → B = lane w (s.V b.toNat) → D = lane w (s.V d.toNat) →
      WritesLanes s (.vadd d a t b u y) d.toNat w (fun k => ((A k + B k) % 2 ^ w, [])) ∧
      WritesLanes s (.vsub d a t b u y) d.toNat w (fun k => ((A k + 2 ^ w - B k) % 2 ^ w, [])) ∧
      WritesLanes s (.vmul d a t b u y) d.toNat w (fun k => (A k * B k % 2 ^ w, [])) ∧
      WritesLanes s (.vmin d a t b u y) d.toNat w (fun k => (if v (B k) < v (A k) then B k else A k, [])) ∧
      WritesLanes s (.vmax d a t b u y) d.toNat w (fun k => (if v (A k) < v (B k) then B k else A k, [])) ∧
      WritesLanes s (.vabs d a t y) d.toNat w (fun k => (if v (A k) < 0 then 2 ^ w - A k else A k, [])) ∧
      WritesLanes s (.vneg d a t y) d.toNat w (fun k => ((2 ^ w - A k) % 2 ^ w, [])) ∧
      WritesLanes s (.vclamp d a t b u y) d.toNat w (fun k =>
        (if v (D k) < v (A k) then (if v (B k) < v (A k) then B k else A k)
         else if v (B k) < v (D k) then B k else D k, [])) ∧
      WritesLanes s (.vceq d a t b u y) d.toNat w (fun k => (if A k = B k then 2 ^ w - 1 else 0, [])) ∧
      WritesLanes s (.vcne d a t b u y) d.toNat w (fun k => (if A k = B k then 0 else 2 ^ w - 1, [])) ∧
      WritesLanes s (.vclt d a t b u y) d.toNat w (fun k => (if v (A k) < v (B k) then 2 ^ w - 1 else 0, [])) ∧
      WritesLanes s (.vcle d a t b u y) d.toNat w (fun k => (if v (A k) ≤ v (B k) then 2 ^ w - 1 else 0, [])) ∧
      WritesLanes s (.vsll d a t y n) d.toNat w (fun k => (A k * 2 ^ n.toNat % 2 ^ w, [])) ∧
      WritesLanes s (.vsrl d a t y n) d.toNat w (fun k => (A k / 2 ^ n.toNat, [])) ∧
      WritesLanes s (.vsra d a t y n) d.toNat w (fun k =>
        (((BitVec.ofNat w (A k)).sshiftRight n.toNat).toNat, [])) ∧
      WritesLanes s (.vredadd d a t y) d.toNat w (fun k =>
        (if k = 0 then ((List.range (128 / w)).map A).sum % 2 ^ w else 0, [])) ∧
      (∃ j < 128 / w, (∀ m < 128 / w, v (A j) ≤ v (A m)) ∧
        WritesLanes s (.vredmin d a t y) d.toNat w (fun k => (if k = 0 then A j else 0, []))) ∧
      (∃ j < 128 / w, (∀ m < 128 / w, v (A m) ≤ v (A j)) ∧
        WritesLanes s (.vredmax d a t y) d.toNat w (fun k => (if k = 0 then A j else 0, [])))

/-- 07 R222, R223, R229 and 04 R138, R144: for a float lane type with its rounding, sums, differences, products and fused
products are the one rounding of the exact value of 04 R138 (`vfma` adds and `vfms` subtracts the old lane of d; a NaN among
the three operands hides the condition of a product of 0 and infinity, log 21); the lesser, the greater, the clamp, the sign
operations and the comparisons follow 04 R144; `vscale` rounds the lane times a power of 2. The model's choices in it: log
21. -/
def Obligations.FloatLanes : Prop :=
  ∀ (s : State) (d a b : BitVec 6) (t u : BitVec 1) (y : BitVec 6) (n : BitVec 7) (f : FloatFmt) (m : Nat) (A B D : Nat → Nat)
    (v : Nat → Val),
    laneFloat y = some (f, m) → A = lane f.bits (s.V a.toNat) → B = lane f.bits (s.V b.toNat) →
    D = lane f.bits (s.V d.toNat) → v = valFloat f →
      WritesLanes s (.vadd d a t b u y) d.toNat f.bits (fun k =>
        roundOp f m ((v (A k)).add m (v (B k))) ((v (A k)).isNan || (v (B k)).isNan)) ∧
      WritesLanes s (.vsub d a t b u y) d.toNat f.bits (fun k =>
        roundOp f m ((v (A k)).add m (v (B k)).neg) ((v (A k)).isNan || (v (B k)).isNan)) ∧
      WritesLanes s (.vmul d a t b u y) d.toNat f.bits (fun k =>
        roundOp f m ((v (A k)).mul (v (B k))) ((v (A k)).isNan || (v (B k)).isNan)) ∧
      WritesLanes s (.vfma d a t b u y) d.toNat f.bits (fun k =>
        let p := (v (A k)).mul (v (B k))
        roundOp f m ((p.1.add m (v (D k))).1, p.2 || (p.1.add m (v (D k))).2)
          ((v (A k)).isNan || (v (B k)).isNan || (v (D k)).isNan)) ∧
      WritesLanes s (.vfms d a t b u y) d.toNat f.bits (fun k =>
        let p := (v (A k)).mul (v (B k))
        roundOp f m ((p.1.add m (v (D k)).neg).1, p.2 || (p.1.add m (v (D k)).neg).2)
          ((v (A k)).isNan || (v (B k)).isNan || (v (D k)).isNan)) ∧
      WritesLanes s (.vmin d a t b u y) d.toNat f.bits (fun k => (fMin f (A k) (B k), [])) ∧
      WritesLanes s (.vmax d a t b u y) d.toNat f.bits (fun k => (fMax f (A k) (B k), [])) ∧
      WritesLanes s (.vclamp d a t b u y) d.toNat f.bits (fun k => (fMin f (fMax f (D k) (A k)) (B k), [])) ∧
      WritesLanes s (.vabs d a t y) d.toNat f.bits (fun k =>
        (if (v (A k)).isNan then f.nanCode else A k % 2 ^ (f.bits - 1), [])) ∧
      WritesLanes s (.vneg d a t y) d.toNat f.bits (fun k =>
        (if (v (A k)).isNan then f.nanCode else (A k + 2 ^ (f.bits - 1)) % 2 ^ f.bits, [])) ∧
      WritesLanes s (.vceq d a t b u y) d.toNat f.bits (fun k =>
        (if (v (A k)).eq (v (B k)) then 2 ^ f.bits - 1 else 0, [])) ∧
      WritesLanes s (.vcne d a t b u y) d.toNat f.bits (fun k =>
        (if (v (A k)).eq (v (B k)) then 0 else 2 ^ f.bits - 1, [])) ∧
      WritesLanes s (.vclt d a t b u y) d.toNat f.bits (fun k =>
        (if (v (A k)).lt (v (B k)) then 2 ^ f.bits - 1 else 0, [])) ∧
      WritesLanes s (.vcle d a t b u y) d.toNat f.bits (fun k =>
        (if (v (A k)).lt (v (B k)) || (v (A k)).eq (v (B k)) then 2 ^ f.bits - 1 else 0, [])) ∧
      WritesLanes s (.vscale d a t y n) d.toNat f.bits (fun k => roundIeee f 0 ((v (A k)).scale n.toInt))

/-- 04 R131, R135: a value that a code of f16, bf16 or f32 has rounds back to that code, in every rounding, and no condition
arises; only a NaN comes back as the one canonical NaN. -/
def Obligations.RoundingIsExact : Prop :=
  ∀ (f : FloatFmt) (m c : Nat), (f = f16 ∨ f = bf16 ∨ f = f32) → c < 2 ^ f.bits →
    roundIeee f m (valFloat f c) = (if (valFloat f c).isNan then f.nanCode else c, [])

/-- 07 R225, R226, R233-R236: dot products, conversions, packing and unpacking. `vdot4.s8` saturates its exact sum and
counts overflow when it does; `vcvt` converts as many elements as the wider format has, the scaled form times 2 to the power
of its scale, and zeroes the rest; `vpack` narrows the lanes of the old d and of a, `vunpack` widens one half. -/
def Obligations.DotsAndConversions : Prop :=
  ∀ (s : State) (d a b : BitVec 6) (t u h o : BitVec 1) (r : BitVec 2) (y g f : BitVec 6) (k : BitVec 10) (A B D : VWord),
    A = s.V a.toNat → B = s.V b.toNat → D = s.V d.toNat →
      WritesLanes s (.vdot2F16 d a t b u r) d.toNat 32 (fun j =>
        dot2 r.toNat (lane 16 A (2 * j)) (lane 16 B (2 * j)) (lane 16 A (2 * j + 1)) (lane 16 B (2 * j + 1)) (lane 32 D j)) ∧
      (∀ sum : Nat → Int, (∀ j, sum j = (BitVec.ofNat 32 (lane 32 D j)).toInt +
          ((List.range 4).map fun q => (BitVec.ofNat 8 (lane 8 A (4 * j + q))).toInt *
            (BitVec.ofNat 8 (lane 8 B (4 * j + q))).toInt).sum) →
        WritesLanes s (.vdot4S8 d a t b u) d.toNat 32 (fun j =>
          if sum j < -2 ^ 31 then (2 ^ 31, [kOVF]) else if 2 ^ 31 ≤ sum j then (2 ^ 31 - 1, [kOVF])
          else ((BitVec.ofInt 32 (sum j)).toNat, []))) ∧
      (fmtCode g = true → fmtCode f = true →
        (∀ conv : Nat → Nat × List Nat,
          (∀ j, conv j = if j < 128 / max (fmtWidth g) (fmtWidth f) then
            convert g r.toNat (o = 1) (valOf f (lane (fmtWidth f) A j)) else (0, [])) →
          WritesLanes s (.vcvt r d a t g f o) d.toNat (fmtWidth g) conv) ∧
        (∀ conv : Nat → Nat × List Nat,
          (∀ j, conv j = if j < 128 / max (fmtWidth g) (fmtWidth f) then
            convert g r.toNat (o = 1) ((valOf f (lane (fmtWidth f) A j)).scale k.toInt) else (0, [])) →
          WritesLanes s (.vcvtScaled k r d a t g f o) d.toNat (fmtWidth g) conv)) ∧
      (packCode y = true → ∀ (wide : BitVec 6) (n : Nat), wide = (if y = 0 then 1 else if y = 8 then 9 else 17) →
        n = 128 / fmtWidth wide →
        WritesLanes s (.vpack d a t y) d.toNat (fmtWidth y) (fun j =>
          convert y 0 false (valOf wide (if j < n then lane (fmtWidth wide) D j else lane (fmtWidth wide) A (j - n)))) ∧
        WritesLanes s (.vunpack d a t h y) d.toNat (fmtWidth wide) (fun j =>
          ((convert wide 0 false (valOf y (lane (fmtWidth y) A (h.toNat * n + j)))).1, [])))

/-- 07 R227 for float lane types: the sum of a reduction is formed pair by pair over neighbouring lanes, level by level,
each node one rounding (04 R139); the least and the greatest likewise; the result is in lane 0 and the other lanes are zero. -/
def Obligations.FloatReductions : Prop :=
  ∀ (s : State) (d a : BitVec 6) (t : BitVec 1) (y : BitVec 6) (f : FloatFmt) (m : Nat) (A : Nat → Nat),
    laneFloat y = some (f, m) → A = lane f.bits (s.V a.toNat) →
      (f.bits = 32 → ∀ p q e : Nat × List Nat, p = fAdd f m (A 0) (A 1) → q = fAdd f m (A 2) (A 3) → e = fAdd f m p.1 q.1 →
        ∃ x, WritesV s (.vredadd d a t y) d.toNat x (p.2 ++ q.2 ++ e.2) ∧ lane 32 x 0 = e.1 ∧
          lane 32 x 1 = 0 ∧ lane 32 x 2 = 0 ∧ lane 32 x 3 = 0) ∧
      (f.bits = 16 → ∀ (p q : Nat → Nat × List Nat) (e : Nat × List Nat),
        (∀ j, p j = fAdd f m (A (2 * j)) (A (2 * j + 1))) → (∀ j, q j = fAdd f m (p (2 * j)).1 (p (2 * j + 1)).1) →
        e = fAdd f m (q 0).1 (q 1).1 →
        ∃ x, WritesV s (.vredadd d a t y) d.toNat x
            ((p 0).2 ++ (p 1).2 ++ (p 2).2 ++ (p 3).2 ++ (q 0).2 ++ (q 1).2 ++ e.2) ∧
          ∀ j < 8, lane 16 x j = if j = 0 then e.1 else 0) ∧
      (f.bits = 32 → WritesLanes s (.vredmin d a t y) d.toNat 32 (fun k =>
        (if k = 0 then fMin f (fMin f (A 0) (A 1)) (fMin f (A 2) (A 3)) else 0, [])) ∧
        WritesLanes s (.vredmax d a t y) d.toNat 32 (fun k =>
        (if k = 0 then fMax f (fMax f (A 0) (A 1)) (fMax f (A 2) (A 3)) else 0, []))) ∧
      (f.bits = 16 → WritesLanes s (.vredmin d a t y) d.toNat 16 (fun k =>
        (if k = 0 then fMin f (fMin f (fMin f (A 0) (A 1)) (fMin f (A 2) (A 3)))
          (fMin f (fMin f (A 4) (A 5)) (fMin f (A 6) (A 7))) else 0, [])) ∧
        WritesLanes s (.vredmax d a t y) d.toNat 16 (fun k =>
        (if k = 0 then fMax f (fMax f (fMax f (A 0) (A 1)) (fMax f (A 2) (A 3)))
          (fMax f (fMax f (A 4) (A 5)) (fMax f (A 6) (A 7))) else 0, [])))

/-- 07 R237, R238: a special function is a long-latency producer. Its result, every lane the correctly rounded value of 04
R142, R143 with nearest-even, comes back as a LOAD_RESULT that carries the conditions. The model's choices in it: log 14. -/
def Obligations.SpecialFunctions : Prop :=
  ∀ (s : State) (d a : BitVec 6) (t : BitVec 1) (y : BitVec 6) (f : FloatFmt) (m : Nat) (i : Instr) (g : Val → Val × List Nat),
    laneFloat y = some (f, m) →
    (i, g) ∈ [(Instr.rcp d a t y, sfRcp), (.rsqrt d a t y, sfRsqrt), (.sqrt d a t y, sfSqrt), (.exp2 d a t y, sfExp2),
      (.log2 d a t y, sfLog2), (.tanh d a t y, sfTanh)] →
    ∃ x, (∀ k < 128 / f.bits, lane f.bits x k = (sfResult f (g (valFloat f (lane f.bits (s.V a.toNat) k)))).1) ∧
      DoesV s i fun q => (q.addProd (.v d.toNat) 1 0 false).send none (.loadResult {
        th := s.cur, seq := (s.ctx s.cur).nextSeq, dst := .v d.toNat, lane := none, size := 16, value := x
        conds := (List.range (128 / f.bits)).flatMap fun k =>
          (sfResult f (g (valFloat f (lane f.bits (s.V a.toNat) k)))).2
        ends := some { start := q.now, addr := 0, pa := 0, kind := 3, lid := q.lidOf s.cur } })

/-! ### Engine commands (10, 11 R388) -/

/-- 10 R342-R344, R347: `mx.cfg` sets the two formats, matrix formats both of floats or both of integers; `mx.ldst` fills
the shadow plane of the columns owned, row by row, with the tensor's elements converted to the stationary format, to nearest
and saturating, or with zero outside it, and sets the plane's scale; `mx.swap` changes the planes; `mx.zero` clears the
tiles of its mask within the columns owned, element by element, with their recorded scales. The model's choices in it: log
11, 28, 29. -/
def Obligations.MatrixCommands : Prop :=
  ∀ (s : State) (c : Cmd) (t : Tensor) (a b : BitVec 6) (c0 n : Nat) (inside : Nat → Bool),
    s.mxCols c.lid = (c0, n) → s.tdOf c (bits c.spec 5 0) = t →
    a = BitVec.ofNat 6 (bits c.spec 5 0) → b = BitVec.ofNat 6 (bits c.spec 11 6) →
    (∀ e, inside e = (decide (e % n < t.extent 0) && decide (e / n < t.extent 1))) →
      Runs s (.mxCfg c) c (if matrixFormat a && matrixFormat b && intCode a = intCode b then 0 else eCONFIG) id 0
        (fun _ r => .ok r) (fun r => (r.modMx c fun m => { m with afmt := some a, sfmt := some b }).doneCmd c) ∧
      (c.op = 0x02 → ∃ f, Runs s (.mxLdst c) c (if (s.mx c).sfmt = none then eCONFIG else 0) id (64 * n * 2) f
          (fun r => (r.modMx c fun m => { m with
            kstat := put 0 m.kstat (1 - m.active) ((r.tdOf c (bits c.spec 5 0)).base + sbits c.spec 13 6) }).doneCmd c) ∧
        Elements c 1 f (fun r => r.mxCols c.lid = (c0, n) ∧ r.tdOf c (bits c.spec 5 0) = t)
          (fun e _ r => if inside e then
            r.rdElem c (nearOrGlobal c.place) (BitVec.ofNat 64 (c.word 1)) (e / n * t.stride 1 + e % n * t.width) t.width
            else .ok (r, 0))
          (fun e l r => .ok (r.wr (planePlace c.place (1 - (r.mx c).active) (e / n) (c0 + e % n)) 2
            (if inside e then (convert ((r.mx c).sfmt.getD 0) 0 false (valOf t.fmt (l.headD 0))).1 else 0)))) ∧
      Runs s (.mxSwap c) c 0 id 0 (fun _ r => .ok r)
        (fun r => (r.modMx c fun m => { m with active := 1 - m.active }).doneCmd c) ∧
      (∀ tiles, tiles = (List.range 4).filter (fun k => bits c.spec k k = 1) →
        ∃ f, Runs s (.mxZero c) c 0 id (tiles.length * (64 * n)) f (fun r => (r.modMx c fun m => { m with
            scales := tiles.foldl (fun z k => put 0 z k 0) m.scales }).doneCmd c) ∧
          ∀ (i row col : Nat) (r : State), r.mxCols c.lid = (c0, n) → i < tiles.length → row < 64 → col < n →
            f (i * (64 * n) + row * n + col) r = .ok (r.wr (accPlace c.place (tiles.getD i 0) row (c0 + col)) 4 0))

/-- 10 R346, 04 R136: `mx.stream` reads the rows of its tensor, operand by operand; element j of row i of its tiles becomes,
or with accumulate adds, the sum over k of operand (i, k) times stationary (k, j) at the sum of the scales, and the
conditions of each element count. Operands of another format than the engine's do not match, and an integer sum keeps the
scale of its tile. 04 R137: the sum of integer products is exact; it saturates at 32 bits where it is added to an
accumulator, counting an overflow. The model's choices in it: log 11, 21, 28. -/
def Obligations.MatrixStream : Prop :=
  (∀ (s : State) (c : Cmd) (t : Tensor) (c0 n : Nat) (a : BitVec 6) (e : Nat),
     s.mxCols c.lid = (c0, n) → s.tdOf c (bits c.spec 18 13) = t → a = (s.mx c).afmt.getD 0 →
     e = (if (s.mx c).afmt = none then eCONFIG else if t.fmt ≠ a then eMISMATCH
       else if intCode a = true ∧ bits c.spec 11 11 = 1 ∧ (∃ k ∈ streamTiles c, get 0 (s.mx c).scales k ≠
         t.base + sbits c.spec 26 19 + get 0 (s.mx c).kstat
           (if bits c.spec 12 12 = 1 then 1 - (s.mx c).active else (s.mx c).active)) then eSCALE
       else 0) →
       ∃ f fin, Runs s (.mxStream c) c e
           (fun r => if bits c.spec 12 12 = 1 then r.modMx c fun m => { m with active := 1 - m.active } else r)
           ((bits c.spec 8 0 + 1) * (64 + n)) f fin ∧
         ∀ r : State, r.mxCols c.lid = (c0, n) → r.tdOf c (bits c.spec 18 13) = t →
           let m := r.mx c
           let scale : Int := t.base + sbits c.spec 26 19 + get 0 m.kstat m.active
           (fin r = (if intCode (m.afmt.getD 0) = true ∧ bits c.spec 11 11 = 0 then
             r.modMx c fun m => { m with scales := (streamTiles c).foldl (fun z k => put 0 z k scale) m.scales }
             else r).doneCmd c) ∧
           (∀ i j, j < 64 → f (i * (64 + n) + j) r =
             (r.rdElem c (nearOrGlobal c.place) (BitVec.ofNat 64 (c.word 1) + BitVec.ofNat 64 (i * t.stride 1 / 8)) (j * t.width)
               t.width).map fun x => x.1.hold c j x.2) ∧
           ∀ i j, j < n → f (i * (64 + n) + (64 + j)) r = .ok (
             let p := accPlace c.place (bits c.spec 10 9 + i / 64) (i % 64) (c0 + j)
             let acts := r.heldOf c
             let stats := (List.range 64).map fun k => r.rd (planePlace c.place m.active k (c0 + j)) 2
             let old := if bits c.spec 11 11 = 1 then some (r.rd p 4) else none
             let y := if intCode (m.afmt.getD 0) then macInt (m.afmt.getD 0) (m.sfmt.getD 0) acts stats old
               else macFloat (m.afmt.getD 0) (m.sfmt.getD 0) scale acts stats old
             (r.wr p 4 y.1).countCmd c y.2)) ∧
  (∀ (a b : BitVec 6) (g h : IntFmt) (acts stats : List Nat) (x : Nat), intFmt a = some g → intFmt b = some h →
     let sum := ((acts.zip stats).map fun p => valInt g p.1 * valInt h p.2).foldl (· + ·) 0
     let top : Int := valInt ⟨32, true⟩ x + sum
     (macInt a b acts stats none).1 = (sum % 2 ^ 32).toNat ∧ (macInt a b acts stats none).2 = [] ∧
       valInt ⟨32, true⟩ (macInt a b acts stats (some x)).1 = max (-2 ^ 31) (min (2 ^ 31 - 1) top) ∧
       ((macInt a b acts stats (some x)).2 = if -2 ^ 31 ≤ top ∧ top < 2 ^ 31 then [] else [kOVF]))

/-- 10 R348-R350: `mx.drain` takes its accumulator rows through the epilogue, with the element of the bias, to the target,
row by row, and then sends its closure: none; a wake message to the core named, the drain ending when that is accepted; or
an insert. A closure that its checks refuse fails the drain, with the number of elements drained as its detail (log 28). The
model's choices in it: log 11, 28, 29, 56. -/
def Obligations.MatrixDrain : Prop :=
  ∀ (s : State) (c : Cmd) (c0 n p total : Nat), s.mxCols c.lid = (c0, n) → c.op = 0x06 → p = 1 + bits c.spec 27 27 →
    total = (bits c.spec 7 2 + 1) * n →
    ∃ f fin, Runs s (.mxDrain c) c (if (s.mx c).afmt = none then eCONFIG else 0) id (total * (p + 1)) f fin ∧
      Elements c p f (fun r => r.mxCols c.lid = (c0, n))
        (fun e j r => if j = 0 then
            .ok (r, r.rd (accPlace c.place (bits c.spec 1 0) (bits c.spec 13 8 + e / n) (c0 + e % n)) 4)
          else r.rdElem c (nearQuad c.place) (BitVec.ofNat 64 (c.word 3)) (32 * (c0 + e % n)) 32)
        (fun e l r =>
          let w := fmtWidth (BitVec.ofNat 6 (bits c.spec 19 14))
          let y := epilogue (intCode ((r.mx c).afmt.getD 0)) (get 0 (r.mx c).scales (bits c.spec 1 0)) c (l.getD 0 0) (l.getD 1 0)
          (r.wrElem c inScratch (BitVec.ofNat 64 (c.word 1) + BitVec.ofNat 64 (e / n * bits (c.word 2) 15 0)) (e % n * w) w
            y.1).map fun u => u.countCmd c y.2) ∧
      ∀ (r : State) (k : Nat), r.mxCols c.lid = (c0, n) → k = 3 + bits c.spec 27 27 →
        (bits c.spec 26 25 = 0 → fin r = r.doneCmd c) ∧
        (bits c.spec 26 25 = 1 →
          (r.wakeTarget c.lid c.level (BitVec.ofNat 64 (c.word 1)) = none → fin r = r.endCmd c ⟨2, eACCESS, total⟩) ∧
          ∀ core, r.wakeTarget c.lid c.level (BitVec.ofNat 64 (c.word 1)) = some core →
            fin r = ((r.modRun c fun x => x.goes (total * (p + 1))).unlockCmd c.th c.seq).send
              (some (endEngine c.unit c.place, core)) (.wakeMessage {
                core := core, entry := BitVec.ofNat 64 (c.word k)
                args := [BitVec.ofNat 64 (c.word (k + 1)), BitVec.ofNat 64 (c.word (k + 2)),
                  BitVec.ofNat 64 (c.word (k + 3)), BitVec.ofNat 64 (c.word (k + 4))]
                level := c.level, h := false, lid := c.lid, sender := .engine c.th c.unit c.seq, since := r.hub.cycle })) ∧
        (2 ≤ bits c.spec 26 25 → ∀ x : Rec, x = ⟨BitVec.ofNat 64 (c.word k), BitVec.ofNat 64 (c.word (k + 1))⟩ →
          (∀ lid, c.lid = some lid → r.recordFault c.lid x = none →
            fin r = (r.insertRecord (endEngine c.unit c.place) (dieOfTh c.th) c.th (whoCmd c) lid x none).doneCmd c) ∧
          (c.lid = none ∨ r.recordFault c.lid x ≠ none → fin r = r.endCmd c ⟨2, eACCESS, total⟩))

/-- 10 R351, R352, R355, R356: `cp.copy` converts every element of its source in row-major order; `cp.gather` and
`cp.scatter` follow an index list; `cp.fill` writes the low bits of its word to every element. Each element is read, and
then written, at steps of their own. 10 R353, R354: `cp.mcast` starts with every destination at its first element, and takes
the steps that its turn grants it, each towards a destination that has not failed, is not written in full and waits for no
page: the one that the turn names, or one least far on (log 11). A step reads an element, or writes it; a failure ends its
destination alone, and a page that must be walked holds up its destination alone. When no destination is left the outcome
says which were written in full. The model's choices in it: log 11. -/
def Obligations.CopyCommands : Prop :=
  (∀ (s : State) (c : Cmd),
     (c.op = 0x10 → ∃ f, Runs s (.cpCopy c) c 0 id ((s.tdOf c (bits c.spec 5 0)).count * 2) f (fun r => r.doneCmd c) ∧
       ∀ (a b : Tensor), Elements c 1 f (fun r => r.tdOf c (bits c.spec 5 0) = a ∧ r.tdOf c (bits c.spec 11 6) = b)
         (fun e _ r => r.rdElem c inCopy (BitVec.ofNat 64 (c.word 1)) (a.bitOff e) a.width)
         (fun e l r =>
           let scale : Int := a.base + sbits (c.word 3) 7 0 + sbits c.spec 25 16 - (b.base + sbits (c.word 3) 15 8)
           let out := convert b.fmt (bits c.spec 13 12) (bits c.spec 14 14 = 1) ((valOf a.fmt (l.headD 0)).scale scale)
           (r.wrElem c inCopy (BitVec.ofNat 64 (c.word 2)) (b.bitOff e) b.width out.1).map fun u => u.countCmd c out.2)) ∧
     (∀ (a b : Tensor) (n : Nat), n = bits (c.word 5) 15 0 + 1 →
       let index := fun (p : Nat) (r : State) => r.rdElem c (nearQuad c.place) (BitVec.ofNat 64 (c.word 4)) (32 * p) 32
       let out := fun (x : Nat) => convert b.fmt (bits c.spec 13 12) (bits c.spec 14 14 = 1) ((valOf a.fmt x).scale
         (a.base + sbits (c.word 3) 7 0 + sbits c.spec 25 16 - (b.base + sbits (c.word 3) 15 8)))
       (c.op = 0x12 → ∃ f, Runs s (.cpGather c) c 0 id (n * 3) f (fun r => r.doneCmd c) ∧
         Elements c 2 f (fun r => r.tdOf c (bits c.spec 5 0) = a ∧ r.tdOf c (bits c.spec 11 6) = b)
           (fun p j r => if j = 0 then index p r
             else r.rdElem c inCopy (BitVec.ofNat 64 (c.word 1) + BitVec.ofInt 64 (valInt ⟨32, true⟩ ((r.heldOf c).headD 0) *
               (a.width / 8 : Nat))) 0 a.width)
           (fun p l r => (r.wrElem c inCopy (BitVec.ofNat 64 (c.word 2)) (p * b.width) b.width (out (l.getD 1 0)).1).map fun u =>
             u.countCmd c (out (l.getD 1 0)).2)) ∧
       (c.op = 0x13 → ∃ f, Runs s (.cpScatter c) c 0 id (n * 3) f (fun r => r.doneCmd c) ∧
         Elements c 2 f (fun r => r.tdOf c (bits c.spec 5 0) = a ∧ r.tdOf c (bits c.spec 11 6) = b)
           (fun p j r => if j = 0 then index p r
             else r.rdElem c inCopy (BitVec.ofNat 64 (c.word 1)) (p * a.width) a.width)
           (fun _ l r => (r.wrElem c inCopy (BitVec.ofNat 64 (c.word 2) + BitVec.ofInt 64 (valInt ⟨32, true⟩ (l.headD 0) *
             (b.width / 8 : Nat))) 0 b.width (out (l.getD 1 0)).1).map fun u => u.countCmd c (out (l.getD 1 0)).2))) ∧
     (∀ t, s.tdOf c (bits c.spec 11 6) = t → ∃ f, Runs s (.cpFill c) c 0 id t.count f (fun r => r.doneCmd c) ∧
       ∀ e r, r.tdOf c (bits c.spec 11 6) = t →
         f e r = r.wrElem c inCopy (BitVec.ofNat 64 (c.word 1)) (t.bitOff e) t.width (c.word 2 % 2 ^ t.width))) ∧
  (∀ (s : State) (c : Cmd) (m n : Nat), c.op = 0x11 → m = (c.words.drop 4).length + 1 →
     n = 2 * (s.tdOf c (bits c.spec 5 0)).count →
       (s.started c = none → exec (.cpMcast c) s = .next (((s.setRun { cmd := c, progress := 0, ways := List.replicate m {} }).wayTurn
         c (s.stepsOf ((n + 1) * m))).mcastRest c)) ∧
       (∀ r, s.started c = some r → exec (.cpMcast c) s = .next ((s.wayTurn c (s.stepsOf ((n + 1) * m))).mcastRest c) ∧
         (s.wayTurn c 0 = s) ∧
         (∀ k, r.wayNext s.aim n = none → s.wayTurn c (k + 1) = s) ∧
         (∀ k d u, r.wayNext s.aim n = some d →
           (s.wayStep c d (r.ways.getD d {}) = (u, true) → s.wayTurn c (k + 1) = u.wayTurn c k) ∧
           (s.wayStep c d (r.ways.getD d {}) = (u, false) → s.wayTurn c (k + 1) = u)) ∧
         (∀ d, r.wayNext s.aim n = some d → ∃ w, r.ways[d]? = some w ∧ w.next < n ∧ w.waits = false ∧ (∀ x ∈ r.fails, x.1 ≠ d) ∧
           (s.aim = none → ∀ d' w', r.ways[d']? = some w' → w'.next < n → w'.waits = false → (∀ x ∈ r.fails, x.1 ≠ d') →
             w.next ≤ w'.next)) ∧
         (r.ways.length = m → (∀ d < m, ∀ w, r.ways[d]? = some w → n ≤ w.next ∨ ∃ x ∈ r.fails, x.1 = d) →
           s.mcastRest c = s.endCmd c (mcastResult m r.fails))) ∧
       (∀ (d : Nat) (w : Way) (q : Cmd), q = s.destCmd c d →
         (w.next % 2 = 0 → ∀ u x, s.srcAt q (w.next / 2) = .ok (u, x) → s.wayStep c d w =
           ((u.modWay c d fun y => { y with next := w.next + 1, hold := [x] }).modRun c fun r => r.goes (r.progress + 1), true)) ∧
         (w.next % 2 = 1 → ∀ u, s.dstAt q ((c.words.getD 2 0 :: c.words.drop 4).getD d 0) (w.next / 2) (w.hold.headD 0) = .ok u →
           s.wayStep c d w =
             ((u.modWay c d fun y => { y with next := w.next + 1, hold := [] }).modRun c fun r => r.goes (r.progress + 1), true)) ∧
         (∀ x, (w.next % 2 = 0 ∧ s.srcAt q (w.next / 2) = .error x) ∨ (w.next % 2 = 1 ∧
             s.dstAt q ((c.words.getD 2 0 :: c.words.drop 4).getD d 0) (w.next / 2) (w.hold.headD 0) = .error x) →
           (∀ e, x = .err e → s.wayStep c d w =
             (s.modRun c fun r => { r with fails := r.fails ++ [(d, e, w.next / 2)] }, true)) ∧
           (∀ pa, x = .denied pa → s.wayStep c d w = ((s.security (dieOfTh q.th) (BitVec.ofNat 64 pa) q.lid).modRun c fun r =>
             { r with fails := r.fails ++ [(d, eACCESS, w.next / 2)] }, true)) ∧
           (∀ va wr, x = .page va wr → s.wayStep c d w = ((s.modWay c d fun y => { y with waits := true }).modDie (dieOfTh c.th)
             fun k => { k with walks := k.walks ++ [.engine c (d * n + w.next) va wr] }, true)) ∧
           (x = .busy → s.wayStep c d w = (s, false)))) ∧
       (∀ (fails : List (Nat × Nat × Nat)),
         (fails = [] → mcastResult m fails = ⟨0, 0, 0⟩) ∧
         (fails ≠ [] → fails.length < m → ∃ b, mcastResult m fails = ⟨1, eDEST_FAULT, b⟩ ∧
           ∀ d < m, b.testBit d = true ↔ ∀ x ∈ fails, x.1 ≠ d)))

/-- 10 R357, R358: `cp.crc` advances the CRC over its bytes and ends with it as its detail; `cp.send` reads its bytes and
puts the frame into its egress queue where the port, which has not gone down since the start, the queue's owner and the
route let it, else it fails with PORT; each byte is read at a step of its own. The model's choices in it: log 11, 138. -/
def Obligations.CrcAndSend : Prop :=
  ∀ (s : State) (c : Cmd),
    Runs s (.cpCrc c) c 0 (fun r => r.modRun c fun x => { x with acc := bits (c.word 2) 31 0 }) (bits (c.word 2) 63 32)
      (fun k r => (r.rdElem c inCopy (BitVec.ofNat 64 (c.word 1)) (8 * k) 8).map fun b =>
        b.1.modRun c fun x => { x with acc := crcStep x.acc b.2 })
      (fun r => r.endCmd c ⟨0, 0, (r.started c).elim 0 (·.acc)⟩) ∧
    ∃ fin, Runs s (.cpSend c) c (if s.egressOk c none then 0 else ePORT)
        (fun r => r.modRun c fun x => { x with acc := (get {} r.hub.ports (bits (c.word 2) 16 15)).losses }) (bits (c.word 2) 14 0)
        (fun k r => (r.rdElem c inCopy (BitVec.ofNat 64 (c.word 1)) (8 * k) 8).map fun b =>
          b.1.modRun c fun x => { x with data := x.data ++ [b.2] }) fin ∧
      ∀ (r : State) (x : Running) (q : Egress), r.started c = some x → q = get {} r.hub.egress (bits (c.word 2) 22 17) →
        (r.egressOk c x.data.head? = false ∨ x.acc ≠ (get {} r.hub.ports (bits (c.word 2) 16 15)).losses →
          fin r = r.endCmd c ⟨2, ePORT, 0⟩) ∧
        (r.egressOk c x.data.head? = true → x.acc = (get {} r.hub.ports (bits (c.word 2) 16 15)).losses → fin r = (r.modHub fun h => { h with
          egress := put {} h.egress (bits (c.word 2) 22 17)
            { q with frames := q.frames ++ [(bits (c.word 2) 16 15, x.data.map (BitVec.ofNat 8))] } }).doneCmd c)

/-- 11 R388: `rc.kern` reconstructs every element of its tile from those neighbour tiles of its mask that its kernel reads,
a kernel that is not legal for the format not starting, and a mask of 0 giving the zeros of K0; `rc.cmp` ends with the
greatest error of an element as its detail, both tiles taken to `f32` at their scales. The model's choices in it: log 11,
24, 66, 69. -/
def Obligations.ReconCommands : Prop :=
  ∀ (s : State) (c : Cmd) (t u : Tensor) (tiles : List (Nat × Word × Int)) (k : KernSpec),
    s.tdOf c (bits c.spec 11 6) = t → s.tdOf c (bits c.spec 5 0) = u →
    tiles = (usedTiles (bits c.spec 15 12) ((List.range 4).filter fun j => bits c.spec (16 + j) (16 + j) = 1)).map (fun j =>
      (j, BitVec.ofNat 64 (c.word (1 + j)), sbits (c.word 6) (15 + 8 * j) (8 + 8 * j))) →
    k = { fmt := t.fmt, mask := false, base := t.base, kernel := if tiles.isEmpty then 0 else bits c.spec 15 12
          kq := sbits (c.word 6) 7 0 } →
      (c.op = 0x30 → ∃ f, Runs s (.rcKern c) c (if kernelLegal (bits c.spec 15 12) t false then 0 else eMISMATCH) id
          (t.count * (tiles.length + 1)) f (fun r => r.doneCmd c) ∧
        Elements c tiles.length f (fun r => r.tdOf c (bits c.spec 11 6) = t)
          (fun e j r => r.rdElem c inCopy (tiles.getD j (0, 0, 0)).2.1
            (t.bitOff (nbIndex t k.kernel (tiles.getD j (0, 0, 0)).1 e)) t.width)
          (fun e l r => (r.wrElem c inCopy (BitVec.ofNat 64 (c.word 5)) (t.bitOff e) t.width (madeAt t k tiles e l).code).map
            fun r => r.countCmd c (madeAt t k tiles e l).conds)) ∧
      (c.op = 0x31 → ∃ f, Runs s (.rcCmp c) c 0 id (u.count * 2) f
          (fun r => r.endCmd c ⟨0, 0, (r.started c).elim 0 (·.acc)⟩) ∧
        Elements c 1 f (fun r => r.tdOf c (bits c.spec 5 0) = u)
          (fun e _ r => r.rdElem c inCopy (BitVec.ofNat 64 (c.word 1)) (u.bitOff e) u.width)
          (fun e l r => (r.rdElem c inCopy (BitVec.ofNat 64 (c.word 2)) (u.bitOff e) u.width).map fun b =>
            let x := toF32 ((valOf u.fmt (l.headD 0)).scale (u.base + sbits (c.word 3) 7 0))
            let y := toF32 ((valOf u.fmt b.2).scale (u.base + sbits (c.word 3) 15 8))
            let q := auditError u.fmt x.1 y.1
            (b.1.modRun c fun x => { x with acc := max x.acc q.1 }).countCmd c (x.2 ++ y.2 ++ q.2)))

/-- 10 R359-R361, 19 R469: a collective starts by taking its group's next number and telling every other member what it asks
for, failing with COLL when its die is no member; it reads its elements, exchanges with the members, of an allgather after
it has sent them to every other member, and writes its result; it pauses where its turn ends (log 11); a write that fails
names its element, and a read the first, as nothing is written then (log 28). Members whose commands differ all fail with no
result, told by the one that finds it (log 128). A message arrives at its die after the earlier ones of its sender. 04 R140:
the members of a group combine along a tree: rank t receives from t + 2^k, for every k below the lowest one bit of t, and
sends to the rank with that bit cleared; the lower rank is the left operand; integers add modulo 2^32. The model's choices
in it: log 11, 28, 59, 115, 128, 137. -/
def Obligations.Collectives : Prop :=
  (∀ (s : State) (c : Cmd) (i : Instr), (i, c.op) ∈ [(Instr.collReduce c, 0x20), (.collBcast c, 0x21), (.collAllgather c, 0x22)] →
     let w := fmtWidth (BitVec.ofNat 6 (bits c.spec 7 2))
     let go := fun t : State => t.modRun c fun r => { r with paused := false }
     let drop := fun (t : State) (n : Nat) => t.modDie c.place fun d => { d with collIn := d.collIn.filter fun m => !collFor c n m }
     let differs := fun (t : State) (n : Nat) => (((t.collMembers c ++ ((t.die c.place).collIn.filter (collFor c n)).map
         (·.src)).eraseDups).filter fun m => m ≠ t.memberOf c.place &&
           (m % 256 ≠ t.hub.pkgnum || t.collOpen c.lid (bits c.spec 11 8) n (m / 256))).foldl
       (fun u m => u.collSend c n 2 0 m (controlBody c 0xFFFF)) ((drop t n).endCmd c ⟨2, eCOLL, 0⟩)
     (s.started c = none → ((s.collStart c).started c = none → exec i s = .next (s.collStart c)) ∧
       ((s.collStart c).started c ≠ none → exec i s = exec i (s.collStart c))) ∧
     (s.started c = none → s.collRank c (s.memberOf c.place) = none → ∀ n v, n = get 0 (s.die c.place).collSeq
         (c.lid.getD 0 * 16 + bits c.spec 11 8) → v = (s.modDie c.place fun d => { d with
         collSeq := put 0 d.collSeq (c.lid.getD 0 * 16 + bits c.spec 11 8) (n + 1) }).setRun { cmd := c, progress := 0, acc := n } →
       s.collStart c = differs v n) ∧
     ∀ r, s.started c = some r →
       (r.phase = 0 → ∀ t k x, steps (fun k t => (t.rdElem c inCopy (BitVec.ofNat 64 (c.word 1)) (k * w) w).map fun x =>
           x.1.modRun c fun r => { r with data := r.data ++ [x.2] }) (s.stepsOf (s.collReads c - r.progress)) r.progress
           (go s) = (t, k, x) →
         (∀ e, x = some (.err e) → exec i s = .next ((drop t r.acc).endCmd c ⟨2, e, (drop t r.acc).elemOf c k⟩)) ∧
         (x = none → k < s.collReads c → exec i s = .next (t.modRun c fun r => { r.goes k with paused := true })) ∧
         (x = none → s.collReads c ≤ k → ∀ v, v = t.modRun c (fun r => { r with phase := 1, progress := 0, hop := none }) →
           (c.op ≠ 0x22 → exec i s = .next (v.collAdvance c.place)) ∧
           (c.op = 0x22 → exec i s = .next ((((v.collMembers c).filter (· ≠ v.memberOf c.place)).foldl (fun u m =>
             u.collSendAll c r.acc 0 m ((v.collRank c (v.memberOf c.place)).getD 0 * bits (c.word 3) 31 0)
               ((v.started c).elim [] (·.data))) v).collAdvance c.place)))) ∧
       (r.phase = 1 ∨ r.phase = 2 → exec i s = .next ((go s).collAdvance c.place)) ∧
       (r.phase = 3 → r.progress = 0 → ((go s).collControls c r.acc).2 = true → exec i s = .next (differs (go s) r.acc)) ∧
       (c.unit = 4 → ∀ k, s.elemOf c k = if r.phase = 3 then k else 0) ∧
       (r.phase = 3 → r.progress ≠ 0 ∨ ((go s).collControls c r.acc).2 = false → ∀ t k x, steps (fun k t => t.wrElem c inCopy (BitVec.ofNat 64 (c.word 2)) (k * w) w (r.data.getD k 0))
           (s.stepsOf (s.collWrites c - r.progress)) r.progress (go s) = (t, k, x) →
         (x = none → k < s.collWrites c → exec i s = .next (t.modRun c fun r => { r.goes k with paused := true })) ∧
         (x = none → s.collWrites c ≤ k → exec i s = .next
           (((t.die c.place).collIn.filter fun m => m.lid.isNone && collFor c r.acc m).foldl (fun u m => u.collReply c.place m)
             ((drop t r.acc).endCmd c ⟨0, 0, 0⟩))) ∧
         ∀ e, x = some (.err e) → exec i s = .next ((drop t r.acc).endCmd c ⟨2, e, (drop t r.acc).elemOf c k⟩)) ∧
       ((s.collControls c r.acc).2 = true → s.collExchange c r = differs s r.acc) ∧
       (∀ (d k : Nat) (m : CollMsg), ((s.die d).collWay[k]?).bind (fun x => (s.die d).collWay.find? fun y => y.src = x.src) = some m →
         s.collOver d m = false → s.collDeliver d k = ((s.modDie d fun x => { x with collWay := x.collWay.erase m }).modDie d
           fun x => { x with collIn := x.collIn ++ [m] }).collAdvance d)) ∧
  ((∀ n t u k : Nat, n ≤ 2 ^ 16 → ((k, u) ∈ treeChildren n t ↔ u < n ∧ treeParent u = some (k, t))) ∧
   (∀ t k u : Nat, treeParent t = some (k, u) ↔ k < 16 ∧ t % 2 ^ (k + 1) = 2 ^ k ∧ u = t - 2 ^ k) ∧
   (∀ (c : Cmd) (a b : Nat), floatFmt (BitVec.ofNat 6 (bits c.spec 7 2)) = none →
     (bits c.spec 1 0 = 0 → collCombine c a b = ((a + b) % 2 ^ 32, []))) ∧
   (∀ (c : Cmd) (f : FloatFmt) (a b : Nat), floatFmt (BitVec.ofNat 6 (bits c.spec 7 2)) = some f →
     (bits c.spec 1 0 = 0 → collCombine c a b = roundOp f 0 ((valFloat f a).add 0 (valFloat f b))
       ((valFloat f a).isNan || (valFloat f b).isNan)) ∧
     (bits c.spec 1 0 = 1 → collCombine c a b = (fMin f a b, [])) ∧
     (2 ≤ bits c.spec 1 0 → collCombine c a b = (fMax f a b, []))))

/-! ### Filters (22) -/

/-- 22 R539: the instructions that write a working register. X and Y are registers a and b, K a state word; a field reads
zero above bit 31; sums and products wrap, shifts are by Y mod 32, lesser and greater are natural, `.lt` and `.ge` signed. -/
def Obligations.FilterRegisters : Prop :=
  ∀ (s : State) (r : FilterRun) (fl : Filter) (d e a b c : BitVec 3) (l n : BitVec 5) (i : BitVec 20) (k : BitVec 10)
    (x y : BitVec 32), FilterPoint s r fl → x = get 0 r.w a.toNat → y = get 0 r.w b.toNat →
      FiltersW s (.quinudFx d e l n) r d (BitVec.ofNat 32 ((r.e.getD e.toNat 0).toNat / 2 ^ l.toNat % 2 ^ (n.toNat + 1))) ∧
      FiltersW s (.quinudLi d i) r d (BitVec.ofInt 32 i.toInt) ∧
      FiltersW s (.quinudAddi d a i) r d (BitVec.ofInt 32 (x.toNat + i.toInt)) ∧
      FiltersW s (.quinudAdd d a b) r d (BitVec.ofNat 32 (x.toNat + y.toNat)) ∧
      FiltersW s (.quinudSub d a b) r d (BitVec.ofInt 32 (x.toNat - y.toNat)) ∧
      FiltersW s (.quinudAnd d a b) r d (x &&& y) ∧ FiltersW s (.quinudOr d a b) r d (x ||| y) ∧
      FiltersW s (.quinudXor d a b) r d (x ^^^ y) ∧
      FiltersW s (.quinudShl d a b) r d (BitVec.ofNat 32 (x.toNat * 2 ^ (y.toNat % 32))) ∧
      FiltersW s (.quinudShr d a b) r d (BitVec.ofNat 32 (x.toNat / 2 ^ (y.toNat % 32))) ∧
      FiltersW s (.quinudMul d a b) r d (BitVec.ofNat 32 (x.toNat * y.toNat)) ∧
      FiltersW s (.quinudMin d a b) r d (BitVec.ofNat 32 (min x.toNat y.toNat)) ∧
      FiltersW s (.quinudMax d a b) r d (BitVec.ofNat 32 (max x.toNat y.toNat)) ∧
      (∀ p : Prop, (c = 0 ∧ (p ↔ x = y)) ∨ (c = 1 ∧ (p ↔ x ≠ y)) ∨ (c = 2 ∧ (p ↔ x.toNat < y.toNat)) ∨
          (c = 3 ∧ (p ↔ y.toNat ≤ x.toNat)) ∨ (c = 4 ∧ (p ↔ x.toInt < y.toInt)) ∨ (c = 5 ∧ (p ↔ y.toInt ≤ x.toInt)) →
        (p → FiltersW s (.quinudCmp d a b c) r d 1) ∧ (¬ p → FiltersW s (.quinudCmp d a b c) r d 0)) ∧
      FiltersW s (.quinudSel d a b c) r d (if get 0 r.w c.toNat = 0 then y else x) ∧
      FiltersW s (.quinudLd d k) r d (get 0 fl.k k.toNat)

/-- 22 R539, R540: the instructions that write state words: sums stop at 0xFFFF_FFFF, an average takes the floor of the
signed difference over 2^s, a histogram counts in its bucket, a sketch counts in two words and answers the lesser of them. -/
def Obligations.FilterState : Prop :=
  ∀ (s : State) (r : FilterRun) (fl : Filter) (d a : BitVec 3) (n : BitVec 5) (k : BitVec 10) (m6 : BitVec 6) (m4 : BitVec 4)
    (x K : BitVec 32) (lo : Nat) (word : Nat → Nat), FilterPoint s r fl → x = get 0 r.w a.toNat → K = get 0 fl.k k.toNat →
    lo = (get 0 r.w d.toNat).toNat →
    (∀ j, word j = k.toNat + (if j = 0 then 0 else 2 ^ m4.toNat) +
      x.toNat * (if j = 0 then 0x9E3779B1 else 0x85EBCA77) % 2 ^ 32 / 2 ^ (32 - m4.toNat)) →
      FiltersK s (.quinudSt a k) r k.toNat x ∧
      FiltersK s (.quinudKadd a k) r k.toNat (BitVec.ofNat 32 (min (K.toNat + x.toNat) 0xFFFFFFFF)) ∧
      FiltersK s (.quinudKmin a k) r k.toNat (BitVec.ofNat 32 (min K.toNat x.toNat)) ∧
      FiltersK s (.quinudKmax a k) r k.toNat (BitVec.ofNat 32 (max K.toNat x.toNat)) ∧
      FiltersK s (.quinudEwma a k n) r k.toNat (K + BitVec.ofInt 32 ((x - K).toInt / 2 ^ n.toNat)) ∧
      (∀ i, i = k.toNat + (if x.toNat < lo then 0 else min ((x.toNat - lo) / 2 ^ m4.toNat) m6.toNat) →
        FiltersK s (.quinudHlin d a k m6 m4) r i (BitVec.ofNat 32 (min ((get 0 fl.k i).toNat + 1) 0xFFFFFFFF))) ∧
      (∀ i, i = k.toNat + (if x.toNat = 0 then 0 else min (1 + Nat.log2 x.toNat) m6.toNat) →
        FiltersK s (.quinudHlog a k m6) r i (BitVec.ofNat 32 (min ((get 0 fl.k i).toNat + 1) 0xFFFFFFFF))) ∧
      Filters s (.quinudCms a k m4) (fun t => (t.modFilter r.slot fun f => { f with
          k := put 0 f.k (word 0) (BitVec.ofNat 32 (min ((get 0 f.k (word 0)).toNat + 1) 0xFFFFFFFF)) }).modFilter r.slot
        fun f => { f with
          k := put 0 f.k (word 1) (BitVec.ofNat 32 (min ((get 0 f.k (word 1)).toNat + 1) 0xFFFFFFFF)) }) ∧
      FiltersW s (.quinudCmq d a k m4) r d
        (BitVec.ofNat 32 (min (get 0 fl.k (word 0)).toNat (get 0 fl.k (word 1)).toNat))

/-- 22 R539, R541: a branch taken makes the next off − 1 instructions do nothing; after `end` effects stop; whatever it
does, each of the L instructions runs once, and after the last the event is counted, or the filter that leaves is gone. A
snapshot that fell due while an event ran is taken after it, not before. 22 R542, R543: `trig` within the minimum interval
of the last trigger performed in its filter slot is suppressed and counted in word 4, and so is an insert that its target
refuses; a trigger performed acts, and counts in word 5. The model's choices in it: log 90. -/
def Obligations.FilterFlow : Prop :=
  ((∀ (s : State) (r : FilterRun) (fl : Filter) (a : BitVec 3) (o : BitVec 5) (x : BitVec 32), FilterPoint s r fl →
     x = get 0 r.w a.toNat →
       Filters s .quinudEnd (fun t => { t with run := some { r with ended := true } }) ∧
       (x = 0 → Filters s (.quinudBz a o) (fun t => { t with run := some { r with skip := o.toNat - 1 } }) ∧
         exec (.quinudBnz a o) s = .next (s.closeFilter s.curDie)) ∧
       (x ≠ 0 → exec (.quinudBz a o) s = .next (s.closeFilter s.curDie) ∧
         Filters s (.quinudBnz a o) fun t => { t with run := some { r with skip := o.toNat - 1 } })) ∧
   (∀ (s : State) (i : Instr), isFilter i = true →
     ((s.tel s.curDie).run = none → exec i s = .next s) ∧
     ∀ r, (s.tel s.curDie).run = some r →
       (r.ended = true → exec i s = .next (s.closeFilter s.curDie)) ∧
       (r.ended = false → 0 < r.skip → Filters s i fun t => { t with run := some { r with skip := r.skip - 1 } })) ∧
   (∀ (s : State) (d : Nat), ((s.tel d).run ≠ none → s.exportsDue d = s) ∧
     ∀ k f, (s.tel d).run = none → (s.tel d).filters = [(k, some f)] → s.exportsDue d =
       if f.exportDue = true then s.exportSlot d k else s) ∧
   ∀ (t : Tel) (r : FilterRun) (f : Filter), t.run = some r → t.filter r.slot = some f →
     (r.ip + 1 < f.prog.length → t.nextIp = { t with run := some { r with ip := r.ip + 1 } }) ∧
     (f.prog.length ≤ r.ip + 1 → f.leaving = true →
       t.nextIp = { t with run := none, filters := put none t.filters r.slot none }) ∧
     (f.prog.length ≤ r.ip + 1 → f.leaving = false →
       t.nextIp = { t.modFilter r.slot fun f => { f with words := put 0 f.words 1 (get 0 f.words 1 + 1) } with run := none })) ∧
  (∀ (s : State) (r : FilterRun) (fl : Filter) (a t : BitVec 3) (x : BitVec 32) (w : Word), FilterPoint s r fl →
     x = get 0 r.w a.toNat → w = fl.trigs.getD t.toNat 0 →
     let early := ∃ k, fl.lastTrig = some k ∧ s.cycles - k < 1024 * bits w.toNat 59 40
     let suppressed := Filters s (.quinudTrig a t) fun k => k.modFilter r.slot fun f => { f with
       words := put 0 f.words 4 (get 0 f.words 4 + 1) }
     let performed := fun u : State => exec (.quinudTrig a t) s = .next ((u.modTel s.curDie fun k =>
       k.modFilter r.slot fun f => { f with
         words := put 0 f.words 5 (get 0 f.words 5 + 1), lastTrig := some u.cycles }).closeFilter s.curDie)
     let entry := r.e.flatMap (fun w => leBytes 4 w.toNat) ++ leBytes 4 x.toNat ++ leBytes 4 0 ++ leBytes 12 s.stamp.toNat ++
       leBytes 12 0
     let stamped := s.modTel s.curDie fun k => k.modFilter r.slot fun f => { f with
       stamps := put [] f.stamps f.stampHead entry, stampHead := (f.stampHead + 1) % 64 }
     (early → suppressed) ∧
     (¬ early → bits w.toNat 62 60 = 3 → s.trigInsert s.curDie r.slot w x r.e = none → suppressed) ∧
     (¬ early → bits w.toNat 62 60 = 3 → ∀ u, s.trigInsert s.curDie r.slot w x r.e = some u → performed u) ∧
     (¬ early → bits w.toNat 62 60 = 0 → performed (stamped.emit (.interrupt fl.fn (bits w.toNat 28 18)))) ∧
     (¬ early → bits w.toNat 62 60 = 1 → performed (s.modTel s.curDie fun k => { k with
       rings := put {} k.rings (w.toNat % 8) { get {} k.rings (w.toNat % 8) with frozen := true } })) ∧
     (¬ early → bits w.toNat 62 60 = 2 → performed stamped) ∧
     (¬ early → bits w.toNat 62 60 = 4 → performed (s.emit (.pin (w.toNat % 4)))))

/-! ### What reaches the homes of addresses, and what comes back (03, 08, 09) -/

/-- 08 R248-R253, 03 R97, 09 R302-R305: the oldest store of a core's buffer is written; an acknowledgement lowers its
counter by one; a result fills the register of its producer, the last lane of a gather only; a load, store or atomic that
may pass is performed at its home, where a configured border or another quad's range lock turns it away; an atomic writes
the new value of its operation and answers the old one. A write of a register waits while a producer of its context has left
it empty. The model's choices in it: log 42, 46, 70. -/
def Obligations.AccessesAtHome : Prop :=
  (∀ (s : State) (core : Nat),
    ((s.core core).stbuf = [] → Goes s (.storeBufferWrite core) s) ∧
    ∀ e rest, (s.core core).stbuf = e :: rest → Goes s (.storeBufferWrite core)
      ((s.modCore core fun k => { k with stbuf := rest }).wr (.scratch core e.off) e.size e.data.toNat)) ∧
  (∀ (s : State) (th k : Nat) (ends : Option Ended), (s.ctx th).status ≠ .free →
    ∃ t, Goes s (.storeAck th ⟨k, ends⟩) t ∧ (t.ctx th).counter k = (s.ctx th).counter k - 1 ∧
      (∀ j, j < 4 → k < 4 → j ≠ k → (t.ctx th).counter j = (s.ctx th).counter j) ∧ t.mem = s.mem) ∧
  (∀ (s : State) (l : Load),
    ((∀ p ∈ (s.ctx l.th).prods, p.seq ≠ l.seq) → Goes s (.loadResult l) s) ∧
    ∀ p, (s.ctx l.th).prods.find? (fun p => p.seq = l.seq) = some p →
      ∀ u acc, u = (s.accessEnds l.th l.ends).addConds (coreOf l.th) l.conds →
        (acc = match l.lane with
          | some k => p.acc ||| (l.value <<< (8 * l.size * k))
          | none => l.value) →
        (1 < p.left → Goes s (.loadResult l) (u.modCtx l.th fun c => { c with
          prods := c.prods.map fun q => if q.seq = l.seq then { q with left := q.left - 1, acc := acc } else q })) ∧
        (p.left ≤ 1 → ∀ n, l.dst = .v n → Goes s (.loadResult l)
          (((u.endProd l.th l.seq).modCtx l.th fun c => c.setV n acc).serveRegWrites (coreOf l.th))) ∧
        (p.left ≤ 1 → ∀ n, l.dst = .s n → (u.ctx l.th).sEmpty.getLsbD n = true → Goes s (.loadResult l)
          (((u.endProd l.th l.seq).modCtx l.th fun c => c.setS n (acc.setWidth 64)).serveRegWrites (coreOf l.th)))) ∧
  (∀ (s : State) (r : Req), (∀ off, decodeAddr r.addr ≠ .hub off) →
    (s.mayNotPass r = true → Goes s (.remoteAccess r) (s.dropMessage r)) ∧
    (s.mayNotPass r = false → s.homeLocked r = true → Goes s (.remoteAccess r) (s.failReq r 0x06)) ∧
    (s.mayNotPass r = false → s.homeLocked r = false →
      (∀ sx, r.op = .load sx → Goes s (.remoteAccess r) (s.send none (.loadResult {
        th := r.th, seq := r.seq, dst := r.dst, lane := r.lane, size := r.size, conds := []
        value := extend r.size sx (s.readAt r.addr r.pa r.size), ends := some (endedOf r) }))) ∧
      (r.op = .store → s.regPending r.addr = false →
        Goes s (.remoteAccess r) ((s.writeAt r.addr r.pa r.size r.data.toNat).ack r)) ∧
      (r.op = .store → s.regPending r.addr = true → Goes s (.remoteAccess r)
        (s.modCore (r.addr.toNat / 2 ^ 23 % 8192) fun k => { k with waits := k.waits ++ [r] })) ∧
      ∀ op, r.op = .amo op → ∀ x y, x = s.readAt r.addr r.pa r.size →
        y = amoNew op r.size x (r.data.toNat % 2 ^ (8 * r.size)) (r.cmp.toNat % 2 ^ (8 * r.size)) →
        Goes s (.remoteAccess r) ((y.1.elim s (s.writeAt r.addr r.pa r.size)).send none (.loadResult {
          th := r.th, seq := r.seq, dst := r.dst, lane := r.lane, size := r.size, conds := y.2
          value := extend r.size (op = 4 || op = 5) x, ends := some (endedOf r) })))) ∧
  (∀ (s : State) (r : Req) (off : Nat), decodeAddr r.addr = .hub off →
    (∀ sx, r.op = .load sx → Goes s (.remoteAccess r) ((s.hubRead off r.level).1.send none (.loadResult {
      th := r.th, seq := r.seq, dst := r.dst, lane := r.lane, size := r.size, conds := []
      value := (s.hubRead off r.level).2.setWidth 128, ends := some (endedOf r) }))) ∧
    (r.op = .store → Goes s (.remoteAccess r) ((s.hubWrite off r.level (r.data.setWidth 64)).ack r))) ∧
  (∀ n x y z : Nat, n = 4 ∨ n = 8 → x < 2 ^ (8 * n) → y < 2 ^ (8 * n) →
    amoNew 0 n x y z = (some ((x + y) % 2 ^ (8 * n)), []) ∧ amoNew 1 n x y z = (some (Nat.land x y), []) ∧
    amoNew 2 n x y z = (some (Nat.lor x y), []) ∧ amoNew 3 n x y z = (some (Nat.xor x y), []) ∧
    (∃ v, amoNew 4 n x y z = (some v, []) ∧ valInt ⟨8 * n, true⟩ v = min (valInt ⟨8 * n, true⟩ x) (valInt ⟨8 * n, true⟩ y)) ∧
    (∃ v, amoNew 5 n x y z = (some v, []) ∧ valInt ⟨8 * n, true⟩ v = max (valInt ⟨8 * n, true⟩ x) (valInt ⟨8 * n, true⟩ y)) ∧
    amoNew 6 n x y z = (some (min x y), []) ∧ amoNew 7 n x y z = (some (max x y), []) ∧ amoNew 8 n x y z = (some y, []) ∧
    amoNew 9 n x y z = (if x = z then some y else none, []) ∧
    (amoNew 10 n x y z).1 = some (roundOp f32 0 ((valFloat f32 x).add 0 (valFloat f32 y))
      ((valFloat f32 x).isNan || (valFloat f32 y).isNan)).1 ∧
    amoNew 11 n x y z = (if x < y then some (x + 1) else none, []))

/-- 08 R266-R269: a presence request is performed when its bit lets it, `ldfe` emptying the word and `stef` filling it, and
the wait list is then served; else it joins the list of 32, or is refused and sent again; its answer lets the bundle issue,
and is held to the bound of an answer (17 R417); an overdue one is withdrawn from its home. The model's choices in it: log
19, 26, 42. -/
def Obligations.PresenceAtHome : Prop :=
  (∀ (s : State) (r : Req) (core w : Nat), s.mayNotPass r = false → s.homeLocked r = false → core = r.addr.toNat / 2 ^ 23 % 8192 →
    w = r.addr.toNat % 2 ^ 20 / 4 →
      let answered := fun (v : State) (y : Word) =>
        (v.modHeld r.th r.seq fun h => { h with done := s.hub.cycle }).send none (.presenceAnswer r.th r.seq y)
      (∀ x, x = BitVec.ofNat 64 (s.rd (.scratch core (4 * w)) 4) → s.full core w = true →
        (r.op = .ldfe → Goes s (.presenceRequest r)
          ((answered (s.setFull core w false) x).servePres core)) ∧
        (r.op = .ldpw → Goes s (.presenceRequest r) ((answered s x).servePres core))) ∧
      (s.full core w = false → r.op = .stef → Goes s (.presenceRequest r)
        ((answered ((s.wr (.scratch core (4 * w)) 4 r.data.toNat).setFull core w true) 0).servePres core)) ∧
      ((s.full core w = false ∧ (r.op = .ldfe ∨ r.op = .ldpw)) ∨ (s.full core w = true ∧ r.op = .stef) →
        (((s.core core).waits.filter fun q => isPresence q.op).length < 32 → Goes s (.presenceRequest r)
          (s.modCore core fun k => { k with waits := k.waits ++ [r] })) ∧
        (32 ≤ ((s.core core).waits.filter fun q => isPresence q.op).length → Goes s (.presenceRequest r)
          (s.modHeld r.th r.seq fun h => { h with refused := true })))) ∧
  (∀ (s : State) (th seq : Nat) (x : Word),
    ((∀ h ∈ (s.ctx th).held, h.req.seq = seq → h.answer ≠ none ∨ h.dropped = true) → Goes s (.presenceAnswer th seq x) s) ∧
    ∀ h, (s.ctx th).held.find? (fun h => h.req.seq = seq && h.answer.isNone && !h.dropped) = some h →
      Goes s (.presenceAnswer th seq x)
        (((s.postPwait th h 0).overrun (s.lidOf th) th 8 (s.hub.cycle - h.done) (s.loadBound th h.req.addr)).modHeld th seq
          fun h => { h with answer := some x, refused := false })) ∧
  (∀ (s : State) (r : Req),
    (s.takeBack r = none → Goes s (.withdrawal r) s) ∧
    ∀ t h, s.takeBack r = some t → (s.ctx r.th).held.find? (fun h => h.req.seq = r.seq) = some h →
      Goes s (.withdrawal r)
        ((t.postPwait r.th h 1).modHeld r.th r.seq fun h => { h with dropped := true, refused := false })) ∧
  (∀ (s : State) (th : Nat),
    ((s.ctx th).fewait = 0 → Goes s (.fewaitExpiry th) s) ∧
    (∀ h, (s.ctx th).held.find? (fun h => (s.ctx th).fewait ≠ 0 && h.answer.isNone && !h.withdrawn && !h.dropped &&
        (s.ctx th).fewait.toNat < (s.core (coreOf th)).cycle - h.start) = some h →
      Goes s (.fewaitExpiry th)
        ((s.modHeld th h.req.seq fun h => { h with withdrawn := true }).send (routeOf h.req) (.withdrawal h.req))) ∧
    ((∀ h ∈ (s.ctx th).held, h.refused = false) → Goes s (.presenceResend th) s) ∧
    ∀ h, (s.ctx th).held.filter (·.refused) = [h] → Goes s (.presenceResend th)
      ((s.modHeld th h.req.seq fun h => { h with refused := false }).sendWait h.req))

/-- 09 R307-R321: a posted operation changes its sync word and is acknowledged; a join counts down to its action, reports an
arrival at zero, and performs the action once; `swait` is answered at once when its relation holds, else it waits among
4,096, or is refused in the same step (log 19); an arrival is counted to its phase of its barrier, with the counters that
the last of a core's has sampled, and, at level 4, the package's last is announced to the other packages of group 0; a phase
that every member has reached, of those packages too at level 4, completes; an arrival at a die that the partition does not
hold is dropped (20 R479). The model's choices in it: log 19, 27, 60, 117. -/
def Obligations.SyncAtHome : Prop :=
  (∀ (s : State) (r : Req) (d off : Nat), s.mayNotPass r = false → s.homeLocked r = false → decodeAddr r.addr = .sync d off →
    ∀ x c n, x = s.syncRead r.addr 8 → c = x % 2 ^ 32 → n = r.data.toNat % 2 ^ 32 →
      (r.op = .ssigSet → Goes s (.syncWordUpdate r) ((s.syncWrite r.addr 8 r.data.toNat).ack r)) ∧
      (r.op = .ssigAdd → Goes s (.syncWordUpdate r) ((s.syncWrite r.addr 8 ((x + r.data.toNat) % 2 ^ 64)).ack r)) ∧
      (r.op = .joinInit →
        (n ≠ 0 → Goes s (.syncWordUpdate r) ((s.syncWrite r.addr 8 (r.data.toNat % 2 ^ 37)).ack r)) ∧
        (n = 0 → Goes s (.syncWordUpdate r)
          (((s.syncWrite r.addr 8 (r.data.toNat % 2 ^ 37)).joinAction d (whoReq r) r.addr).ack r))) ∧
      (r.op = .joinArrive →
        (n = 0 → Goes s (.joinArrival r) (s.ack r)) ∧
        (n ≠ 0 → c = 0 → Goes s (.joinArrival r) ((s.logErr d errJoinUnderflow r.addr r.lid 0).ack r)) ∧
        (n ≠ 0 → n < c → Goes s (.joinArrival r) ((s.syncWrite r.addr 8 (x - n)).ack r)) ∧
        (n ≠ 0 → n = c → Goes s (.joinArrival r)
          (((s.syncWrite r.addr 8 (x - c)).joinAction d (whoReq r) r.addr).ack r)) ∧
        (c ≠ 0 → c < n → Goes s (.joinArrival r)
          ((((s.syncWrite r.addr 8 (x - c)).joinAction d (whoReq r) r.addr).logErr d errJoinUnderflow r.addr r.lid 0).ack r))) ∧
      ∀ k y, r.op = .swait k → y = r.data.toNat % 2 ^ 64 → ∀ holds : Prop,
        (holds ↔ if k = 0 then x = y else if k = 1 then x ≠ y else if k = 2 then y ≤ x else x < y) →
        (holds → Goes s (.swaitRequest r) ((s.modHeld r.th r.seq fun h => { h with done := s.hub.cycle }).send none
          (.presenceAnswer r.th r.seq (BitVec.ofNat 64 x)))) ∧
        (¬ holds → (s.die d).waiters.length < 4096 →
          Goes s (.swaitRequest r) (s.modDie d fun k => { k with waiters := k.waiters ++ [r] })) ∧
        (¬ holds → 4096 ≤ (s.die d).waiters.length →
          Goes s (.swaitRequest r) (s.modHeld r.th r.seq fun h => { h with refused := true }))) ∧
  (∀ (s : State) (m : BarrierMsg) (lid per : Nat) (l : Launch) (u : State), m.lid = some lid → s.launch lid = some l →
    s.barrierPer (some lid) m.level m.id = some per → (m.level ≤ 2 → s.dieInPart l.part (barrierDie m.level m.inst) = true) →
    u = s.modBarrier lid m.level m.id m.inst (fun b => { b with arrivals := b.arrivals ++ [m] }) →
      (m.phase < (s.barrierNode lid m.level m.id m.inst).phases → Goes s (.barrierArrival m) s) ∧
      ((s.barrierNode lid m.level m.id m.inst).phases ≤ m.phase →
        ∀ v, v = (match m.counts with
          | none => u
          | some x => u.modBarrier lid m.level m.id m.inst fun b => { b with
              samples := b.samples ++ [(m.phase, coreOf m.th, x)] }) →
        ∀ allHere : Prop, (allHere ↔ (u.barrierNode lid m.level m.id m.inst).ofCore m.phase (coreOf m.th) = per ∧
          v.phaseHere l (u.barrierNode lid m.level m.id m.inst) m.level m.inst per m.phase = true) →
        (m.level ≠ 4 ∨ ¬ allHere → Goes s (.barrierArrival m) (v.completePhases lid m.level m.id m.inst 4)) ∧
        (m.level = 4 → allHere → Goes s (.barrierArrival m)
          ((v.announcePhase (some lid) l m.id m.phase (per * (v.barrierCores l 4 m.inst).length)).completePhases lid m.level m.id
            m.inst 4)))) ∧
  (∀ (s : State) (m : BarrierMsg) (l : Launch), m.lid.bind s.launch = some l →
    m.level ≤ 2 → s.dieInPart l.part (barrierDie m.level m.inst) = false → Goes s (.barrierArrival m)
      (s.dropAt (barrierDie m.level m.inst) (windowAddr (coreOf m.th) 0 0) m.lid)) ∧
  (∀ (s : State) (lid level id inst per n : Nat) (l : Launch) (b : Barrier) (reached : Prop), s.launch lid = some l →
    s.barrierPer (some lid) level id = some per → b = s.barrierNode lid level id inst →
    (reached ↔ s.phaseHere l b level inst per b.phases = true ∧ (level = 4 → ∀ p ∈ s.otherPackages (l.groups.getD 0 []),
      ∃ x ∈ b.remote, x.1 = b.phases ∧ x.2.1 = p)) →
      (¬ reached → s.completePhases lid level id inst (n + 1) = s) ∧
      (reached → s.completePhases lid level id inst (n + 1) =
        (s.phaseComplete lid level id inst).completePhases lid level id inst n))

/-- 03 R103, R104, 08 R283: an entry joins an enabled buffer with room; a returned credit raises the writer's to at most 16;
the target of a bind answers with its free entries, credits on their way gone, or leaves the window unbound with a deferred
ACCESS, which is taken though the window has been bound anew since, the new binding as it was; an answer comes once; a
thread that waits on a window past its limit traps, with a fault of its addresses first (03 R112). The model's choices in
it: log 44, 49. -/
def Obligations.ChannelMessages : Prop :=
  ∀ (s : State) (core buf : Nat) (x : VWord) (th : Nat),
    (s.strays (s.writerLid core buf) (quadOf core) = false → Goes s (.channelEntry core buf x) (s.modCore core fun k => { k with
      chans := put {} k.chans buf (if (get {} k.chans buf).conf.getLsbD 63 = true ∧ (get {} k.chans buf).entries.length < 16
        then { get {} k.chans buf with entries := (get {} k.chans buf).entries ++ [x] } else get {} k.chans buf) })) ∧
    ((s.ctx th).outWindow core buf = none → Goes s (.creditReturn th core buf) s) ∧
    (∀ k w, (s.ctx th).outWindow core buf = some (k, w) → Goes s (.creditReturn th core buf)
      (s.modCtx th fun c => { c with win := put none c.win k (some { w with credits := min 16 (w.credits + 1) }) })) ∧
    (∀ (win seq : Nat) (word : Word), seq ∉ (s.ctx th).binds → Goes s (.bindAnswer th win seq word) s) ∧
    (∀ (win seq : Nat) (word : Word) (c : Chan) (target b : Nat) (u : State) (mine : Prop), seq ∈ (s.ctx th).binds →
      target = word.toNat / 2 ^ 23 % 8192 → b = word.toNat % 16 → c = get {} (s.core target).chans b →
      u = s.modCtx th (fun k => { k with binds := k.binds.filter (· ≠ seq) }) →
      (mine ↔ ∃ w, (s.ctx th).window win = some w ∧ w.bind = seq ∧ w.answered = false) →
      (c.conf.getLsbD 63 = true ∧ c.conf.toNat / 2 ^ 23 % 8192 = coreOf th ∧ c.conf.toNat % 16 = ctxOf th →
        (mine → Goes s (.bindAnswer th win seq word)
          (({ u with net := u.net.filter fun f => !isCredit th target b f.ev } : State).modCtx th fun k => { k with
            win := put none k.win win (some { word := word, credits := 16 - c.entries.length, bind := seq }) })) ∧
        (¬ mine → Goes s (.bindAnswer th win seq word) u)) ∧
      (¬ (c.conf.getLsbD 63 = true ∧ c.conf.toNat / 2 ^ 23 % 8192 = coreOf th ∧ c.conf.toNat % 16 = ctxOf th) →
        (mine → Goes s (.bindAnswer th win seq word) ((u.modCtx th fun k => { k with win := put none k.win win none }).defer th
          { cause := 0x04, tval := word, seq := seq })) ∧
        (¬ mine → Goes s (.bindAnswer th win seq word) (u.defer th { cause := 0x04, tval := word, seq := seq })))) ∧
    ∀ u : State, u = { s with cur := th } →
      ((s.ctx th).winWait = none → Goes s (.qstall th) u) ∧
      ∀ i l, u.instrsAt th = some (i :: l) → (s.ctx th).winWait ≠ none → (i :: l).any u.windowWait = true →
        (∀ k, u.verdict (i :: l) = .block k → Goes s (.qstall th) (u.stallOrForfeit (u.waitWindow i) k)) ∧
        ∀ x, u.verdict (i :: l) = .trap x → Goes s (.qstall th) (u.takeTrap th x)

/-! ### Commands, tasks, fretboards, launches (02, 10, 11, 18, 19) -/

/-- 10 R334-R339: the end of a command stops its clock (17 R417), settles its notes, releases its locks and its chain, and
writes or gives up its result entry, with a deferred ENGINE for a failure that asks for one; a failure whose pusher has
gone, and a note of it as a successor in a later task of its context does not count, fails the launch; a success moves the
launch's parked slot it names to released or starts its successor, at its combining node where it combines, and a failure
cancels; a combining key goes with the requests it has `ctl.cmbwait` cycles after its first. The model's choices in it: log
57, 58, 111. -/
def Obligations.CommandEvents : Prop :=
  (∀ (s : State) (c : Cmd) (r : CmdResult) (w : Word) (u : State), w = statusWord c r →
    u = (((s.clockDone c (decide (r.outcome ≤ 1))).settleNotes c w (decide (r.outcome ≤ 1))).unlockCmd c.th c.seq).chainRelease c
      r →
    ((∃ n ∈ (s.ctx c.th).notes, n.th = c.th ∧ n.seq = c.seq ∧ n.own = true) →
      (c.trap = false ∨ r.outcome = 0 → Goes s (.commandCompletion c r) (u.reportResult c r w)) ∧
      (c.trap = true → r.outcome ≠ 0 → Goes s (.commandCompletion c r)
        ((u.reportResult c r w).defer c.th { cause := 0x0A, tval := w, seq := c.seq }))) ∧
    ((∀ n ∈ (s.ctx c.th).notes, ¬ (n.th = c.th ∧ n.seq = c.seq ∧ n.own = true)) →
      (r.outcome = 0 → Goes s (.commandCompletion c r) u) ∧
      (r.outcome ≠ 0 → Goes s (.commandCompletion c r)
        (u.failOf c.lid 0x34 (u.quadIdentity c.lid (quadOf (coreOf c.th)) none).toNat r.error)))) ∧
  (∀ (s : State) (c : Cmd) (r : CmdResult) (place : Nat) (set : Option Parked → State), place = placeOfUnit c.th c.nsel →
    (∀ p, set p = s.modEngine c.nsel place fun e => e.setSlot c.lid c.nslot p) →
    (c.chain = false ∨ r.outcome = 4 → s.chainRelease c r = s) ∧
    (c.chain = true → r.outcome = 0 →
      (∀ d, (s.engine c.nsel place).slot c.lid c.nslot = some (.parked d) → s.chainRelease c r =
        if d.combines then ((set none).noteSuccessor c.th c.seq d).combine d
        else ((set none).noteSuccessor c.th c.seq d).modEngine d.unit d.place fun e => { e with loose := e.loose ++ [d] }) ∧
      ((s.engine c.nsel place).slot c.lid c.nslot = none → s.chainRelease c r = set (some (.released c.th c.seq)))) ∧
    (c.chain = true → r.outcome ≠ 0 → r.outcome ≠ 4 →
      (∀ d, (s.engine c.nsel place).slot c.lid c.nslot = some (.parked d) →
        s.chainRelease c r = (set none).complete d ⟨3, eCANCELLED, 0⟩) ∧
      ((s.engine c.nsel place).slot c.lid c.nslot = none → s.chainRelease c r = set (some .cancelled)))) ∧
  (∀ (s : State) (quad key : Nat),
    ((∀ k ∈ (s.quad quad).comb, k.key = key → k.expected = 0 ∨ s.hub.cycle < k.since + (s.quad quad).cmbwait) →
      Goes s (.combineTimeout quad key) s) ∧
    ∀ k, (s.quad quad).comb.find? (fun k =>
        k.key = key && k.expected ≠ 0 && k.since + (s.quad quad).cmbwait ≤ s.hub.cycle) = some k →
      Goes s (.combineTimeout quad key) (s.issueCombined quad k))

/-- 02 R55-R63, R82, 03 R81, R87, R111, 06 R211: a start of a launch that is gone is dropped; a core with a free context
takes it and starts its task, else it refuses; a context that becomes free is held for the first refused, whose sender tries
again and finds it, starts going in the order of refusal, past those of launches that a rung of the ladder holds, and none
while a round of `slotw` or a change of mode is open (log 106); one from outside the partition is dropped (20 R479), and one
of a launch that is gone too (log 35); a context becomes free once it is Retiring with nothing outstanding; a deferred trap,
the end of a sleep and a new slot table come at a slot. The model's choices in it: log 35, 54, 81, 104, 106. -/
def Obligations.TasksAtCores : Prop :=
  (∀ (s : State) (core : Nat) (m : Start) (i : Instr), (∃ f, m = .firing f ∧ i = .firingDelivery core f) ∨
      (∃ w, m = .wake w ∧ core = w.core ∧ i = .wakeMessage w) →
    (s.strays (startLid m) (quadOf core) = true → Goes s i
      (s.dropAt (dieOf (quadOf core)) (windowAddr (4 * quadOf core) 0 0) (startLid m))) ∧
    (s.strays (startLid m) (quadOf core) = false →
    (s.startGone m = true → Goes s i (s.dropStart m)) ∧
    (∀ th, s.startGone m = false → s.startable m = true → (s.core core).refusal = [] → (s.core core).round = none →
      (s.core core).repart = none → s.freeCtx core = some th → Goes s i (((s.startTask th m).stampStart th m).startAccepted m)) ∧
    (s.startGone m = false → (s.startable m = false ∨ (s.core core).refusal ≠ [] ∨ (s.core core).round ≠ none ∨
      (s.core core).repart ≠ none ∨ s.freeCtx core = none) → Goes s i (s.refuse core m)))) ∧
  (∀ (s : State) (core : Nat) (m : Start),
    Goes s (.contextFreeNotice core m) (s.send none (.refusalRetry core m)) ∧
    (∀ l f, s.reconOf m = some (l, f) → Goes s (.refusalRetry core m) (s.offerRecon l f)) ∧
    (s.reconOf m = none → (∃ p ∈ (s.core core).heldFor, p.2 = (m, false)) → Goes s (.refusalRetry core m)
      ((s.modCore core fun k => { k with heldFor := markArrived m k.heldFor }).serveCore core)) ∧
    (s.reconOf m = none → (∀ p ∈ (s.core core).heldFor, p.2 ≠ (m, false)) →
      Goes s (.refusalRetry core m) (s.deliverStart core m))) ∧
  (∀ (m x : Start) (b : Bool) (th : Nat) (l : List (Nat × Start × Bool)),
    markArrived m ((th, x, b) :: l) = if x = m ∧ b = false then (th, m, true) :: l else (th, x, b) :: markArrived m l) ∧
  (∀ (s : State) (core n : Nat),
    ((s.core core).round ≠ none ∨ (s.core core).repart ≠ none → s.startHeld core (n + 1) = s) ∧
    ((s.core core).round = none → (s.core core).repart = none →
      (s.nextHeld core = none → s.startHeld core (n + 1) = s) ∧
      (∀ th m, s.nextHeld core = some (th, m, false) → s.startHeld core (n + 1) = s) ∧
      ∀ th m, s.nextHeld core = some (th, m, true) →
        (s.heldPlace core th = none → s.startHeld core (n + 1) = s) ∧
        ∀ place u, s.heldPlace core th = some place → u = s.modCore core (fun k => { k with
            heldFor := k.heldFor.erase (th, m, true) }) →
          (u.startGone m = true → s.startHeld core (n + 1) = (u.dropStart m).startHeld core n) ∧
          (u.startGone m = false → s.startHeld core (n + 1) = ((u.startTask place m).startAccepted m).startHeld core n))) ∧
  (∀ (s : State) (core : Nat) (t : State), t = s.startHeld core (s.core core).heldFor.length →
    ((t.core core).round ≠ none ∨ (t.core core).repart ≠ none → s.serveCore core = t) ∧
    ((t.core core).round = none → (t.core core).repart = none →
      s.serveCore core = t.serveRefused core (t.core core).refusal.length) ∧
    ((s.core core).refusal = [] ∨ s.freeCtx core = none → s.serveRefusals core = s) ∧
    ∀ m rest th, (s.core core).refusal = m :: rest → s.heldPlaced core = true → s.freeCtx core = some th →
      s.serveRefusals core = (s.modCore core fun k => { k with
        refusal := rest, heldFor := k.heldFor ++ [(th, m, false)] }).send none (.contextFreeNotice core m)) ∧
  (∀ (s : State) (th : Nat),
    (((s.ctx th).status ≠ .retiring ∨ (s.ctx th).counterZero = false ∨ (s.ctx th).prods ≠ []) → Goes s (.contextFree th) s) ∧
    ((s.ctx th).status = .retiring → (s.ctx th).counterZero = true → (s.ctx th).prods = [] →
      ((s.core (coreOf th)).repart = none → Goes s (.contextFree th) ((s.freeNow th).serveCore (coreOf th))) ∧
      ∀ t m, (s.core (coreOf th)).repart = some (t, m) → Goes s (.contextFree th)
        ((if t = th then (s.freeNow th).installMode (coreOf th) m else s.freeNow th).serveCore (coreOf th))) ∧
    (firstTrap (s.ctx th).due = none → Goes s (.deferredTrap th) s) ∧
    (∀ t, firstTrap (s.ctx th).due = some t → Goes s (.deferredTrap th)
      ((s.modCtx th fun c => { c with deferred := c.deferred.erase t }).takeTrap th t)) ∧
    ((s.ctx th).status = .sleeping → (s.ctx th).sleepUntil ≤ (s.core (coreOf th)).cycle →
      Goes s (.sleepEnd th) (s.modCtx th fun c => { c with status := .ready })) ∧
    (((s.ctx th).status ≠ .sleeping ∨ (s.core (coreOf th)).cycle < (s.ctx th).sleepUntil) → Goes s (.sleepEnd th) s)) ∧
  (∀ (s : State) (core : Nat) (t : List (BitVec 8)),
    ((s.core core).nextSlots = none → Goes s (.slotTableSwitch core) s) ∧
    ((s.core core).nextSlots = some t → (s.core core).cycle % 32 ≠ 0 → Goes s (.slotTableSwitch core) s) ∧
    ((s.core core).nextSlots = some t → (s.core core).cycle % 32 = 0 → Goes s (.slotTableSwitch core)
      (s.modCore core fun k => { k with slots := t, nextSlots := none, quiet := 3 })))

/-- 02 R45-R49, R64-R66, 18 R436: an arriving record gets the next arrival number and an entry, the oldest resident record
going to the overflow area in memory where there is none, or goes there itself, so that the launch loses its bounds (17
R416), and a spilled record is read there; one of a saved launch joins the saved inbox of its quad; a duplicate of an
ordered launch and a full pool fail the launch; the pending record with the lowest number is processed as a trigger until no
rule fits it, and is then resident; the oldest spilled record of a part below its mark comes back, when the home of its
bytes has room (23 R550); a quiescent logical quad gives up its turn. The model's choices in it: log 23, 35, 64, 106, 107,
108, 109, 111. -/
def Obligations.FretboardEvents : Prop :=
  (∀ (s : State) (a : Arrival) (l : Launch) (r : FRec) (u : State), s.launch a.lid = some l →
    r = { record := a.record, lid := a.lid, lq := a.lq, arr := get 0 (s.fret a.quad).arrCount a.lid, entry := none
          processed := false, since := none, pending := true, reserved := false, marks := a.marks, came := s.hub.cycle } →
    s.strays (some a.lid) a.quad = false → u = s.modLaunch a.lid (fun l => { l with received := l.received + 1 }) →
    (l.ladder = .saved → Goes s (.recordArrival a) (s.modHub fun h => { h with
      saved := h.saved.map fun x => if x.lid = a.lid && s.partQuadNo l.part a.quad = some x.no then
        { x with inbox := x.inbox ++ [{ pair := none, ev := .recordArrival { a with quad := x.quad } }] } else x })) ∧
    (l.ladder ≠ .saved → l.state = .failed → Goes s (.recordArrival a) u) ∧
    (l.ladder ≠ .saved → l.state ≠ .failed → l.ordered = true →
      (∃ x ∈ (s.fret a.quad).of a.lid a.lq, (x.processed = true ∨ x.reserved = true) ∧ x.record.tag = a.record.tag) →
        Goes s (.recordArrival a) (u.failLaunch a.lid 0x33 a.lq 0)) ∧
    (l.ladder ≠ .saved → l.state ≠ .failed → (l.ordered = false ∨
      ∀ x ∈ (s.fret a.quad).of a.lid a.lq, ¬ ((x.processed = true ∨ x.reserved = true) ∧ x.record.tag = a.record.tag)) →
        Goes s (.recordArrival a) ((((u.modLaunch a.lid fun l => { l with inserts := l.inserts + 1 }).modFret a.quad fun f =>
          { f with arrCount := put 0 f.arrCount a.lid (r.arr + 1) }).takeIn a.quad l r).outputArrived a.quad a.lid l a.record))) ∧
  (∀ (s : State) (a : Arrival), (s.launch a.lid = none → Goes s (.recordArrival a) s) ∧
    (s.strays (some a.lid) a.quad = true → Goes s (.recordArrival a)
      (s.dropAt (dieOf a.quad) (windowAddr (4 * a.quad) 0 0) (some a.lid)))) ∧
  (∀ (s : State) (quad : Nat) (l : Launch) (r : FRec),
    (∀ k, s.freeEntry quad r.lid = some k →
      s.takeIn quad l r = s.modFret quad fun f => { f with recs := f.recs ++ [{ r with entry := some k }] }) ∧
    (s.freeEntry quad r.lid = none → l.spill ≤ s.spilledCount quad r.lid →
      s.takeIn quad l r = s.failLaunch r.lid 0x32 r.lq 0) ∧
    (s.freeEntry quad r.lid = none → s.spilledCount quad r.lid < l.spill →
      (∀ o k, s.spillable quad r.lid = some o → k = s.freeSlot quad o.lid →
        s.takeIn quad l r = ((s.loseBound (some o.lid)).spillOut quad o k).modFret quad fun f => { f with
          recs := (f.recs.map fun x =>
              if x.lid = o.lid && x.arr = o.arr then { x with entry := none, slot := some k } else x) ++
            [{ r with entry := o.entry }] }) ∧
      ∀ k, s.spillable quad r.lid = none → k = s.freeSlot quad r.lid → s.takeIn quad l r =
        ((s.loseBound (some r.lid)).spillOut quad r k).modFret quad fun f => { f with
          recs := f.recs ++ [{ r with entry := none, slot := some k }] }) ∧
    (r.slot = none → s.examined quad r = r) ∧
    ∀ k x, r.slot = some k → x = s.rd (s.overflowPlace quad r.lid k) 16 → s.examined quad r =
      { r with record := ⟨BitVec.ofNat 64 x, BitVec.ofNat 64 (x / 2 ^ 64)⟩ }) ∧
  (∀ (s : State) (quad : Nat),
    ((s.fret quad).recs.find? (s.mayProcess quad) = none → Goes s (.processTrigger quad) s) ∧
    ∀ t l, (s.fret quad).recs.find? (s.mayProcess quad) = some t → s.launch t.lid = some l → s.multiplexed l quad = false →
      Goes s (.processTrigger quad) ((s.process quad t.lid t.arr ((s.fret quad).recs.length + 1)).modFret quad fun k =>
        { k with
          trigCount := put 0 k.trigCount (trigKey t.lid t.lq) (get 0 k.trigCount (trigKey t.lid t.lq) + 1)
          recs := k.recs.map fun r => if r.lid = t.lid && r.arr = t.arr && !r.reserved then
            { r with processed := true, pending := false, since := some (get 0 k.trigCount (trigKey t.lid t.lq)) } else r })) ∧
  (∀ (s : State) (quad lid arr n : Nat) (l : Launch) (t : FRec), s.launch lid = some l →
    ((s.fret quad).recs.find? fun r => r.lid = lid && r.arr = arr && !r.reserved).map (s.examined quad) = some t →
      (∀ k, s.findGroup quad l t = (none, k) → s.process quad lid arr (n + 1) = s) ∧
      ∀ rule g k, s.findGroup quad l t = (some (rule, g), k) →
        s.process quad lid arr (n + 1) = (s.dispatch quad l t rule g k).process quad lid arr n) ∧
  (∀ (s : State) (quad : Nat),
    (∀ lid n, n = (s.entriesOf (some lid)).2 →
      (s.belowMark quad lid = true ↔ (s.entriesUsed quad lid).length < n - n / 32)) ∧
    ((∀ r ∈ (s.fret quad).recs, r.entry = none → s.belowMark quad r.lid = false) → Goes s (.spillReturn quad) s) ∧
    ∀ r, (s.fret quad).recs.find? (fun r => r.entry.isNone && s.belowMark quad r.lid) = some r →
      (s.portAdmits (s.overflowPort quad r.lid) = false → Goes s (.spillReturn quad) s) ∧
      (s.portAdmits (s.overflowPort quad r.lid) = true → Goes s (.spillReturn quad)
        ((s.letIn (s.overflowPort quad r.lid)).modFret quad fun f => { f with recs := f.recs.map fun x =>
          if x.lid = r.lid && x.arr = r.arr then { s.examined quad r with entry := s.freeEntry quad r.lid, slot := none }
          else x }))) ∧
  (∀ (s : State) (quad : Nat), Goes s (.logicalQuadTurn quad) ((s.turnEnds quad 0).turnEnds quad 1) ∧
    ∀ half, (get none (s.quad quad).turn half = none → s.turnEnds quad half = s) ∧
      ∀ k l, get none (s.quad quad).turn half = some k → s.launch (k / 32768) = some l →
        (s.quiescent quad (k / 32768) (k % 32768) = false → s.turnEnds quad half = s) ∧
        (s.nextTurn l quad (k / 32768) (k % 32768) = none → s.turnEnds quad half = s))

/-- 02 R70-R72, 11 R368, R381-R385, 21 R508: the scheduler posts the explicit seeds, then the records of the walk's points
while fewer than its window are unfinished; the reconstruction unit performs its oldest firing when it is its turn; a launch
that runs is stable when two equal waves find as many records received as sent, nothing active and no hole left; while
luthier is down no record is posted and no stability is declared (21 R518); the first launch in line starts when its pinned
code is loaded, its quads are free and luthier is up, and the requests held for it are served. The model's choices in it:
log 33, 34, 96. -/
def Obligations.LaunchProgress : Prop :=
  (∀ (s : State) (lid : Nat), s.launch lid = none →
    Goes s (.walkerEmit lid) s ∧ Goes s (.holeUnresolved lid) s ∧ Goes s (.stabilityWave lid) s ∧ Goes s (.launchStart lid) s) ∧
  (∀ (s : State) (lid : Nat) (l : Launch), s.launch lid = some l → l.matching = true → s.hub.fw.running = true →
    (∀ r, l.seedList[l.seedPos]? = some r → Goes s (.walkerEmit lid)
      ((s.modLaunch lid fun l => { l with seedPos := l.seedPos + 1 }.seeded).postSeed lid l r none)) ∧
    (l.seedList[l.seedPos]? = none → l.walkDone = true → Goes s (.walkerEmit lid) (s.modLaunch lid Launch.seeded)) ∧
    (∀ w, l.seedList[l.seedPos]? = none → l.walkDone = false → l.walk = some w →
      Goes s (.walkerEmit lid) ((s.modLaunch lid Launch.seeded).emitPoint lid l.seeded w)) ∧
    (∀ wave : Nat × Nat × Bool, wave = (l.sent, l.received, s.activeLaunch lid l) →
      (l.sent = l.received → s.activeLaunch lid l = false → l.lastWave = some wave → s.holesLeft lid l = [] →
        l.state = .running → Goes s (.stabilityWave lid) (s.declareStable lid)) ∧
      (l.sent = l.received → s.activeLaunch lid l = false → l.lastWave = some wave → s.holesLeft lid l ≠ [] →
        l.state = .running → Goes s (.stabilityWave lid) (s.modLaunch lid fun l =>
          { l with lastWave := some wave, holesDue := true })) ∧
      (l.state = .seeding → Goes s (.stabilityWave lid) s) ∧
      (l.state = .running → (l.sent ≠ l.received ∨ s.activeLaunch lid l = true ∨ l.lastWave ≠ some wave) →
        Goes s (.stabilityWave lid) (s.modLaunch lid fun l => { l with lastWave := some wave, holesDue := false })))) ∧
  (∀ (s : State) (lid : Nat) (l : Launch) (w : Walk),
    (w.window ≤ l.unfinished.length → s.emitPoint lid l w = s) ∧
    (l.unfinished.length < w.window → l.cover = none → ∃ l1, s.emitPoint lid l w =
        (s.modLaunch lid fun _ => l1).postSeed lid l1
          ⟨mkTag w.work l.gen (l.walkPos % w.nx) (l.walkPos / w.nx % w.ny) (l.walkPos / (w.nx * w.ny)),
            w.locator (w.point l.walkPos)⟩ none ∧
      l1.walkPos = l.walkPos + 1 ∧ l1.unfinished = l.unfinished ++ [w.pos (w.point l.walkPos)] ∧
      (l1.walkDone = true ↔ w.nx * w.ny * w.nz ≤ l.walkPos + 1) ∧ l1.ctl.kept = l.ctl.kept + 1)) ∧
  (∀ (s : State) (lid : Nat) (l : Launch), s.launch lid = some l →
    (l.matching = false ∨ s.hub.fw.running = false → Goes s (.walkerEmit lid) s) ∧
    (l.matching = false → Goes s (.stabilityWave lid) s) ∧
    (l.matching = true → s.hub.fw.running = false → l.state = .running → s.holesLeft lid l = [] → Goes s (.stabilityWave lid)
      (s.modLaunch lid fun k => { k with lastWave := some (l.sent, l.received, s.activeLaunch lid l), holesDue := false }))) ∧
  (∀ (s : State) (quad : Nat), ((s.quad quad).recon.held = [] → Goes s (.reconFiring quad) s) ∧
    (s.firingNext quad = false → Goes s (.reconFiring quad) s) ∧
    ∀ f l, (s.quad quad).recon.held = f :: l → s.firingNext quad = true → Goes s (.reconFiring quad)
      ((s.modEngine 3 quad fun e => { e with last := 2 ^ 21 }).reconFire quad f)) ∧
  (∀ (s : State) (lid : Nat) (l : Launch), s.launch lid = some l →
    (l.holesDue = false ∨ l.state = .failed → Goes s (.holeUnresolved lid) s) ∧
    (l.holesDue = true → l.state ≠ .failed → Goes s (.holeUnresolved lid)
      ((s.holesLeft lid l).foldl (fun s p => s.fillHole lid p.1 p.2) s)) ∧
    ((l.state ≠ .pending ∨ s.hub.fw.running = false ∨ s.firstInLine lid l = false ∨ s.codeLoading lid l = true) →
      Goes s (.launchStart lid) s) ∧
    ∀ t b, l.state = .pending → s.hub.fw.running = true → s.firstInLine lid l = true → s.codeLoading lid l = false →
      s.makeRoom lid l = (t, b) → (b = false → Goes s (.launchStart lid) t) ∧ (b = true →
      Goes s (.launchStart lid) (((((t.partQuads l.part).foldl (fun s q => s.startQuad lid l q) t).queueServed l).modLaunch lid
        fun l => { l with state := .seeding, holding := true }.seeded).serveHeld lid))) ∧
  ∀ (s : State) (l : Launch), s.queueServed l = s.modHub fun h =>
    { h with rr := put 16383 h.rr (s.schedDie l.part * 8 + l.prio) l.queue }

/-! ### Translation, queues, requests, packets, links (19, 20) -/

/-- 17 R414, 20 R483, R487-R492, 23 R550: the walker of a die goes on with the oldest of its 64 walks that can, behind none
of its own source, as far as the memory ports admit its requests; an access is translated, cached, checked and sent on,
parked at a page fault (one of 256 at most, and its launch loses its bounds), refused at a denied granule; an answer, while
luthier runs, walks it again or refuses it; a line whose page the quad has is read into its cache, another waits for its
walk; a commit of a context drops its translations; ownership is set over a range; the fence waits for what is on its way.
The model's choices in it: log 47, 53, 61, 83, 84, 100, 102, 111. -/
def Obligations.TranslationEvents : Prop :=
  (∀ (s : State) (die : Nat) (may : Nat → Prop),
    (∀ k, may k ↔ ∃ x, (s.die die).walks[k]? = some x ∧ s.walkReady die x = true ∧
      ∀ src, itemSource x = some src → ∀ y ∈ (s.die die).walks.take k, itemSource y ≠ some src) →
    ((∀ k < 64, ¬ may k) → Goes s (.translationWalk die) s) ∧
    ∀ k x, k < 64 → may k → (∀ j < k, ¬ may j) → (s.die die).walks[k]? = some x →
      Goes s (.translationWalk die) (s.walkOn die k x)) ∧
  (∀ (s : State) (die k : Nat) (x : XItem) (asks : List Nat) (r : State × Nat),
    (s.walkReady die x = true ↔
      (∀ src, itemSource x = some src → ∀ p ∈ (s.die die).parked, itemSource p.item ≠ some src) ∧
        ((s.die die).parked.length < 256 ∨ s.itemFaults x = false) ∧
        ∀ p, ((s.walkAsks die x).drop ((s.die die).gotOf x)).head? = some p → s.portAdmits p = true) ∧
    (asks = s.walkAsks die x → r = s.ask (asks.drop ((s.die die).gotOf x)) ((s.die die).gotOf x) →
      (asks.length ≤ r.2 → s.walkOn die k x = (r.1.modDie die fun d =>
        { d with walks := d.walks.eraseIdx k, got := d.got.filter fun p => p.1 ≠ x }).walkItem die x) ∧
      (r.2 < asks.length → s.walkOn die k x = r.1.modDie die fun d =>
        { d with got := (d.got.filter fun p => p.1 ≠ x) ++ [(x, r.2)] }))) ∧
  (∀ (s : State) (p n : Nat) (l : List Nat), s.ask [] n = (s, n) ∧
    (s.portAdmits p = true → s.ask (p :: l) n = (s.letIn p).ask l (n + 1)) ∧ (s.portAdmits p = false → s.ask (p :: l) n = (s, n))) ∧
  (∀ (s u : State) (die : Nat) (f : ParkedFault), u = s.loseBound (itemLid f.item) →
    ((u.die die).parked.length < 256 → s.parkOrWait die f = u.modDie die fun d => { d with parked := d.parked ++ [f] }) ∧
    (256 ≤ (u.die die).parked.length → s.parkOrWait die f = u.modDie die fun d => { d with walks := d.walks ++ [f.item] })) ∧
  (∀ (s : State) (die : Nat) (r : Req) (va quad : Nat), va = globalVa r.addr → quad = quadOf (coreOf r.th) →
    (∀ v size pa w u, s.lookUp quad r.xctx r.level va (opWrites r.op) = .page v size pa w →
      u = s.cacheFill quad { xctx := r.xctx, va := v, size := size, pa := pa, write := w } →
      ((r.lid.bind s.launch).isSome = false ∨ s.portAllowed quad (pa + (va - v)) = true →
        s.walkItem die (.access r) = u.send (routeOf { r with pa := some (pa + (va - v)) })
          (.remoteAccess { r with pa := some (pa + (va - v)) })) ∧
      ((r.lid.bind s.launch).isSome = true → s.portAllowed quad (pa + (va - v)) = false →
        s.walkItem die (.access r) = u.failReq r 0x04)) ∧
    (∀ k, s.lookUp quad r.xctx r.level va (opWrites r.op) = .fault k → s.walkItem die (.access r) = s.parkOrWait die {
      item := .access r, va := BitVec.ofNat 64 va, xctx := r.xctx, kind := faultKind k, access := accessCode r.op
      requester := coreOf r.th + ctxOf r.th * 2 ^ 16 }) ∧
    (∀ pa, s.lookUp quad r.xctx r.level va (opWrites r.op) = .denied pa →
      s.walkItem die (.access r) = (s.security die (BitVec.ofNat 64 pa) r.lid).failReq r 0x04)) ∧
  (∀ (s : State) (die n : Nat) (f : ParkedFault),
    (∀ b, s.hub.fw.running = false ∨ (s.die die).parked[n]? = none → Goes s (.faultAnswer die n b) s) ∧
    (s.hub.fw.running = true → (s.die die).parked[n]? = some f →
      Goes s (.faultAnswer die n true) ((s.modDie die fun d => { d with parked := d.parked.eraseIdx n }).modDie die fun d =>
        { d with walks := f.item :: d.walks }) ∧
      Goes s (.faultAnswer die n false) ((s.modDie die fun d => { d with parked := d.parked.eraseIdx n }).refuseItem f.item)) ∧
    ∀ r, s.refuseItem (.access r) = s.failReq r 0x05) ∧
  (∀ (s : State) (quad xctx line va : Nat) (pins : List Nat), va = line * 128 % 2 ^ 52 →
    (s.cached quad xctx va false = none → Goes s (.instructionCacheFill quad xctx line)
      (s.modDie (dieOf quad) fun d => { d with walks := d.walks ++ [.fetch quad xctx line] })) ∧
    (s.cached quad xctx va false ≠ none →
      Goes s (.instructionCacheFill quad xctx line) (s.readLine quad xctx line (s.pinsOf quad xctx line))) ∧
    (∀ v size pa w, s.lookUp quad xctx (fetchLevel xctx) va false = .page v size pa w → s.readLine quad xctx line pins =
      (s.cacheFill quad { xctx := xctx, va := v, size := size, pa := pa, write := w }).modQuad quad (fillLine {
        xctx := xctx, line := line, bytes := Memory.bytes s.mem (Place.tier (pa + (va - v))).key 128, pins := pins })) ∧
    ∀ k, s.lookUp quad xctx (fetchLevel xctx) va false = .fault k →
      s.readLine quad xctx line pins = s.parkOrWait (dieOf quad) {
        item := .fetch quad xctx line, va := BitVec.ofNat 64 (line * 128), xctx := xctx, kind := faultKind k, access := 0
        requester := quad * 4 }) ∧
  (∀ (s : State) (x : Word) (id : Nat), id = x.toNat % 65536 →
    Goes s (.xcselWrite x) ((s.modHub fun h => { h with xcsel := id, xctxs := put {} h.xctxs id {
      valid := h.xcw0.getLsbD 63, part := h.xcw0.toNat / 2 ^ 58 % 32, tenant := h.xcw0.toNat / 2 ^ 50 % 256
      root := h.xcw1.toNat / 2 ^ 16 % 2 ^ 36 } }).dropTlb (fun _ => true) (fun _ => true) fun t => t.xctx = id)) ∧
  (∀ (s : State) (x : Word), x.getLsbD 10 = false →
    Goes s (.ownsetGo x) (s.modHub fun h => { h with ownSet := x &&& 0x3FF })) ∧
  (∀ (s : State) (x : Word) (e : BitVec 16), x.getLsbD 10 = true →
    e.toNat = x.toNat / 2 ^ 9 % 2 * 2 ^ 15 + x.toNat / 2 ^ 8 % 2 * 2 ^ 14 + x.toNat % 256 →
      Goes s (.ownsetGo x) ((List.range (s.hub.ownRange.toNat / 2 ^ 41 % 2 ^ 23 + 1)).foldl
        (fun s k => s.setOwner e (s.hub.ownRange.toNat / 2 ^ 16 % 2 ^ 25 + k))
          (s.modHub fun h => { h with ownSet := x &&& 0x3FF }))) ∧
  (∀ (s : State) (e : BitVec 16) (g : Nat), g < 2 ^ 25 →
    ∀ k, k / 65536 = g → (get 0 s.hub.own g &&& 0x40FF ≠ e &&& 0x40FF → Memory.byte (s.setOwner e g).mem k = 0) ∧
      (get 0 s.hub.own g &&& 0x40FF = e &&& 0x40FF → Memory.byte (s.setOwner e g).mem k = Memory.byte s.mem k)) ∧
  ∀ (s : State) (x : Word), (x.getLsbD 0 = false → Goes s (.xfenceGo x) s) ∧
    (x.getLsbD 0 = true → Goes s (.xfenceGo x) (s.modHub fun h => { h with
      fence := s.net.filterMap fun f => globalInFlight f.ev }))

/-- 19 R448-R457, 21 R508-R511: a doorbell beyond the queue's size overflows, one behind the producer is counted and
ignored, and a new producer value is taken; the registers of a queue that is not enabled are written; a service core accepts
its next record, once it has been read and memory admits what the acceptance writes, and performs what it asks for; a record
of a queue without a valid context is taken (log 135), a launch in one of another partition fails; a request reaches its
launch, waits for it, or fails, in the order in which its service core accepted it, a release held back by none; a launch
reads its image part by part; one that takes over another needs that one Complete; an idle service core steals a queue,
which goes back once the stealer has accepted a request of it and holds none. The model's choices in it: log 32, 71, 73, 74,
125, 135. -/
def Obligations.QueuesAndRequests : Prop :=
  (∀ (s : State) (k : Nat) (p : Word) (q : Queue) (x : BitVec 32), q = s.queueOf k → x = p.setWidth 32 →
    (qSize q.cfg < (x - q.cons).toNat → Goes s (.doorbell k p) (s.modQueue k fun q => { q with ovf := true })) ∧
    ((x - q.cons).toNat ≤ qSize q.cfg → (x - q.cons).toNat < (x - q.prod).toNat →
      Goes s (.doorbell k p) (s.modQueue k fun q => { q with dbbad := min 0xFFFF (q.dbbad + 1) })) ∧
    ((x - q.cons).toNat ≤ qSize q.cfg → (x - q.prod).toNat ≤ (x - q.cons).toNat → x ≠ q.prod →
      Goes s (.doorbell k p) ((s.modQueue k fun q => { q with prod := x }).modHub fun h => { h with
        bells := h.bells ++ [(k, x.toNat)] }))) ∧
  (∀ (s : State) (k reg : Nat) (x : Word),
    (2 < reg → Goes s (.qcfgWrite k reg x) s) ∧
    (reg ≤ 2 → qEn (s.queueOf k).cfg = true →
      Goes s (.qcfgWrite k reg x) (s.modQueue k fun q => { q with dbbad := min 0xFFFF (q.dbbad + 1) })) ∧
    (qEn (s.queueOf k).cfg = false →
      (x.getLsbD 63 = false → Goes s (.qcfgWrite k 0 x) (s.modQueue k fun q => { q with cfg := x &&& 0xFFFFFFFFFFFC0000 })) ∧
      Goes s (.qcfgWrite k 1 x) (s.modQueue k fun q => { q with base := x &&& 0xFFFFFFFFFFFC0 }) ∧
      Goes s (.qcfgWrite k 2 x) (s.modQueue k fun q => { q with pre := x &&& 0xFFFFFFFF }))) ∧
  (∀ (s : State) (svc : Nat),
    (s.hub.fw.running = false ∨ s.hub.fw.busy = true ∨ s.nextBell svc = none → Goes s (.requestAccept svc) s) ∧
    (∀ k, s.hub.fw.running = true → s.hub.fw.busy = false → s.nextBell svc = some k →
      (get {} s.hub.xctxs (qXctx (s.queueOf k).cfg)).valid = false → Goes s (.requestAccept svc) (s.commit k)) ∧
    ∀ k q a t p r ports u, s.hub.fw.running = true → s.hub.fw.busy = false → s.nextBell svc = some k → q = s.queueOf k →
      (get {} s.hub.xctxs (qXctx q.cfg)).valid = true → a = q.base.toNat + 64 * (q.cons.toNat % qSize q.cfg) → t = s.reachBytes (qXctx q.cfg) a 64 →
      p = readRequest k (t.virtRead (qXctx q.cfg) a 64) →
      r = { p.1 with stamp := t.stamp, order := t.hub.accepts, svc := svc, takeOk := t.takesOver p.1 } →
      ports = t.ownPorts (qXctx q.cfg) r.compl.toNat 0x1C true →
      u = (((t.ask ports 0).1.readOver (qXctx q.cfg) a 64).commit k).writeAccepted k r →
        (t.reached (qXctx q.cfg) a 64 = false ∨ (t.ask ports 0).2 < ports.length → Goes s (.requestAccept svc) t) ∧
        (t.reached (qXctx q.cfg) a 64 = true → ports.length ≤ (t.ask ports 0).2 →
        (r.kind = 1 → (get {} t.hub.xctxs (qXctx q.cfg)).part ≠ qPart q.cfg →
          Goes s (.requestAccept svc) (u.answerReq r 3 0x31 0)) ∧
        (r.kind ≠ 1 ∨ (get {} t.hub.xctxs (qXctx q.cfg)).part = qPart q.cfg →
        (p.2 = true → r.kind ≠ 3 → Goes s (.requestAccept svc) (u.send (some (endHub, 70000 + svc)) (requestEvent r))) ∧
        (p.2 = true → r.kind = 3 → Goes s (.requestAccept svc) ((u.modLaunch (k * 2 ^ 32 + r.handle) fun l => { l with
          closing := l.closing || l.state ≠ .failed }).send (some (endHub, 70000 + svc)) (.closeSources r))) ∧
        (p.2 = false → Goes s (.requestAccept svc) (u.answerReq r 3 0x3A 0))))) ∧
  (∀ (s : State) (r : Request) (x lid old : Nat) (parts : List (Nat × Nat)) (fin : State → State),
    x = qXctx (s.queueOf r.queue).cfg → lid = r.queue * 2 ^ 32 + r.handle → old = r.queue * 2 ^ 32 + r.takeHandle →
    parts = [(r.arg.toNat, 0x40), (r.arg.toNat, imageEnd fun o n => s.virtRead x (r.arg.toNat + o) n)] ++
      (if r.coll = 0 then [] else [(r.coll.toNat, groupsEnd (fun o n => s.virtRead x (r.coll.toNat + o) n) 16 0)]) →
    fin = (fun u => parts.foldl (fun t p => t.readOver x p.1 p.2) u) →
    (∀ p, parts.find? (fun p => !s.reached x p.1 p.2) = some p → Goes s (.launch r) { s.reachBytes x p.1 p.2 with
      net := { pair := some (endHub, 70000 + r.svc), ev := .launch r } :: s.net }) ∧
    ((∀ p ∈ parts, s.reached x p.1 p.2 = true) →
        ((∃ l, s.launch lid = some l) → Goes s (.launch r) (fin (s.answerReq r 3 0x3A 0))) ∧
        (s.launch lid = none → r.take = false → Goes s (.launch r) (fin (s.installLaunch r))) ∧
        (s.launch lid = none → r.take = true →
          (r.takeOk = false ∨ (∀ l, s.launch old = some l → l.state ≠ .complete) →
            Goes s (.launch r) (fin (s.answerReq r 3 0x3A 0))) ∧
          (r.takeOk = true → (∃ l, s.launch old = some l ∧ l.state = .complete) →
            Goes s (.launch r) (fin (s.installLaunch r)))))) ∧
  (∀ (s : State) (r : Request), s.takesOver r = true ↔
    (∃ l, s.launch (r.queue * 2 ^ 32 + r.takeHandle) = some l ∧ l.state = .complete) ∧
      ∀ f ∈ s.net, ∀ q, f.ev = .replay q ∨ f.ev = .release q →
        q.queue * 2 ^ 32 + q.handle ≠ r.queue * 2 ^ 32 + r.takeHandle) ∧
  (∀ (s : State) (r : Request) (i : Instr) (kind lid : Nat) (fin : State → State), (i, kind) ∈ [(Instr.replay r, 2), (.closeSources r, 3),
      (.release r, 4), (.dump r, 5), (.attachRing r, 6)] → lid = r.queue * 2 ^ 32 + r.handle →
    fin = (if kind = 2 then fun t => t.serveHeld lid else id) →
    (s.launch lid = none → Goes s i (fin (s.answerReq { r with kind := kind } 3 0x3B 0))) ∧
    ∀ l (now : Prop), s.launch lid = some l → (now ↔ (kind = 4 ∨ ∀ q ∈ l.requests, q.svc ≠ r.svc) ∧ reqAccepted l kind = true) →
      (¬ now → l.state = .failed → Goes s i (fin (s.answerReq { r with kind := kind } 3 0x3D 0))) ∧
      (¬ now → l.state ≠ .failed →
        Goes s i (fin (s.modLaunch lid fun l => { l with requests := l.requests ++ [{ r with kind := kind }] }))) ∧
      (now →
        (kind = 2 → Goes s i (fin (s.doReplay lid l { r with kind := 2 }))) ∧
        (kind = 3 → Goes s i (s.doClose lid { r with kind := 3 })) ∧
        (kind = 4 → Goes s i ((l.requests.foldl (fun t q => t.answerReq q 3 0x3B 0) (s.releaseLaunch lid)).answerReq
          { r with kind := 4 } 4 0 0)) ∧
        (kind = 5 → Goes s i (s.doDump lid l { r with kind := 5 })) ∧
        (kind = 6 → Goes s i (s.doAttach lid l { r with kind := 6 })))) ∧
  (∀ l : Launch, (reqAccepted l 2 = true ↔ l.state = .complete) ∧ (reqAccepted l 3 = true ↔ l.state ≠ .failed) ∧
    (reqAccepted l 4 = true ↔ l.state = .complete ∨ l.state = .failed) ∧
    (reqAccepted l 5 = true ↔ (l.state = .complete ∧ l.ladder ≠ .saved) ∨ l.state = .failed) ∧
    (reqAccepted l 6 = true ↔ (l.state = .seeding ∨ l.state = .running) ∧ l.isOpen = true ∧ l.closed = false)) ∧
  ∀ (s : State) (thief q : Nat) (may : Prop),
    (may ↔ thief < 16 ∧ s.hub.fw.running = true ∧ (s.queueOf q).full = true ∧ (∀ k ∈ s.queuesOf thief, (s.queueOf k).full = false) ∧
      (s.queueOf q).stolenBy = none ∧
      s.victim thief = some (s.queueOf q).server ∧ s.dieInPart (qPart (s.queueOf q).cfg) (thief / 4) = true) →
    (may → Goes s (.queueSteal thief q) (s.modQueue q fun x => { x with stolenBy := some thief, begun := false })) ∧
    (¬ may → Goes s (.queueSteal thief q) s) ∧
    s.returnQueues = ((s.hub.queues.filter fun p => p.2.begun && p.2.stolenBy.any fun t => !s.holdsRequest t p.1).map
      Prod.fst).foldl (fun s k => s.modQueue k fun x => { x with stolenBy := none }) s

/-- 19 R459-R464: a disabled ring takes a word that the hub accepts; words of a classifier entry are written; a frame that
is damaged, unclassified or to be dropped is counted by its cause, another goes to the ring of its first matching group in
effect, which keeps the words that it had when it took effect; a frame out leaves the next queue of its port, stamped when
the queue says so; a read of a departure stamp removes it. The model's choices in it: log 74, 76, 80, 131. -/
def Obligations.PacketEvents : Prop :=
  (∀ (s : State) (r : Nat) (x : Word),
    (ringEn (get {} s.hub.rings r).word = true ∨ s.ringOk x = false → Goes s (.ringConfigWrite r x) s) ∧
    (ringEn (get {} s.hub.rings r).word = false → s.ringOk x = true →
      Goes s (.ringConfigWrite r x) (s.modRing r fun g => { g with word := x &&& 0x87FFFFFFFF8FFFFF })) ∧
    (s.ringOk x = true ↔ 6 ≤ bits x.toNat 39 36 ∧ bits x.toNat 39 36 ≤ 14 ∧
      bits x.toNat 19 0 + (bits x.toNat 53 40 + 1) * 2 ^ bits x.toNat 39 36 ≤ 0x40000 ∧
      s.coreInPart (bits x.toNat 58 54) (bits x.toNat 35 23) = true)) ∧
  (∀ (s : State) (e : Nat) (x : Word),
    Goes s (.classifierWrite e 1 x) (s.modCls e fun c => { c with mask := x }) ∧
    Goes s (.classifierWrite e 2 x) (s.modCls e fun c => { c with value := x }) ∧
    Goes s (.classifierWrite e 3 x) (s.modCls e fun c => { c with action := x }) ∧
    ∀ same : Prop, (same ↔ x.getLsbD 63 = true ∧ x.getLsbD 62 = (s.clsEntry e).control.getLsbD 62) →
      ∀ u, (same → u = s) → (¬ same → u = s.modHub fun h => { h with
          groups := h.groups.filter fun g => !(g.first ≤ e && e < g.first + g.entries.length) }) →
        (x.getLsbD 63 = false ∨ x.getLsbD 62 = true →
          Goes s (.classifierWrite e 0 x) (u.modCls e fun c => { c with control := x })) ∧
        (x.getLsbD 63 = true → x.getLsbD 62 = false →
          Goes s (.classifierWrite e 0 x) ((u.modCls e fun c => { c with control := x }).enableGroup e))) ∧
  (∀ (s u : State) (e : Nat) (l : List Nat) (g : ClsGroup), l = s.groupOf e → u = l.foldl State.disableGroup s →
    g = { first := l.headD e, entries := l.map s.clsEntry } →
    (s.groupOk e = true → s.enableGroup e = u.modHub fun h => { h with
      groups := (h.groups.filter fun x => x.first < g.first) ++ [g] ++ h.groups.filter fun x => g.first < x.first }) ∧
    (s.groupOk e = false → s.hub.clsErr = true → s.enableGroup e = u) ∧
    (s.groupOk e = false → s.hub.clsErr = false →
      s.enableGroup e = u.modHub fun h => { h with clsErr := true, clsBad := g.first })) ∧
  (∀ (s : State) (port : Nat) (good : Bool) (frame : List Byte) (drop : Nat → State),
    (∀ c, drop c = s.modPort port fun p => { p with drops := put 0 p.drops c (min (2 ^ 32 - 1) (get 0 p.drops c + 1)) }) →
    (good = false → Goes s (.frameArrival port good frame) (drop 0)) ∧
    ((s.port port).galsol = false → 9216 < frame.length → Goes s (.frameArrival port good frame) (drop 0)) ∧
    (good = true → ((s.port port).galsol = true ∨ frame.length ≤ 9216) →
      ((∀ g ∈ s.hub.groups, ∃ c ∈ g.entries, c.matches port frame = false) →
        Goes s (.frameArrival port good frame) (drop 1)) ∧
      ∀ g act, s.hub.groups.find? (fun g => g.entries.all (ClsEntry.matches port frame)) = some g →
        act = (g.entries.getLastD {}).action →
          (act.getLsbD 0 = true → Goes s (.frameArrival port good frame) (drop 2)) ∧
          (act.getLsbD 0 = false → Goes s (.frameArrival port good frame) (s.deliverFrame port g.first act frame)))) ∧
  (∀ (s : State) (port : Nat),
    ((s.port port).down = true ∨ ((s.port port).galsol = true ∧ (s.port port).up = false) ∨ s.nextEgress port = none →
      Goes s (.egressFrame port) s) ∧
    (∀ q e f rest u, (s.port port).down = false → ((s.port port).galsol = false ∨ (s.port port).up = true) →
      s.nextEgress port = some q → e = get {} s.hub.egress q → e.frames = f :: rest →
      u = (s.modHub fun h => { h with egress := put {} h.egress q { e with frames := rest } }).modPort port
        (fun p => { p with lastEg := q }) →
      Goes s (.egressFrame port) ((if e.conf.getLsbD 57 then u.stampFrame port q else u).leave port f.2)) ∧
    Goes s (.egstampRead port) ((s.emit (.egstamp port (s.egstampWord port 1))).modPort port fun p => { p with
      stamps := p.stamps.drop 1 }))

/-- 19 R465-R471, 21 R524: a locked port trains and is up after 16 flits each way; a channel's next data flit leaves at its
turn with a credit, an idle flit when there is none; a received flit is checked, acknowledged, sequenced, and nakked when it
is not the one expected; a port that goes down, and a link below its width, are logged. The model's choices in it: log 77,
78. -/
def Obligations.LinkEvents : Prop :=
  ∀ (s : State) (port : Nat) (p : Port), p = s.port port →
    (∀ width, Goes s (.pcsLock port width) (s.modPort port fun p => { p with
      up := false, losses := p.losses + (if p.up then 1 else 0), trainSent := 0, trainGood := 0, peer := [], locked := true
      down := false, offered := width % 3, moded := true
      galsol := if p.moded then p.galsol else width < 3 })) ∧
    (p.galsol = false ∨ p.locked = false → Goes s (.trainFlit port) s) ∧
    (p.galsol = true → p.locked = true → Goes s (.trainFlit port)
      (((s.sendPlain port 1 (s.trainPayload port)).modPort port fun p => { p with trainSent := p.trainSent + 1 }).linkUp port)) ∧
    (∀ idle : Prop, (idle ↔ p.up = false ∨ 1024 ≤ p.replay.length ∨ p.nextVc = none) → ∀ vc,
      (p.galsol = true → p.locked = true → idle → Goes s (.dataFlitSend port vc) (s.sendPlain port 0 [])) ∧
      (¬ (p.galsol = true ∧ p.locked = true) → idle → Goes s (.dataFlitSend port vc) s) ∧
      (¬ idle → p.nextVc ≠ some vc → Goes s (.dataFlitSend port vc) s)) ∧
    (∀ vc m rest h, p.up = true → p.replay.length < 1024 → p.nextVc = some vc → get [] p.txq vc = m :: rest →
      h = 2 * 2 ^ 60 + vc * 2 ^ 58 + p.txSeq * 2 ^ 46 + p.common + (m.rest.take 116).length * 2 ^ 15 +
        (if m.rest.length ≤ 116 then 2 ^ 14 else 0) →
      Goes s (.dataFlitSend port vc) ((s.emit (.flit port (mkFlit h (m.rest.take 116)))).modPort port fun p => { p.returned with
        txSeq := (p.txSeq + 1) % 4096, lastVc := vc, credits := put 0 p.credits vc (get 0 p.credits vc - 1)
        replay := p.replay ++ [{ seq := p.txSeq, times := 1, flit := mkFlit h (m.rest.take 116), head := m.head, lid := m.lid }]
        txq := put [] p.txq vc (if m.rest.length ≤ 116 then rest else { m with rest := m.rest.drop 116 } :: rest) })) ∧
    (∀ flit h x, h = leAt flit 0 8 → x = (flit.drop 8).take 116 →
      (p.galsol = false ∨ p.locked = false → Goes s (.flitReceive port flit) s) ∧
      (p.galsol = true → p.locked = true →
        (flit.length ≠ 128 ∨ leAt flit 124 4 ≠ crc32c (flit.take 124) ∨ 4 ≤ bits h 63 60 →
          Goes s (.flitReceive port flit) (s.discard port)) ∧
        (flit.length = 128 → leAt flit 124 4 = crc32c (flit.take 124) →
          (p.up = false → bits h 63 60 = 1 → Goes s (.flitReceive port flit) (s.trainReceived port x)) ∧
          (p.up = false → (bits h 63 60 = 0 ∨ bits h 63 60 = 2 ∨ bits h 63 60 = 3) → Goes s (.flitReceive port flit) s) ∧
          (p.up = true → (bits h 63 60 = 0 ∨ bits h 63 60 = 1) → Goes s (.flitReceive port flit) (s.acksCredits port h)) ∧
          (p.up = true → bits h 63 60 = 2 → bits h 57 46 = p.rxSeq → Goes s (.flitReceive port flit)
            (((s.acksCredits port h).modPort port fun p => { p with
              rxSeq := (p.rxSeq + 1) % 4096, nakking := false }).dataAccepted port (bits h 59 58) (decide (bits h 14 14 = 1))
                (x.take (bits h 21 15)))) ∧
          (p.up = true → bits h 63 60 = 2 → bits h 57 46 ≠ p.rxSeq →
            Goes s (.flitReceive port flit) ((s.acksCredits port h).discard port)) ∧
          (p.up = true → bits h 63 60 = 3 →
            Goes s (.flitReceive port flit) ((s.acksCredits port h).nakReceived port (leAt x 0 2)))))) ∧
    (p.up = true → p.nakking = true → Goes s (.nakResend port) (s.sendPlain port 3 (leBytes 2 p.rxSeq))) ∧
    (p.up = false ∨ p.nakking = false → Goes s (.nakResend port) s) ∧
    (∀ u, u = s.modPort port (fun p => { p with down := true, locked := false, losses := p.losses + 1 }) →
      (p.galsol = false → Goes s (.portDown port) u) ∧
      (p.galsol = true → Goes s (.portDown port) ((u.postLink 4 port 2 1).linkLost port))) ∧
    (∀ width u, u = (if port < 4 then s.modPort port fun p => { p with offered := width, width := width } else s) →
      (width = 0 → Goes s (.linkWidthChange port width) (u.modHub fun h => { h with
        links := h.links &&& ~~~(1 <<< port : BitVec 6) })) ∧
      (width ≠ 0 → Goes s (.linkWidthChange port width) (((u.logErr 4 errLinkDegraded (portLoc port) none 0).postLink 4 port 3
        1).modHub fun h => { h with links := h.links ||| (1 <<< port) })))

/-! ### The hub: clock, partitions, pre-emption, firmware, errors, telemetry (19-23) -/

/-- 19 R472, 20 R474-R478, 21 R582: the latch copies the time and a step moves it, marking what runs; an enabled partition
and the connection row of one of its ports are not written, and their refusal is recorded once; a partition is enabled when
no cause stands against it; the sync overflow areas are set while nothing uses their die. The model's choices in it: log 74,
75, 82. -/
def Obligations.ClockAndPartitions : Prop :=
  (∀ (s : State) (x : Word),
    (x.getLsbD 0 = false → Goes s (.clklatchWrite x) s) ∧
    (x.getLsbD 0 = true → Goes s (.clklatchWrite x) (s.modHub fun h => { h with
      clkhi := BitVec.ofNat 64 (s.stamp.toNat / 2 ^ 48), clklo := BitVec.ofNat 64 (s.stamp.toNat % 2 ^ 48 * 65536) })) ∧
    (0 ≤ (s.hub.time : Int) + x.toInt * (11 * 2 ^ 40) → ∃ t, Goes s (.clkstepWrite x) t ∧
      (t.hub.time : Int) = s.hub.time + x.toInt * (11 * 2 ^ 40) ∧ t.mem = s.mem ∧ t.ctxs = s.ctxs ∧ t.net = s.net ∧
      t.launches = s.launches.map fun p => (p.1, p.2.map fun l =>
        if l.state = .seeding || l.state = .running then { l with stepped := true } else l))) ∧
  (∀ (s : State) (n : Nat) (x : Word), n < 32 →
    (partEn (get 0 s.hub.part n) = true → Goes s (.partWrite n x) (s.partRefuse n 3)) ∧
    (partEn (get 0 s.hub.part n) = false →
      (partEn x = false ∨ s.partCause n x = none → Goes s (.partWrite n x) (s.modHub fun h => { h with
        part := put 0 h.part n (x &&& 0xFE000000FFFFFFFF) })) ∧
      ∀ c, partEn x = true → s.partCause n x = some c → Goes s (.partWrite n x) (s.partRefuse n c)) ∧
    (s.partOfPort n = none → Goes s (.xconnWrite n x) (s.modHub fun h => { h with
      xconn := put 0 h.xconn n (x &&& 0x3FFFFFFFFFF) })) ∧
    (∀ m, s.partOfPort n = some m → Goes s (.xconnWrite n x) (s.partRefuse m 3))) ∧
  (∀ (s : State) (n c : Nat), s.partRefuse n c = { s with hub := { s.hub with
    partErr := true, partBad := if s.hub.partErr then s.hub.partBad else (c, n) } }) ∧
  ∀ (s : State) (d : Nat) (x : Word),
    ((4 ≤ d ∨ 128 < x.toNat % 256 ∨ ∃ n < 32, s.dieInPart n d = true ∧ s.partHolds n = true) → Goes s (.syncovfWrite d x) s) ∧
    (d < 4 → x.toNat % 256 ≤ 128 → (∀ n < 32, s.dieInPart n d = true → s.partHolds n = false) →
      Goes s (.syncovfWrite d x) (s.modHub fun h => { h with syncOvf := put 0 h.syncOvf d (x &&& 0x1FFFFFF00FF) }))

/-- 20 R494-R502, 21 R508-R514: while luthier runs, rung 1 lets a launch drain, rung 2 stops its contexts T1 later, a launch
drained or stopped is captured, and its slots, which must be luthier's, are written line by line before it leaves its quads;
rung 3 fails it T2 later, and a saved launch gets its quads back at its turn, its slots read line by line; the scheduler
serves the oldest trap record; the cycles since a launch's last progress are counted, and at its limit it fails. The model's
choices in it: log 36, 85, 94, 116, 129, 134. -/
def Obligations.LadderAndTraps : Prop :=
  (∀ (s : State) (lid : Nat), s.launch lid = none → ∀ i ∈ [Instr.preemptDrain lid, .preemptSave lid, .saveCaptureComplete lid,
    .preemptReset lid, .preemptRestore lid], Goes s i s) ∧
  (∀ (s : State) (lid : Nat) (l : Launch), s.launch lid = some l →
    (s.hub.fw.running = false → ∀ i ∈ [Instr.preemptDrain lid, .preemptSave lid, .saveCaptureComplete lid, .preemptReset lid,
      .preemptRestore lid], Goes s i s) ∧
    (l.preemptible = false ∨ l.ladder ≠ .none → Goes s (.preemptDrain lid) s) ∧
    (s.hub.fw.running = true → l.preemptible = true → l.ladder = .none →
      (s.t1Of l = 0 → Goes s (.preemptDrain lid) (s.beginSave lid)) ∧
      (s.t1Of l ≠ 0 → Goes s (.preemptDrain lid) ((s.modLaunch lid fun l => { l with ladder := .drain }).reachRung lid 1))) ∧
    (l.ladder ≠ .drain ∨ s.hub.cycle < l.since + 1100 * s.t1Of l → Goes s (.preemptSave lid) s) ∧
    (s.hub.fw.running = true → l.ladder = .drain → l.since + 1100 * s.t1Of l ≤ s.hub.cycle →
      Goes s (.preemptSave lid) (s.beginSave lid)) ∧
    ((l.ladder = .drain → s.drained lid = false) → (l.ladder = .save → s.capturable lid = false) →
      Goes s (.saveCaptureComplete lid) s) ∧
    (s.hub.fw.running = true → (l.ladder = .drain ∧ s.drained lid = true) ∨ (l.ladder = .save ∧ s.capturable lid = true) →
      (∀ pa, s.badSlot l.part = some pa → Goes s (.saveCaptureComplete lid) (s.saveFailed lid l.part pa)) ∧
      (s.badSlot l.part = none → Goes s (.saveCaptureComplete lid) ((((List.range 5).foldl (fun s d => s.captureDie lid d)
        ((s.partQuads l.part).foldl (fun s q => (s.keepSlot lid l.part q).captureQuad lid l q)
          (s.settleLaunch lid l))).modHub fun h => { h with captures := h.captures + 1 }).modLaunch lid fun l => { l with
            ladder := .saved }))) ∧
    (l.ladder ≠ .save ∨ s.hub.cycle < l.since + 1100 * s.t2Of l → Goes s (.preemptReset lid) s) ∧
    (s.hub.fw.running = true → l.ladder = .save → l.since + 1100 * s.t2Of l ≤ s.hub.cycle →
      Goes s (.preemptReset lid) (s.resetRung lid)) ∧
    (l.ladder ≠ .saved ∨ l.waiting = false ∨ s.firstInLine lid l = false → Goes s (.preemptRestore lid) s) ∧
    (∀ t b, s.hub.fw.running = true → l.ladder = .saved → l.waiting = true → s.firstInLine lid l = true →
      s.makeRoom lid l = (t, b) → (b = false → Goes s (.preemptRestore lid) t) ∧ (b = true →
      (∀ pa, t.badSlot l.part = some pa → Goes s (.preemptRestore lid) (t.saveFailed lid l.part pa)) ∧
      (t.badSlot l.part = none → Goes s (.preemptRestore lid) ((((t.partQuads l.part).foldl (fun u q => u.bringSlot lid l.part q)
        t).modHub fun h => { h with saved := h.saved.map fun x =>
          if x.lid = lid then { x with slot := none, left := slotLines } else x }).modLaunch lid fun l => { l with
            holding := true, reading := true })))) ∧
    ((l.ladder ≠ .saved ∨ l.holding = false ∨ s.hub.fw.running = false → s.slotStep lid = s) ∧
    (l.ladder = .saved → l.holding = true → s.hub.fw.running = true →
      (l.state = .failed → s.slotStep lid = s.modLaunch lid fun l => { l with holding := false, reading := false }) ∧
      (l.state ≠ .failed → (∀ x ∈ s.hub.saved, x.lid = lid → x.left = 0) →
        (l.reading = false → s.slotStep lid = s.modLaunch lid fun l => { l with holding := false }) ∧
        (l.reading = true → s.placesFree lid l = false → s.slotStep lid = s) ∧
        (l.reading = true → s.placesFree lid l = true → s.slotStep lid =
          ((List.range 4).foldl State.collAdvance (s.restoreLaunch lid l)).serveHeld lid)) ∧
      (l.state ≠ .failed → ∀ x quad pa o (on : State → State), s.hub.saved.find? (fun x => x.lid = lid && x.left ≠ 0) = some x →
        quad = (s.partQuads l.part).getD x.no x.quad → pa = s.slotPa l.part quad → o = 64 * (2 ^ 15 - x.left) →
        (∀ t, on t = t.modHub fun h => { h with saved := h.saved.map fun y =>
          if y.lid = lid && y.no = x.no then { y with left := y.left - 1 } else y }) →
        (s.lineHeld l.part quad x o = false → s.slotStep lid = on s) ∧
        (s.lineHeld l.part quad x o = true →
          (s.slotOwned pa = false → s.slotStep lid = s.saveFailed lid l.part pa) ∧
          (s.slotOwned pa = true → s.portAdmits (memPort (pa + o)) = false → s.slotStep lid = s) ∧
          (s.slotOwned pa = true → s.portAdmits (memPort (pa + o)) = true →
            (l.reading = true → s.slotStep lid = on (s.letIn (memPort (pa + o)))) ∧
            (l.reading = false → s.slotStep lid = on ((s.letIn (memPort (pa + o))).writeLine pa quad x o)))))))) ∧
  (∀ (s : State) (die : Nat),
    (s.hub.fw.running = false ∨ (∀ r ∈ (s.die die).trapq, r.trap.cause = 0x0C) → Goes s (.trapRecord die) s) ∧
    ∀ r, s.hub.fw.running = true → (s.die die).trapq.find? (fun r => r.trap.cause ≠ 0x0C) = some r →
      (r.trap.cause = 0x0D → Goes s (.trapRecord die) (s.modDie die fun d => { d with trapq := d.trapq.erase r })) ∧
      (r.trap.cause ≠ 0x0D → Goes s (.trapRecord die)
        ((s.modDie die fun d => { d with trapq := d.trapq.erase r }).failOf r.lid 0x37 r.lq r.trap.cause))) ∧
  ∀ (s : State) (n cycles idle : Nat),
    ((get none s.hub.moved n = none → idle = cycles) ∧
      ∀ c, get none s.hub.moved n = some c → idle = min cycles (s.hub.cycle - 1 - c)) →
    (s.runningOf n = none → Goes s (.watchdog n cycles) s) ∧
    ∀ lid, s.runningOf n = some lid →
      (s.hub.fw.busy = true ∨ s.hub.fw.running = false ∨ s.busyLaunch lid = false ∨ s.ownsLive lid = false ∨
        s.limited lid = true ∨ idle = 0 → Goes s (.watchdog n cycles) s) ∧
      (∀ k, s.hub.fw.busy = false → s.hub.fw.running = true → s.busyLaunch lid = true → s.ownsLive lid = true →
        s.limited lid = false → idle ≠ 0 → k = get 0 s.hub.wdogCount n + idle →
          (s.wdogLimitOf n = 0 ∨ k < 1024 * s.wdogLimitOf n → Goes s (.watchdog n cycles) (s.modHub fun h => { h with
            wdogCount := put 0 h.wdogCount n k })) ∧
          (s.wdogLimitOf n ≠ 0 → 1024 * s.wdogLimitOf n ≤ k →
            ∃ u i, Goes s (.watchdog n cycles) (u.failLaunch lid 0x39 i 0) ∧ u = ((s.modHub fun h => { h with
              wdogCount := put 0 h.wdogCount n 0 }).logErr (s.schedDie n) errWatchdog (windowAddr (schedCore (s.schedDie n)) 0 0)
                (some lid) 0)))

/-- 21 R511, R515-R525, 23 R549-R551: a mailbox holds 16 words, others wait; a live update quiesces, checks, hands over and
starts a valid image that is not older than the minimum, the structure of the hand-over in a granule of luthier's, and ends
with its heartbeat in time or with the old one restarted; the root of trust keeps images and keys; errors are logged,
counted, and reach the thread, the command, the reconstruction, the launch and the quad they concern, the parity of a
fretboard the launch of the entry that it names, with the entry's logical quad (19 R456); a hop tries 16 times; a retired
channel leaves the connection rows; a thermal trip stops the clocks; the power level moves by one; a reset takes all back
but what the root of trust keeps. The model's choices in it: log 9, 15, 79, 86, 87, 88, 91, 112, 113, 114. -/
def Obligations.FirmwareAndErrors : Prop :=
  (∀ (s : State) (die : Nat) (x : Word), (4 ≤ die → Goes s (.mailboxMessage die x) s) ∧
    (die < 4 → Goes s (.mailboxMessage die x) (s.modDie die fun d => { d with
      mail := d.mail ++ (d.mailWait ++ [x]).take (16 - d.mail.length)
      mailWait := (d.mailWait ++ [x]).drop (16 - d.mail.length) }))) ∧
  (∀ (s : State) (x : Word) (f : Firmware) (i : ImageSlot), f = s.hub.fw → i = get {} f.slots (1 - f.slot) →
    (x.getLsbD 0 = false ∨ f.busy = true → Goes s (.fwctlGo x) s) ∧
    (x.getLsbD 0 = true → f.busy = false →
      Goes s (.fwctlGo x) (s.modHub fun h => { h with fw := { f with busy := true, state := 1 } })) ∧
    (f.busy = false ∨ f.state ∉ [1, 2, 3] → s.fwStep = s) ∧
    (f.busy = true →
      (f.state = 1 → s.fwStep = s.modHub fun h => { h with fw := { f with state := 2 } }) ∧
      (f.state = 2 → i.valid = false ∨ i.secver < f.minSec →
        s.fwStep = s.modHub fun h => { h with fw := { f with busy := false, state := 7 } }) ∧
      (f.state = 2 → i.valid = true → f.minSec ≤ i.secver → s.fwStep = s.modHub fun h => { h with fw := { f with
        state := 3, measured := f.measured ++ [Config.measurement (1 - f.slot) i.version] } }) ∧
      (f.state = 3 → s.fwStep = (s.writeHandOver.modHub fun h => { h with fw := { f with
        state := 4, running := false, since := h.cycle, heard := false, copies := f.copies + 1 } }).restartControl)) ∧
    (∀ ns : Nat, ns = (s.hub.cycle - f.since) * 10 / 11 →
      (f.busy = true → f.state = 4 → 50000000 < ns → Goes s .fwRollback (((s.modHub fun h => { h with fw := { f with
        busy := false, state := 5, running := true, since := h.cycle, heard := false } }).restartControl).logErr 4
          errFwRollback (hubAddr 0x600000) none 0)) ∧
      (f.busy = false ∨ f.state ≠ 4 ∨ ns ≤ 50000000 → Goes s .fwRollback s) ∧
      (f.busy = false ∨ f.state < 4 → f.heard = true → 100000000 < ns → Goes s .fwHang (((s.modHub fun h => { h with fw := { f with
        since := h.cycle, heard := false } }).restartControl).logErr 4 errFwHang (hubAddr 0x600000) none 0)) ∧
      ((f.busy = true ∧ 4 ≤ f.state) ∨ f.heard = false ∨ ns ≤ 100000000 → Goes s .fwHang s) ∧
      (f.busy = true → f.state = 4 → ns ≤ 50000000 → Goes s (.fwbeatWrite x)
        (s.modHub fun h => { h with
          fw := { f with busy := false, state := 6, slot := 1 - f.slot, running := true, since := h.cycle, heard := true } })) ∧
      (f.busy = false ∨ f.state ≠ 4 → f.heard = false ∨ ns ≤ 100000000 → Goes s (.fwbeatWrite x) (s.modHub fun h => { h with
        fw := { f with since := h.cycle, heard := true } }))) ∧
    (s.handGranule = none → s.writeHandOver = s) ∧
    (∀ g, s.handGranule = some g → s.luthiers (g * 65536) = true ∧
      ∀ k, k / 65536 ≠ g → Memory.byte s.writeHandOver.mem k = Memory.byte s.mem k) ∧
    (∀ v secver ok, Goes s (.spdmMessage (.writeSlot v secver ok)) (s.modHub fun h => { h with fw := { f with
      slots := put {} f.slots (1 - f.slot) ⟨v, secver, ok⟩ } })) ∧
    (∀ tenant key, Goes s (.spdmMessage (.tenantKey tenant key)) (s.modHub fun h => { h with
      keys := put 0 h.keys (tenant % 256) key })) ∧
    Goes s (.spdmMessage .measure) (s.emit (.spdm ([f.inventory 0, f.inventory 1, f.inventory 2, f.inventory 3] ++
      f.measured)))) ∧
  (∀ (s : State) (e : HwError),
    (e.th = none → e.cmd = none → e.tile = none → e.code ≠ errFretParity → e.unit = 0 →
      Goes s (.uncorrectableError e) (s.logErr e.die e.code e.loc e.lid e.detail)) ∧
    (∀ th, e.th = some th → e.cmd = none → e.tile = none → e.code ≠ errFretParity → e.unit = 0 →
      Goes s (.uncorrectableError e) ((s.logErr e.die e.code e.loc e.lid e.detail).defer th
        { cause := 0x0E, tval := BitVec.ofNat 64 (s.die e.die).err.head })) ∧
    (∀ c, e.th = none → e.cmd = some c → e.tile = none → e.code ≠ errFretParity → e.unit = 0 →
      Goes s (.uncorrectableError e) ((s.logErr e.die e.code e.loc e.lid e.detail).machineCmd c.1 c.2)) ∧
    (∀ quad lid number hole, e.th = none → e.cmd = none → e.tile = some (quad, lid, number, hole) → e.code ≠ errFretParity →
      e.unit = 0 → Goes s (.uncorrectableError e) ((s.logErr e.die e.code e.loc e.lid e.detail).breakTile quad
        { lid := lid, number := number, hole := hole, next := 0, err := 0 } 0x0D)) ∧
    (∀ q, e.th = none → e.cmd = none → e.tile = none → e.code ≠ errFretParity → e.unit = q + 1 →
      Goes s (.uncorrectableError e) ((s.logErr e.die e.code e.loc e.lid e.detail).quadFails q)) ∧
    (e.th = none → e.cmd = none → e.tile = none → e.code = errFretParity → e.unit = 0 →
      (s.fretEntry e.loc = none → Goes s (.uncorrectableError e) s) ∧
      ∀ r, s.fretEntry e.loc = some r →
        Goes s (.uncorrectableError e) ((s.logErr e.die e.code e.loc (some r.lid) e.detail).failLaunch r.lid kMACHINE r.lq 0)) ∧
    ∀ u, u = s.post e.die 0x14 none (unitOfLoc e.die e.loc) 0 (BitVec.ofNat 32 e.unit) (BitVec.ofNat 32 e.loc.toNat) 0 →
      (e.code ≠ 4 → e.code ≠ 5 → Goes s (.correctedError e) u) ∧
      (e.code = 4 ∨ e.code = 5 → Goes s (.correctedError e) (u.postLink e.die e.unit 1 1))) ∧
  (∀ (s : State) (die unit msg n a b : Nat) (u : State), a = msg - s.net.length → b = a - s.runningAll.length →
    (s.net[msg]? = none → s.runningAll[a]? = none → s.transfers[b]? = none → Goes s (.hopCrcError die unit msg) s) ∧
    ((∃ f, s.net[msg]? = some f ∧ n = triesAt die unit f.hop ∧
          u = { s with net := s.net.set msg { f with hop := some (die, unit, n + 1) } }) ∨
        (∃ r, s.net[msg]? = none ∧ s.runningAll[a]? = some r ∧ n = triesAt die unit r.hop ∧
          u = s.modRun r.cmd fun r => { r with hop := some (die, unit, n + 1) }) ∨
        (∃ x, s.net[msg]? = none ∧ s.runningAll[a]? = none ∧ s.transfers[b]? = some x ∧ n = s.transferTries die unit x ∧
          u = s.modHub fun h => { h with
            hops := (h.hops.filter fun y => !(y.1 = x && y.2.1 = die && y.2.2.1 = unit)) ++ [(x, die, unit, n + 1)] }) →
      (n < 16 → Goes s (.hopCrcError die unit msg) (u.postLink die unit 0 (n + 1))) ∧
      (16 ≤ n → Goes s (.hopCrcError die unit msg) (u.hopFails die unit)))) ∧
  (∀ (s : State) (g : Nat), (32 ≤ g → Goes s (.channelRetired g) s) ∧
    (g < 32 → ∃ u : State, Goes s (.channelRetired g) (u.logErr (g / 8) errChannelRetired
        (BitVec.ofNat 64 (g / 4 * 2 ^ 36 + g % 4 * 16000000000)) none 0) ∧ g ∈ u.hub.retired ∧ u.mem = s.mem ∧
      (∀ p, (get 0 u.hub.xconn p).getLsbD g = false) ∧
      (tableSorted s.hub.xconn = true → ∀ p k, k ≠ g → (get 0 u.hub.xconn p).getLsbD k = (get 0 s.hub.xconn p).getLsbD k) ∧
      (∀ x ∈ u.hub.own, x ∈ s.hub.own ∧ granuleIn g x.1 = false) ∧
      ∀ x ∈ s.hub.own, granuleIn g x.1 = false → x ∈ u.hub.own)) ∧
  (∀ (s : State) (watts hottest : Nat),
    Goes s .thermtrip ({ s with hub := { s.hub with trip := true }, out := s.out ++ [.tripPin] }) ∧
    ∃ t, Goes s (.throttleUpdate watts hottest) t ∧ t.hub.pwrNow = watts ∧ t = { s with hub := t.hub } ∧
      t.hub.pwrLevel = (if s.hub.pwrCap < watts ∨ s.hub.tThrottle ≤ hottest then min (s.hub.pwrLevel + 1) 15
        else if 100 * watts ≤ 95 * s.hub.pwrCap ∧ hottest + 2 ≤ s.hub.tThrottle then s.hub.pwrLevel - 1
        else s.hub.pwrLevel)) ∧
  ∀ s : State, ∃ t, Goes s .reset t ∧ t.hub.failList = s.hub.failList ∧ t.hub.fw.slots = s.hub.fw.slots ∧
    t.hub.fw.slot = s.hub.fw.slot ∧ t.hub.fw.minSec = s.hub.fw.minSec ∧ t.hub.trip = false ∧ t.hub.part = [] ∧
    t.launches = [] ∧ t.ctxs = State.reset.ctxs ∧ t.mem = []

/-- 22 R528-R545, 23 R552-R554: a record reaches its coprocessor; one at rest takes the next record of the slots in turn,
its registers zero; an attach is refused for its first error or takes the lowest free slot; a detach frees it after the
event it runs; budgets, windows, exports, slot counts and temperatures, which the clock makes due when a window of 1,100,000
cycles, an interval of 2^20 or an export period ends (log 143); a checkpoint runs a stream for each tier, range after range
and line after line, as memory admits them, and a range's descriptor gets its CRC and status after its last line. The
model's choices in it: log 87, 90, 143. -/
def Obligations.TelemetryEvents : Prop :=
  (∀ (s : State) (die : Nat) (e : List (BitVec 32)), Goes s (.telemetryRecord die e) (s.modTel die fun t => t.take e) ∧
    ∀ (t : Tel) (cls tenant slot : Nat) (f : Filter), t.filter slot = some f →
      (f.leaving = true ∨ f.cls ≠ cls ∨ (f.tenant ≠ 0 ∧ f.tenant ≠ tenant) → t.offer cls tenant e slot = t) ∧
      (f.leaving = false → f.cls = cls → (f.tenant = 0 ∨ f.tenant = tenant) →
        (f.queue.length < 64 → f.cost ≤ t.left f.tenant → t.offer cls tenant e slot =
          { t.modFilter slot fun f => { f with queue := f.queue ++ [e] } with
            spent := put 0 t.spent f.tenant (get 0 t.spent f.tenant + f.cost) }) ∧
        (f.queue.length < 64 → t.left f.tenant < f.cost → t.offer cls tenant e slot = t.modFilter slot (Filter.count 3)))) ∧
  (∀ (s : State) (die k : Nat) (f : Filter) (e : List (BitVec 32)) (rest : List (List (BitVec 32))),
    ((s.tel die).run ≠ none ∨ (s.tel die).nextSlot = none → Goes s (.filterEvent die) (s.modTel die id)) ∧
    ((s.tel die).run = none → (s.tel die).nextSlot = some k → (s.tel die).filter k = some f → f.queue = e :: rest →
      Goes s (.filterEvent die) (s.modTel die fun t => { t.modFilter k fun f => { f with queue := f.queue.drop 1 } with
        last := (k + 1) % 64, run := some { slot := k, ip := 0, w := [], e := e, skip := 0, ended := false } }))) ∧
  (∀ (s u : State) (fn : Nat) (x : Word), u = (s.descriptor fn x).1 →
    ((s.descriptor fn x).2 = none → Goes s (.tattachWrite fn x) (u.attachResult fn (.error 5))) ∧
    ∀ b f d, (s.descriptor fn x).2 = some b → f = filterOf fn (u.fnTenant fn) b → d = bits (leAt b 0 4) 10 8 →
      (classSeen f.cls d (u.fnTenant fn) = false → Goes s (.tattachWrite fn x) (u.attachResult fn (.error 1))) ∧
      (classSeen f.cls d (u.fnTenant fn) = true → (u.tel d).freeSlot = none →
        Goes s (.tattachWrite fn x) (u.attachResult fn (.error 2))) ∧
      ∀ k, classSeen f.cls d (u.fnTenant fn) = true → (u.tel d).freeSlot = some k →
        (descriptorOk f b = false → Goes s (.tattachWrite fn x) (u.attachResult fn (.error 3))) ∧
        (descriptorOk f b = true → (∃ w ∈ f.trigs, u.trigWordOk fn (u.fnTenant fn) d w = false) →
          Goes s (.tattachWrite fn x) (u.attachResult fn (.error 4))) ∧
        (descriptorOk f b = true → (∀ w ∈ f.trigs, u.trigWordOk fn (u.fnTenant fn) d w = true) →
          Goes s (.tattachWrite fn x)
            ((u.modTel d fun t => { t with filters := put none t.filters k (some { f with
              exportAt := u.hub.cycle + f.period * 1100000 }) }).attachResult fn (.ok k)))) ∧
  (∀ (s : State) (fn d k : Nat) (x : Word) (f : Filter), d = x.toNat / 64 % 8 → k = x.toNat % 64 →
    ((s.tel d).filter k = none → Goes s (.tdetachWrite fn x) s) ∧
    ((s.tel d).filter k = some f → (4 < d ∨ s.mayUse fn f = false) → Goes s (.tdetachWrite fn x) s) ∧
    ((s.tel d).filter k = some f → d ≤ 4 → s.mayUse fn f = true →
      ((∃ r, (s.tel d).run = some r ∧ r.slot = k) → Goes s (.tdetachWrite fn x)
        (s.modFilter d k fun f => { f with leaving := true, queue := [] })) ∧
      ((∀ r, (s.tel d).run = some r → r.slot ≠ k) → Goes s (.tdetachWrite fn x)
        (s.modTel d fun t => { t with filters := put none t.filters k none })))) ∧
  (∀ (s : State) (die tenant : Nat) (x : Word) (m : FMap Nat), m = put 0 (s.tel die).limit tenant (x.toNat % 2 ^ 20) →
    (4 < die ∨ 256 ≤ tenant → Goes s (.tbudgetWrite die tenant x) s) ∧
    (die ≤ 4 → tenant < 256 → (m.map Prod.snd).foldl (· + ·) 0 ≤ 900000 →
      Goes s (.tbudgetWrite die tenant x) (s.modTel die fun t => { t with limit := m })) ∧
    Goes s (.budgetWindow die) (s.modTel die fun t => { t with spent := [] })) ∧
  (∀ (s : State) (die slot : Nat),
    ((s.tel die).filter slot = none → Goes s (.exportSnap die slot) s) ∧
    ∀ f, (s.tel die).filter slot = some f →
      (f.period = 0 ∨ f.leaving = true → Goes s (.exportSnap die slot) s) ∧
      (f.period ≠ 0 → f.leaving = false → (∃ r, (s.tel die).run = some r ∧ r.slot = slot) → Goes s (.exportSnap die slot)
        (s.modFilter die slot fun f => { f with exportDue := true })) ∧
      (f.period ≠ 0 → f.leaving = false → (∀ r, (s.tel die).run = some r → r.slot ≠ slot) →
        Goes s (.exportSnap die slot) ((s.emit (.hostWrite f.fn f.host (s.exportBytes die slot f))).modFilter die slot fun f =>
          { f with words := put 0 f.words 6 (get 0 f.words 6 + 1), k := if f.clear then [] else f.k, exportDue := false }))) ∧
  (∀ (s : State) (core die sensor : Nat) (temp : BitVec 32) (k : Core) (u : State), k = s.core core →
    u = s.modCore core (fun k => { k with ivIssued := 0, ivForfeit := 0, ivBank := 0 }) →
    ((s.coreCtxs core).filterMap s.lidOf = [] → Goes s (.slots core) u) ∧
    (∀ lid l, (s.coreCtxs core).filterMap s.lidOf = lid :: l → Goes s (.slots core)
      (u.post (dieOf (quadOf core)) 0x06 (some lid) core 0 (sat32 k.ivIssued) (sat32 k.ivForfeit) (sat32 k.ivBank))) ∧
    Goes s (.therm die sensor temp) (s.post die 0x10 none (die * 1024) 0 (BitVec.ofNat 32 sensor) temp
      (BitVec.ofNat 32 s.hub.pwrLevel))) ∧
  (∀ (s : State) (old : Nat), (s.timed old).hub.due = s.hub.due ++ s.timedEvents old ∧
    (∀ d, .window d ∈ s.timedEvents old ↔ d < 5 ∧ old / 1100000 < s.hub.cycle / 1100000) ∧
    (∀ c, .slots c ∈ s.timedEvents old ↔ c ∈ s.cores.map Prod.fst ∧ old / 2 ^ 20 < s.hub.cycle / 2 ^ 20) ∧
    (∀ d k, .snap d k ∈ s.timedEvents old ↔ ∃ x f, (d, x) ∈ s.dies ∧ (k, some f) ∈ x.tel.filters ∧ f.period ≠ 0 ∧
      f.exportAt ≤ s.hub.cycle)) ∧
  ∀ (s : State) (x : Word) (u : State), u = s.modHub (fun h => { h with
      ckptDirty := h.ckptDirty && !x.getLsbD 62, ckptErr := h.ckptErr && !x.getLsbD 61 }) →
    (x.getLsbD 0 = false → Goes s (.ckptGo x) u) ∧
    (x.getLsbD 0 = true → s.hub.streams ≠ [] ∨ s.hub.fw.busy = true →
      Goes s (.ckptGo x) (u.modHub fun h => { h with ckptErr := true })) ∧
    (x.getLsbD 0 = true → s.hub.streams = [] → s.hub.fw.busy = false → ∀ base n, base = bits s.hub.ckptList.toNat 40 5 * 32 →
      n = bits s.hub.ckptList.toNat 63 52 + 1 → Goes s (.ckptGo x) (u.modHub fun h => { h with
        streams := [{ bulk := false, list := base, count := n }, { bulk := true, list := base, count := n }] })) ∧
    ∀ y : Stream, s.hub.streams.find? (fun z => z.bulk = y.bulk) = some y →
      (∀ d pa, y.done = some d → pa = y.list + 32 * y.next + 24 →
        (s.portAdmits (memPort pa) = false → s.ckptStep y.bulk = s) ∧
        (s.portAdmits (memPort pa) = true → ∀ u z, z = { bulk := y.bulk, list := y.list, count := y.count, next := y.next + 1 } →
          u = ((s.letIn (memPort pa)).setStream z).wrHome (.tier pa) 8 (d.1 + d.2 * 2 ^ 32) →
          (d.2 = 0 → s.ckptStep y.bulk = u) ∧ (d.2 ≠ 0 → s.ckptStep y.bulk = u.ckptFlag))) ∧
      (y.done = none →
      (y.len ≠ 0 → s.ckptStep y.bulk = s.sendLine y) ∧
      (y.len = 0 → y.next < y.count → s.ckptStep y.bulk = s.openRange y) ∧
      (y.len = 0 → y.count ≤ y.next → s.ckptStep y.bulk = s.endStream y.bulk))

/-- 00 R5, 19 R446, 21 R505: a register write needs level 2; a register reads as its writable fields were written, its
reserved fields zero, a write of one changes no other, and physical function 1 has its page and the blocks of its queues
only, as function 0 has not the blocks of those; an aperture access that a check refuses aborts, one to hub registers is
made there, and any other stands at the hub's walker, behind the earlier ones of its function, and is made from there. The
model's choices in it: log 92, 93. -/
def Obligations.HubRegisters : Prop :=
  (∀ (s : State) (off level : Nat) (x : Word),
    (2 ^ 33 ≤ off → Goes s (.registerWrite off level x) (s.pageWrite ((off - 2 ^ 33) / 4096) (off % 4096) x)) ∧
    (off < 2 ^ 33 → level < 2 → Goes s (.registerWrite off level x) s) ∧
    (off < 2 ^ 33 → 2 ≤ level → Goes s (.registerWrite off level x) (s.hubWrite off level x))) ∧
  (∀ (s : State) (level : Nat) (x : Word),
    (level ≠ 5 → ∀ (off : Nat) (mask : Word), (off, mask) ∈ [(0x401000, 0xFF), (0x401118, 0xFFFFFFFFFF), (0x501008, 0xFFFC000000000000),
        (0x501010, 0xFFFFFFFFF0000), (0x502000, 0xFFFFFFFFFFFF0000), (0xC00100, (0xFFF001FFFFFFFFE0 : Word))] →
      ((s.hubWrite off level x).hubRead off level).2 = x &&& mask ∧ (s.hubWrite off level x).mem = s.mem ∧
        (s.hubWrite off level x).ctxs = s.ctxs ∧ (s.hubWrite off level x).launches = s.launches) ∧
    (level ≠ 5 → ∀ n < 64, (x &&& 0xFE00000000000000 ≠ 0 ∨ tableSorted s.hub.egress = true) →
      ((s.hubWrite (0x400000 + 8 * n) level x).hubRead (0x400000 + 8 * n) level).2 = x &&& 0xFE00000000000000) ∧
    (level ≠ 5 → ∀ n < 256, (x &&& 0x8000000000000003 ≠ 0 ∨ tableSorted s.hub.groute = true) →
      ((s.hubWrite (0x402000 + 8 * n) level x).hubRead (0x402000 + 8 * n) level).2 = x &&& 0x8000000000000003) ∧
    (level ≠ 5 → ∀ n < 32, (x &&& 0x1FFFFE00000 ≠ 0 ∨ tableSorted s.hub.psave = true) →
      ((s.hubWrite (0x500300 + 8 * n) level x).hubRead (0x500300 + 8 * n) level).2 = x &&& 0x1FFFFE00000) ∧
    (level ≠ 5 → ∀ off ∈ [0x401000, 0x401118, 0x501008, 0x501010, 0x502000, 0xC00100], ∀ other, other ≠ off →
      ((s.hubWrite off level x).hubRead other level).2 = (s.hubRead other level).2) ∧
    (∀ off, off % 8 ≠ 0 ∨ (level = 5 ∧ 0x1000 ≤ off ∧ (off < 0x140000 ∨ (0x180000 ≤ off ∧ off < 0x1A0000) ∨ 0x1C0000 ≤ off)) ∨
        (level = 4 ∧ ((0x140000 ≤ off ∧ off < 0x180000) ∨ (0x1A0000 ≤ off ∧ off < 0x1C0000))) →
      s.hubWrite off level x = s ∧ s.hubRead off level = (s, 0)) ∧
    (level ≠ 5 → s.hubWrite 0x500200 level x = s.modHub fun h => { h with partErr := h.partErr && !x.getLsbD 7 })) ∧
  ∀ (s : State) (fn off n : Nat) (w : Bool) (x a : Word), a = (get {} s.hub.fns fn).apbase + BitVec.ofNat 64 (off % 2 ^ 32) →
    (n = 0 ∨ 8 < n ∨ s.apertureFault fn a n w = true → Goes s (.apertureAccess fn off n w x) (s.hostAbort fn)) ∧
    (1 ≤ n → n ≤ 8 → s.apertureFault fn a n w = false →
      (∀ o, decodeAddr a = .hub o →
        (w = true → Goes s (.apertureAccess fn off n w x) (s.hubWrite o (if fn < 1024 then 0 else 2) x)) ∧
        (w = false → Goes s (.apertureAccess fn off n w x)
          ((s.hubRead o (if fn < 1024 then 0 else 2)).1.emit
            (.apertureData fn (some (s.hubRead o (if fn < 1024 then 0 else 2)).2))))) ∧
      ((∀ o, decodeAddr a ≠ .hub o) → Goes s (.apertureAccess fn off n w x) (s.modDie 4 fun d => { d with
        walks := d.walks ++ [.host fn a.toNat n w x] }))) ∧
    (∀ va, decodeAddr a = .global va → s.walkItem 4 (.host fn a.toNat n w x) = s.hostTranslated fn va n w x) ∧
    (∀ d c r o, decodeAddr a = .win c r o ∨ decodeAddr a = .sync d o →
      (s.apertureFault fn a n w = true → s.walkItem 4 (.host fn a.toNat n w x) = s.hostAbort fn) ∧
      (s.apertureFault fn a n w = false → s.walkItem 4 (.host fn a.toNat n w x) = s.hostPerform fn a none n w x))

/-! ### The machine as a whole (03, 05, 06, 08 R581) -/

/-- 03 R83-R94, R112, 05 R150-R152: the bundle at a thread's pc is the eight bytes of its cached line, lowest address first.
At the slot of a thread that may issue and loses no bank, a step performs the long instruction that they decode to; of two
syllables, which every check lets issue together, first the S-syllable, then the V-syllable on the registers as they stood;
a pair that waits or traps does neither. The model's choices in it: log 10, 13, 18. -/
def Obligations.StepRunsInstruction : Prop :=
  ∀ (s u : State) (core th : Nat), IssuePoint s core th u →
    (∀ l, (u.ctx th).stub ≠ some (u.ctx th).pc →
      u.lineOf (quadOf core) (u.xctxOf th) ((u.ctx th).pc.toNat / 128) = some l →
        ∃ b, u.bundleAt th = some b ∧ b.1 ++ b.2 = bundleOfBytes ((l.bytes.drop ((u.ctx th).pc.toNat % 128)).take 8)) ∧
    ∀ b, u.bundleAt th = some b →
      (∀ i, decodeBundle (b.1 ++ b.2) = .ok (.long i) → SlotAnswers s u core th (exec i u)) ∧
      ∀ i j, decodeBundle (b.1 ++ b.2) = .ok (.pair i j) →
        (u.verdict [i, j] = .go → ∀ t, exec i u = .next t →
          ((t.ctx th).issued = (u.ctx th).issued → SlotAnswers s u core th (.next t)) ∧
          ((t.ctx th).issued ≠ (u.ctx th).issued → ∀ v, exec j { t with latch := some (u.ctx th) } = .next v →
            SlotAnswers s u core th (.next { v with latch := none }))) ∧
        (∀ k, u.verdict [i, j] = .block k → SlotAnswers s u core th (.next (u.stallOrForfeit (u.waitWindow i) k))) ∧
        (u.verdict [i, j] = .hold → SlotAnswers s u core th (.next (u.startWait i))) ∧
        ∀ x, u.verdict [i, j] = .trap x → SlotAnswers s u core th (.next (u.takeTrap th x))

/-- 02 R56, R78, 08 R251, 10 R331, R353, R364, 17 R412, 20 R497, 22 R541, 23 R550-R551: what else a step can be. A message
is delivered, the oldest of its pair first, once it has arrived, luthier serves it, and the memory homes that it asks have
room for it; with nothing said of who moves, a home serves in turn the sources whose next message may be delivered. A
coprocessor performs the next instruction of its program; an engine performs its next command, whole or as many elements of
it as are granted, and goes on with a paused one, a multicast also towards one destination; a reconstruction unit goes on
with its firing, and a launch's holes are filled on; a bundle that loses a bank forfeits its slot and claims its banks; time
passes; an event happens, and nothing else may stand in its place. Messages that a restore has put back come before all of
these, and then what the clock has brought about: the windows, records and exports of telemetry. After a thermal trip the
clocks stand still until a reset. The model's choices in it: log 10, 11, 18, 110, 111. -/
def Obligations.OtherTurns : Prop :=
  (∀ (s r : State) (tail : List Turn), r = { s with turns := tail } →
    (s.hub.trip = true → (∀ t, s.turns.head? = some t → t ≠ .event .reset) → step s = .fault .clocksStopped) ∧
    (s.turns = .event .reset :: tail → step s = closeStep s (exec .reset r)) ∧
    (s.hub.trip = false → ∀ f rest, s.inbox = f :: rest → (∀ t, s.turns.head? = some t → t ≠ .event .reset) →
      step s = closeStep s (exec f.ev { s with inbox := rest })) ∧
    (s.hub.trip = false → s.inbox = [] → ∀ x rest u, s.hub.due = x :: rest → (∀ t, s.turns.head? = some t → t ≠ .event .reset) →
      u = s.modHub (fun h => { h with due := rest }) →
      (∀ d, x = .window d → step s = closeStep s (.next (u.modTel d fun t => { t with spent := [] }))) ∧
      (∀ d k y, x = .therm d k y → step s = closeStep s (.next (u.post d 0x10 none (d * 1024) 0 (BitVec.ofNat 32 k) y
        (BitVec.ofNat 32 s.hub.pwrLevel)))) ∧
      (∀ c, x = .slots c → step s = closeStep s (exec (.slots c) u)) ∧
      ∀ d k, x = .snap d k → step s = closeStep s (exec (.exportSnap d k) u)) ∧
    (s.hub.trip = false → s.inbox = [] → s.hub.due = [] →
      (∀ i, s.turns = .event i :: tail → (isEvent i = true → isTimed i = false → step s = closeStep s (exec i r)) ∧
        (isEvent i = false ∨ isTimed i = true → step s = closeStep s (.next r))) ∧
      (∀ k f j g u, s.turns = .deliver k :: tail → s.net[k]? = some f → s.net[j]? = some g →
        (f.pair = none ∧ j = k) ∨ (f.pair ≠ none ∧ g.pair = f.pair ∧ ∀ m < j, ∀ h, s.net[m]? = some h → h.pair ≠ f.pair) →
        u = { r.crowded g with net := s.net.eraseIdx j } →
          (r.mayDeliver g = false → step s = closeStep s (.next r)) ∧
          (r.mayDeliver g = true → step s = closeStep s (exec g.ev ((r.portsFor g.ev).foldl State.letIn u)))) ∧
      (∀ k f p src v u, s.turns = [] → s.beat = 0 → v = { s with beat := 1, taken := [] } → v.deliverable k = true →
        (∀ m < k, v.deliverable m = false) → s.net[k]? = some f → f.pair = some p →
        src = nextSource (get 0 s.served p.2) (v.readySources p.2) → u = { v with served := put 0 s.served p.2 src } →
          ∀ j g, s.net[j]? = some g → g.pair = some (src, p.2) → (∀ m < j, ∀ h, s.net[m]? = some h → h.pair ≠ g.pair) →
            u.mayDeliver g = true → step s = closeStep s
              (exec g.ev ((u.portsFor g.ev).foldl State.letIn { u.crowded g with net := s.net.eraseIdx j }))) ∧
      (∀ die i, s.turns = .filter die :: tail → (s.tel die).nextInstr = some i →
        step s = closeStep s (exec i { r with curDie := die })) ∧
      (∀ n, s.turns = .clock n :: tail → step s = closeStep s (.next (r.tick n))) ∧
      (∀ core banks, s.turns = .slotLost core banks :: tail →
        step s = closeStep s (({ r with focus := core } : State).lostCycle core banks)) ∧
      (∀ die k, s.turns = .coll die k :: tail → step s = closeStep s (.next (r.collDeliver die k))) ∧
      (∀ lid n, s.turns = .slots lid n :: tail →
        step s = closeStep s (.next ((List.range n).foldl (fun t _ => t.slotStep lid) r))) ∧
      (s.turns = .update :: tail → step s = closeStep s (.next r.fwStep)) ∧
      (∀ bulk, s.turns = .stream bulk :: tail → step s = closeStep s (.next (r.ckptStep bulk))) ∧
      (∀ die, s.turns = .mail die :: tail → step s = closeStep s (.next (r.readMail die))) ∧
      (∀ i n t, (∃ quad, s.turns = .firing quad n :: tail ∧ i = Instr.reconFiring quad) ∨
          (∃ lid, s.turns = .holes lid n :: tail ∧ i = .holeUnresolved lid) →
        exec i { r with grant := some n } = .next t → step s = closeStep s (.next { t with grant := none })) ∧
      (∀ unit place v (w : State → State), (s.turns = .engine unit place :: tail ∧ v = r ∧ w = id) ∨
          (∃ n, s.turns = .engineElems unit place n :: tail ∧ v = { r with grant := some n } ∧
            w = fun t => { t with grant := none }) →
        (v.nextCmd unit place = none → step s = closeStep s (.next (w v))) ∧
        ∀ k c i, v.nextCmd unit place = some (k, c) → isCommand i = true → commandOp i = c.op → commandOf i = some c →
          ∃ t, exec i ((v.clockStart c).modEngine unit place fun e => { e with
              last := k
              queues := if k < 2 ^ 20 then put [] e.queues k ((get [] e.queues k).drop 1) else e.queues
              loose := if k < 2 ^ 20 then e.loose else e.loose.erase c }) = .next t ∧
            step s = closeStep s (.next (w t))) ∧
      ∀ unit place k n v (w : State → State), (s.turns = .resume unit place k n :: tail ∧ v = { r with grant := some n } ∧
            w = fun t => { t with grant := none }) ∨
          (∃ d, unit = 2 ∧ s.turns = .resumeDest place k d n :: tail ∧ v = { r with grant := some n, aim := some d } ∧
            w = fun t => { t with aim := none, grant := none }) →
        (∀ x i, (s.engine unit place).running[k]? = some x → x.paused = true → r.mayRun x.cmd = true → isCommand i = true →
          commandOp i = x.cmd.op → commandOf i = some x.cmd → ∃ t, exec i v = .next t ∧ step s = closeStep s (.next (w t))) ∧
        ((∀ x, (s.engine unit place).running[k]? = some x → x.paused = false ∨ r.mayRun x.cmd = false) →
          step s = closeStep s (.next (w v))))) ∧
  (∀ (s : State) (f : Flight), (f.pair = none → s.crowded f = s) ∧
    ∀ p, f.pair = some p → (sourcesFor s.net p.2).length ≤ 8 → s.crowded f = s) ∧
  (∀ (s : State) (home src : Nat), src ∈ s.readySources home ↔
    ∃ f, s.net.find? (fun f => f.pair = some (src, home)) = some f ∧ s.mayDeliver f = true) ∧
  ∀ u : State, u.fetchFault u.cur = false → (∃ b, u.bundleAt u.cur = some b) → u.lostBanks ≠ [] →
    u.fetchIssue = .next u.loseBanks ∧ (u.loseBanks.ctx u.cur).forfeits = (u.ctx u.cur).forfeits + 1 ∧
      ∀ b ∈ u.lostBanks, (u.cur, b) ∈ (u.loseBanks.core (coreOf u.cur)).claims

/-- 03 R98-R112, 05 R173: an instruction of a thread that a check stops has none of its effects: it waits and forfeits its
slot, starts the wait for an answer, or traps; and every instruction, event, command and filter instruction answers a next
state in every state. The model's choices in it: log 103, 105. -/
def Obligations.EveryInstructionAnswers : Prop :=
  (∀ (s : State) (i : Instr), ∃ t, exec i s = .next t) ∧
  (∀ (s : State) (i : Instr), isSyllable i = true → s.latch = none →
    (∀ k, s.verdict [i] = .block k → exec i s = .next (s.stallOrForfeit (s.waitWindow i) k)) ∧
    (s.verdict [i] = .hold → exec i s = .next (s.startWait i)) ∧
    (∀ x, s.verdict [i] = .trap x → exec i s = .next (s.takeTrap s.cur x)) ∧
    (i.wf = false → exec i s = .next (s.takeTrap s.cur { cause := 0x01, tval := 0, vsyl := vsylOf i })) ∧
    (i.wf = true → (s.ctx s.cur).level < levelOf i →
      exec i s = .next (s.takeTrap s.cur { cause := 0x01, tval := 1, vsyl := vsylOf i }))) ∧
  ∀ (s : State), s.hub.trip = false → ∃ t, step s = .next t

/-- 03 R98, R112, 05 R160: an instruction that only reads and writes registers, and names no bound window, issues exactly
where it is legal and every register it names is full and is a register of the core's mode. The model's choices in it: log
103. -/
def Obligations.RegisterInstructionsIssue : Prop :=
  ∀ (s : State) (i : Instr), registerOnly i = true → noWindow (s.ctx s.cur) i = true → s.latch = none →
    (s.verdict [i] = .go ↔ i.wf = true ∧ registersFull s i = true)

/-- What register instructions and stores leave as it was. An instruction on registers that completes changes its
destination registers, the pc and counts; every other register, every other context, memory, presence bits and every other
part of the machine stay. A store to the own scratchpad changes no byte before its entry is written, and the entry then
changes its own bytes only; a store at its home changes the bytes of its place only. -/
def Obligations.Frames : Prop :=
  (∀ (s : State) (i : Instr), plainRegister i = true → noWindow (s.ctx s.cur) i = true → Issues s i →
    ∃ t, exec i s = .next t ∧ OnlyCtx Core.stillEx s t ∧ (t.ctx s.cur).pc = (s.ctx s.cur).pc + 8 ∧
      { (t.ctx s.cur).still with s := [], v := [] } = { (s.ctx s.cur).still with s := [], v := [] } ∧
      (∀ n, (∀ d ∈ dstsOf i, d.vec = true ∨ d.reg ≠ n) → (t.ctx s.cur).sreg n = (s.ctx s.cur).sreg n) ∧
      (∀ n, (∀ d ∈ dstsOf i, d.vec = false ∨ d.reg ≠ n) → (t.ctx s.cur).vreg n = (s.ctx s.cur).vreg n)) ∧
  (∀ (s : State) (d b : BitVec 5) (t : BitVec 1) (w : BitVec 2) (r x : BitVec 1) (p : BitVec 12) (q : BitVec 11) (i : Instr)
      (a : Word),
    (i, a) ∈ [
      (Instr.st8 d b t w r p, s.S b + BitVec.ofInt 64 p.toInt), (.st16 d b t w r p, s.S b + BitVec.ofInt 64 (p.toInt * 2)),
      (.st32 d b t w r p, s.S b + BitVec.ofInt 64 (p.toInt * 4)), (.st64 d b t w r p, s.S b + BitVec.ofInt 64 (p.toInt * 8)),
      (.vst d b t w r x q, s.S b + BitVec.ofInt 64 (q.toInt * 16))] →
    isLocal s.cur a = true → noWindow (s.ctx s.cur) i = true → Issues s i →
      ∃ u, exec i s = .next u ∧ (∀ k, Memory.byte u.mem k = Memory.byte s.mem k) ∧ u.pres = s.pres ∧
        (u.ctx s.cur).still = (s.ctx s.cur).still ∧ (∀ th, th ≠ s.cur → u.ctx th = s.ctx th) ∧ u.dies = s.dies ∧
        u.quads = s.quads ∧ u.hub = s.hub ∧ u.launches = s.launches ∧
        ∀ c, { (u.core c).still with stbuf := [] } = { (s.core c).still with stbuf := [] }) ∧
  (∀ (s : State) (core : Nat) (e : StEntry) (rest : List StEntry), (s.core core).stbuf = e :: rest →
    ∃ t, exec (.storeBufferWrite core) s = .next t ∧ t.ctxs = s.ctxs ∧ t.pres = s.pres ∧
      (∀ k, k < (Place.scratch core e.off).key ∨ (Place.scratch core e.off).key + e.size ≤ k →
        Memory.byte t.mem k = Memory.byte s.mem k) ∧
      (Memory.wf s.mem = true → ∀ n < e.size,
        Memory.byte t.mem ((Place.scratch core e.off).key + n) = BitVec.ofNat 8 (e.data.toNat / 256 ^ n))) ∧
  ∀ (s : State) (r : Req) (p : Place), r.op = .store → s.mayNotPass r = false → s.homeLocked r = false →
    s.placeOf r.addr r.pa = some p →
      ∃ t, exec (.remoteAccess r) s = .next t ∧
        (∀ k, k < p.key ∨ p.key + r.size ≤ k → Memory.byte t.mem k = Memory.byte s.mem k) ∧
        (Memory.wf s.mem = true → ∀ n < r.size, Memory.byte t.mem (p.key + n) = BitVec.ofNat 8 (r.data.toNat / 256 ^ n))

/-- 05, 06, 07, 22: words written out from the encodings, and what they decode to. -/
def Obligations.WordsDecode : Prop :=
  decodeS 0x10847FFF = some (.addi 4 4 0 0x7FFF) ∧
  decodeS 0x58003FFE = some (.lpnext 0 0x3FFE) ∧
  decodeS 0x2CC000E6 = some (.cadr 6 0 0 0 3 9 2) ∧
  decodeS 0x30000007 = some (.trap 7) ∧
  decodeS 0x34A00001 = some (.ctlr 5 1) ∧
  decodeS 0x0C000003 = some .retire ∧
  decodeS 0xD8000000 = some .eret ∧
  decodeBundle 0xE5E0000000000005 = .ok (.long (.call 15 5)) ∧
  decodeV 0 = some .vnop ∧
  decodeFilter 0 = some .quinudEnd ∧
  decodeS 0xFFFFFFFF = none ∧ decodeV 0xFFFFFFFF = none ∧ decodeFilter 0xFFFFFFFF = none

/-- 05 R150-R173, 22 R538: decoding and encoding are each other's inverse. Every instruction of a thread and of a filter has
words; the words of a legal one decode to it, and a word that decodes is the word of its instruction. -/
def Obligations.DecodeEncode : Prop :=
  (∀ i : Instr, (isSyllable i = true → encode i ≠ none) ∧ (isFilter i = true → encodeFilter i ≠ none)) ∧
  (∀ i : Instr, i.wf = true →
    (∀ w, encodeS i = some w → decodeS w = some i) ∧ (∀ w, encodeV i = some w → decodeV w = some i) ∧
    (∀ w, encodeFilter i = some w → decodeFilter w = some i) ∧
    (∀ p, encodeLong i = some p → decodeBundle (p.1 ++ p.2) = .ok (.long i)) ∧
    ∀ j v w, j.wf = true → encodeS i = some v → encodeV j = some w → decodeBundle (v ++ w) = .ok (.pair i j)) ∧
  (∀ (w : BitVec 32) (i : Instr), (decodeS w = some i → i.wf = true ∧ encodeS i = some w) ∧
    (decodeV w = some i → i.wf = true ∧ encodeV i = some w) ∧
    (decodeFilter w = some i → i.wf = true ∧ encodeFilter i = some w)) ∧
  ∀ (b : BitVec 64) (i : Instr), decodeBundle b = .ok (.long i) →
    i.wf = true ∧ ∃ p, encodeLong i = some p ∧ b = p.1 ++ p.2

/-- Every step keeps the canonical form: memory is a table of bytes with rising addresses that lists no byte an unlisted
address reads as, and the tables of contexts, cores, quads and dies have rising keys. The model's choices in it: log 1. -/
def Obligations.StepKeepsCanonical : Prop :=
  ∀ s t : State, Canonical s → step s = .next t → Canonical t

/-- 03 R105, R107, 08 R581, 21 R504: right after reset only the monitor's context is not Free: Ready at level 3 on core 3 of
the control quad, in mode 0; presence bits are full, counts and trap registers are zero, and no partition, launch, message
or request is there. The model chooses: that a byte which nothing has written reads zero (log 1); the zeros of general and
vector registers, and the values of `ctl.qstall` and `ctl.fewait`, which a task gets at its entry (log 2); the monitor's
context, number 0, and its pc, 0 (log 3). -/
def Obligations.ResetState : Prop :=
  Canonical State.reset ∧
  (∀ th, th ≠ 48 → (State.reset.ctx th).status = .free) ∧
  (State.reset.ctx 48).status = .ready ∧ (State.reset.ctx 48).level = 3 ∧ (State.reset.core 3).mode = 0 ∧
  (State.reset.ctx 48).pc = 0 ∧
  (∀ th n, (State.reset.ctx th).sreg n = 0 ∧ (State.reset.ctx th).vreg n = 0) ∧
  (∀ k, Memory.byte State.reset.mem k = 0) ∧ (∀ core w, State.reset.full core w = true) ∧
  (∀ th, State.reset.ctlRead th 0x010 = 0x100000 ∧ State.reset.ctlRead th 0x011 = 0x10000) ∧
  (∀ th, ∀ i ∈ [0x012, 0x018, 0x019, 0x01A, 0x01B, 0x01C, 0x01D, 0x020, 0x021, 0x022, 0x023, 0x024, 0x025],
    State.reset.ctlRead th i = 0) ∧
  State.reset.hub.part = [] ∧ State.reset.launches = [] ∧ State.reset.net = [] ∧ State.reset.inbox = [] ∧ State.reset.hub.due = [] ∧ State.reset.hub.bells = [] ∧
  State.reset.hub.trip = false
end

