-- ==== Sys2Proof/Laws/Engine.lean ====
section
/-! SUPPORT. What the run of an engine command can do, said once for all commands. -/

namespace Sys2Proof.Machine

@[simp] theorem modEngine_grant (s : State) (unit place : Nat) (f : Engine → Engine) :
    (s.modEngine unit place f).grant = s.grant := by
  unfold State.modEngine; split <;> rfl

@[simp] theorem setRun_grant (s : State) (r : Running) : (s.setRun r).grant = s.grant := by
  simp [State.setRun]

@[simp] theorem modRun_grant (s : State) (c : Cmd) (f : Running → Running) : (s.modRun c f).grant = s.grant := by
  simp [State.modRun]

/-- The steps of a started command and what follows them. -/
theorem runFrom_eq {s u : State} (hg : u.grant = s.grant) (c : Cmd) (n k : Nat) (f : Nat → State → Except Stop State)
    (fin : State → State) :
    u.runFrom c n k f fin = closeRun c n fin (steps f (s.stepsOf (n - k)) k u) := by
  have e : u.granted (n - k) = s.stepsOf (n - k) := by
    unfold State.granted State.stepsOf; rw [hg]; cases s.grant <;> simp [Nat.min_comm]
  unfold State.runFrom closeRun
  rw [e]
  generalize steps f (s.stepsOf (n - k)) k u = r
  obtain ⟨_, _, _ | _⟩ := r <;> rfl

/-- An instruction whose meaning is the run of its command does what a run does. -/
theorem runs_of_runCmd {s : State} {i : Instr} {c : Cmd} {check : State → Nat} {start : State → State} {n : Nat}
    {f : Nat → State → Except Stop State} {fin : State → State} (hs : ∀ t, (start t).grant = t.grant)
    (h : exec i s = .next (s.runCmd c check start n f fin)) : Runs s i c (check s) start n f fin := by
  refine ⟨fun h0 he => ?_, fun h0 he => ?_, fun r h0 => ?_⟩ <;> rw [h, State.runCmd, h0] <;> dsimp only
  · rw [if_pos he]
  · rw [if_neg (by simpa using he), runFrom_eq (s := s) (by simp [hs])]; rfl
  · rw [runFrom_eq (s := s) (by simp)]

/-- The steps that a command makes of its reads and its writes are those of its elements. -/
theorem elements_of_elemStep (c : Cmd) (p : Nat) (rd : Nat → Nat → State → Except Stop (State × Nat))
    (put : Nat → List Nat → State → Except Stop State) (ok : State → Prop) :
    Elements c p (fun k s => s.elemStep c p (fun e j => rd e j s) (fun e l => put e l s) k) ok rd put := by
  intro e r _
  have h : ∀ j ≤ p, (e * (p + 1) + j) / (p + 1) = e ∧ (e * (p + 1) + j) % (p + 1) = j := fun j hj => by
    rw [Nat.mul_comm]
    exact ⟨by rw [Nat.mul_add_div (by omega), Nat.div_eq_of_lt (by omega), Nat.add_zero],
      by rw [Nat.mul_add_mod, Nat.mod_eq_of_lt (by omega)]⟩
  refine ⟨fun j hj => ?_, ?_⟩
  · obtain ⟨h1, h2⟩ := h j (by omega)
    simp only [State.elemStep, h1, h2, if_pos hj]
  · obtain ⟨h1, h2⟩ := h p (Nat.le_refl p)
    simp only [State.elemStep, h1, h2, Nat.lt_irrefl, if_false]

end Sys2Proof.Machine
end

