-- ==== Sys2Proof/Laws/Exec.lean ====
section
/-! SUPPORT. What `exec` does with each constructor, by name, so that no proof opens the dispatch. -/

namespace Sys2Proof.Machine

theorem exec_add (d : BitVec 5) (a : BitVec 5) (t : BitVec 1) (b : BitVec 5) (u : BitVec 1) (s : State) : exec (.add d a t b u) s = execAdd d a t b u s := rfl
theorem exec_sub (d : BitVec 5) (a : BitVec 5) (t : BitVec 1) (b : BitVec 5) (u : BitVec 1) (s : State) : exec (.sub d a t b u) s = execSub d a t b u s := rfl
theorem exec_and (d : BitVec 5) (a : BitVec 5) (t : BitVec 1) (b : BitVec 5) (u : BitVec 1) (s : State) : exec (.and d a t b u) s = execAnd d a t b u s := rfl
theorem exec_or (d : BitVec 5) (a : BitVec 5) (t : BitVec 1) (b : BitVec 5) (u : BitVec 1) (s : State) : exec (.or d a t b u) s = execOr d a t b u s := rfl
theorem exec_xor (d : BitVec 5) (a : BitVec 5) (t : BitVec 1) (b : BitVec 5) (u : BitVec 1) (s : State) : exec (.xor d a t b u) s = execXor d a t b u s := rfl
theorem exec_andn (d : BitVec 5) (a : BitVec 5) (t : BitVec 1) (b : BitVec 5) (u : BitVec 1) (s : State) : exec (.andn d a t b u) s = execAndn d a t b u s := rfl
theorem exec_sll (d : BitVec 5) (a : BitVec 5) (t : BitVec 1) (b : BitVec 5) (u : BitVec 1) (s : State) : exec (.sll d a t b u) s = execSll d a t b u s := rfl
theorem exec_srl (d : BitVec 5) (a : BitVec 5) (t : BitVec 1) (b : BitVec 5) (u : BitVec 1) (s : State) : exec (.srl d a t b u) s = execSrl d a t b u s := rfl
theorem exec_sra (d : BitVec 5) (a : BitVec 5) (t : BitVec 1) (b : BitVec 5) (u : BitVec 1) (s : State) : exec (.sra d a t b u) s = execSra d a t b u s := rfl
theorem exec_slt (d : BitVec 5) (a : BitVec 5) (t : BitVec 1) (b : BitVec 5) (u : BitVec 1) (s : State) : exec (.slt d a t b u) s = execSlt d a t b u s := rfl
theorem exec_sltn (d : BitVec 5) (a : BitVec 5) (t : BitVec 1) (b : BitVec 5) (u : BitVec 1) (s : State) : exec (.sltn d a t b u) s = execSltn d a t b u s := rfl
theorem exec_min (d : BitVec 5) (a : BitVec 5) (t : BitVec 1) (b : BitVec 5) (u : BitVec 1) (s : State) : exec (.min d a t b u) s = execMin d a t b u s := rfl
theorem exec_max (d : BitVec 5) (a : BitVec 5) (t : BitVec 1) (b : BitVec 5) (u : BitVec 1) (s : State) : exec (.max d a t b u) s = execMax d a t b u s := rfl
theorem exec_minn (d : BitVec 5) (a : BitVec 5) (t : BitVec 1) (b : BitVec 5) (u : BitVec 1) (s : State) : exec (.minn d a t b u) s = execMinn d a t b u s := rfl
theorem exec_maxn (d : BitVec 5) (a : BitVec 5) (t : BitVec 1) (b : BitVec 5) (u : BitVec 1) (s : State) : exec (.maxn d a t b u) s = execMaxn d a t b u s := rfl
theorem exec_lea (d : BitVec 5) (a : BitVec 5) (t : BitVec 1) (b : BitVec 5) (u : BitVec 1) (k : BitVec 3) (s : State) : exec (.lea d a t b u k) s = execLea d a t b u k s := rfl
theorem exec_mul (d : BitVec 5) (a : BitVec 5) (t : BitVec 1) (b : BitVec 5) (u : BitVec 1) (s : State) : exec (.mul d a t b u) s = execMul d a t b u s := rfl
theorem exec_mulh (d : BitVec 5) (a : BitVec 5) (t : BitVec 1) (b : BitVec 5) (u : BitVec 1) (s : State) : exec (.mulh d a t b u) s = execMulh d a t b u s := rfl
theorem exec_mulhn (d : BitVec 5) (a : BitVec 5) (t : BitVec 1) (b : BitVec 5) (u : BitVec 1) (s : State) : exec (.mulhn d a t b u) s = execMulhn d a t b u s := rfl
theorem exec_mulhsn (d : BitVec 5) (a : BitVec 5) (t : BitVec 1) (b : BitVec 5) (u : BitVec 1) (s : State) : exec (.mulhsn d a t b u) s = execMulhsn d a t b u s := rfl
theorem exec_div (d : BitVec 5) (a : BitVec 5) (t : BitVec 1) (b : BitVec 5) (u : BitVec 1) (s : State) : exec (.div d a t b u) s = execDiv d a t b u s := rfl
theorem exec_divn (d : BitVec 5) (a : BitVec 5) (t : BitVec 1) (b : BitVec 5) (u : BitVec 1) (s : State) : exec (.divn d a t b u) s = execDivn d a t b u s := rfl
theorem exec_rem (d : BitVec 5) (a : BitVec 5) (t : BitVec 1) (b : BitVec 5) (u : BitVec 1) (s : State) : exec (.rem d a t b u) s = execRem d a t b u s := rfl
theorem exec_remn (d : BitVec 5) (a : BitVec 5) (t : BitVec 1) (b : BitVec 5) (u : BitVec 1) (s : State) : exec (.remn d a t b u) s = execRemn d a t b u s := rfl
theorem exec_clz (d : BitVec 5) (a : BitVec 5) (t : BitVec 1) (s : State) : exec (.clz d a t) s = execClz d a t s := rfl
theorem exec_ctz (d : BitVec 5) (a : BitVec 5) (t : BitVec 1) (s : State) : exec (.ctz d a t) s = execCtz d a t s := rfl
theorem exec_popc (d : BitVec 5) (a : BitVec 5) (t : BitVec 1) (s : State) : exec (.popc d a t) s = execPopc d a t s := rfl
theorem exec_sel (d : BitVec 5) (a : BitVec 5) (t : BitVec 1) (b : BitVec 5) (u : BitVec 1) (s : State) : exec (.sel d a t b u) s = execSel d a t b u s := rfl
theorem exec_bext (d : BitVec 5) (a : BitVec 5) (t : BitVec 1) (b : BitVec 5) (u : BitVec 1) (s : State) : exec (.bext d a t b u) s = execBext d a t b u s := rfl
theorem exec_bexts (d : BitVec 5) (a : BitVec 5) (t : BitVec 1) (b : BitVec 5) (u : BitVec 1) (s : State) : exec (.bexts d a t b u) s = execBexts d a t b u s := rfl
theorem exec_bins (d : BitVec 5) (a : BitVec 5) (t : BitVec 1) (b : BitVec 5) (u : BitVec 1) (s : State) : exec (.bins d a t b u) s = execBins d a t b u s := rfl
theorem exec_jr (a : BitVec 5) (t : BitVec 1) (s : State) : exec (.jr a t) s = execJr a t s := rfl
theorem exec_callr (d : BitVec 5) (a : BitVec 5) (t : BitVec 1) (s : State) : exec (.callr d a t) s = execCallr d a t s := rfl
theorem exec_lpset (a : BitVec 5) (t : BitVec 1) (s : State) : exec (.lpset a t) s = execLpset a t s := rfl
theorem exec_lpidx (d : BitVec 5) (l : BitVec 2) (s : State) : exec (.lpidx d l) s = execLpidx d l s := rfl
theorem exec_lpaddr (d : BitVec 5) (l : BitVec 2) (s : State) : exec (.lpaddr d l) s = execLpaddr d l s := rfl
theorem exec_addi (d : BitVec 5) (a : BitVec 5) (t : BitVec 1) (i : BitVec 15) (s : State) : exec (.addi d a t i) s = execAddi d a t i s := rfl
theorem exec_andi (d : BitVec 5) (a : BitVec 5) (t : BitVec 1) (i : BitVec 15) (s : State) : exec (.andi d a t i) s = execAndi d a t i s := rfl
theorem exec_ori (d : BitVec 5) (a : BitVec 5) (t : BitVec 1) (i : BitVec 15) (s : State) : exec (.ori d a t i) s = execOri d a t i s := rfl
theorem exec_xori (d : BitVec 5) (a : BitVec 5) (t : BitVec 1) (i : BitVec 15) (s : State) : exec (.xori d a t i) s = execXori d a t i s := rfl
theorem exec_slti (d : BitVec 5) (a : BitVec 5) (t : BitVec 1) (i : BitVec 15) (s : State) : exec (.slti d a t i) s = execSlti d a t i s := rfl
theorem exec_sltni (d : BitVec 5) (a : BitVec 5) (t : BitVec 1) (i : BitVec 15) (s : State) : exec (.sltni d a t i) s = execSltni d a t i s := rfl
theorem exec_slli (d : BitVec 5) (a : BitVec 5) (t : BitVec 1) (n : BitVec 6) (s : State) : exec (.slli d a t n) s = execSlli d a t n s := rfl
theorem exec_srli (d : BitVec 5) (a : BitVec 5) (t : BitVec 1) (n : BitVec 6) (s : State) : exec (.srli d a t n) s = execSrli d a t n s := rfl
theorem exec_srai (d : BitVec 5) (a : BitVec 5) (t : BitVec 1) (n : BitVec 6) (s : State) : exec (.srai d a t n) s = execSrai d a t n s := rfl
theorem exec_cadr (d : BitVec 5) (a : BitVec 5) (t : BitVec 1) (g : BitVec 3) (x : BitVec 4) (y : BitVec 4) (c : BitVec 2) (s : State) : exec (.cadr d a t g x y c) s = execCadr d a t g x y c s := rfl
theorem exec_trap (n : BitVec 15) (s : State) : exec (.trap n) s = execTrap n s := rfl
theorem exec_ctlr (d : BitVec 5) (i : BitVec 12) (s : State) : exec (.ctlr d i) s = execCtlr d i s := rfl
theorem exec_ctlw (a : BitVec 5) (t : BitVec 1) (i : BitVec 12) (s : State) : exec (.ctlw a t i) s = execCtlw a t i s := rfl
theorem exec_beq (a : BitVec 5) (t : BitVec 1) (b : BitVec 5) (u : BitVec 1) (o : BitVec 14) (s : State) : exec (.beq a t b u o) s = execBeq a t b u o s := rfl
theorem exec_bne (a : BitVec 5) (t : BitVec 1) (b : BitVec 5) (u : BitVec 1) (o : BitVec 14) (s : State) : exec (.bne a t b u o) s = execBne a t b u o s := rfl
theorem exec_blt (a : BitVec 5) (t : BitVec 1) (b : BitVec 5) (u : BitVec 1) (o : BitVec 14) (s : State) : exec (.blt a t b u o) s = execBlt a t b u o s := rfl
theorem exec_bge (a : BitVec 5) (t : BitVec 1) (b : BitVec 5) (u : BitVec 1) (o : BitVec 14) (s : State) : exec (.bge a t b u o) s = execBge a t b u o s := rfl
theorem exec_bltn (a : BitVec 5) (t : BitVec 1) (b : BitVec 5) (u : BitVec 1) (o : BitVec 14) (s : State) : exec (.bltn a t b u o) s = execBltn a t b u o s := rfl
theorem exec_bgen (a : BitVec 5) (t : BitVec 1) (b : BitVec 5) (u : BitVec 1) (o : BitVec 14) (s : State) : exec (.bgen a t b u o) s = execBgen a t b u o s := rfl
theorem exec_lpnext (l : BitVec 2) (o : BitVec 14) (s : State) : exec (.lpnext l o) s = execLpnext l o s := rfl
theorem exec_ldN8 (d : BitVec 5) (b : BitVec 5) (t : BitVec 1) (w : BitVec 2) (r : BitVec 1) (p : BitVec 12) (s : State) : exec (.ldN8 d b t w r p) s = execLdN8 d b t w r p s := rfl
theorem exec_ldN16 (d : BitVec 5) (b : BitVec 5) (t : BitVec 1) (w : BitVec 2) (r : BitVec 1) (p : BitVec 12) (s : State) : exec (.ldN16 d b t w r p) s = execLdN16 d b t w r p s := rfl
theorem exec_ldN32 (d : BitVec 5) (b : BitVec 5) (t : BitVec 1) (w : BitVec 2) (r : BitVec 1) (p : BitVec 12) (s : State) : exec (.ldN32 d b t w r p) s = execLdN32 d b t w r p s := rfl
theorem exec_ld64 (d : BitVec 5) (b : BitVec 5) (t : BitVec 1) (w : BitVec 2) (r : BitVec 1) (p : BitVec 12) (s : State) : exec (.ld64 d b t w r p) s = execLd64 d b t w r p s := rfl
theorem exec_ldS8 (d : BitVec 5) (b : BitVec 5) (t : BitVec 1) (w : BitVec 2) (r : BitVec 1) (p : BitVec 12) (s : State) : exec (.ldS8 d b t w r p) s = execLdS8 d b t w r p s := rfl
theorem exec_ldS16 (d : BitVec 5) (b : BitVec 5) (t : BitVec 1) (w : BitVec 2) (r : BitVec 1) (p : BitVec 12) (s : State) : exec (.ldS16 d b t w r p) s = execLdS16 d b t w r p s := rfl
theorem exec_ldS32 (d : BitVec 5) (b : BitVec 5) (t : BitVec 1) (w : BitVec 2) (r : BitVec 1) (p : BitVec 12) (s : State) : exec (.ldS32 d b t w r p) s = execLdS32 d b t w r p s := rfl
theorem exec_vld (v : BitVec 5) (b : BitVec 5) (t : BitVec 1) (w : BitVec 2) (r : BitVec 1) (x : BitVec 1) (p : BitVec 11) (s : State) : exec (.vld v b t w r x p) s = execVld v b t w r x p s := rfl
theorem exec_st8 (d : BitVec 5) (b : BitVec 5) (t : BitVec 1) (w : BitVec 2) (r : BitVec 1) (p : BitVec 12) (s : State) : exec (.st8 d b t w r p) s = execSt8 d b t w r p s := rfl
theorem exec_st16 (d : BitVec 5) (b : BitVec 5) (t : BitVec 1) (w : BitVec 2) (r : BitVec 1) (p : BitVec 12) (s : State) : exec (.st16 d b t w r p) s = execSt16 d b t w r p s := rfl
theorem exec_st32 (d : BitVec 5) (b : BitVec 5) (t : BitVec 1) (w : BitVec 2) (r : BitVec 1) (p : BitVec 12) (s : State) : exec (.st32 d b t w r p) s = execSt32 d b t w r p s := rfl
theorem exec_st64 (d : BitVec 5) (b : BitVec 5) (t : BitVec 1) (w : BitVec 2) (r : BitVec 1) (p : BitVec 12) (s : State) : exec (.st64 d b t w r p) s = execSt64 d b t w r p s := rfl
theorem exec_vst (v : BitVec 5) (b : BitVec 5) (t : BitVec 1) (w : BitVec 2) (r : BitVec 1) (x : BitVec 1) (p : BitVec 11) (s : State) : exec (.vst v b t w r x p) s = execVst v b t w r x p s := rfl
theorem exec_ldAcq32 (d : BitVec 5) (b : BitVec 5) (t : BitVec 1) (s1 : BitVec 3) (p : BitVec 12) (s : State) : exec (.ldAcq32 d b t s1 p) s = execLdAcq32 d b t s1 p s := rfl
theorem exec_ldAcq64 (d : BitVec 5) (b : BitVec 5) (t : BitVec 1) (s1 : BitVec 3) (p : BitVec 12) (s : State) : exec (.ldAcq64 d b t s1 p) s = execLdAcq64 d b t s1 p s := rfl
theorem exec_stRel32 (d : BitVec 5) (b : BitVec 5) (t : BitVec 1) (s1 : BitVec 3) (p : BitVec 12) (s : State) : exec (.stRel32 d b t s1 p) s = execStRel32 d b t s1 p s := rfl
theorem exec_stRel64 (d : BitVec 5) (b : BitVec 5) (t : BitVec 1) (s1 : BitVec 3) (p : BitVec 12) (s : State) : exec (.stRel64 d b t s1 p) s = execStRel64 d b t s1 p s := rfl
theorem exec_ldfe (d : BitVec 5) (b : BitVec 5) (t : BitVec 1) (w : BitVec 2) (r : BitVec 1) (p : BitVec 12) (s : State) : exec (.ldfe d b t w r p) s = execLdfe d b t w r p s := rfl
theorem exec_stef (d : BitVec 5) (b : BitVec 5) (t : BitVec 1) (w : BitVec 2) (r : BitVec 1) (p : BitVec 12) (s : State) : exec (.stef d b t w r p) s = execStef d b t w r p s := rfl
theorem exec_ldPw (d : BitVec 5) (b : BitVec 5) (t : BitVec 1) (w : BitVec 2) (r : BitVec 1) (p : BitVec 12) (s : State) : exec (.ldPw d b t w r p) s = execLdPw d b t w r p s := rfl
theorem exec_vlds (v : BitVec 5) (a : BitVec 5) (t : BitVec 1) (b : BitVec 5) (u : BitVec 1) (x : BitVec 1) (w : BitVec 2) (r : BitVec 1) (z : BitVec 2) (s : State) : exec (.vlds v a t b u x w r z) s = execVlds v a t b u x w r z s := rfl
theorem exec_vldx (v : BitVec 5) (a : BitVec 5) (t : BitVec 1) (b : BitVec 5) (u : BitVec 1) (x : BitVec 1) (w : BitVec 2) (r : BitVec 1) (s : State) : exec (.vldx v a t b u x w r) s = execVldx v a t b u x w r s := rfl
theorem exec_mwait (k : BitVec 2) (s : State) : exec (.mwait k) s = execMwait k s := rfl
theorem exec_qbind (a : BitVec 5) (t : BitVec 1) (k : BitVec 2) (s : State) : exec (.qbind a t k) s = execQbind a t k s := rfl
theorem exec_qunbind (k : BitVec 2) (s : State) : exec (.qunbind k) s = execQunbind k s := rfl
theorem exec_qstat (d : BitVec 5) (k : BitVec 2) (s : State) : exec (.qstat d k) s = execQstat d k s := rfl
theorem exec_qpeek (d : BitVec 5) (k : BitVec 2) (s : State) : exec (.qpeek d k) s = execQpeek d k s := rfl
theorem exec_vqpush (v : BitVec 5) (t : BitVec 1) (x : BitVec 1) (k : BitVec 2) (s : State) : exec (.vqpush v t x k) s = execVqpush v t x k s := rfl
theorem exec_vqpop (v : BitVec 5) (x : BitVec 1) (k : BitVec 2) (s : State) : exec (.vqpop v x k) s = execVqpop v x k s := rfl
theorem exec_qcfgr (d : BitVec 5) (a : BitVec 5) (t : BitVec 1) (s : State) : exec (.qcfgr d a t) s = execQcfgr d a t s := rfl
theorem exec_qcfgw (a : BitVec 5) (t : BitVec 1) (b : BitVec 5) (u : BitVec 1) (s : State) : exec (.qcfgw a t b u) s = execQcfgw a t b u s := rfl
theorem exec_ttag (d : BitVec 5) (a : BitVec 5) (t : BitVec 1) (b : BitVec 5) (u : BitVec 1) (s : State) : exec (.ttag d a t b u) s = execTtag d a t b u s := rfl
theorem exec_tfld (d : BitVec 5) (a : BitVec 5) (t : BitVec 1) (f : BitVec 3) (s : State) : exec (.tfld d a t f) s = execTfld d a t f s := rfl
theorem exec_tins (a : BitVec 5) (t : BitVec 1) (b : BitVec 5) (u : BitVec 1) (s : State) : exec (.tins a t b u) s = execTins a t b u s := rfl
theorem exec_tinsd (a : BitVec 5) (t : BitVec 1) (b : BitVec 5) (u : BitVec 1) (s : State) : exec (.tinsd a t b u) s = execTinsd a t b u s := rfl
theorem exec_tgen (d : BitVec 5) (s : State) : exec (.tgen d) s = execTgen d s := rfl
theorem exec_covQ (d : BitVec 5) (a : BitVec 5) (t : BitVec 1) (s : State) : exec (.covQ d a t) s = execCovQ d a t s := rfl
theorem exec_covRd (d : BitVec 5) (i : BitVec 3) (s : State) : exec (.covRd d i) s = execCovRd d i s := rfl
theorem exec_poolCnt (d : BitVec 5) (s : State) : exec (.poolCnt d) s = execPoolCnt d s := rfl
theorem exec_amoAdd (d : BitVec 5) (a : BitVec 5) (t : BitVec 1) (b : BitVec 5) (u : BitVec 1) (l : BitVec 1) (r : BitVec 1) (w : BitVec 2) (s : State) : exec (.amoAdd d a t b u l r w) s = execAmoAdd d a t b u l r w s := rfl
theorem exec_amoAnd (d : BitVec 5) (a : BitVec 5) (t : BitVec 1) (b : BitVec 5) (u : BitVec 1) (l : BitVec 1) (r : BitVec 1) (w : BitVec 2) (s : State) : exec (.amoAnd d a t b u l r w) s = execAmoAnd d a t b u l r w s := rfl
theorem exec_amoOr (d : BitVec 5) (a : BitVec 5) (t : BitVec 1) (b : BitVec 5) (u : BitVec 1) (l : BitVec 1) (r : BitVec 1) (w : BitVec 2) (s : State) : exec (.amoOr d a t b u l r w) s = execAmoOr d a t b u l r w s := rfl
theorem exec_amoXor (d : BitVec 5) (a : BitVec 5) (t : BitVec 1) (b : BitVec 5) (u : BitVec 1) (l : BitVec 1) (r : BitVec 1) (w : BitVec 2) (s : State) : exec (.amoXor d a t b u l r w) s = execAmoXor d a t b u l r w s := rfl
theorem exec_amoMin (d : BitVec 5) (a : BitVec 5) (t : BitVec 1) (b : BitVec 5) (u : BitVec 1) (l : BitVec 1) (r : BitVec 1) (w : BitVec 2) (s : State) : exec (.amoMin d a t b u l r w) s = execAmoMin d a t b u l r w s := rfl
theorem exec_amoMax (d : BitVec 5) (a : BitVec 5) (t : BitVec 1) (b : BitVec 5) (u : BitVec 1) (l : BitVec 1) (r : BitVec 1) (w : BitVec 2) (s : State) : exec (.amoMax d a t b u l r w) s = execAmoMax d a t b u l r w s := rfl
theorem exec_amoMinu (d : BitVec 5) (a : BitVec 5) (t : BitVec 1) (b : BitVec 5) (u : BitVec 1) (l : BitVec 1) (r : BitVec 1) (w : BitVec 2) (s : State) : exec (.amoMinu d a t b u l r w) s = execAmoMinu d a t b u l r w s := rfl
theorem exec_amoMaxu (d : BitVec 5) (a : BitVec 5) (t : BitVec 1) (b : BitVec 5) (u : BitVec 1) (l : BitVec 1) (r : BitVec 1) (w : BitVec 2) (s : State) : exec (.amoMaxu d a t b u l r w) s = execAmoMaxu d a t b u l r w s := rfl
theorem exec_amoSwap (d : BitVec 5) (a : BitVec 5) (t : BitVec 1) (b : BitVec 5) (u : BitVec 1) (l : BitVec 1) (r : BitVec 1) (w : BitVec 2) (s : State) : exec (.amoSwap d a t b u l r w) s = execAmoSwap d a t b u l r w s := rfl
theorem exec_amoCas (d : BitVec 5) (a : BitVec 5) (t : BitVec 1) (b : BitVec 5) (u : BitVec 1) (l : BitVec 1) (r : BitVec 1) (w : BitVec 2) (s : State) : exec (.amoCas d a t b u l r w) s = execAmoCas d a t b u l r w s := rfl
theorem exec_amoFaddF32 (d : BitVec 5) (a : BitVec 5) (t : BitVec 1) (b : BitVec 5) (u : BitVec 1) (r : BitVec 1) (w : BitVec 2) (s : State) : exec (.amoFaddF32 d a t b u r w) s = execAmoFaddF32 d a t b u r w s := rfl
theorem exec_amoInclt (d : BitVec 5) (a : BitVec 5) (t : BitVec 1) (b : BitVec 5) (u : BitVec 1) (l : BitVec 1) (r : BitVec 1) (w : BitVec 2) (s : State) : exec (.amoInclt d a t b u l r w) s = execAmoInclt d a t b u l r w s := rfl
theorem exec_joinInit (a : BitVec 5) (t : BitVec 1) (b : BitVec 5) (u : BitVec 1) (s : State) : exec (.joinInit a t b u) s = execJoinInit a t b u s := rfl
theorem exec_joinArrive (a : BitVec 5) (t : BitVec 1) (b : BitVec 5) (u : BitVec 1) (s : State) : exec (.joinArrive a t b u) s = execJoinArrive a t b u s := rfl
theorem exec_ssigSet (a : BitVec 5) (t : BitVec 1) (b : BitVec 5) (u : BitVec 1) (s : State) : exec (.ssigSet a t b u) s = execSsigSet a t b u s := rfl
theorem exec_ssigAdd (a : BitVec 5) (t : BitVec 1) (b : BitVec 5) (u : BitVec 1) (s : State) : exec (.ssigAdd a t b u) s = execSsigAdd a t b u s := rfl
theorem exec_swait (d : BitVec 5) (a : BitVec 5) (t : BitVec 1) (b : BitVec 5) (u : BitVec 1) (c : BitVec 3) (s : State) : exec (.swait d a t b u c) s = execSwait d a t b u c s := rfl
theorem exec_barrArr (l : BitVec 3) (i : BitVec 6) (s : State) : exec (.barrArr l i) s = execBarrArr l i s := rfl
theorem exec_barrWait (l : BitVec 3) (i : BitVec 6) (s : State) : exec (.barrWait l i) s = execBarrWait l i s := rfl
theorem exec_barrSync (l : BitVec 3) (i : BitVec 6) (s : State) : exec (.barrSync l i) s = execBarrSync l i s := rfl
theorem exec_barrSyncCmb (a : BitVec 5) (t : BitVec 1) (l : BitVec 3) (i : BitVec 6) (s : State) : exec (.barrSyncCmb a t l i) s = execBarrSyncCmb a t l i s := rfl
theorem exec_repart (m : BitVec 2) (s : State) : exec (.repart m) s = execRepart m s := rfl
theorem exec_slotw (a : BitVec 5) (t : BitVec 1) (s : State) : exec (.slotw a t) s = execSlotw a t s := rfl
theorem exec_sleep (a : BitVec 5) (t : BitVec 1) (s : State) : exec (.sleep a t) s = execSleep a t s := rfl
theorem exec_xlinv (a : BitVec 5) (t : BitVec 1) (b : BitVec 5) (u : BitVec 1) (s : State) : exec (.xlinv a t b u) s = execXlinv a t b u s := rfl
theorem exec_ctxsv (a : BitVec 5) (t : BitVec 1) (b : BitVec 5) (u : BitVec 1) (s : State) : exec (.ctxsv a t b u) s = execCtxsv a t b u s := rfl
theorem exec_ctxld (a : BitVec 5) (t : BitVec 1) (b : BitVec 5) (u : BitVec 1) (s : State) : exec (.ctxld a t b u) s = execCtxld a t b u s := rfl
theorem exec_telEv (a : BitVec 5) (t : BitVec 1) (b : BitVec 5) (u : BitVec 1) (s : State) : exec (.telEv a t b u) s = execTelEv a t b u s := rfl
theorem exec_lim (d : BitVec 5) (i : BitVec 48) (s : State) : exec (.lim d i) s = execLim d i s := rfl
theorem exec_call (d : BitVec 5) (o : BitVec 32) (s : State) : exec (.call d o) s = execCall d o s := rfl
theorem exec_vcvtScaled (k : BitVec 10) (r : BitVec 2) (d : BitVec 6) (a : BitVec 6) (t : BitVec 1) (g : BitVec 6) (s1 : BitVec 6) (o : BitVec 1) (s : State) : exec (.vcvtScaled k r d a t g s1 o) s = execVcvtScaled k r d a t g s1 o s := rfl
theorem exec_spawn (b : BitVec 5) (a : BitVec 5) (t : BitVec 1) (h : BitVec 1) (l : BitVec 2) (o : BitVec 32) (s : State) : exec (.spawn b a t h l o) s = execSpawn b a t h l o s := rfl
theorem exec_vand (d : BitVec 6) (a : BitVec 6) (t : BitVec 1) (b : BitVec 6) (u : BitVec 1) (s : State) : exec (.vand d a t b u) s = execVand d a t b u s := rfl
theorem exec_vor (d : BitVec 6) (a : BitVec 6) (t : BitVec 1) (b : BitVec 6) (u : BitVec 1) (s : State) : exec (.vor d a t b u) s = execVor d a t b u s := rfl
theorem exec_vxor (d : BitVec 6) (a : BitVec 6) (t : BitVec 1) (b : BitVec 6) (u : BitVec 1) (s : State) : exec (.vxor d a t b u) s = execVxor d a t b u s := rfl
theorem exec_vandn (d : BitVec 6) (a : BitVec 6) (t : BitVec 1) (b : BitVec 6) (u : BitVec 1) (s : State) : exec (.vandn d a t b u) s = execVandn d a t b u s := rfl
theorem exec_vsel (d : BitVec 6) (a : BitVec 6) (t : BitVec 1) (b : BitVec 6) (u : BitVec 1) (s : State) : exec (.vsel d a t b u) s = execVsel d a t b u s := rfl
theorem exec_vmov (d : BitVec 6) (a : BitVec 6) (t : BitVec 1) (s : State) : exec (.vmov d a t) s = execVmov d a t s := rfl
theorem exec_vshuf (d : BitVec 6) (a : BitVec 6) (t : BitVec 1) (b : BitVec 6) (u : BitVec 1) (s : State) : exec (.vshuf d a t b u) s = execVshuf d a t b u s := rfl
theorem exec_vcrc (d : BitVec 6) (a : BitVec 6) (t : BitVec 1) (s : State) : exec (.vcrc d a t) s = execVcrc d a t s := rfl
theorem exec_vadd (d : BitVec 6) (a : BitVec 6) (t : BitVec 1) (b : BitVec 6) (u : BitVec 1) (y : BitVec 6) (s : State) : exec (.vadd d a t b u y) s = execVadd d a t b u y s := rfl
theorem exec_vsub (d : BitVec 6) (a : BitVec 6) (t : BitVec 1) (b : BitVec 6) (u : BitVec 1) (y : BitVec 6) (s : State) : exec (.vsub d a t b u y) s = execVsub d a t b u y s := rfl
theorem exec_vmul (d : BitVec 6) (a : BitVec 6) (t : BitVec 1) (b : BitVec 6) (u : BitVec 1) (y : BitVec 6) (s : State) : exec (.vmul d a t b u y) s = execVmul d a t b u y s := rfl
theorem exec_vmin (d : BitVec 6) (a : BitVec 6) (t : BitVec 1) (b : BitVec 6) (u : BitVec 1) (y : BitVec 6) (s : State) : exec (.vmin d a t b u y) s = execVmin d a t b u y s := rfl
theorem exec_vmax (d : BitVec 6) (a : BitVec 6) (t : BitVec 1) (b : BitVec 6) (u : BitVec 1) (y : BitVec 6) (s : State) : exec (.vmax d a t b u y) s = execVmax d a t b u y s := rfl
theorem exec_vfma (d : BitVec 6) (a : BitVec 6) (t : BitVec 1) (b : BitVec 6) (u : BitVec 1) (y : BitVec 6) (s : State) : exec (.vfma d a t b u y) s = execVfma d a t b u y s := rfl
theorem exec_vfms (d : BitVec 6) (a : BitVec 6) (t : BitVec 1) (b : BitVec 6) (u : BitVec 1) (y : BitVec 6) (s : State) : exec (.vfms d a t b u y) s = execVfms d a t b u y s := rfl
theorem exec_vabs (d : BitVec 6) (a : BitVec 6) (t : BitVec 1) (y : BitVec 6) (s : State) : exec (.vabs d a t y) s = execVabs d a t y s := rfl
theorem exec_vneg (d : BitVec 6) (a : BitVec 6) (t : BitVec 1) (y : BitVec 6) (s : State) : exec (.vneg d a t y) s = execVneg d a t y s := rfl
theorem exec_vclamp (d : BitVec 6) (a : BitVec 6) (t : BitVec 1) (b : BitVec 6) (u : BitVec 1) (y : BitVec 6) (s : State) : exec (.vclamp d a t b u y) s = execVclamp d a t b u y s := rfl
theorem exec_vceq (d : BitVec 6) (a : BitVec 6) (t : BitVec 1) (b : BitVec 6) (u : BitVec 1) (y : BitVec 6) (s : State) : exec (.vceq d a t b u y) s = execVceq d a t b u y s := rfl
theorem exec_vcne (d : BitVec 6) (a : BitVec 6) (t : BitVec 1) (b : BitVec 6) (u : BitVec 1) (y : BitVec 6) (s : State) : exec (.vcne d a t b u y) s = execVcne d a t b u y s := rfl
theorem exec_vclt (d : BitVec 6) (a : BitVec 6) (t : BitVec 1) (b : BitVec 6) (u : BitVec 1) (y : BitVec 6) (s : State) : exec (.vclt d a t b u y) s = execVclt d a t b u y s := rfl
theorem exec_vcle (d : BitVec 6) (a : BitVec 6) (t : BitVec 1) (b : BitVec 6) (u : BitVec 1) (y : BitVec 6) (s : State) : exec (.vcle d a t b u y) s = execVcle d a t b u y s := rfl
theorem exec_vdot2F16 (d : BitVec 6) (a : BitVec 6) (t : BitVec 1) (b : BitVec 6) (u : BitVec 1) (r : BitVec 2) (s : State) : exec (.vdot2F16 d a t b u r) s = execVdot2F16 d a t b u r s := rfl
theorem exec_vdot4S8 (d : BitVec 6) (a : BitVec 6) (t : BitVec 1) (b : BitVec 6) (u : BitVec 1) (s : State) : exec (.vdot4S8 d a t b u) s = execVdot4S8 d a t b u s := rfl
theorem exec_vredadd (d : BitVec 6) (a : BitVec 6) (t : BitVec 1) (y : BitVec 6) (s : State) : exec (.vredadd d a t y) s = execVredadd d a t y s := rfl
theorem exec_vredmin (d : BitVec 6) (a : BitVec 6) (t : BitVec 1) (y : BitVec 6) (s : State) : exec (.vredmin d a t y) s = execVredmin d a t y s := rfl
theorem exec_vredmax (d : BitVec 6) (a : BitVec 6) (t : BitVec 1) (y : BitVec 6) (s : State) : exec (.vredmax d a t y) s = execVredmax d a t y s := rfl
theorem exec_vsll (d : BitVec 6) (a : BitVec 6) (t : BitVec 1) (y : BitVec 6) (k : BitVec 7) (s : State) : exec (.vsll d a t y k) s = execVsll d a t y k s := rfl
theorem exec_vsrl (d : BitVec 6) (a : BitVec 6) (t : BitVec 1) (y : BitVec 6) (k : BitVec 7) (s : State) : exec (.vsrl d a t y k) s = execVsrl d a t y k s := rfl
theorem exec_vsra (d : BitVec 6) (a : BitVec 6) (t : BitVec 1) (y : BitVec 6) (k : BitVec 7) (s : State) : exec (.vsra d a t y k) s = execVsra d a t y k s := rfl
theorem exec_vscale (d : BitVec 6) (a : BitVec 6) (t : BitVec 1) (y : BitVec 6) (k : BitVec 7) (s : State) : exec (.vscale d a t y k) s = execVscale d a t y k s := rfl
theorem exec_vsplat (d : BitVec 6) (s1 : BitVec 5) (t : BitVec 1) (y : BitVec 6) (s : State) : exec (.vsplat d s1 t y) s = execVsplat d s1 t y s := rfl
theorem exec_vins (d : BitVec 6) (s1 : BitVec 5) (t : BitVec 1) (y : BitVec 6) (i : BitVec 5) (s : State) : exec (.vins d s1 t y i) s = execVins d s1 t y i s := rfl
theorem exec_vext (s1 : BitVec 5) (a : BitVec 6) (t : BitVec 1) (y : BitVec 6) (i : BitVec 5) (s : State) : exec (.vext s1 a t y i) s = execVext s1 a t y i s := rfl
theorem exec_vpack (d : BitVec 6) (a : BitVec 6) (t : BitVec 1) (y : BitVec 6) (s : State) : exec (.vpack d a t y) s = execVpack d a t y s := rfl
theorem exec_vunpack (d : BitVec 6) (a : BitVec 6) (t : BitVec 1) (h : BitVec 1) (y : BitVec 6) (s : State) : exec (.vunpack d a t h y) s = execVunpack d a t h y s := rfl
theorem exec_vcvt (r : BitVec 2) (d : BitVec 6) (a : BitVec 6) (t : BitVec 1) (g : BitVec 6) (s1 : BitVec 6) (o : BitVec 1) (s : State) : exec (.vcvt r d a t g s1 o) s = execVcvt r d a t g s1 o s := rfl
theorem exec_rcp (d : BitVec 6) (a : BitVec 6) (t : BitVec 1) (y : BitVec 6) (s : State) : exec (.rcp d a t y) s = execRcp d a t y s := rfl
theorem exec_rsqrt (d : BitVec 6) (a : BitVec 6) (t : BitVec 1) (y : BitVec 6) (s : State) : exec (.rsqrt d a t y) s = execRsqrt d a t y s := rfl
theorem exec_sqrt (d : BitVec 6) (a : BitVec 6) (t : BitVec 1) (y : BitVec 6) (s : State) : exec (.sqrt d a t y) s = execSqrt d a t y s := rfl
theorem exec_exp2 (d : BitVec 6) (a : BitVec 6) (t : BitVec 1) (y : BitVec 6) (s : State) : exec (.exp2 d a t y) s = execExp2 d a t y s := rfl
theorem exec_log2 (d : BitVec 6) (a : BitVec 6) (t : BitVec 1) (y : BitVec 6) (s : State) : exec (.log2 d a t y) s = execLog2 d a t y s := rfl
theorem exec_tanh (d : BitVec 6) (a : BitVec 6) (t : BitVec 1) (y : BitVec 6) (s : State) : exec (.tanh d a t y) s = execTanh d a t y s := rfl
theorem exec_mxCfg (c : Cmd) (s : State) : exec (.mxCfg c) s = execMxCfg c s := rfl
theorem exec_mxLdst (c : Cmd) (s : State) : exec (.mxLdst c) s = execMxLdst c s := rfl
theorem exec_mxSwap (c : Cmd) (s : State) : exec (.mxSwap c) s = execMxSwap c s := rfl
theorem exec_mxStream (c : Cmd) (s : State) : exec (.mxStream c) s = execMxStream c s := rfl
theorem exec_mxZero (c : Cmd) (s : State) : exec (.mxZero c) s = execMxZero c s := rfl
theorem exec_mxDrain (c : Cmd) (s : State) : exec (.mxDrain c) s = execMxDrain c s := rfl
theorem exec_cpCopy (c : Cmd) (s : State) : exec (.cpCopy c) s = execCpCopy c s := rfl
theorem exec_cpMcast (c : Cmd) (s : State) : exec (.cpMcast c) s = execCpMcast c s := rfl
theorem exec_cpGather (c : Cmd) (s : State) : exec (.cpGather c) s = execCpGather c s := rfl
theorem exec_cpScatter (c : Cmd) (s : State) : exec (.cpScatter c) s = execCpScatter c s := rfl
theorem exec_cpFill (c : Cmd) (s : State) : exec (.cpFill c) s = execCpFill c s := rfl
theorem exec_cpCrc (c : Cmd) (s : State) : exec (.cpCrc c) s = execCpCrc c s := rfl
theorem exec_cpSend (c : Cmd) (s : State) : exec (.cpSend c) s = execCpSend c s := rfl
theorem exec_collReduce (c : Cmd) (s : State) : exec (.collReduce c) s = execCollReduce c s := rfl
theorem exec_collBcast (c : Cmd) (s : State) : exec (.collBcast c) s = execCollBcast c s := rfl
theorem exec_collAllgather (c : Cmd) (s : State) : exec (.collAllgather c) s = execCollAllgather c s := rfl
theorem exec_rcKern (c : Cmd) (s : State) : exec (.rcKern c) s = execRcKern c s := rfl
theorem exec_rcCmp (c : Cmd) (s : State) : exec (.rcCmp c) s = execRcCmp c s := rfl
theorem exec_quinudFx (d : BitVec 3) (e : BitVec 3) (l : BitVec 5) (n : BitVec 5) (s : State) : exec (.quinudFx d e l n) s = execQuinudFx d e l n s := rfl
theorem exec_quinudLi (d : BitVec 3) (i : BitVec 20) (s : State) : exec (.quinudLi d i) s = execQuinudLi d i s := rfl
theorem exec_quinudAddi (d : BitVec 3) (a : BitVec 3) (i : BitVec 20) (s : State) : exec (.quinudAddi d a i) s = execQuinudAddi d a i s := rfl
theorem exec_quinudAdd (d : BitVec 3) (a : BitVec 3) (b : BitVec 3) (s : State) : exec (.quinudAdd d a b) s = execQuinudAdd d a b s := rfl
theorem exec_quinudSub (d : BitVec 3) (a : BitVec 3) (b : BitVec 3) (s : State) : exec (.quinudSub d a b) s = execQuinudSub d a b s := rfl
theorem exec_quinudAnd (d : BitVec 3) (a : BitVec 3) (b : BitVec 3) (s : State) : exec (.quinudAnd d a b) s = execQuinudAnd d a b s := rfl
theorem exec_quinudOr (d : BitVec 3) (a : BitVec 3) (b : BitVec 3) (s : State) : exec (.quinudOr d a b) s = execQuinudOr d a b s := rfl
theorem exec_quinudXor (d : BitVec 3) (a : BitVec 3) (b : BitVec 3) (s : State) : exec (.quinudXor d a b) s = execQuinudXor d a b s := rfl
theorem exec_quinudShl (d : BitVec 3) (a : BitVec 3) (b : BitVec 3) (s : State) : exec (.quinudShl d a b) s = execQuinudShl d a b s := rfl
theorem exec_quinudShr (d : BitVec 3) (a : BitVec 3) (b : BitVec 3) (s : State) : exec (.quinudShr d a b) s = execQuinudShr d a b s := rfl
theorem exec_quinudMul (d : BitVec 3) (a : BitVec 3) (b : BitVec 3) (s : State) : exec (.quinudMul d a b) s = execQuinudMul d a b s := rfl
theorem exec_quinudMin (d : BitVec 3) (a : BitVec 3) (b : BitVec 3) (s : State) : exec (.quinudMin d a b) s = execQuinudMin d a b s := rfl
theorem exec_quinudMax (d : BitVec 3) (a : BitVec 3) (b : BitVec 3) (s : State) : exec (.quinudMax d a b) s = execQuinudMax d a b s := rfl
theorem exec_quinudCmp (d : BitVec 3) (a : BitVec 3) (b : BitVec 3) (c : BitVec 3) (s : State) : exec (.quinudCmp d a b c) s = execQuinudCmp d a b c s := rfl
theorem exec_quinudSel (d : BitVec 3) (a : BitVec 3) (b : BitVec 3) (c : BitVec 3) (s : State) : exec (.quinudSel d a b c) s = execQuinudSel d a b c s := rfl
theorem exec_quinudLd (d : BitVec 3) (k : BitVec 10) (s : State) : exec (.quinudLd d k) s = execQuinudLd d k s := rfl
theorem exec_quinudSt (a : BitVec 3) (k : BitVec 10) (s : State) : exec (.quinudSt a k) s = execQuinudSt a k s := rfl
theorem exec_quinudKadd (a : BitVec 3) (k : BitVec 10) (s : State) : exec (.quinudKadd a k) s = execQuinudKadd a k s := rfl
theorem exec_quinudKmin (a : BitVec 3) (k : BitVec 10) (s : State) : exec (.quinudKmin a k) s = execQuinudKmin a k s := rfl
theorem exec_quinudKmax (a : BitVec 3) (k : BitVec 10) (s : State) : exec (.quinudKmax a k) s = execQuinudKmax a k s := rfl
theorem exec_quinudEwma (a : BitVec 3) (k : BitVec 10) (s1 : BitVec 5) (s : State) : exec (.quinudEwma a k s1) s = execQuinudEwma a k s1 s := rfl
theorem exec_quinudHlin (d : BitVec 3) (a : BitVec 3) (k : BitVec 10) (m : BitVec 6) (s1 : BitVec 4) (s : State) : exec (.quinudHlin d a k m s1) s = execQuinudHlin d a k m s1 s := rfl
theorem exec_quinudHlog (a : BitVec 3) (k : BitVec 10) (m : BitVec 6) (s : State) : exec (.quinudHlog a k m) s = execQuinudHlog a k m s := rfl
theorem exec_quinudCms (a : BitVec 3) (k : BitVec 10) (m : BitVec 4) (s : State) : exec (.quinudCms a k m) s = execQuinudCms a k m s := rfl
theorem exec_quinudCmq (d : BitVec 3) (a : BitVec 3) (k : BitVec 10) (m : BitVec 4) (s : State) : exec (.quinudCmq d a k m) s = execQuinudCmq d a k m s := rfl
theorem exec_quinudBz (a : BitVec 3) (o : BitVec 5) (s : State) : exec (.quinudBz a o) s = execQuinudBz a o s := rfl
theorem exec_quinudBnz (a : BitVec 3) (o : BitVec 5) (s : State) : exec (.quinudBnz a o) s = execQuinudBnz a o s := rfl
theorem exec_quinudTrig (a : BitVec 3) (t : BitVec 3) (s : State) : exec (.quinudTrig a t) s = execQuinudTrig a t s := rfl
theorem exec_commandCompletion (c : Cmd) (r : CmdResult) (s : State) : exec (.commandCompletion c r) s = execCommandCompletion c r s := rfl
theorem exec_recordArrival (a : Arrival) (s : State) : exec (.recordArrival a) s = execRecordArrival a s := rfl
theorem exec_firingDelivery (core : Nat) (f : Firing) (s : State) : exec (.firingDelivery core f) s = execFiringDelivery core f s := rfl
theorem exec_wakeMessage (w : Wake) (s : State) : exec (.wakeMessage w) s = execWakeMessage w s := rfl
theorem exec_contextFreeNotice (core : Nat) (m : Start) (s : State) : exec (.contextFreeNotice core m) s = execContextFreeNotice core m s := rfl
theorem exec_refusalRetry (core : Nat) (m : Start) (s : State) : exec (.refusalRetry core m) s = execRefusalRetry core m s := rfl
theorem exec_withdrawal (r : Req) (s : State) : exec (.withdrawal r) s = execWithdrawal r s := rfl
theorem exec_presenceRequest (r : Req) (s : State) : exec (.presenceRequest r) s = execPresenceRequest r s := rfl
theorem exec_presenceAnswer (th seq : Nat) (x : Word) (s : State) : exec (.presenceAnswer th seq x) s = execPresenceAnswer th seq x s := rfl
theorem exec_remoteAccess (r : Req) (s : State) : exec (.remoteAccess r) s = execRemoteAccess r s := rfl
theorem exec_storeAck (th : Nat) (k : Acked) (s : State) : exec (.storeAck th k) s = execStoreAck th k s := rfl
theorem exec_loadResult (l : Load) (s : State) : exec (.loadResult l) s = execLoadResult l s := rfl
theorem exec_syncWordUpdate (r : Req) (s : State) : exec (.syncWordUpdate r) s = execSyncWordUpdate r s := rfl
theorem exec_joinArrival (r : Req) (s : State) : exec (.joinArrival r) s = execJoinArrival r s := rfl
theorem exec_swaitRequest (r : Req) (s : State) : exec (.swaitRequest r) s = execSwaitRequest r s := rfl
theorem exec_barrierArrival (b : BarrierMsg) (s : State) : exec (.barrierArrival b) s = execBarrierArrival b s := rfl
theorem exec_channelEntry (core buf : Nat) (x : VWord) (s : State) : exec (.channelEntry core buf x) s = execChannelEntry core buf x s := rfl
theorem exec_creditReturn (th core buf : Nat) (s : State) : exec (.creditReturn th core buf) s = execCreditReturn th core buf s := rfl
theorem exec_bindAnswer (th win seq : Nat) (word : Word) (s : State) : exec (.bindAnswer th win seq word) s = execBindAnswer th win seq word s := rfl
theorem exec_launch (r : Request) (s : State) : exec (.launch r) s = execLaunch r s := rfl
theorem exec_replay (r : Request) (s : State) : exec (.replay r) s = execReplay r s := rfl
theorem exec_closeSources (r : Request) (s : State) : exec (.closeSources r) s = execCloseSources r s := rfl
theorem exec_release (r : Request) (s : State) : exec (.release r) s = execRelease r s := rfl
theorem exec_dump (r : Request) (s : State) : exec (.dump r) s = execDump r s := rfl
theorem exec_attachRing (r : Request) (s : State) : exec (.attachRing r) s = execAttachRing r s := rfl
theorem exec_frameArrival (port : Nat) (good : Bool) (frame : List Byte) (s : State) : exec (.frameArrival port good frame) s = execFrameArrival port good frame s := rfl
theorem exec_telemetryRecord (die : Nat) (e : List (BitVec 32)) (s : State) : exec (.telemetryRecord die e) s = execTelemetryRecord die e s := rfl
theorem exec_instructionCacheFill (quad xctx line : Nat) (s : State) : exec (.instructionCacheFill quad xctx line) s = execInstructionCacheFill quad xctx line s := rfl
theorem exec_combineTimeout (quad key : Nat) (s : State) : exec (.combineTimeout quad key) s = execCombineTimeout quad key s := rfl
theorem exec_spillReturn (quad : Nat) (s : State) : exec (.spillReturn quad) s = execSpillReturn quad s := rfl
theorem exec_processTrigger (quad : Nat) (s : State) : exec (.processTrigger quad) s = execProcessTrigger quad s := rfl
theorem exec_contextFree (th : Nat) (s : State) : exec (.contextFree th) s = execContextFree th s := rfl
theorem exec_slotTableSwitch (core : Nat) (s : State) : exec (.slotTableSwitch core) s = execSlotTableSwitch core s := rfl
theorem exec_sleepEnd (th : Nat) (s : State) : exec (.sleepEnd th) s = execSleepEnd th s := rfl
theorem exec_deferredTrap (th : Nat) (s : State) : exec (.deferredTrap th) s = execDeferredTrap th s := rfl
theorem exec_qstall (th : Nat) (s : State) : exec (.qstall th) s = execQstall th s := rfl
theorem exec_fewaitExpiry (th : Nat) (s : State) : exec (.fewaitExpiry th) s = execFewaitExpiry th s := rfl
theorem exec_presenceResend (th : Nat) (s : State) : exec (.presenceResend th) s = execPresenceResend th s := rfl
theorem exec_storeBufferWrite (core : Nat) (s : State) : exec (.storeBufferWrite core) s = execStoreBufferWrite core s := rfl
theorem exec_translationWalk (die : Nat) (s : State) : exec (.translationWalk die) s = execTranslationWalk die s := rfl
theorem exec_faultAnswer (die index : Nat) (resume : Bool) (s : State) : exec (.faultAnswer die index resume) s = execFaultAnswer die index resume s := rfl
theorem exec_walkerEmit (lid : Nat) (s : State) : exec (.walkerEmit lid) s = execWalkerEmit lid s := rfl
theorem exec_reconFiring (quad : Nat) (s : State) : exec (.reconFiring quad) s = execReconFiring quad s := rfl
theorem exec_holeUnresolved (lid : Nat) (s : State) : exec (.holeUnresolved lid) s = execHoleUnresolved lid s := rfl
theorem exec_stabilityWave (lid : Nat) (s : State) : exec (.stabilityWave lid) s = execStabilityWave lid s := rfl
theorem exec_logicalQuadTurn (quad : Nat) (s : State) : exec (.logicalQuadTurn quad) s = execLogicalQuadTurn quad s := rfl
theorem exec_doorbell (q : Nat) (p : Word) (s : State) : exec (.doorbell q p) s = execDoorbell q p s := rfl
theorem exec_qcfgWrite (q reg : Nat) (x : Word) (s : State) : exec (.qcfgWrite q reg x) s = execQcfgWrite q reg x s := rfl
theorem exec_requestAccept (svc : Nat) (s : State) : exec (.requestAccept svc) s = execRequestAccept svc s := rfl
theorem exec_launchStart (lid : Nat) (s : State) : exec (.launchStart lid) s = execLaunchStart lid s := rfl
theorem exec_apertureAccess (fn off size : Nat) (write : Bool) (x : Word) (s : State) : exec (.apertureAccess fn off size write x) s = execApertureAccess fn off size write x s := rfl
theorem exec_ringConfigWrite (ring : Nat) (x : Word) (s : State) : exec (.ringConfigWrite ring x) s = execRingConfigWrite ring x s := rfl
theorem exec_classifierWrite (entry word : Nat) (x : Word) (s : State) : exec (.classifierWrite entry word x) s = execClassifierWrite entry word x s := rfl
theorem exec_egressFrame (port : Nat) (s : State) : exec (.egressFrame port) s = execEgressFrame port s := rfl
theorem exec_egstampRead (port : Nat) (s : State) : exec (.egstampRead port) s = execEgstampRead port s := rfl
theorem exec_pcsLock (port : Nat) (width : Nat) (s : State) : exec (.pcsLock port width) s = execPcsLock port width s := rfl
theorem exec_trainFlit (port : Nat) (s : State) : exec (.trainFlit port) s = execTrainFlit port s := rfl
theorem exec_dataFlitSend (port vc : Nat) (s : State) : exec (.dataFlitSend port vc) s = execDataFlitSend port vc s := rfl
theorem exec_flitReceive (port : Nat) (flit : List Byte) (s : State) : exec (.flitReceive port flit) s = execFlitReceive port flit s := rfl
theorem exec_nakResend (port : Nat) (s : State) : exec (.nakResend port) s = execNakResend port s := rfl
theorem exec_clklatchWrite (x : Word) (s : State) : exec (.clklatchWrite x) s = execClklatchWrite x s := rfl
theorem exec_clkstepWrite (x : Word) (s : State) : exec (.clkstepWrite x) s = execClkstepWrite x s := rfl
theorem exec_partWrite (n : Nat) (x : Word) (s : State) : exec (.partWrite n x) s = execPartWrite n x s := rfl
theorem exec_xconnWrite (p : Nat) (x : Word) (s : State) : exec (.xconnWrite p x) s = execXconnWrite p x s := rfl
theorem exec_xcselWrite (x : Word) (s : State) : exec (.xcselWrite x) s = execXcselWrite x s := rfl
theorem exec_ownsetGo (x : Word) (s : State) : exec (.ownsetGo x) s = execOwnsetGo x s := rfl
theorem exec_xfenceGo (x : Word) (s : State) : exec (.xfenceGo x) s = execXfenceGo x s := rfl
theorem exec_preemptDrain (lid : Nat) (s : State) : exec (.preemptDrain lid) s = execPreemptDrain lid s := rfl
theorem exec_preemptSave (lid : Nat) (s : State) : exec (.preemptSave lid) s = execPreemptSave lid s := rfl
theorem exec_saveCaptureComplete (lid : Nat) (s : State) : exec (.saveCaptureComplete lid) s = execSaveCaptureComplete lid s := rfl
theorem exec_preemptReset (lid : Nat) (s : State) : exec (.preemptReset lid) s = execPreemptReset lid s := rfl
theorem exec_preemptRestore (lid : Nat) (s : State) : exec (.preemptRestore lid) s = execPreemptRestore lid s := rfl
theorem exec_trapRecord (die : Nat) (s : State) : exec (.trapRecord die) s = execTrapRecord die s := rfl
theorem exec_watchdog (part : Nat) (cycles : Nat) (s : State) : exec (.watchdog part cycles) s = execWatchdog part cycles s := rfl
theorem exec_queueSteal (thief q : Nat) (s : State) : exec (.queueSteal thief q) s = execQueueSteal thief q s := rfl
theorem exec_mailboxMessage (die : Nat) (x : Word) (s : State) : exec (.mailboxMessage die x) s = execMailboxMessage die x s := rfl
theorem exec_fwctlGo (x : Word) (s : State) : exec (.fwctlGo x) s = execFwctlGo x s := rfl
theorem exec_fwbeatWrite (x : Word) (s : State) : exec (.fwbeatWrite x) s = execFwbeatWrite x s := rfl
theorem exec_syncovfWrite (die : Nat) (x : Word) (s : State) : exec (.syncovfWrite die x) s = execSyncovfWrite die x s := rfl
theorem exec_uncorrectableError (e : HwError) (s : State) : exec (.uncorrectableError e) s = execUncorrectableError e s := rfl
theorem exec_correctedError (e : HwError) (s : State) : exec (.correctedError e) s = execCorrectedError e s := rfl
theorem exec_hopCrcError (die : Nat) (unit : Nat) (msg : Nat) (s : State) : exec (.hopCrcError die unit msg) s = execHopCrcError die unit msg s := rfl
theorem exec_channelRetired (group : Nat) (s : State) : exec (.channelRetired group) s = execChannelRetired group s := rfl
theorem exec_filterEvent (die : Nat) (s : State) : exec (.filterEvent die) s = execFilterEvent die s := rfl
theorem exec_tattachWrite (fn : Nat) (x : Word) (s : State) : exec (.tattachWrite fn x) s = execTattachWrite fn x s := rfl
theorem exec_tdetachWrite (fn : Nat) (x : Word) (s : State) : exec (.tdetachWrite fn x) s = execTdetachWrite fn x s := rfl
theorem exec_tbudgetWrite (die tenant : Nat) (x : Word) (s : State) : exec (.tbudgetWrite die tenant x) s = execTbudgetWrite die tenant x s := rfl
theorem exec_budgetWindow (die : Nat) (s : State) : exec (.budgetWindow die) s = execBudgetWindow die s := rfl
theorem exec_exportSnap (die slot : Nat) (s : State) : exec (.exportSnap die slot) s = execExportSnap die slot s := rfl
theorem exec_slots (core : Nat) (s : State) : exec (.slots core) s = execSlots core s := rfl
theorem exec_therm (die sensor : Nat) (temp : BitVec 32) (s : State) : exec (.therm die sensor temp) s = execTherm die sensor temp s := rfl
theorem exec_throttleUpdate (watts hottest : Nat) (s : State) : exec (.throttleUpdate watts hottest) s = execThrottleUpdate watts hottest s := rfl
theorem exec_ckptGo (x : Word) (s : State) : exec (.ckptGo x) s = execCkptGo x s := rfl
theorem exec_registerWrite (off : Nat) (level : Nat) (x : Word) (s : State) : exec (.registerWrite off level x) s = execRegisterWrite off level x s := rfl
theorem exec_portDown (port : Nat) (s : State) : exec (.portDown port) s = execPortDown port s := rfl
theorem exec_linkWidthChange (link width : Nat) (s : State) : exec (.linkWidthChange link width) s = execLinkWidthChange link width s := rfl
theorem exec_spdmMessage (m : Spdm) (s : State) : exec (.spdmMessage m) s = execSpdmMessage m s := rfl
theorem exec_ret (s : State) : exec (.ret) s = execRet s := rfl
theorem exec_retire (s : State) : exec (.retire) s = execRetire s := rfl
theorem exec_eret (s : State) : exec (.eret) s = execEret s := rfl
theorem exec_iflush (s : State) : exec (.iflush) s = execIflush s := rfl
theorem exec_vnop (s : State) : exec (.vnop) s = execVnop s := rfl
theorem exec_fwRollback (s : State) : exec (.fwRollback) s = execFwRollback s := rfl
theorem exec_fwHang (s : State) : exec (.fwHang) s = execFwHang s := rfl
theorem exec_reset (s : State) : exec (.reset) s = execReset s := rfl
theorem exec_thermtrip (s : State) : exec (.thermtrip) s = execThermtrip s := rfl
theorem exec_quinudEnd (s : State) : exec (.quinudEnd) s = execQuinudEnd s := rfl

end Sys2Proof.Machine
end

