-- ==== Sys2Proof/Laws/Filter.lean ====
section
/-! SUPPORT. What an instruction of a running filter event can do, said once. -/

namespace Sys2Proof.Machine

theorem modTel_congr {s : State} {d : Nat} {f g : Tel → Tel} (h : f (s.tel d) = g (s.tel d)) : s.modTel d f = s.modTel d g := by
  simp only [State.modTel, State.modDie]
  have h' : f (s.die d).tel = g (s.die d).tel := h
  rw [h']

theorem quinud_point {s : State} {r : FilterRun} {fl : Filter} (h : FilterPoint s r fl) (eff : Nat → State → State) :
    quinud eff s = .next ((eff s.curDie s).closeFilter s.curDie) := by
  simp [quinud, h.run, h.live, h.here, State.closeFilter]

@[simp] theorem FilterPoint.qw {s : State} {r : FilterRun} {fl : Filter} (h : FilterPoint s r fl) (a : BitVec 3) :
    s.qw s.curDie a = get 0 r.w a.toNat := by simp [State.qw, h.run]

@[simp] theorem FilterPoint.qe {s : State} {r : FilterRun} {fl : Filter} (h : FilterPoint s r fl) (e : BitVec 3) :
    s.qe s.curDie e = r.e.getD e.toNat 0 := by simp [State.qe, h.run]

@[simp] theorem FilterPoint.qk {s : State} {r : FilterRun} {fl : Filter} (h : FilterPoint s r fl) (n : Nat) :
    s.qk s.curDie n = get 0 fl.k n := by simp [State.qk, h.run, h.filter]

/-- An instruction that writes a working register. -/
theorem quinudW_point {s : State} {r : FilterRun} {fl : Filter} (h : FilterPoint s r fl) (d : BitVec 3)
    (f : Nat → State → BitVec 32) : quinudW d f s = .next ((s.modTel s.curDie fun t => { t with
      run := some { r with w := put 0 r.w d.toNat (f s.curDie s) } }).closeFilter s.curDie) := by
  rw [quinudW, quinud_point h]
  simp only [State.setQw, State.modRunF]
  rw [modTel_congr (s := s)]
  simp [h.run]

/-- An instruction that writes a state word. -/
theorem setQk_point {s : State} {r : FilterRun} {fl : Filter} (h : FilterPoint s r fl) (n : Nat) (x : BitVec 32) :
    s.setQk s.curDie n x = s.modTel s.curDie fun t => t.modFilter r.slot fun f => { f with k := put 0 f.k n x } := by
  simp [State.setQk, State.modFilter, h.run]

end Sys2Proof.Machine
end

