-- ==== Sys2Proof/Laws/Memory.lean ====
section
/-! SUPPORT. Tables and memory: reading after writing, and the canonical form that every operation keeps. -/

namespace Sys2Proof.Machine

/-! ### Tables -/

/-- Every key of a table is above `k`. -/
def FMap.above {α : Type} (k : Nat) (m : FMap α) : Prop := ∀ p ∈ m, k < p.1

/-- No entry of a table equals the default. -/
def FMap.full {α : Type} (d : α) (m : FMap α) : Prop := ∀ p ∈ m, p.2 ≠ d

/-- Keys that rise strictly, as a property of head and tail. -/
def FMap.sorted {α : Type} : FMap α → Prop
  | [] => True
  | (k, _) :: m => FMap.above k m ∧ FMap.sorted m

theorem FMap.above_of_sorted_cons {α : Type} {k k' : Nat} {y : α} {m : FMap α} (h : k < k')
    (hs : FMap.sorted ((k', y) :: m)) : FMap.above k ((k', y) :: m) := by
  intro p hp
  rcases List.mem_cons.1 hp with rfl | hp
  · exact h
  · exact Nat.lt_trans h (hs.1 p hp)

/-- The canonical form is: rising keys, no default entry. -/
theorem FMap.wf_iff {α : Type} [DecidableEq α] (d : α) (m : FMap α) :
    FMap.wf d m = true ↔ FMap.sorted m ∧ FMap.full d m := by
  induction m with
  | nil => simp [FMap.wf, FMap.sorted, FMap.full]
  | cons p m ih =>
    obtain ⟨k, x⟩ := p
    cases m with
    | nil => simp [FMap.wf, FMap.sorted, FMap.full, FMap.above]
    | cons q m =>
      obtain ⟨k', y⟩ := q
      simp only [FMap.wf, Bool.and_eq_true, ih]
      constructor
      · rintro ⟨⟨hx, hk⟩, hs, hf⟩
        refine ⟨⟨FMap.above_of_sorted_cons (by simpa using hk) hs, hs⟩, ?_⟩
        intro p hp
        rcases List.mem_cons.1 hp with rfl | hp
        · simpa using hx
        · exact hf p hp
      · rintro ⟨⟨ha, hs⟩, hf⟩
        refine ⟨⟨by simpa using hf (k, x) (by simp), by simpa using ha (k', y) (by simp)⟩, hs, ?_⟩
        exact fun p hp => hf p (List.mem_cons_of_mem _ hp)

theorem get_put_other {α : Type} [DecidableEq α] (d : α) (m : FMap α) (i j : Nat) (x : α) (h : j ≠ i) :
    get d (put d m i x) j = get d m j := by
  induction m with
  | nil =>
    by_cases hx : x = d <;> simp [put, get, hx, h]
  | cons p m ih =>
    obtain ⟨k, y⟩ := p
    unfold put
    split
    · split <;> simp [get, h]
    · split
      · rename_i hk
        subst hk
        split <;> simp [get, h]
      · simp [get, ih]

theorem get_above {α : Type} (d : α) {m : FMap α} {i : Nat} (h : FMap.above i m) : get d m i = d := by
  induction m with
  | nil => rfl
  | cons p m ih =>
    obtain ⟨k, y⟩ := p
    have hk : i < k := h (k, y) (by simp)
    have : i ≠ k := Nat.ne_of_lt hk
    simp only [get, this, if_false]
    exact ih fun p hp => h p (List.mem_cons_of_mem _ hp)

theorem get_put_same {α : Type} [DecidableEq α] (d : α) {m : FMap α} (hm : FMap.sorted m) (i : Nat) (x : α) :
    get d (put d m i x) i = x := by
  induction m with
  | nil => by_cases hx : x = d <;> simp [put, get, hx]
  | cons p m ih =>
    obtain ⟨k, y⟩ := p
    unfold put
    split
    · rename_i hk
      split
      · rename_i hx
        subst hx
        exact get_above _ (FMap.above_of_sorted_cons hk hm)
      · simp [get]
    · split
      · rename_i hk
        subst hk
        split
        · rename_i hx
          subst hx
          exact get_above _ hm.1
        · simp [get]
      · rename_i h1 h2
        simp [get, h2, ih hm.2]

theorem put_mem {α : Type} [DecidableEq α] (d : α) (m : FMap α) (i : Nat) (x : α) (p : Nat × α)
    (h : p ∈ put d m i x) : p ∈ m ∨ (p = (i, x) ∧ x ≠ d) := by
  induction m with
  | nil =>
    by_cases hx : x = d
    · simp [put, hx] at h
    · exact .inr ⟨by simpa [put, hx] using h, hx⟩
  | cons q m ih =>
    obtain ⟨k, y⟩ := q
    unfold put at h
    split at h
    · split at h
      · exact .inl h
      · rename_i hx
        rcases List.mem_cons.1 h with rfl | h
        · exact .inr ⟨rfl, hx⟩
        · exact .inl h
    · split at h
      · split at h
        · exact .inl (List.mem_cons_of_mem _ h)
        · rename_i hx
          rcases List.mem_cons.1 h with rfl | h
          · exact .inr ⟨rfl, hx⟩
          · exact .inl (List.mem_cons_of_mem _ h)
      · rcases List.mem_cons.1 h with rfl | h
        · exact .inl (by simp)
        · rcases ih h with h | h
          · exact .inl (List.mem_cons_of_mem _ h)
          · exact .inr h

theorem put_sorted {α : Type} [DecidableEq α] (d : α) {m : FMap α} (hm : FMap.sorted m) (i : Nat) (x : α) :
    FMap.sorted (put d m i x) := by
  induction m with
  | nil => by_cases hx : x = d <;> simp [put, FMap.sorted, FMap.above, hx]
  | cons p m ih =>
    obtain ⟨k, y⟩ := p
    unfold put
    split
    · rename_i hk
      split
      · exact hm
      · exact ⟨FMap.above_of_sorted_cons hk hm, hm⟩
    · split
      · rename_i hk
        subst hk
        split
        · exact hm.2
        · exact ⟨hm.1, hm.2⟩
      · rename_i h1 h2
        refine ⟨fun p hp => ?_, ih hm.2⟩
        rcases put_mem d m i x p hp with h | ⟨rfl, -⟩
        · exact hm.1 p h
        · exact Nat.lt_of_le_of_ne (Nat.le_of_not_lt h1) (Ne.symm h2)

/-- A write keeps the canonical form of a table. -/
theorem put_wf {α : Type} [DecidableEq α] (d : α) {m : FMap α} (hm : FMap.wf d m = true) (i : Nat) (x : α) :
    FMap.wf d (put d m i x) = true := by
  rw [FMap.wf_iff] at hm ⊢
  refine ⟨put_sorted d hm.1 i x, fun p hp => ?_⟩
  rcases put_mem d m i x p hp with h | ⟨rfl, hx⟩
  · exact hm.2 p h
  · exact hx

theorem filter_sorted {α : Type} {m : FMap α} (hm : FMap.sorted m) (f : Nat × α → Bool) :
    FMap.sorted (m.filter f) := by
  induction m with
  | nil => exact trivial
  | cons p m ih =>
    simp only [List.filter_cons]
    split
    · exact ⟨fun q hq => hm.1 q (List.mem_filter.1 hq).1, ih hm.2⟩
    · exact ih hm.2

/-- Leaving entries out keeps the canonical form. -/
theorem filter_wf {α : Type} [DecidableEq α] (d : α) {m : FMap α} (hm : FMap.wf d m = true) (f : Nat × α → Bool) :
    FMap.wf d (m.filter f) = true := by
  rw [FMap.wf_iff] at hm ⊢
  exact ⟨filter_sorted hm.1 f, fun p hp => hm.2 p (List.mem_filter.1 hp).1⟩

theorem append_sorted {α : Type} {a b : FMap α} (ha : FMap.sorted a) (hb : FMap.sorted b)
    (h : ∀ p ∈ a, FMap.above p.1 b) : FMap.sorted (a ++ b) := by
  induction a with
  | nil => exact hb
  | cons p a ih =>
    refine ⟨fun q hq => ?_, ih ha.2 fun q hq => h q (List.mem_cons_of_mem _ hq)⟩
    rcases List.mem_append.1 hq with hq | hq
    · exact ha.1 q hq
    · exact h p (by simp) q hq

/-! ### Memory -/

/-- A byte reads back as it was written, in memory of canonical form. -/
theorem Memory.byte_setByte {m : List Host.Cell} (hm : Memory.wf m = true) (k : Nat) (b : Byte) :
    Memory.byte (Memory.setByte m k b) k = b :=
  get_put_same _ ((FMap.wf_iff _ _).1 hm).1 k b

/-- A byte that is written leaves every other byte alone. -/
theorem Memory.byte_setByte_other (m : List Host.Cell) (k j : Nat) (b : Byte) (h : j ≠ k) :
    Memory.byte (Memory.setByte m k b) j = Memory.byte m j :=
  get_put_other _ m k j b h

theorem Memory.setByte_wf {m : List Host.Cell} (hm : Memory.wf m = true) (k : Nat) (b : Byte) :
    Memory.wf (Memory.setByte m k b) = true := put_wf _ hm k b

theorem Memory.write_wf {m : List Host.Cell} (hm : Memory.wf m = true) (k n x : Nat) :
    Memory.wf (Memory.write m k n x) = true := by
  induction n generalizing m k x with
  | zero => exact hm
  | succ n ih => exact ih (Memory.setByte_wf hm _ _) _ _

theorem Memory.setBytes_wf {m : List Host.Cell} (hm : Memory.wf m = true) (k : Nat) (l : List Byte) :
    Memory.wf (Memory.setBytes m k l) = true := by
  induction l generalizing m k with
  | nil => exact hm
  | cons b l ih => exact ih (Memory.setByte_wf hm _ _) _

theorem Memory.clear_wf {m : List Host.Cell} (hm : Memory.wf m = true) (lo hi : Nat) :
    Memory.wf (Memory.clear m lo hi) = true := filter_wf _ hm _

/-- A write leaves every byte outside it alone. -/
theorem Memory.byte_write_other (m : List Host.Cell) (k n x j : Nat) (h : j < k ∨ k + n ≤ j) :
    Memory.byte (Memory.write m k n x) j = Memory.byte m j := by
  induction n generalizing m k x with
  | zero => rfl
  | succ n ih =>
    rw [Memory.write, ih _ _ _ (by omega), Memory.byte_setByte_other _ _ _ _ (by omega)]

/-- Each byte of a write reads back. -/
theorem Memory.byte_write {m : List Host.Cell} (hm : Memory.wf m = true) (k n x j : Nat) (h : j < n) :
    Memory.byte (Memory.write m k n x) (k + j) = BitVec.ofNat 8 (x / 256 ^ j) := by
  induction n generalizing m k x j with
  | zero => omega
  | succ n ih =>
    rw [Memory.write]
    cases j with
    | zero =>
      rw [Memory.byte_write_other _ _ _ _ _ (by omega), Nat.add_zero, Memory.byte_setByte hm]
      simp
    | succ j =>
      have := ih (Memory.setByte_wf hm k (BitVec.ofNat 8 x)) (k + 1) (x / 256) j (by omega)
      rw [show k + (j + 1) = k + 1 + j by omega, this, Nat.div_div_eq_div_mul, Nat.pow_succ, Nat.mul_comm]

/-- Cleared bytes read as bytes that nothing has written. -/
theorem Memory.byte_clear (m : List Host.Cell) (lo hi k : Nat) :
    Memory.byte (Memory.clear m lo hi) k = if lo ≤ k ∧ k < hi then emptyByte else Memory.byte m k := by
  induction m with
  | nil => simp [Memory.clear, Memory.byte, get]
  | cons p m ih =>
    obtain ⟨j, y⟩ := p
    simp only [Memory.clear, List.filter_cons] at ih ⊢
    by_cases hj : lo ≤ j ∧ j < hi
    · have : (!(decide (lo ≤ j) && decide (j < hi))) = false := by simp [hj]
      rw [if_neg (by simp [this])]
      by_cases hk : k = j
      · subst hk
        simpa [hj, Memory.byte, get] using ih
      · simpa [Memory.byte, get, hk] using ih
    · have : (!(decide (lo ≤ j) && decide (j < hi))) = true := by
        rw [← Bool.decide_and, decide_eq_false hj]; rfl
      rw [if_pos this]
      by_cases hk : k = j
      · subst hk
        simp [Memory.byte, get, hj]
      · simpa [Memory.byte, get, hk] using ih

theorem Memory.splice_wf {m : List Host.Cell} (hm : Memory.wf m = true) {lo hi : Nat} (hlo : lo ≤ hi)
    {cells : List Host.Cell} (hc : FMap.sorted cells) : Memory.wf (Memory.splice m lo hi cells) = true := by
  have hm' := (FMap.wf_iff emptyByte m).1 hm
  refine (FMap.wf_iff _ _).2 ⟨?_, ?_⟩
  · unfold Memory.splice
    refine append_sorted (append_sorted (filter_sorted hm'.1 _) (filter_sorted hc _) ?_) (filter_sorted hm'.1 _) ?_
    · intro p hp q hq
      have h1 := (List.mem_filter.1 hp).2
      have h2 := (List.mem_filter.1 hq).2
      simp only [decide_eq_true_eq, Bool.and_eq_true] at h1 h2
      omega
    · intro p hp q hq
      have h2 := (List.mem_filter.1 hq).2
      simp only [decide_eq_true_eq] at h2
      rcases List.mem_append.1 hp with hp | hp
      · have h1 := (List.mem_filter.1 hp).2
        simp only [decide_eq_true_eq] at h1
        omega
      · have h1 := (List.mem_filter.1 hp).2
        simp only [decide_eq_true_eq, Bool.and_eq_true] at h1
        omega
  · intro p hp
    simp only [Memory.splice, List.mem_append, List.mem_filter] at hp
    rcases hp with (hp | hp) | hp
    · exact hm'.2 p hp.1
    · simp only [Bool.and_eq_true, decide_eq_true_eq] at hp
      exact hp.2.2
    · exact hm'.2 p hp.1

theorem Memory.map_shift_sorted {m : List Host.Cell} (hm : FMap.sorted m) (src dst : Nat)
    (h : ∀ p ∈ m, src ≤ p.1) : FMap.sorted (m.map fun c => (c.1 - src + dst, c.2)) := by
  induction m with
  | nil => exact trivial
  | cons p m ih =>
    refine ⟨fun q hq => ?_, ih hm.2 fun q hq => h q (List.mem_cons_of_mem _ hq)⟩
    obtain ⟨r, hr, rfl⟩ := List.mem_map.1 hq
    have h1 := hm.1 r hr
    have h2 := h p (by simp)
    show p.1 - src + dst < r.1 - src + dst
    omega

theorem Memory.copy_wf {m : List Host.Cell} (hm : Memory.wf m = true) (src dst n : Nat) :
    Memory.wf (Memory.copy m src dst n) = true := by
  refine Memory.splice_wf hm (Nat.le_add_right _ _) ?_
  refine Memory.map_shift_sorted (filter_sorted ((FMap.wf_iff _ _).1 hm).1 _) src dst fun p hp => ?_
  have := (List.mem_filter.1 hp).2
  simp only [Bool.and_eq_true, decide_eq_true_eq] at this
  exact this.1

theorem Memory.range_sorted (dst a n : Nat) (f : Nat → Byte) :
    FMap.sorted ((List.range' a n).map fun k => (dst + k, f k)) := by
  induction n generalizing a with
  | zero => exact trivial
  | succ n ih =>
    refine ⟨fun q hq => ?_, ih (a + 1)⟩
    obtain ⟨r, hr, rfl⟩ := List.mem_map.1 hq
    have := (List.mem_range'_1.1 hr).1
    show dst + a < dst + r
    omega

theorem Memory.fill_wf {m : List Host.Cell} (hm : Memory.wf m = true) (dst n : Nat) (f : Nat → Byte) :
    Memory.wf (Memory.fill m dst n f) = true := by
  refine Memory.splice_wf hm (Nat.le_add_right _ _) ?_
  rw [List.range_eq_range']
  exact Memory.range_sorted dst 0 n f

/-- Memory at reset is in canonical form. -/
theorem reset_mem_wf : Memory.wf State.reset.mem = true := rfl

end Sys2Proof.Machine
end

