-- ==== Sys2Proof/Laws/State.lean ====
section
/-! SUPPORT. What each update of the state leaves alone, field by field, and what it changes. -/

namespace Sys2Proof.Machine

/-! ### `modCtx` -/

@[simp] theorem modCtx_cores (s : State) (th : Nat) (f : Ctx → Ctx) : (s.modCtx th f).cores = s.cores := rfl
@[simp] theorem modCtx_quads (s : State) (th : Nat) (f : Ctx → Ctx) : (s.modCtx th f).quads = s.quads := rfl
@[simp] theorem modCtx_dies (s : State) (th : Nat) (f : Ctx → Ctx) : (s.modCtx th f).dies = s.dies := rfl
@[simp] theorem modCtx_hub (s : State) (th : Nat) (f : Ctx → Ctx) : (s.modCtx th f).hub = s.hub := rfl
@[simp] theorem modCtx_launches (s : State) (th : Nat) (f : Ctx → Ctx) : (s.modCtx th f).launches = s.launches := rfl
@[simp] theorem modCtx_mem (s : State) (th : Nat) (f : Ctx → Ctx) : (s.modCtx th f).mem = s.mem := rfl
@[simp] theorem modCtx_pres (s : State) (th : Nat) (f : Ctx → Ctx) : (s.modCtx th f).pres = s.pres := rfl
@[simp] theorem modCtx_net (s : State) (th : Nat) (f : Ctx → Ctx) : (s.modCtx th f).net = s.net := rfl
@[simp] theorem modCtx_turns (s : State) (th : Nat) (f : Ctx → Ctx) : (s.modCtx th f).turns = s.turns := rfl
@[simp] theorem modCtx_focus (s : State) (th : Nat) (f : Ctx → Ctx) : (s.modCtx th f).focus = s.focus := rfl
@[simp] theorem modCtx_cur (s : State) (th : Nat) (f : Ctx → Ctx) : (s.modCtx th f).cur = s.cur := rfl
@[simp] theorem modCtx_latch (s : State) (th : Nat) (f : Ctx → Ctx) : (s.modCtx th f).latch = s.latch := rfl
@[simp] theorem modCtx_curDie (s : State) (th : Nat) (f : Ctx → Ctx) : (s.modCtx th f).curDie = s.curDie := rfl
@[simp] theorem modCtx_taken (s : State) (th : Nat) (f : Ctx → Ctx) : (s.modCtx th f).taken = s.taken := rfl
@[simp] theorem modCtx_inbox (s : State) (th : Nat) (f : Ctx → Ctx) : (s.modCtx th f).inbox = s.inbox := rfl
@[simp] theorem modCtx_served (s : State) (th : Nat) (f : Ctx → Ctx) : (s.modCtx th f).served = s.served := rfl
@[simp] theorem modCtx_grant (s : State) (th : Nat) (f : Ctx → Ctx) : (s.modCtx th f).grant = s.grant := rfl
@[simp] theorem modCtx_beat (s : State) (th : Nat) (f : Ctx → Ctx) : (s.modCtx th f).beat = s.beat := rfl
@[simp] theorem modCtx_out (s : State) (th : Nat) (f : Ctx → Ctx) : (s.modCtx th f).out = s.out := rfl

/-! ### `modCore` -/

@[simp] theorem modCore_ctxs (s : State) (c : Nat) (f : Core → Core) : (s.modCore c f).ctxs = s.ctxs := rfl
@[simp] theorem modCore_quads (s : State) (c : Nat) (f : Core → Core) : (s.modCore c f).quads = s.quads := rfl
@[simp] theorem modCore_dies (s : State) (c : Nat) (f : Core → Core) : (s.modCore c f).dies = s.dies := rfl
@[simp] theorem modCore_hub (s : State) (c : Nat) (f : Core → Core) : (s.modCore c f).hub = s.hub := rfl
@[simp] theorem modCore_launches (s : State) (c : Nat) (f : Core → Core) : (s.modCore c f).launches = s.launches := rfl
@[simp] theorem modCore_mem (s : State) (c : Nat) (f : Core → Core) : (s.modCore c f).mem = s.mem := rfl
@[simp] theorem modCore_pres (s : State) (c : Nat) (f : Core → Core) : (s.modCore c f).pres = s.pres := rfl
@[simp] theorem modCore_net (s : State) (c : Nat) (f : Core → Core) : (s.modCore c f).net = s.net := rfl
@[simp] theorem modCore_turns (s : State) (c : Nat) (f : Core → Core) : (s.modCore c f).turns = s.turns := rfl
@[simp] theorem modCore_focus (s : State) (c : Nat) (f : Core → Core) : (s.modCore c f).focus = s.focus := rfl
@[simp] theorem modCore_cur (s : State) (c : Nat) (f : Core → Core) : (s.modCore c f).cur = s.cur := rfl
@[simp] theorem modCore_latch (s : State) (c : Nat) (f : Core → Core) : (s.modCore c f).latch = s.latch := rfl
@[simp] theorem modCore_curDie (s : State) (c : Nat) (f : Core → Core) : (s.modCore c f).curDie = s.curDie := rfl
@[simp] theorem modCore_taken (s : State) (c : Nat) (f : Core → Core) : (s.modCore c f).taken = s.taken := rfl
@[simp] theorem modCore_inbox (s : State) (c : Nat) (f : Core → Core) : (s.modCore c f).inbox = s.inbox := rfl
@[simp] theorem modCore_served (s : State) (c : Nat) (f : Core → Core) : (s.modCore c f).served = s.served := rfl
@[simp] theorem modCore_grant (s : State) (c : Nat) (f : Core → Core) : (s.modCore c f).grant = s.grant := rfl
@[simp] theorem modCore_beat (s : State) (c : Nat) (f : Core → Core) : (s.modCore c f).beat = s.beat := rfl
@[simp] theorem modCore_out (s : State) (c : Nat) (f : Core → Core) : (s.modCore c f).out = s.out := rfl

/-! ### `modQuad` -/

@[simp] theorem modQuad_ctxs (s : State) (q : Nat) (f : Quad → Quad) : (s.modQuad q f).ctxs = s.ctxs := rfl
@[simp] theorem modQuad_cores (s : State) (q : Nat) (f : Quad → Quad) : (s.modQuad q f).cores = s.cores := rfl
@[simp] theorem modQuad_dies (s : State) (q : Nat) (f : Quad → Quad) : (s.modQuad q f).dies = s.dies := rfl
@[simp] theorem modQuad_hub (s : State) (q : Nat) (f : Quad → Quad) : (s.modQuad q f).hub = s.hub := rfl
@[simp] theorem modQuad_launches (s : State) (q : Nat) (f : Quad → Quad) : (s.modQuad q f).launches = s.launches := rfl
@[simp] theorem modQuad_mem (s : State) (q : Nat) (f : Quad → Quad) : (s.modQuad q f).mem = s.mem := rfl
@[simp] theorem modQuad_pres (s : State) (q : Nat) (f : Quad → Quad) : (s.modQuad q f).pres = s.pres := rfl
@[simp] theorem modQuad_net (s : State) (q : Nat) (f : Quad → Quad) : (s.modQuad q f).net = s.net := rfl
@[simp] theorem modQuad_turns (s : State) (q : Nat) (f : Quad → Quad) : (s.modQuad q f).turns = s.turns := rfl
@[simp] theorem modQuad_focus (s : State) (q : Nat) (f : Quad → Quad) : (s.modQuad q f).focus = s.focus := rfl
@[simp] theorem modQuad_cur (s : State) (q : Nat) (f : Quad → Quad) : (s.modQuad q f).cur = s.cur := rfl
@[simp] theorem modQuad_latch (s : State) (q : Nat) (f : Quad → Quad) : (s.modQuad q f).latch = s.latch := rfl
@[simp] theorem modQuad_curDie (s : State) (q : Nat) (f : Quad → Quad) : (s.modQuad q f).curDie = s.curDie := rfl
@[simp] theorem modQuad_taken (s : State) (q : Nat) (f : Quad → Quad) : (s.modQuad q f).taken = s.taken := rfl
@[simp] theorem modQuad_inbox (s : State) (q : Nat) (f : Quad → Quad) : (s.modQuad q f).inbox = s.inbox := rfl
@[simp] theorem modQuad_served (s : State) (q : Nat) (f : Quad → Quad) : (s.modQuad q f).served = s.served := rfl
@[simp] theorem modQuad_grant (s : State) (q : Nat) (f : Quad → Quad) : (s.modQuad q f).grant = s.grant := rfl
@[simp] theorem modQuad_beat (s : State) (q : Nat) (f : Quad → Quad) : (s.modQuad q f).beat = s.beat := rfl
@[simp] theorem modQuad_out (s : State) (q : Nat) (f : Quad → Quad) : (s.modQuad q f).out = s.out := rfl

/-! ### `modDie` -/

@[simp] theorem modDie_ctxs (s : State) (d : Nat) (f : Die → Die) : (s.modDie d f).ctxs = s.ctxs := rfl
@[simp] theorem modDie_cores (s : State) (d : Nat) (f : Die → Die) : (s.modDie d f).cores = s.cores := rfl
@[simp] theorem modDie_quads (s : State) (d : Nat) (f : Die → Die) : (s.modDie d f).quads = s.quads := rfl
@[simp] theorem modDie_hub (s : State) (d : Nat) (f : Die → Die) : (s.modDie d f).hub = s.hub := rfl
@[simp] theorem modDie_launches (s : State) (d : Nat) (f : Die → Die) : (s.modDie d f).launches = s.launches := rfl
@[simp] theorem modDie_mem (s : State) (d : Nat) (f : Die → Die) : (s.modDie d f).mem = s.mem := rfl
@[simp] theorem modDie_pres (s : State) (d : Nat) (f : Die → Die) : (s.modDie d f).pres = s.pres := rfl
@[simp] theorem modDie_net (s : State) (d : Nat) (f : Die → Die) : (s.modDie d f).net = s.net := rfl
@[simp] theorem modDie_turns (s : State) (d : Nat) (f : Die → Die) : (s.modDie d f).turns = s.turns := rfl
@[simp] theorem modDie_focus (s : State) (d : Nat) (f : Die → Die) : (s.modDie d f).focus = s.focus := rfl
@[simp] theorem modDie_cur (s : State) (d : Nat) (f : Die → Die) : (s.modDie d f).cur = s.cur := rfl
@[simp] theorem modDie_latch (s : State) (d : Nat) (f : Die → Die) : (s.modDie d f).latch = s.latch := rfl
@[simp] theorem modDie_curDie (s : State) (d : Nat) (f : Die → Die) : (s.modDie d f).curDie = s.curDie := rfl
@[simp] theorem modDie_taken (s : State) (d : Nat) (f : Die → Die) : (s.modDie d f).taken = s.taken := rfl
@[simp] theorem modDie_inbox (s : State) (d : Nat) (f : Die → Die) : (s.modDie d f).inbox = s.inbox := rfl
@[simp] theorem modDie_served (s : State) (d : Nat) (f : Die → Die) : (s.modDie d f).served = s.served := rfl
@[simp] theorem modDie_grant (s : State) (d : Nat) (f : Die → Die) : (s.modDie d f).grant = s.grant := rfl
@[simp] theorem modDie_beat (s : State) (d : Nat) (f : Die → Die) : (s.modDie d f).beat = s.beat := rfl
@[simp] theorem modDie_out (s : State) (d : Nat) (f : Die → Die) : (s.modDie d f).out = s.out := rfl

/-! ### `modHub` -/

@[simp] theorem modHub_ctxs (s : State) (f : Hub → Hub) : (s.modHub f).ctxs = s.ctxs := rfl
@[simp] theorem modHub_cores (s : State) (f : Hub → Hub) : (s.modHub f).cores = s.cores := rfl
@[simp] theorem modHub_quads (s : State) (f : Hub → Hub) : (s.modHub f).quads = s.quads := rfl
@[simp] theorem modHub_dies (s : State) (f : Hub → Hub) : (s.modHub f).dies = s.dies := rfl
@[simp] theorem modHub_launches (s : State) (f : Hub → Hub) : (s.modHub f).launches = s.launches := rfl
@[simp] theorem modHub_mem (s : State) (f : Hub → Hub) : (s.modHub f).mem = s.mem := rfl
@[simp] theorem modHub_pres (s : State) (f : Hub → Hub) : (s.modHub f).pres = s.pres := rfl
@[simp] theorem modHub_net (s : State) (f : Hub → Hub) : (s.modHub f).net = s.net := rfl
@[simp] theorem modHub_turns (s : State) (f : Hub → Hub) : (s.modHub f).turns = s.turns := rfl
@[simp] theorem modHub_focus (s : State) (f : Hub → Hub) : (s.modHub f).focus = s.focus := rfl
@[simp] theorem modHub_cur (s : State) (f : Hub → Hub) : (s.modHub f).cur = s.cur := rfl
@[simp] theorem modHub_latch (s : State) (f : Hub → Hub) : (s.modHub f).latch = s.latch := rfl
@[simp] theorem modHub_curDie (s : State) (f : Hub → Hub) : (s.modHub f).curDie = s.curDie := rfl
@[simp] theorem modHub_taken (s : State) (f : Hub → Hub) : (s.modHub f).taken = s.taken := rfl
@[simp] theorem modHub_inbox (s : State) (f : Hub → Hub) : (s.modHub f).inbox = s.inbox := rfl
@[simp] theorem modHub_served (s : State) (f : Hub → Hub) : (s.modHub f).served = s.served := rfl
@[simp] theorem modHub_grant (s : State) (f : Hub → Hub) : (s.modHub f).grant = s.grant := rfl
@[simp] theorem modHub_beat (s : State) (f : Hub → Hub) : (s.modHub f).beat = s.beat := rfl
@[simp] theorem modHub_out (s : State) (f : Hub → Hub) : (s.modHub f).out = s.out := rfl

/-! ### `emit` -/

@[simp] theorem emit_ctxs (s : State) (o : Output) : (s.emit o).ctxs = s.ctxs := rfl
@[simp] theorem emit_cores (s : State) (o : Output) : (s.emit o).cores = s.cores := rfl
@[simp] theorem emit_quads (s : State) (o : Output) : (s.emit o).quads = s.quads := rfl
@[simp] theorem emit_dies (s : State) (o : Output) : (s.emit o).dies = s.dies := rfl
@[simp] theorem emit_hub (s : State) (o : Output) : (s.emit o).hub = s.hub := rfl
@[simp] theorem emit_launches (s : State) (o : Output) : (s.emit o).launches = s.launches := rfl
@[simp] theorem emit_mem (s : State) (o : Output) : (s.emit o).mem = s.mem := rfl
@[simp] theorem emit_pres (s : State) (o : Output) : (s.emit o).pres = s.pres := rfl
@[simp] theorem emit_net (s : State) (o : Output) : (s.emit o).net = s.net := rfl
@[simp] theorem emit_turns (s : State) (o : Output) : (s.emit o).turns = s.turns := rfl
@[simp] theorem emit_focus (s : State) (o : Output) : (s.emit o).focus = s.focus := rfl
@[simp] theorem emit_cur (s : State) (o : Output) : (s.emit o).cur = s.cur := rfl
@[simp] theorem emit_latch (s : State) (o : Output) : (s.emit o).latch = s.latch := rfl
@[simp] theorem emit_curDie (s : State) (o : Output) : (s.emit o).curDie = s.curDie := rfl
@[simp] theorem emit_taken (s : State) (o : Output) : (s.emit o).taken = s.taken := rfl
@[simp] theorem emit_inbox (s : State) (o : Output) : (s.emit o).inbox = s.inbox := rfl
@[simp] theorem emit_served (s : State) (o : Output) : (s.emit o).served = s.served := rfl
@[simp] theorem emit_grant (s : State) (o : Output) : (s.emit o).grant = s.grant := rfl
@[simp] theorem emit_beat (s : State) (o : Output) : (s.emit o).beat = s.beat := rfl

/-! ### `send` -/

@[simp] theorem send_ctxs (s : State) (pair : Option (Nat × Nat)) (ev : Instr) : (s.send pair ev).ctxs = s.ctxs := rfl
@[simp] theorem send_cores (s : State) (pair : Option (Nat × Nat)) (ev : Instr) :
    (s.send pair ev).cores = s.cores := rfl
@[simp] theorem send_quads (s : State) (pair : Option (Nat × Nat)) (ev : Instr) :
    (s.send pair ev).quads = s.quads := rfl
@[simp] theorem send_dies (s : State) (pair : Option (Nat × Nat)) (ev : Instr) : (s.send pair ev).dies = s.dies := rfl
@[simp] theorem send_hub (s : State) (pair : Option (Nat × Nat)) (ev : Instr) : (s.send pair ev).hub = s.hub := rfl
@[simp] theorem send_launches (s : State) (pair : Option (Nat × Nat)) (ev : Instr) :
    (s.send pair ev).launches = s.launches := rfl
@[simp] theorem send_mem (s : State) (pair : Option (Nat × Nat)) (ev : Instr) : (s.send pair ev).mem = s.mem := rfl
@[simp] theorem send_pres (s : State) (pair : Option (Nat × Nat)) (ev : Instr) : (s.send pair ev).pres = s.pres := rfl
@[simp] theorem send_turns (s : State) (pair : Option (Nat × Nat)) (ev : Instr) :
    (s.send pair ev).turns = s.turns := rfl
@[simp] theorem send_focus (s : State) (pair : Option (Nat × Nat)) (ev : Instr) :
    (s.send pair ev).focus = s.focus := rfl
@[simp] theorem send_cur (s : State) (pair : Option (Nat × Nat)) (ev : Instr) : (s.send pair ev).cur = s.cur := rfl
@[simp] theorem send_latch (s : State) (pair : Option (Nat × Nat)) (ev : Instr) :
    (s.send pair ev).latch = s.latch := rfl
@[simp] theorem send_curDie (s : State) (pair : Option (Nat × Nat)) (ev : Instr) :
    (s.send pair ev).curDie = s.curDie := rfl
@[simp] theorem send_taken (s : State) (pair : Option (Nat × Nat)) (ev : Instr) : (s.send pair ev).taken = s.taken := rfl
@[simp] theorem send_inbox (s : State) (pair : Option (Nat × Nat)) (ev : Instr) : (s.send pair ev).inbox = s.inbox := rfl
@[simp] theorem send_served (s : State) (pair : Option (Nat × Nat)) (ev : Instr) : (s.send pair ev).served = s.served := rfl
@[simp] theorem send_grant (s : State) (pair : Option (Nat × Nat)) (ev : Instr) : (s.send pair ev).grant = s.grant := rfl
@[simp] theorem send_beat (s : State) (pair : Option (Nat × Nat)) (ev : Instr) : (s.send pair ev).beat = s.beat := rfl
@[simp] theorem send_out (s : State) (pair : Option (Nat × Nat)) (ev : Instr) : (s.send pair ev).out = s.out := rfl

/-! ### `wr` -/

@[simp] theorem wr_ctxs (s : State) (p : Place) (n x : Nat) : (s.wr p n x).ctxs = s.ctxs := rfl
@[simp] theorem wr_cores (s : State) (p : Place) (n x : Nat) : (s.wr p n x).cores = s.cores := rfl
@[simp] theorem wr_quads (s : State) (p : Place) (n x : Nat) : (s.wr p n x).quads = s.quads := rfl
@[simp] theorem wr_dies (s : State) (p : Place) (n x : Nat) : (s.wr p n x).dies = s.dies := rfl
@[simp] theorem wr_hub (s : State) (p : Place) (n x : Nat) : (s.wr p n x).hub = s.hub := rfl
@[simp] theorem wr_launches (s : State) (p : Place) (n x : Nat) : (s.wr p n x).launches = s.launches := rfl
@[simp] theorem wr_pres (s : State) (p : Place) (n x : Nat) : (s.wr p n x).pres = s.pres := rfl
@[simp] theorem wr_net (s : State) (p : Place) (n x : Nat) : (s.wr p n x).net = s.net := rfl
@[simp] theorem wr_turns (s : State) (p : Place) (n x : Nat) : (s.wr p n x).turns = s.turns := rfl
@[simp] theorem wr_focus (s : State) (p : Place) (n x : Nat) : (s.wr p n x).focus = s.focus := rfl
@[simp] theorem wr_cur (s : State) (p : Place) (n x : Nat) : (s.wr p n x).cur = s.cur := rfl
@[simp] theorem wr_latch (s : State) (p : Place) (n x : Nat) : (s.wr p n x).latch = s.latch := rfl
@[simp] theorem wr_curDie (s : State) (p : Place) (n x : Nat) : (s.wr p n x).curDie = s.curDie := rfl
@[simp] theorem wr_taken (s : State) (p : Place) (n x : Nat) : (s.wr p n x).taken = s.taken := rfl
@[simp] theorem wr_inbox (s : State) (p : Place) (n x : Nat) : (s.wr p n x).inbox = s.inbox := rfl
@[simp] theorem wr_served (s : State) (p : Place) (n x : Nat) : (s.wr p n x).served = s.served := rfl
@[simp] theorem wr_grant (s : State) (p : Place) (n x : Nat) : (s.wr p n x).grant = s.grant := rfl
@[simp] theorem wr_beat (s : State) (p : Place) (n x : Nat) : (s.wr p n x).beat = s.beat := rfl
@[simp] theorem wr_out (s : State) (p : Place) (n x : Nat) : (s.wr p n x).out = s.out := rfl

/-! ### `setFull` -/

@[simp] theorem setFull_ctxs (s : State) (c w : Nat) (b : Bool) : (s.setFull c w b).ctxs = s.ctxs := rfl
@[simp] theorem setFull_cores (s : State) (c w : Nat) (b : Bool) : (s.setFull c w b).cores = s.cores := rfl
@[simp] theorem setFull_quads (s : State) (c w : Nat) (b : Bool) : (s.setFull c w b).quads = s.quads := rfl
@[simp] theorem setFull_dies (s : State) (c w : Nat) (b : Bool) : (s.setFull c w b).dies = s.dies := rfl
@[simp] theorem setFull_hub (s : State) (c w : Nat) (b : Bool) : (s.setFull c w b).hub = s.hub := rfl
@[simp] theorem setFull_launches (s : State) (c w : Nat) (b : Bool) : (s.setFull c w b).launches = s.launches := rfl
@[simp] theorem setFull_mem (s : State) (c w : Nat) (b : Bool) : (s.setFull c w b).mem = s.mem := rfl
@[simp] theorem setFull_net (s : State) (c w : Nat) (b : Bool) : (s.setFull c w b).net = s.net := rfl
@[simp] theorem setFull_turns (s : State) (c w : Nat) (b : Bool) : (s.setFull c w b).turns = s.turns := rfl
@[simp] theorem setFull_focus (s : State) (c w : Nat) (b : Bool) : (s.setFull c w b).focus = s.focus := rfl
@[simp] theorem setFull_cur (s : State) (c w : Nat) (b : Bool) : (s.setFull c w b).cur = s.cur := rfl
@[simp] theorem setFull_latch (s : State) (c w : Nat) (b : Bool) : (s.setFull c w b).latch = s.latch := rfl
@[simp] theorem setFull_curDie (s : State) (c w : Nat) (b : Bool) : (s.setFull c w b).curDie = s.curDie := rfl
@[simp] theorem setFull_taken (s : State) (c w : Nat) (b : Bool) : (s.setFull c w b).taken = s.taken := rfl
@[simp] theorem setFull_inbox (s : State) (c w : Nat) (b : Bool) : (s.setFull c w b).inbox = s.inbox := rfl
@[simp] theorem setFull_served (s : State) (c w : Nat) (b : Bool) : (s.setFull c w b).served = s.served := rfl
@[simp] theorem setFull_grant (s : State) (c w : Nat) (b : Bool) : (s.setFull c w b).grant = s.grant := rfl
@[simp] theorem setFull_beat (s : State) (c w : Nat) (b : Bool) : (s.setFull c w b).beat = s.beat := rfl
@[simp] theorem setFull_out (s : State) (c w : Nat) (b : Bool) : (s.setFull c w b).out = s.out := rfl

/-! ### `evc` -/

@[simp] theorem evc_ctxs (s : State) (c k : Nat) : (s.evc c k).ctxs = s.ctxs := rfl
@[simp] theorem evc_quads (s : State) (c k : Nat) : (s.evc c k).quads = s.quads := rfl
@[simp] theorem evc_dies (s : State) (c k : Nat) : (s.evc c k).dies = s.dies := rfl
@[simp] theorem evc_hub (s : State) (c k : Nat) : (s.evc c k).hub = s.hub := rfl
@[simp] theorem evc_launches (s : State) (c k : Nat) : (s.evc c k).launches = s.launches := rfl
@[simp] theorem evc_mem (s : State) (c k : Nat) : (s.evc c k).mem = s.mem := rfl
@[simp] theorem evc_pres (s : State) (c k : Nat) : (s.evc c k).pres = s.pres := rfl
@[simp] theorem evc_net (s : State) (c k : Nat) : (s.evc c k).net = s.net := rfl
@[simp] theorem evc_turns (s : State) (c k : Nat) : (s.evc c k).turns = s.turns := rfl
@[simp] theorem evc_focus (s : State) (c k : Nat) : (s.evc c k).focus = s.focus := rfl
@[simp] theorem evc_cur (s : State) (c k : Nat) : (s.evc c k).cur = s.cur := rfl
@[simp] theorem evc_latch (s : State) (c k : Nat) : (s.evc c k).latch = s.latch := rfl
@[simp] theorem evc_curDie (s : State) (c k : Nat) : (s.evc c k).curDie = s.curDie := rfl
@[simp] theorem evc_taken (s : State) (c k : Nat) : (s.evc c k).taken = s.taken := rfl
@[simp] theorem evc_inbox (s : State) (c k : Nat) : (s.evc c k).inbox = s.inbox := rfl
@[simp] theorem evc_served (s : State) (c k : Nat) : (s.evc c k).served = s.served := rfl
@[simp] theorem evc_grant (s : State) (c k : Nat) : (s.evc c k).grant = s.grant := rfl
@[simp] theorem evc_beat (s : State) (c k : Nat) : (s.evc c k).beat = s.beat := rfl
@[simp] theorem evc_out (s : State) (c k : Nat) : (s.evc c k).out = s.out := rfl

/-! ### `modTel` -/

@[simp] theorem modTel_ctxs (s : State) (d : Nat) (f : Tel → Tel) : (s.modTel d f).ctxs = s.ctxs := rfl
@[simp] theorem modTel_cores (s : State) (d : Nat) (f : Tel → Tel) : (s.modTel d f).cores = s.cores := rfl
@[simp] theorem modTel_quads (s : State) (d : Nat) (f : Tel → Tel) : (s.modTel d f).quads = s.quads := rfl
@[simp] theorem modTel_hub (s : State) (d : Nat) (f : Tel → Tel) : (s.modTel d f).hub = s.hub := rfl
@[simp] theorem modTel_launches (s : State) (d : Nat) (f : Tel → Tel) : (s.modTel d f).launches = s.launches := rfl
@[simp] theorem modTel_mem (s : State) (d : Nat) (f : Tel → Tel) : (s.modTel d f).mem = s.mem := rfl
@[simp] theorem modTel_pres (s : State) (d : Nat) (f : Tel → Tel) : (s.modTel d f).pres = s.pres := rfl
@[simp] theorem modTel_net (s : State) (d : Nat) (f : Tel → Tel) : (s.modTel d f).net = s.net := rfl
@[simp] theorem modTel_turns (s : State) (d : Nat) (f : Tel → Tel) : (s.modTel d f).turns = s.turns := rfl
@[simp] theorem modTel_focus (s : State) (d : Nat) (f : Tel → Tel) : (s.modTel d f).focus = s.focus := rfl
@[simp] theorem modTel_cur (s : State) (d : Nat) (f : Tel → Tel) : (s.modTel d f).cur = s.cur := rfl
@[simp] theorem modTel_latch (s : State) (d : Nat) (f : Tel → Tel) : (s.modTel d f).latch = s.latch := rfl
@[simp] theorem modTel_curDie (s : State) (d : Nat) (f : Tel → Tel) : (s.modTel d f).curDie = s.curDie := rfl
@[simp] theorem modTel_taken (s : State) (d : Nat) (f : Tel → Tel) : (s.modTel d f).taken = s.taken := rfl
@[simp] theorem modTel_inbox (s : State) (d : Nat) (f : Tel → Tel) : (s.modTel d f).inbox = s.inbox := rfl
@[simp] theorem modTel_served (s : State) (d : Nat) (f : Tel → Tel) : (s.modTel d f).served = s.served := rfl
@[simp] theorem modTel_grant (s : State) (d : Nat) (f : Tel → Tel) : (s.modTel d f).grant = s.grant := rfl
@[simp] theorem modTel_beat (s : State) (d : Nat) (f : Tel → Tel) : (s.modTel d f).beat = s.beat := rfl
@[simp] theorem modTel_out (s : State) (d : Nat) (f : Tel → Tel) : (s.modTel d f).out = s.out := rfl

/-! ### `modQueue` -/

@[simp] theorem modQueue_ctxs (s : State) (q : Nat) (f : Queue → Queue) : (s.modQueue q f).ctxs = s.ctxs := rfl
@[simp] theorem modQueue_cores (s : State) (q : Nat) (f : Queue → Queue) : (s.modQueue q f).cores = s.cores := rfl
@[simp] theorem modQueue_quads (s : State) (q : Nat) (f : Queue → Queue) : (s.modQueue q f).quads = s.quads := rfl
@[simp] theorem modQueue_dies (s : State) (q : Nat) (f : Queue → Queue) : (s.modQueue q f).dies = s.dies := rfl
@[simp] theorem modQueue_launches (s : State) (q : Nat) (f : Queue → Queue) :
    (s.modQueue q f).launches = s.launches := rfl
@[simp] theorem modQueue_mem (s : State) (q : Nat) (f : Queue → Queue) : (s.modQueue q f).mem = s.mem := rfl
@[simp] theorem modQueue_pres (s : State) (q : Nat) (f : Queue → Queue) : (s.modQueue q f).pres = s.pres := rfl
@[simp] theorem modQueue_net (s : State) (q : Nat) (f : Queue → Queue) : (s.modQueue q f).net = s.net := rfl
@[simp] theorem modQueue_turns (s : State) (q : Nat) (f : Queue → Queue) : (s.modQueue q f).turns = s.turns := rfl
@[simp] theorem modQueue_focus (s : State) (q : Nat) (f : Queue → Queue) : (s.modQueue q f).focus = s.focus := rfl
@[simp] theorem modQueue_cur (s : State) (q : Nat) (f : Queue → Queue) : (s.modQueue q f).cur = s.cur := rfl
@[simp] theorem modQueue_latch (s : State) (q : Nat) (f : Queue → Queue) : (s.modQueue q f).latch = s.latch := rfl
@[simp] theorem modQueue_curDie (s : State) (q : Nat) (f : Queue → Queue) : (s.modQueue q f).curDie = s.curDie := rfl
@[simp] theorem modQueue_taken (s : State) (q : Nat) (f : Queue → Queue) : (s.modQueue q f).taken = s.taken := rfl
@[simp] theorem modQueue_inbox (s : State) (q : Nat) (f : Queue → Queue) : (s.modQueue q f).inbox = s.inbox := rfl
@[simp] theorem modQueue_served (s : State) (q : Nat) (f : Queue → Queue) : (s.modQueue q f).served = s.served := rfl
@[simp] theorem modQueue_grant (s : State) (q : Nat) (f : Queue → Queue) : (s.modQueue q f).grant = s.grant := rfl
@[simp] theorem modQueue_beat (s : State) (q : Nat) (f : Queue → Queue) : (s.modQueue q f).beat = s.beat := rfl
@[simp] theorem modQueue_out (s : State) (q : Nat) (f : Queue → Queue) : (s.modQueue q f).out = s.out := rfl

/-! ### `modLaunch` -/

@[simp] theorem modLaunch_ctxs (s : State) (l : Nat) (f : Launch → Launch) : (s.modLaunch l f).ctxs = s.ctxs := by
  unfold State.modLaunch; split <;> rfl
@[simp] theorem modLaunch_cores (s : State) (l : Nat) (f : Launch → Launch) : (s.modLaunch l f).cores = s.cores := by
  unfold State.modLaunch; split <;> rfl
@[simp] theorem modLaunch_quads (s : State) (l : Nat) (f : Launch → Launch) : (s.modLaunch l f).quads = s.quads := by
  unfold State.modLaunch; split <;> rfl
@[simp] theorem modLaunch_dies (s : State) (l : Nat) (f : Launch → Launch) : (s.modLaunch l f).dies = s.dies := by
  unfold State.modLaunch; split <;> rfl
@[simp] theorem modLaunch_hub (s : State) (l : Nat) (f : Launch → Launch) : (s.modLaunch l f).hub = s.hub := by
  unfold State.modLaunch; split <;> rfl
@[simp] theorem modLaunch_mem (s : State) (l : Nat) (f : Launch → Launch) : (s.modLaunch l f).mem = s.mem := by
  unfold State.modLaunch; split <;> rfl
@[simp] theorem modLaunch_pres (s : State) (l : Nat) (f : Launch → Launch) : (s.modLaunch l f).pres = s.pres := by
  unfold State.modLaunch; split <;> rfl
@[simp] theorem modLaunch_net (s : State) (l : Nat) (f : Launch → Launch) : (s.modLaunch l f).net = s.net := by
  unfold State.modLaunch; split <;> rfl
@[simp] theorem modLaunch_turns (s : State) (l : Nat) (f : Launch → Launch) : (s.modLaunch l f).turns = s.turns := by
  unfold State.modLaunch; split <;> rfl
@[simp] theorem modLaunch_focus (s : State) (l : Nat) (f : Launch → Launch) : (s.modLaunch l f).focus = s.focus := by
  unfold State.modLaunch; split <;> rfl
@[simp] theorem modLaunch_cur (s : State) (l : Nat) (f : Launch → Launch) : (s.modLaunch l f).cur = s.cur := by
  unfold State.modLaunch; split <;> rfl
@[simp] theorem modLaunch_latch (s : State) (l : Nat) (f : Launch → Launch) : (s.modLaunch l f).latch = s.latch := by
  unfold State.modLaunch; split <;> rfl
@[simp] theorem modLaunch_curDie (s : State) (l : Nat) (f : Launch → Launch) : (s.modLaunch l f).curDie = s.curDie := by
  unfold State.modLaunch; split <;> rfl
@[simp] theorem modLaunch_beat (s : State) (l : Nat) (f : Launch → Launch) : (s.modLaunch l f).beat = s.beat := by
  unfold State.modLaunch; split <;> rfl
@[simp] theorem modLaunch_out (s : State) (l : Nat) (f : Launch → Launch) : (s.modLaunch l f).out = s.out := by
  unfold State.modLaunch; split <;> rfl

/-! ### What an update changes -/

@[simp] theorem emit_out (s : State) (o : Output) : (s.emit o).out = s.out ++ [o] := rfl
@[simp] theorem send_net (s : State) (pair : Option (Nat × Nat)) (ev : Instr) :
    (s.send pair ev).net = s.net ++ [{ pair := pair, ev := ev }] := rfl
@[simp] theorem modHub_hub (s : State) (f : Hub → Hub) : (s.modHub f).hub = f s.hub := rfl
@[simp] theorem wr_mem (s : State) (p : Place) (n x : Nat) : (s.wr p n x).mem = Memory.write s.mem p.key n x := rfl

/-! ### Contexts, cores, quads and dies as an update leaves them -/

theorem modCtx_ctx_other (s : State) (th : Nat) (f : Ctx → Ctx) (u : Nat) (h : u ≠ th) :
    (s.modCtx th f).ctx u = s.ctx u :=
  get_put_other _ _ _ _ _ h
theorem modCtx_ctx_same (s : State) (hs : FMap.sorted s.ctxs) (th : Nat) (f : Ctx → Ctx) :
    (s.modCtx th f).ctx th = f (s.ctx th) :=
  get_put_same _ hs _ _
theorem modCore_core_other (s : State) (th : Nat) (f : Core → Core) (u : Nat) (h : u ≠ th) :
    (s.modCore th f).core u = s.core u :=
  get_put_other _ _ _ _ _ h
theorem modCore_core_same (s : State) (hs : FMap.sorted s.cores) (th : Nat) (f : Core → Core) :
    (s.modCore th f).core th = f (s.core th) :=
  get_put_same _ hs _ _
theorem modQuad_quad_other (s : State) (th : Nat) (f : Quad → Quad) (u : Nat) (h : u ≠ th) :
    (s.modQuad th f).quad u = s.quad u :=
  get_put_other _ _ _ _ _ h
theorem modQuad_quad_same (s : State) (hs : FMap.sorted s.quads) (th : Nat) (f : Quad → Quad) :
    (s.modQuad th f).quad th = f (s.quad th) :=
  get_put_same _ hs _ _
theorem modDie_die_other (s : State) (th : Nat) (f : Die → Die) (u : Nat) (h : u ≠ th) :
    (s.modDie th f).die u = s.die u :=
  get_put_other _ _ _ _ _ h
theorem modDie_die_same (s : State) (hs : FMap.sorted s.dies) (th : Nat) (f : Die → Die) :
    (s.modDie th f).die th = f (s.die th) :=
  get_put_same _ hs _ _
@[simp] theorem modCtx_core (s : State) (th : Nat) (f : Ctx → Ctx) (u : Nat) : (s.modCtx th f).core u = s.core u := rfl
@[simp] theorem modCtx_quad (s : State) (th : Nat) (f : Ctx → Ctx) (u : Nat) : (s.modCtx th f).quad u = s.quad u := rfl
@[simp] theorem modCtx_die (s : State) (th : Nat) (f : Ctx → Ctx) (u : Nat) : (s.modCtx th f).die u = s.die u := rfl
@[simp] theorem modCtx_launch (s : State) (th : Nat) (f : Ctx → Ctx) (u : Nat) :
    (s.modCtx th f).launch u = s.launch u := rfl
@[simp] theorem modCore_ctx (s : State) (c : Nat) (f : Core → Core) (u : Nat) : (s.modCore c f).ctx u = s.ctx u := rfl
@[simp] theorem modCore_quad (s : State) (c : Nat) (f : Core → Core) (u : Nat) :
    (s.modCore c f).quad u = s.quad u := rfl
@[simp] theorem modCore_die (s : State) (c : Nat) (f : Core → Core) (u : Nat) : (s.modCore c f).die u = s.die u := rfl
@[simp] theorem modCore_launch (s : State) (c : Nat) (f : Core → Core) (u : Nat) :
    (s.modCore c f).launch u = s.launch u := rfl
@[simp] theorem modQuad_ctx (s : State) (q : Nat) (f : Quad → Quad) (u : Nat) : (s.modQuad q f).ctx u = s.ctx u := rfl
@[simp] theorem modQuad_core (s : State) (q : Nat) (f : Quad → Quad) (u : Nat) :
    (s.modQuad q f).core u = s.core u := rfl
@[simp] theorem modQuad_die (s : State) (q : Nat) (f : Quad → Quad) (u : Nat) : (s.modQuad q f).die u = s.die u := rfl
@[simp] theorem modQuad_launch (s : State) (q : Nat) (f : Quad → Quad) (u : Nat) :
    (s.modQuad q f).launch u = s.launch u := rfl
@[simp] theorem modDie_ctx (s : State) (d : Nat) (f : Die → Die) (u : Nat) : (s.modDie d f).ctx u = s.ctx u := rfl
@[simp] theorem modDie_core (s : State) (d : Nat) (f : Die → Die) (u : Nat) : (s.modDie d f).core u = s.core u := rfl
@[simp] theorem modDie_quad (s : State) (d : Nat) (f : Die → Die) (u : Nat) : (s.modDie d f).quad u = s.quad u := rfl
@[simp] theorem modDie_launch (s : State) (d : Nat) (f : Die → Die) (u : Nat) :
    (s.modDie d f).launch u = s.launch u := rfl
@[simp] theorem modHub_ctx (s : State) (f : Hub → Hub) (u : Nat) : (s.modHub f).ctx u = s.ctx u := rfl
@[simp] theorem modHub_core (s : State) (f : Hub → Hub) (u : Nat) : (s.modHub f).core u = s.core u := rfl
@[simp] theorem modHub_quad (s : State) (f : Hub → Hub) (u : Nat) : (s.modHub f).quad u = s.quad u := rfl
@[simp] theorem modHub_die (s : State) (f : Hub → Hub) (u : Nat) : (s.modHub f).die u = s.die u := rfl
@[simp] theorem modHub_launch (s : State) (f : Hub → Hub) (u : Nat) : (s.modHub f).launch u = s.launch u := rfl
@[simp] theorem emit_ctx (s : State) (x : Output) (u : Nat) : (s.emit x).ctx u = s.ctx u := rfl
@[simp] theorem emit_core (s : State) (x : Output) (u : Nat) : (s.emit x).core u = s.core u := rfl
@[simp] theorem emit_quad (s : State) (x : Output) (u : Nat) : (s.emit x).quad u = s.quad u := rfl
@[simp] theorem emit_die (s : State) (x : Output) (u : Nat) : (s.emit x).die u = s.die u := rfl
@[simp] theorem emit_launch (s : State) (x : Output) (u : Nat) : (s.emit x).launch u = s.launch u := rfl
@[simp] theorem send_ctx (s : State) (pair : Option (Nat × Nat)) (ev : Instr) (u : Nat) :
    (s.send pair ev).ctx u = s.ctx u := rfl
@[simp] theorem send_core (s : State) (pair : Option (Nat × Nat)) (ev : Instr) (u : Nat) :
    (s.send pair ev).core u = s.core u := rfl
@[simp] theorem send_quad (s : State) (pair : Option (Nat × Nat)) (ev : Instr) (u : Nat) :
    (s.send pair ev).quad u = s.quad u := rfl
@[simp] theorem send_die (s : State) (pair : Option (Nat × Nat)) (ev : Instr) (u : Nat) :
    (s.send pair ev).die u = s.die u := rfl
@[simp] theorem send_launch (s : State) (pair : Option (Nat × Nat)) (ev : Instr) (u : Nat) :
    (s.send pair ev).launch u = s.launch u := rfl
@[simp] theorem wr_ctx (s : State) (p : Place) (n x : Nat) (u : Nat) : (s.wr p n x).ctx u = s.ctx u := rfl
@[simp] theorem wr_core (s : State) (p : Place) (n x : Nat) (u : Nat) : (s.wr p n x).core u = s.core u := rfl
@[simp] theorem wr_quad (s : State) (p : Place) (n x : Nat) (u : Nat) : (s.wr p n x).quad u = s.quad u := rfl
@[simp] theorem wr_die (s : State) (p : Place) (n x : Nat) (u : Nat) : (s.wr p n x).die u = s.die u := rfl
@[simp] theorem wr_launch (s : State) (p : Place) (n x : Nat) (u : Nat) : (s.wr p n x).launch u = s.launch u := rfl
@[simp] theorem setFull_ctx (s : State) (c w : Nat) (b : Bool) (u : Nat) : (s.setFull c w b).ctx u = s.ctx u := rfl
@[simp] theorem setFull_core (s : State) (c w : Nat) (b : Bool) (u : Nat) : (s.setFull c w b).core u = s.core u := rfl
@[simp] theorem setFull_quad (s : State) (c w : Nat) (b : Bool) (u : Nat) : (s.setFull c w b).quad u = s.quad u := rfl
@[simp] theorem setFull_die (s : State) (c w : Nat) (b : Bool) (u : Nat) : (s.setFull c w b).die u = s.die u := rfl
@[simp] theorem setFull_launch (s : State) (c w : Nat) (b : Bool) (u : Nat) :
    (s.setFull c w b).launch u = s.launch u := rfl

/-! ### The canonical form of the tables -/

theorem modCtx_sorted (s : State) (hs : FMap.sorted s.ctxs) (th : Nat) (f : Ctx → Ctx) :
    FMap.sorted (s.modCtx th f).ctxs :=
  put_sorted _ hs _ _
theorem modCore_sorted (s : State) (hs : FMap.sorted s.cores) (th : Nat) (f : Core → Core) :
    FMap.sorted (s.modCore th f).cores :=
  put_sorted _ hs _ _
theorem modQuad_sorted (s : State) (hs : FMap.sorted s.quads) (th : Nat) (f : Quad → Quad) :
    FMap.sorted (s.modQuad th f).quads :=
  put_sorted _ hs _ _
theorem modDie_sorted (s : State) (hs : FMap.sorted s.dies) (th : Nat) (f : Die → Die) :
    FMap.sorted (s.modDie th f).dies :=
  put_sorted _ hs _ _
theorem wr_wf (s : State) (h : Memory.wf s.mem = true) (p : Place) (n x : Nat) : Memory.wf (s.wr p n x).mem = true :=
  Memory.write_wf h _ _ _
theorem setFull_wf (s : State) (h : FMap.wf true s.pres = true) (c w : Nat) (b : Bool) :
    FMap.wf true (s.setFull c w b).pres = true := put_wf _ h _ _

end Sys2Proof.Machine
end

