-- ==== Sys2Proof/Laws/Ops.lean ====
section
/-! SUPPORT. What the shared operations can do, said once: issuing, moving on to the next bundle, writing registers, taking a
trap and returning from one. -/

namespace Sys2Proof.Machine

/-! ### Sortedness -/

theorem tableSorted_iff {α : Type} (m : FMap α) : tableSorted m = true ↔ FMap.sorted m := by
  induction m with
  | nil => simp [tableSorted, FMap.sorted]
  | cons p m ih =>
    obtain ⟨k, x⟩ := p
    cases m with
    | nil => simp [tableSorted, FMap.sorted, FMap.above]
    | cons q m =>
      obtain ⟨j, y⟩ := q
      simp only [tableSorted, Bool.and_eq_true, decide_eq_true_eq, ih]
      constructor
      · rintro ⟨h, hs⟩; exact ⟨FMap.above_of_sorted_cons h hs, hs⟩
      · rintro ⟨ha, hs⟩; exact ⟨ha (j, y) (by simp), hs⟩

/-! ### Entries that are not the default -/

theorem get_put_ne {α : Type} [DecidableEq α] (d : α) (m : FMap α) (i : Nat) (x : α) (h : x ≠ d) :
    get d (put d m i x) i = x := by
  induction m with
  | nil => simp [put, h, get]
  | cons p m ih =>
    obtain ⟨k, y⟩ := p
    simp only [put, h, if_false]
    split
    · simp [get]
    · split
      · simp [get]
      · rename_i h1 h2; simp [get, h2, ih]

theorem modCtx_ctx_ne (s : State) (th : Nat) (f : Ctx → Ctx) (h : f (s.ctx th) ≠ {}) :
    (s.modCtx th f).ctx th = f (s.ctx th) := get_put_ne _ _ _ _ h

theorem modCore_core_ne (s : State) (c : Nat) (f : Core → Core) (h : f (s.core c) ≠ {}) :
    (s.modCore c f).core c = f (s.core c) := get_put_ne _ _ _ _ h

/-- A context that is not Free is not the default. -/
theorem ctx_ne_of_status {c : Ctx} (h : c.status ≠ .free) : c ≠ {} := by rintro rfl; exact h rfl

/-! ### `issue` -/

theorem issue_go {s : State} {i : Instr} (h : Issues s i) (eff : State → State) :
    issue i eff s = .next (s.after i eff) := by simp [issue, h.1, h.2, State.after]

theorem issue_follows {s : State} (h : Follows s) (i : Instr) (eff : State → State) :
    issue i eff s = .next (eff s) := by
  obtain ⟨c, hc⟩ := Option.isSome_iff_exists.mp h
  simp [issue, hc]

theorem issue_block {s : State} {i : Instr} {k : Nat} (h : s.latch = none) (hv : s.verdict [i] = .block k)
    (eff : State → State) : issue i eff s = .next (s.stallOrForfeit (s.waitWindow i) k) := by simp [issue, h, hv]

theorem issue_hold {s : State} {i : Instr} (h : s.latch = none) (hv : s.verdict [i] = .hold) (eff : State → State) :
    issue i eff s = .next (s.startWait i) := by simp [issue, h, hv]

theorem issue_trap {s : State} {i : Instr} {t : TrapInfo} (h : s.latch = none) (hv : s.verdict [i] = .trap t)
    (eff : State → State) : issue i eff s = .next (s.takeTrap s.cur t) := by simp [issue, h, hv]

/-- `issue` always answers a next state. -/
theorem issue_next (i : Instr) (eff : State → State) (s : State) : ∃ t, issue i eff s = .next t := by
  unfold issue; split
  · exact ⟨_, rfl⟩
  · split <;> exact ⟨_, rfl⟩

theorem issueD_go {s : State} {i : Instr} {d : BitVec 5} {val : State → Word} (h : Issues s i)
    (hp : s.pushHolds d (val (s.advance i)) = false) (eff : State → State) :
    issueD i d val eff s = .next (s.after i eff) := by simp [issueD, hp, issue_go h]

theorem issueD_wait {s : State} {i : Instr} {d : BitVec 5} {val : State → Word} (h : Issues s i)
    (hp : s.pushHolds d (val (s.advance i)) = true) (eff : State → State) :
    issueD i d val eff s = .next (s.stallOrForfeit (d.toNat - 28) onWindow) := by simp [issueD, hp, h.1, h.2]

/-! ### Verdicts -/

theorem and_eq_go {a b : Verdict} : a.and b = .go ↔ a = .go ∧ b = .go := by cases a <;> simp [Verdict.and]
theorem trapIf_eq_go {o : Option TrapInfo} : trapIf o = .go ↔ o = none := by cases o <;> simp [trapIf]
theorem blockIf_eq_go {b : Bool} {k : Nat} : blockIf b k = .go ↔ b = false := by cases b <;> simp [blockIf]

/-- What it takes to issue, check by check. -/
theorem verdict_eq_go (s : State) (i : Instr) : s.verdict [i] = .go ↔ s.illegal i = none ∧ s.vregFault i = none ∧
    s.emptyTrap i = none ∧ s.windowWait i = false ∧ s.registerWait i = false ∧ s.opChecks i = .go := by
  have go_and : ∀ v : Verdict, Verdict.go.and v = v := fun _ => rfl
  have wait : ∀ {b : Bool} {v : Verdict}, (if b = true then v.and (.block onWindow) else .go) = .go ↔ b = false := by
    intro b v; cases b <;> simp [and_eq_go]
  simp only [State.verdict, wait, and_eq_go, trapIf_eq_go, blockIf_eq_go, State.illegalAll, Option.map_eq_none_iff,
    List.findSome?, List.any, List.foldl, Bool.or_false, go_and]
  cases s.vregFault i <;> cases s.emptyTrap i <;> simp

/-- The checks of an instruction that waits for no answer. -/
theorem opChecks_eq_go (s : State) (i : Instr) (hw : waitsForAnswer i = false) : s.opChecks i = .go ↔
    (s.isMemAccess i && (s.ctx s.cur).prods.any (·.acquire)) = false ∧
    (waitOf i ≠ 0 && (s.ctx s.cur).counter (waitOf i) ≠ 0) = false ∧
    (releases i && (s.buffered s.cur || !(s.ctx s.cur).counterZero)) = false ∧
    s.checkAccesses (s.accesses i) = none ∧ s.ownChecks i = .go ∧ (s.bufferFull i || s.storesBefore i) = false ∧
    ((s.counts i).elim false fun k => 4095 ≤ (s.ctx s.cur).counter k) = false := by
  simp only [State.opChecks, hw, Bool.false_eq_true, if_false, and_eq_go, trapIf_eq_go, blockIf_eq_go]

/-- An ILLEGAL instruction traps before anything else. -/
theorem verdict_illegal {s : State} {i : Instr} {v : Nat} (h : s.illegal i = some v) : s.verdict [i] = .trap (ill v i) := by
  simp [State.verdict, State.illegalAll, h, trapIf, Verdict.and]

theorem illegal_wf {s : State} {i : Instr} (h : i.wf = false) : s.illegal i = some 0 := by
  unfold State.illegal; simp [h]

theorem illegal_level {s : State} {i : Instr} (hw : i.wf = true) (h : (s.ctx s.cur).level < levelOf i) :
    s.illegal i = some 1 := by
  unfold State.illegal; simp [hw, h]

/-! ### `advance` -/

theorem post_eq (s : State) (die cls : Nat) (lid : Option Nat) (core ctx : Nat) (e5 e6 e7 : BitVec 32) :
    ∃ e, s.post die cls lid core ctx e5 e6 e7 = s.send (some (endTel 8 + core, endTel die)) (.telemetryRecord die e) :=
  ⟨_, rfl⟩

theorem postQwait_eq (s : State) (n w k : Nat) :
    ∃ l, (l.all fun f => isRecord f.ev) = true ∧ s.postQwait n w k = ({ s with net := s.net ++ l } : State) := by
  obtain ⟨e, he⟩ := post_eq s (dieOfTh s.cur) 0x04 (s.lidOf s.cur) (coreOf s.cur) (ctxOf s.cur) (sat32 n)
    (BitVec.ofNat 32 w) (BitVec.ofNat 32 k)
  exact ⟨[{ pair := some (endTel 8 + coreOf s.cur, endTel (dieOfTh s.cur)), ev := .telemetryRecord (dieOfTh s.cur) e }],
    rfl, he⟩

/-- What `advance` is: perhaps a QWAIT record, then the context, then counts of the core. -/
theorem advance_eq (s : State) (i : Instr) :
    ∃ l, (l.all fun f => isRecord f.ev) = true ∧ s.advance i =
      ((({ s with net := s.net ++ l } : State).modCtx s.cur fun c => { c with
        status := .ready, pc := c.pc + 8, issued := c.issued + 1, winWait := none
        held := c.held.filter fun h => h.pc ≠ c.pc, synced := if c.synced = some c.pc then none else c.synced
        firstIssue := some (c.firstIssue.getD s.now), lastIssue := some s.now }).modCore (coreOf s.cur) fun k => { k with
          ivIssued := k.ivIssued + 1 }).evc (coreOf s.cur) 0 := by
  cases hw : (s.ctx s.cur).winWait with
  | none => exact ⟨[], rfl, by unfold State.advance; simp only [hw, List.append_nil]⟩
  | some w =>
    by_cases hc : 256 ≤ s.now - w
    · obtain ⟨l, hl, he⟩ := postQwait_eq s (s.now - w) (s.waitWindow i) 0
      refine ⟨l, hl, ?_⟩
      unfold State.advance
      simp only [hw, hc, if_true, he]
    · exact ⟨[], rfl, by unfold State.advance; simp only [hw, hc, if_false, List.append_nil]⟩

@[simp] theorem advance_cur (s : State) (i : Instr) : (s.advance i).cur = s.cur := by
  obtain ⟨l, -, h⟩ := advance_eq s i; rw [h]; rfl
@[simp] theorem advance_latch (s : State) (i : Instr) : (s.advance i).latch = s.latch := by
  obtain ⟨l, -, h⟩ := advance_eq s i; rw [h]; rfl
@[simp] theorem advance_mem (s : State) (i : Instr) : (s.advance i).mem = s.mem := by
  obtain ⟨l, -, h⟩ := advance_eq s i; rw [h]; rfl
@[simp] theorem advance_pres (s : State) (i : Instr) : (s.advance i).pres = s.pres := by
  obtain ⟨l, -, h⟩ := advance_eq s i; rw [h]; rfl
@[simp] theorem advance_hub (s : State) (i : Instr) : (s.advance i).hub = s.hub := by
  obtain ⟨l, -, h⟩ := advance_eq s i; rw [h]; rfl
@[simp] theorem advance_quads (s : State) (i : Instr) : (s.advance i).quads = s.quads := by
  obtain ⟨l, -, h⟩ := advance_eq s i; rw [h]; rfl
@[simp] theorem advance_dies (s : State) (i : Instr) : (s.advance i).dies = s.dies := by
  obtain ⟨l, -, h⟩ := advance_eq s i; rw [h]; rfl
@[simp] theorem advance_launches (s : State) (i : Instr) : (s.advance i).launches = s.launches := by
  obtain ⟨l, -, h⟩ := advance_eq s i; rw [h]; rfl

/-- The context in focus after `advance`. -/
theorem advance_ctx (s : State) (i : Instr) :
    (s.advance i).ctx s.cur = { s.ctx s.cur with
      status := .ready, pc := (s.ctx s.cur).pc + 8, issued := (s.ctx s.cur).issued + 1, winWait := none
      held := (s.ctx s.cur).held.filter fun h => h.pc ≠ (s.ctx s.cur).pc
      synced := if (s.ctx s.cur).synced = some (s.ctx s.cur).pc then none else (s.ctx s.cur).synced
      firstIssue := some ((s.ctx s.cur).firstIssue.getD s.now), lastIssue := some s.now } := by
  obtain ⟨l, -, h⟩ := advance_eq s i
  rw [h, State.evc, modCore_ctx, modCore_ctx]
  rw [modCtx_ctx_ne _ _ _ (ctx_ne_of_status (by simp))]
  rfl

theorem advance_ctx_other (s : State) (i : Instr) (th : Nat) (hth : th ≠ s.cur) :
    (s.advance i).ctx th = s.ctx th := by
  obtain ⟨l, -, h⟩ := advance_eq s i
  rw [h, State.evc, modCore_ctx, modCore_ctx]
  exact modCtx_ctx_other ({ s with net := s.net ++ l } : State) s.cur _ th hth

theorem evc_core (s : State) (c k : Nat) : (s.evc c k).core c = { s.core c with
    evc := put 0 (s.core c).evc k (if get 0 (s.core c).evc k = BitVec.allOnes 32 then get 0 (s.core c).evc k
      else get 0 (s.core c).evc k + 1) } := by
  apply modCore_core_ne
  intro h
  have hx : get (0 : BitVec 32) (put 0 (s.core c).evc k (if get 0 (s.core c).evc k = BitVec.allOnes 32
      then get 0 (s.core c).evc k else get 0 (s.core c).evc k + 1)) k = get 0 ([] : FMap (BitVec 32)) k :=
    congrArg (fun x : Core => get (0 : BitVec 32) x.evc k) h
  generalize hg : get (0 : BitVec 32) (s.core c).evc k = g at hx
  have hne : (if g = BitVec.allOnes 32 then g else g + 1) ≠ 0 := by
    split
    · rename_i e; rw [e]; decide
    · rename_i e; intro h0; apply e
      rw [show (BitVec.allOnes 32 : BitVec 32) = 0 - 1 from by decide, ← h0]; exact (BitVec.add_sub_cancel g 1).symm
  rw [get_put_ne _ _ _ _ hne] at hx
  exact hne hx

theorem evc_core_other (s : State) (c k u : Nat) (h : u ≠ c) : (s.evc c k).core u = s.core u :=
  modCore_core_other s c _ u h

/-- A core after `advance` is the same but for counts. -/
theorem advance_core_still (s : State) (i : Instr) (c : Nat) : ((s.advance i).core c).still = (s.core c).still := by
  obtain ⟨l, -, h⟩ := advance_eq s i; rw [h]
  by_cases hc : c = coreOf s.cur
  · subst hc
    rw [evc_core, modCore_core_ne _ _ _ (by intro h; have := congrArg Core.ivIssued h; simp at this)]
    rfl
  · rw [evc_core_other _ _ _ _ hc, modCore_core_other _ _ _ _ hc]; rfl

/-- What no count of a core changes is as it was. -/
theorem advance_core_of {α : Type} (f : Core → α) (hf : ∀ k, f k = f k.still) (s : State) (i : Instr) (c : Nat) :
    f ((s.advance i).core c) = f (s.core c) := by rw [hf, hf (s.core c), advance_core_still]

theorem advance_core_chans (s : State) (i : Instr) (c : Nat) : ((s.advance i).core c).chans = (s.core c).chans := by
  have h := congrArg Core.chans (advance_core_still s i c)
  exact h

@[simp] theorem advance_now (s : State) (i : Instr) : (s.advance i).now = s.now := by
  simpa [State.now] using advance_core_of Core.cycle (fun _ => rfl) s i (coreOf s.cur)

/-- The target of a branch. -/
@[simp] theorem advance_target (s : State) (i : Instr) (o : Int) :
    (s.advance i).target o = (s.ctx s.cur).pc + BitVec.ofInt 64 (8 * o) := by
  have h : (s.advance i).PC = (s.ctx s.cur).pc := by simp only [State.PC, advance_cur, advance_ctx]; bv_omega
  rw [State.target, h]

@[simp] theorem advance_winOf (s : State) (i : Instr) (r : Nat) :
    ((s.advance i).ctx s.cur).winOf r = (s.ctx s.cur).winOf r := by rw [advance_ctx]; rfl

theorem advance_winEntries (s : State) (i : Instr) (w : Window) :
    (s.advance i).winEntries s.cur w = s.winEntries s.cur w := by
  simp only [State.winEntries, advance_core_chans, advance_ctx]; rfl

/-- The operands of an instruction are read as they stood before it. -/
@[simp] theorem advance_S (s : State) (i : Instr) (r : BitVec 5) : (s.advance i).S r = s.S r := by
  simp only [State.S, advance_cur, advance_winOf, advance_winEntries, State.atIssue, advance_latch]
  cases (s.ctx s.cur).winOf r.toNat with
  | some w => rfl
  | none => cases s.latch with
    | some c => rfl
    | none => simp only [Option.getD, advance_ctx]; rfl

@[simp] theorem advance_SV (s : State) (i : Instr) (r : BitVec 5) : (s.advance i).SV r = s.SV r := by
  simp only [State.SV, State.atIssue, advance_cur, advance_latch]
  cases s.latch with
  | some c => rfl
  | none => simp only [Option.getD, advance_ctx]; rfl

@[simp] theorem advance_V (s : State) (i : Instr) (r : Nat) : (s.advance i).V r = s.V r := by
  simp only [State.V, State.atIssue, advance_cur, advance_latch]
  cases s.latch with
  | some c => rfl
  | none => simp only [Option.getD, advance_ctx]; rfl

/-- The address of the bundle being executed. -/
@[simp] theorem advance_PC (s : State) (i : Instr) : (s.advance i).PC = (s.ctx s.cur).pc := by
  simp only [State.PC, advance_cur, advance_ctx]; bv_omega

/-! ### Results -/

/-- A scalar result, whose value the operands give. -/
theorem issueS_writes {s : State} {i : Instr} {d : BitVec 5} {val : State → Word} {x : Word}
    (hx : val (s.advance i) = x) (h : Issues s i) (hp : s.pushHolds d x = false) :
    issueS i d val s = .next (s.after i fun r => r.setS d x) := by
  rw [issueS, issueD_go h (by rw [hx]; exact hp)]
  simp [State.after, hx]

/-- What an instruction with a scalar result does. -/
theorem issueD_spec {s : State} {i : Instr} {d : BitVec 5} {val : State → Word} {eff : State → State} {x : Word}
    {e : State → State} (he : exec i s = issueD i d val eff s) (hx : val (s.advance i) = x)
    (hf : eff (s.advance i) = e ((s.advance i).setS d x)) : WritesThen s i d x e := by
  intro h
  refine ⟨fun hp => ?_, fun hp => ?_⟩
  · rw [he, issueD_go h (by rw [hx]; exact hp)]; simp [State.after, hf]
  · rw [he, issueD_wait h (by rw [hx]; exact hp)]

/-- What an instruction whose one effect is a scalar result does. -/
theorem issueS_spec {s : State} {i : Instr} {d : BitVec 5} {val : State → Word} {x : Word}
    (he : exec i s = issueS i d val s) (hx : val (s.advance i) = x) : Writes s i d x :=
  issueD_spec he hx (by rw [hx]; rfl)

/-- What an instruction with another effect does. -/
theorem issue_spec {s : State} {i : Instr} {eff e : State → State} (he : exec i s = issue i eff s)
    (hf : eff (s.advance i) = e (s.advance i)) : Does s i e := by
  intro h; rw [he, issue_go h]; simp [State.after, hf]

/-- Nothing is popped by an instruction whose fields name no bound window. -/
theorem popSources_none (s : State) (c : Ctx) (i : Instr)
    (h : ∀ x ∈ srcsOf i, x.vec = true ∨ x.win = false ∨ c.winOf x.reg = none) : s.popSources c i = s := by
  unfold State.popSources
  generalize srcsOf i = l at h
  induction l with
  | nil => rfl
  | cons x l ih =>
    simp only [List.foldl_cons]
    have hx : (if (x.vec || !x.win) = true then none else c.winOf x.reg) = none := by
      rcases h x (by simp) with e | e | e <;> simp [e]
    simp only [hx]
    exact ih fun y hy => h y (by simp [hy])

/-- A write of a register that is no bound window. -/
theorem setS_register (s : State) (d : BitVec 5) (x : Word) (h : (s.ctx s.cur).winOf d.toNat = none) :
    s.setS d x = s.modCtx s.cur fun c => c.setS d.toNat x := by simp [State.setS, h]

/-- A write of a bound window is a push. -/
theorem setS_window (s : State) (d : BitVec 5) (x : Word) (w : Window) (h : (s.ctx s.cur).winOf d.toNat = some w) :
    s.setS d x = s.pushWin s.cur (d.toNat - 28) w (x.setWidth 128) := by simp [State.setS, h]

@[simp] theorem setS_zero (c : Ctx) (x : Word) : c.setS 0 x = c := by simp [Ctx.setS]

/-! ### Traps (03 R113, R115) -/

/-- A trap that the thread's own handler takes; what it had arrived at is withdrawn (06 R209). -/
theorem takeTrap_handled (s : State) (th : Nat) (t : TrapInfo) (h : (s.ctx th).handles t = true) :
    s.takeTrap th t = (s.modCtx th fun _ => { s.ctx th with
      held := if t.cause = cFETIMEOUT then (s.ctx th).held.filter fun h => h.pc ≠ (s.ctx th).pc else (s.ctx th).held
      cause := BitVec.ofNat 64 (t.cause % 256), epc := (s.ctx th).pc &&& ~~~7#64, tval := t.tval, winWait := none, lostAt := none
      tstate := tstateOf t ||| 0x8000#64, pc := (s.ctx th).hbase &&& ~~~7#64, status := .ready }).modCore (coreOf th) (unarrive th) := by
  simp [State.takeTrap, h]

/-- The return from a trap changes the context alone. -/
theorem returnTrap_ctx (s : State) (th : Nat) (h : (s.ctx th).status ≠ .free) :
    (s.returnTrap th).ctx th = { s.ctx th with
      tstate := (s.ctx th).tstate &&& ~~~0x8000#64, pc := (s.ctx th).epc &&& ~~~7#64 } :=
  modCtx_ctx_ne s th _ (ctx_ne_of_status h)

end Sys2Proof.Machine
end

