-- ==== Sys2Proof/Laws/Issue.lean ====
section
/-! SUPPORT. What an instruction of a thread reads is as it stood before it moved on, what loads, stores and atomics do once,
and that every instruction of a thread goes through `issue` or `issueD`. -/

namespace Sys2Proof.Machine

/-! ### What an instruction reads stands as it stood -/

theorem advance_sreg (s : State) (i : Instr) (r : Nat) : ((s.advance i).ctx s.cur).sreg r = (s.ctx s.cur).sreg r := by rw [advance_ctx]; rfl

theorem advance_lostAt (s : State) (i : Instr) : ((s.advance i).ctx s.cur).lostAt = (s.ctx s.cur).lostAt := by rw [advance_ctx]

theorem advance_localByte (s : State) (i : Instr) (c o : Nat) : (s.advance i).localByte c o = s.localByte c o := by
  simp only [State.localByte, advance_core_of Core.stbuf (fun _ => rfl), State.byteAt, advance_mem]

theorem advance_localRead (s : State) (i : Instr) (c o n : Nat) : (s.advance i).localRead c o n = s.localRead c o n := by
  induction n generalizing o with
  | zero => rfl
  | succ n ih => simp only [State.localRead, advance_localByte, ih]

theorem localRead_lt (s : State) (c o n : Nat) : s.localRead c o n < 2 ^ (8 * n) := by
  induction n generalizing o with
  | zero => simp [State.localRead]
  | succ n ih =>
    have h := ih (o + 1)
    have hb := (s.localByte c o).isLt
    simp only [State.localRead]
    rw [show 8 * (n + 1) = 8 + 8 * n by omega, Nat.pow_add]
    omega

theorem advance_seqNow (s : State) (i : Instr) : (s.advance i).seqNow = (s.ctx s.cur).nextSeq := by
  simp only [State.seqNow, advance_cur, advance_ctx]

theorem advance_lidOf (s : State) (i : Instr) : (s.advance i).lidOf s.cur = s.lidOf s.cur := by
  simp only [State.lidOf, advance_ctx]

theorem advance_xctxOf (s : State) (i : Instr) : (s.advance i).xctxOf s.cur = s.xctxOf s.cur := by
  simp only [State.xctxOf, State.launchOf, advance_lidOf]
  congr 1
  have : (s.advance i).launch = s.launch := by funext l; simp only [State.launch, advance_launches]
  rw [this]

theorem advance_request (s : State) (i : Instr) (op a n x d q k b) :
    (s.advance i).request op a n x d q k b = s.request op a n x d q k b := by
  simp only [State.request, advance_cur, advance_lidOf, advance_xctxOf, advance_now, advance_ctx]

theorem advance_ea (s : State) (i : Instr) (b d n) : (s.advance i).ea b d n = s.ea b d n := by simp [State.ea]

theorem advance_localValue (s : State) (i : Instr) (a n x) : (s.advance i).localValue a n x = s.localValue a n x := by
  simp only [State.localValue, advance_cur, advance_localRead]

theorem advance_window (s : State) (i : Instr) (k : Nat) : ((s.advance i).ctx s.cur).window k = (s.ctx s.cur).window k := by rw [advance_ctx]; rfl

theorem advance_queuedWords (s : State) (i : Instr) (w : Nat) : (s.advance i).queuedWords s.cur w = s.queuedWords s.cur w := by
  simp only [State.queuedWords, State.engine, State.die, State.quad, advance_dies, advance_quads, advance_ctx]

theorem advance_winCount (s : State) (i : Instr) (w : Window) : (s.advance i).winCount s.cur w = s.winCount s.cur w := by
  simp only [State.winCount, advance_winEntries, advance_queuedWords]

theorem advance_launch (s : State) (i : Instr) (l : Nat) : (s.advance i).launch l = s.launch l := by simp only [State.launch, advance_launches]

theorem advance_who (s : State) (i : Instr) : (s.advance i).who s.cur = s.who s.cur := by
  simp only [State.who, advance_lidOf, advance_xctxOf, advance_ctx]

theorem advance_launchOf (s : State) (i : Instr) : (s.advance i).launchOf s.cur = s.launchOf s.cur := by
  simp only [State.launchOf, advance_lidOf]; congr 1
  funext l; simp only [State.launch, advance_launches]

theorem advance_poolWord (s : State) (i : Instr) : (s.advance i).poolWord s.cur = s.poolWord s.cur := by
  have h : (s.advance i).launch = s.launch := by funext l; simp only [State.launch, advance_launches]
  simp only [State.poolWord, State.inOrdered, advance_launchOf, advance_lidOf, State.entriesOf, h, State.quad, advance_quads, State.halfOf, advance_hub]; try rfl

/-! ### The checks of one instruction have let it pass -/

theorem own_go {s : State} {i : Instr} (hw : waitsForAnswer i = false) (h : s.verdict [i] = .go) : s.ownChecks i = .go := by
  exact ((opChecks_eq_go s i hw).mp ((verdict_eq_go s i).mp h).2.2.2.2.2).2.2.2.2.1

/-! ### Loads, stores and atomics -/

/-- The value of a local scalar load (08 R257). -/
theorem localValue_scalar (s : State) (a : Word) (n : Nat) (x : Nat) (hn : 8 * n ≤ 64) (hn0 : 0 < n)
    (hx : x = s.localRead (coreOf s.cur) (a.toNat % 2 ^ 20) n) (sx : Bool) :
    (s.localValue a n sx).setWidth 64 = if sx then BitVec.ofInt 64 (BitVec.ofNat (8 * n) x).toInt else BitVec.ofNat 64 x := by
  subst hx
  have hlt := localRead_lt s (coreOf s.cur) (a.toNat % 2 ^ 20) n
  simp only [State.localValue]
  generalize s.localRead (coreOf s.cur) (a.toNat % 2 ^ 20) n = x at *
  cases sx
  · simp [extend, Nat.mod_eq_of_lt hlt]
  · have hv : valInt ⟨8 * n, true⟩ x = (BitVec.ofNat (8 * n) x).toInt := by
      simp only [valInt, Nat.mod_eq_of_lt hlt, BitVec.toInt_eq_toNat_cond, BitVec.toNat_ofNat]
      have : 2 ^ (8 * n) = 2 * 2 ^ (8 * n - 1) := by rw [← Nat.pow_succ']; congr 1; omega
      simp only [Bool.true_and, decide_eq_true_eq]
      split <;> split <;> first | rfl | omega
    simp only [extend, if_true, hv]
    generalize (BitVec.ofNat (8 * n) x).toInt = z
    apply BitVec.eq_of_toNat_eq
    simp [BitVec.toNat_ofInt]
    omega

theorem localValue_toNat (s : State) (a : Word) (n : Nat) (hn : n ≤ 16) : (s.localValue a n false).toNat = s.localRead (coreOf s.cur) (a.toNat % 2 ^ 20) n := by
  have h := localRead_lt s (coreOf s.cur) (a.toNat % 2 ^ 20) n
  simp only [State.localValue, extend, Bool.false_eq_true, if_false, BitVec.toNat_ofNat]
  rw [Nat.mod_eq_of_lt h, Nat.mod_eq_of_lt]
  exact Nat.lt_of_lt_of_le h (Nat.pow_le_pow_right (by omega) (by omega))

/-- What a scalar load does. -/
theorem loadScalar_spec {s : State} {i : Instr} {d : BitVec 5} {addr : State → Word} {n : Nat} {sx ad acq : Bool} {a : Word} {x : Nat}
    (he : exec i s = loadScalar i d addr n sx ad acq s) (ha : addr s = a) (ha' : addr (s.advance i) = a)
    (hn : 8 * n ≤ 64) (hn0 : 0 < n) (hx : x = s.localRead (coreOf s.cur) (a.toNat % 2 ^ 20) n) :
    (isLocal s.cur a = true → WritesThen s i d
        (if sx then BitVec.ofInt 64 (BitVec.ofNat (8 * n) x).toInt else BitVec.ofNat 64 x)
        (fun r => r.evc (coreOf s.cur) 11)) ∧
      (isLocal s.cur a = false → Does s i fun r =>
        (r.addProd (dstS d).dest 1 0 acq).sendAccess
          (s.request (.load sx) a n 0 (dstS d).dest (s.ctx s.cur).nextSeq none ad)) := by
  refine ⟨fun h => ?_, fun h => ?_⟩
  · rw [loadScalar] at he; simp only [ha, h, if_true] at he
    refine issueD_spec he ?_ ?_
    · simp only [ha', advance_localValue]; exact localValue_scalar s a n x hn hn0 hx sx
    · simp only [ha', advance_localValue, advance_cur, localValue_scalar s a n x hn hn0 hx sx]
  · rw [loadScalar] at he; simp only [ha, h] at he
    refine issue_spec (by simpa using he) ?_
    simp only [State.remoteLoad, ha', advance_request, advance_seqNow]

/-- What a store does. -/
theorem storeValue_spec {s : State} {i : Instr} {eff : State → State} {n : Nat} {x : VWord} {ad : Bool} {a : Word} 
    (he : exec i s = issue i eff s) (hf : eff (s.advance i) = (s.advance i).storeValue a n x ad) :
      (isLocal s.cur a = true → Does s i fun r => (r.modCore (coreOf s.cur) fun k => { k with
        stbuf := k.stbuf ++ [{ th := s.cur, off := a.toNat % 2 ^ 20, size := n, data := x, since := k.cycle }] }).evc (coreOf s.cur) 11) ∧
      (isLocal s.cur a = false → Does s i fun r =>
        (r.takeSeq.count s.cur (classOf s.cur a)).sendAccess
          (s.request .store a n x .none (s.ctx s.cur).nextSeq (some (classOf s.cur a)) ad)) := by
  refine ⟨fun h => issue_spec he ?_, fun h => issue_spec he ?_⟩
  · rw [hf]; simp only [State.storeValue, advance_cur, h, if_true]
  · rw [hf]; simp only [State.storeValue, advance_cur, h, advance_request, advance_seqNow]; rfl

/-- What an atomic does: at the core's own scratchpad it is performed at once, elsewhere it is sent. -/
theorem atomic_spec {s : State} {i : Instr} {op : Nat} {d a b : BitVec 5} {n : Nat} {ad : Bool} {cmp : Word} {r : Req}
    (he : exec i s = atomic i op d a b n ad s) (hc : (if op = 9 then s.S d else 0) = cmp)
    (hr : r = { s.request (.amo op) (s.S a) n ((s.S b).setWidth 128) (dstS d).dest (s.ctx s.cur).nextSeq none ad with
      cmp := cmp, start := (s.ctx s.cur).lostAt.getD
        (s.request (.amo op) (s.S a) n ((s.S b).setWidth 128) (dstS d).dest (s.ctx s.cur).nextSeq none ad).start }) :
    (isLocal s.cur (s.S a) = true → Does s i fun q => (q.addProd (dstS d).dest 1 0 false).amoHere r op) ∧
      (isLocal s.cur (s.S a) = false → Does s i fun q => (q.addProd (dstS d).dest 1 0 false).sendAccess r) := by
  have ha : r.addr = s.S a := by rw [hr]; rfl
  have e : (fun s => (fun r => if isLocal s.cur r.addr then (s.addProd (dstS d).dest 1 0 false).amoHere r op
      else (s.addProd (dstS d).dest 1 0 false).sendAccess r)
      { s.request (.amo op) (s.S a) n ((s.S b).setWidth 128) (dstS d).dest s.seqNow none ad with
        cmp := if op = 9 then s.S d else 0, start := (s.ctx s.cur).lostAt.getD (s.request (.amo op) (s.S a) n
          ((s.S b).setWidth 128) (dstS d).dest s.seqNow none ad).start }) (s.advance i) =
      if isLocal s.cur r.addr then ((s.advance i).addProd (dstS d).dest 1 0 false).amoHere r op
      else ((s.advance i).addProd (dstS d).dest 1 0 false).sendAccess r := by
    simp only [advance_request, advance_S, advance_seqNow, advance_cur, advance_lostAt, hc, ← hr]
    rw [ha]; rfl
  refine ⟨fun h => issue_spec he (e.trans ?_), fun h => issue_spec he (e.trans ?_)⟩ <;> simp [ha, h]

/-! ### Every instruction of a thread is issued -/

/-- `i` is performed through `issue`, or through `issueD`. -/
def Issued (s : State) (i : Instr) : Prop :=
  (∃ eff, exec i s = issue i eff s) ∨ ∃ d val eff, exec i s = issueD i d val eff s

theorem issued_add (d : BitVec 5) (a : BitVec 5) (t : BitVec 1) (b : BitVec 5) (u : BitVec 1) (s : State) : Issued s (.add d a t b u) := by
  rw [Issued, exec_add, execAdd]; exact .inr ⟨_, _, _, rfl⟩
theorem issued_sub (d : BitVec 5) (a : BitVec 5) (t : BitVec 1) (b : BitVec 5) (u : BitVec 1) (s : State) : Issued s (.sub d a t b u) := by
  rw [Issued, exec_sub, execSub]; exact .inr ⟨_, _, _, rfl⟩
theorem issued_and (d : BitVec 5) (a : BitVec 5) (t : BitVec 1) (b : BitVec 5) (u : BitVec 1) (s : State) : Issued s (.and d a t b u) := by
  rw [Issued, exec_and, execAnd]; exact .inr ⟨_, _, _, rfl⟩
theorem issued_or (d : BitVec 5) (a : BitVec 5) (t : BitVec 1) (b : BitVec 5) (u : BitVec 1) (s : State) : Issued s (.or d a t b u) := by
  rw [Issued, exec_or, execOr]; exact .inr ⟨_, _, _, rfl⟩
theorem issued_xor (d : BitVec 5) (a : BitVec 5) (t : BitVec 1) (b : BitVec 5) (u : BitVec 1) (s : State) : Issued s (.xor d a t b u) := by
  rw [Issued, exec_xor, execXor]; exact .inr ⟨_, _, _, rfl⟩
theorem issued_andn (d : BitVec 5) (a : BitVec 5) (t : BitVec 1) (b : BitVec 5) (u : BitVec 1) (s : State) : Issued s (.andn d a t b u) := by
  rw [Issued, exec_andn, execAndn]; exact .inr ⟨_, _, _, rfl⟩
theorem issued_sll (d : BitVec 5) (a : BitVec 5) (t : BitVec 1) (b : BitVec 5) (u : BitVec 1) (s : State) : Issued s (.sll d a t b u) := by
  rw [Issued, exec_sll, execSll]; exact .inr ⟨_, _, _, rfl⟩
theorem issued_srl (d : BitVec 5) (a : BitVec 5) (t : BitVec 1) (b : BitVec 5) (u : BitVec 1) (s : State) : Issued s (.srl d a t b u) := by
  rw [Issued, exec_srl, execSrl]; exact .inr ⟨_, _, _, rfl⟩
theorem issued_sra (d : BitVec 5) (a : BitVec 5) (t : BitVec 1) (b : BitVec 5) (u : BitVec 1) (s : State) : Issued s (.sra d a t b u) := by
  rw [Issued, exec_sra, execSra]; exact .inr ⟨_, _, _, rfl⟩
theorem issued_slt (d : BitVec 5) (a : BitVec 5) (t : BitVec 1) (b : BitVec 5) (u : BitVec 1) (s : State) : Issued s (.slt d a t b u) := by
  rw [Issued, exec_slt, execSlt]; exact .inr ⟨_, _, _, rfl⟩
theorem issued_sltn (d : BitVec 5) (a : BitVec 5) (t : BitVec 1) (b : BitVec 5) (u : BitVec 1) (s : State) : Issued s (.sltn d a t b u) := by
  rw [Issued, exec_sltn, execSltn]; exact .inr ⟨_, _, _, rfl⟩
theorem issued_min (d : BitVec 5) (a : BitVec 5) (t : BitVec 1) (b : BitVec 5) (u : BitVec 1) (s : State) : Issued s (.min d a t b u) := by
  rw [Issued, exec_min, execMin]; exact .inr ⟨_, _, _, rfl⟩
theorem issued_max (d : BitVec 5) (a : BitVec 5) (t : BitVec 1) (b : BitVec 5) (u : BitVec 1) (s : State) : Issued s (.max d a t b u) := by
  rw [Issued, exec_max, execMax]; exact .inr ⟨_, _, _, rfl⟩
theorem issued_minn (d : BitVec 5) (a : BitVec 5) (t : BitVec 1) (b : BitVec 5) (u : BitVec 1) (s : State) : Issued s (.minn d a t b u) := by
  rw [Issued, exec_minn, execMinn]; exact .inr ⟨_, _, _, rfl⟩
theorem issued_maxn (d : BitVec 5) (a : BitVec 5) (t : BitVec 1) (b : BitVec 5) (u : BitVec 1) (s : State) : Issued s (.maxn d a t b u) := by
  rw [Issued, exec_maxn, execMaxn]; exact .inr ⟨_, _, _, rfl⟩
theorem issued_lea (d : BitVec 5) (a : BitVec 5) (t : BitVec 1) (b : BitVec 5) (u : BitVec 1) (k : BitVec 3) (s : State) : Issued s (.lea d a t b u k) := by
  rw [Issued, exec_lea, execLea]; exact .inr ⟨_, _, _, rfl⟩
theorem issued_mul (d : BitVec 5) (a : BitVec 5) (t : BitVec 1) (b : BitVec 5) (u : BitVec 1) (s : State) : Issued s (.mul d a t b u) := by
  rw [Issued, exec_mul, execMul]; exact .inr ⟨_, _, _, rfl⟩
theorem issued_mulh (d : BitVec 5) (a : BitVec 5) (t : BitVec 1) (b : BitVec 5) (u : BitVec 1) (s : State) : Issued s (.mulh d a t b u) := by
  rw [Issued, exec_mulh, execMulh]; exact .inr ⟨_, _, _, rfl⟩
theorem issued_mulhn (d : BitVec 5) (a : BitVec 5) (t : BitVec 1) (b : BitVec 5) (u : BitVec 1) (s : State) : Issued s (.mulhn d a t b u) := by
  rw [Issued, exec_mulhn, execMulhn]; exact .inr ⟨_, _, _, rfl⟩
theorem issued_mulhsn (d : BitVec 5) (a : BitVec 5) (t : BitVec 1) (b : BitVec 5) (u : BitVec 1) (s : State) : Issued s (.mulhsn d a t b u) := by
  rw [Issued, exec_mulhsn, execMulhsn]; exact .inr ⟨_, _, _, rfl⟩
theorem issued_div (d : BitVec 5) (a : BitVec 5) (t : BitVec 1) (b : BitVec 5) (u : BitVec 1) (s : State) : Issued s (.div d a t b u) := by
  rw [Issued, exec_div, execDiv]; exact .inr ⟨_, _, _, rfl⟩
theorem issued_divn (d : BitVec 5) (a : BitVec 5) (t : BitVec 1) (b : BitVec 5) (u : BitVec 1) (s : State) : Issued s (.divn d a t b u) := by
  rw [Issued, exec_divn, execDivn]; exact .inr ⟨_, _, _, rfl⟩
theorem issued_rem (d : BitVec 5) (a : BitVec 5) (t : BitVec 1) (b : BitVec 5) (u : BitVec 1) (s : State) : Issued s (.rem d a t b u) := by
  rw [Issued, exec_rem, execRem]; exact .inr ⟨_, _, _, rfl⟩
theorem issued_remn (d : BitVec 5) (a : BitVec 5) (t : BitVec 1) (b : BitVec 5) (u : BitVec 1) (s : State) : Issued s (.remn d a t b u) := by
  rw [Issued, exec_remn, execRemn]; exact .inr ⟨_, _, _, rfl⟩
theorem issued_clz (d : BitVec 5) (a : BitVec 5) (t : BitVec 1) (s : State) : Issued s (.clz d a t) := by
  rw [Issued, exec_clz, execClz]; exact .inr ⟨_, _, _, rfl⟩
theorem issued_ctz (d : BitVec 5) (a : BitVec 5) (t : BitVec 1) (s : State) : Issued s (.ctz d a t) := by
  rw [Issued, exec_ctz, execCtz]; exact .inr ⟨_, _, _, rfl⟩
theorem issued_popc (d : BitVec 5) (a : BitVec 5) (t : BitVec 1) (s : State) : Issued s (.popc d a t) := by
  rw [Issued, exec_popc, execPopc]; exact .inr ⟨_, _, _, rfl⟩
theorem issued_sel (d : BitVec 5) (a : BitVec 5) (t : BitVec 1) (b : BitVec 5) (u : BitVec 1) (s : State) : Issued s (.sel d a t b u) := by
  rw [Issued, exec_sel, execSel]; exact .inr ⟨_, _, _, rfl⟩
theorem issued_bext (d : BitVec 5) (a : BitVec 5) (t : BitVec 1) (b : BitVec 5) (u : BitVec 1) (s : State) : Issued s (.bext d a t b u) := by
  rw [Issued, exec_bext, execBext]; exact .inr ⟨_, _, _, rfl⟩
theorem issued_bexts (d : BitVec 5) (a : BitVec 5) (t : BitVec 1) (b : BitVec 5) (u : BitVec 1) (s : State) : Issued s (.bexts d a t b u) := by
  rw [Issued, exec_bexts, execBexts]; exact .inr ⟨_, _, _, rfl⟩
theorem issued_bins (d : BitVec 5) (a : BitVec 5) (t : BitVec 1) (b : BitVec 5) (u : BitVec 1) (s : State) : Issued s (.bins d a t b u) := by
  rw [Issued, exec_bins, execBins]; exact .inr ⟨_, _, _, rfl⟩
theorem issued_jr (a : BitVec 5) (t : BitVec 1) (s : State) : Issued s (.jr a t) := by
  rw [Issued, exec_jr, execJr]; exact .inl ⟨_, rfl⟩
theorem issued_callr (d : BitVec 5) (a : BitVec 5) (t : BitVec 1) (s : State) : Issued s (.callr d a t) := by
  rw [Issued, exec_callr, execCallr]; exact .inr ⟨_, _, _, rfl⟩
theorem issued_lpset (a : BitVec 5) (t : BitVec 1) (s : State) : Issued s (.lpset a t) := by
  rw [Issued, exec_lpset, execLpset]; exact .inl ⟨_, rfl⟩
theorem issued_lpidx (d : BitVec 5) (l : BitVec 2) (s : State) : Issued s (.lpidx d l) := by
  rw [Issued, exec_lpidx, execLpidx]; exact .inr ⟨_, _, _, rfl⟩
theorem issued_lpaddr (d : BitVec 5) (l : BitVec 2) (s : State) : Issued s (.lpaddr d l) := by
  rw [Issued, exec_lpaddr, execLpaddr]; exact .inr ⟨_, _, _, rfl⟩
theorem issued_addi (d : BitVec 5) (a : BitVec 5) (t : BitVec 1) (i : BitVec 15) (s : State) : Issued s (.addi d a t i) := by
  rw [Issued, exec_addi, execAddi]; exact .inr ⟨_, _, _, rfl⟩
theorem issued_andi (d : BitVec 5) (a : BitVec 5) (t : BitVec 1) (i : BitVec 15) (s : State) : Issued s (.andi d a t i) := by
  rw [Issued, exec_andi, execAndi]; exact .inr ⟨_, _, _, rfl⟩
theorem issued_ori (d : BitVec 5) (a : BitVec 5) (t : BitVec 1) (i : BitVec 15) (s : State) : Issued s (.ori d a t i) := by
  rw [Issued, exec_ori, execOri]; exact .inr ⟨_, _, _, rfl⟩
theorem issued_xori (d : BitVec 5) (a : BitVec 5) (t : BitVec 1) (i : BitVec 15) (s : State) : Issued s (.xori d a t i) := by
  rw [Issued, exec_xori, execXori]; exact .inr ⟨_, _, _, rfl⟩
theorem issued_slti (d : BitVec 5) (a : BitVec 5) (t : BitVec 1) (i : BitVec 15) (s : State) : Issued s (.slti d a t i) := by
  rw [Issued, exec_slti, execSlti]; exact .inr ⟨_, _, _, rfl⟩
theorem issued_sltni (d : BitVec 5) (a : BitVec 5) (t : BitVec 1) (i : BitVec 15) (s : State) : Issued s (.sltni d a t i) := by
  rw [Issued, exec_sltni, execSltni]; exact .inr ⟨_, _, _, rfl⟩
theorem issued_slli (d : BitVec 5) (a : BitVec 5) (t : BitVec 1) (n : BitVec 6) (s : State) : Issued s (.slli d a t n) := by
  rw [Issued, exec_slli, execSlli]; exact .inr ⟨_, _, _, rfl⟩
theorem issued_srli (d : BitVec 5) (a : BitVec 5) (t : BitVec 1) (n : BitVec 6) (s : State) : Issued s (.srli d a t n) := by
  rw [Issued, exec_srli, execSrli]; exact .inr ⟨_, _, _, rfl⟩
theorem issued_srai (d : BitVec 5) (a : BitVec 5) (t : BitVec 1) (n : BitVec 6) (s : State) : Issued s (.srai d a t n) := by
  rw [Issued, exec_srai, execSrai]; exact .inr ⟨_, _, _, rfl⟩
theorem issued_cadr (d : BitVec 5) (a : BitVec 5) (t : BitVec 1) (g : BitVec 3) (x : BitVec 4) (y : BitVec 4) (c : BitVec 2) (s : State) : Issued s (.cadr d a t g x y c) := by
  rw [Issued, exec_cadr, execCadr]; exact .inr ⟨_, _, _, rfl⟩
theorem issued_trap (n : BitVec 15) (s : State) : Issued s (.trap n) := by
  rw [Issued, exec_trap, execTrap]; exact .inl ⟨_, rfl⟩
theorem issued_ctlr (d : BitVec 5) (i : BitVec 12) (s : State) : Issued s (.ctlr d i) := by
  rw [Issued, exec_ctlr, execCtlr]; exact .inr ⟨_, _, _, rfl⟩
theorem issued_ctlw (a : BitVec 5) (t : BitVec 1) (i : BitVec 12) (s : State) : Issued s (.ctlw a t i) := by
  rw [Issued, exec_ctlw, execCtlw]; exact .inl ⟨_, rfl⟩
theorem issued_beq (a : BitVec 5) (t : BitVec 1) (b : BitVec 5) (u : BitVec 1) (o : BitVec 14) (s : State) : Issued s (.beq a t b u o) := by
  rw [Issued, exec_beq, execBeq]; exact .inl ⟨_, rfl⟩
theorem issued_bne (a : BitVec 5) (t : BitVec 1) (b : BitVec 5) (u : BitVec 1) (o : BitVec 14) (s : State) : Issued s (.bne a t b u o) := by
  rw [Issued, exec_bne, execBne]; exact .inl ⟨_, rfl⟩
theorem issued_blt (a : BitVec 5) (t : BitVec 1) (b : BitVec 5) (u : BitVec 1) (o : BitVec 14) (s : State) : Issued s (.blt a t b u o) := by
  rw [Issued, exec_blt, execBlt]; exact .inl ⟨_, rfl⟩
theorem issued_bge (a : BitVec 5) (t : BitVec 1) (b : BitVec 5) (u : BitVec 1) (o : BitVec 14) (s : State) : Issued s (.bge a t b u o) := by
  rw [Issued, exec_bge, execBge]; exact .inl ⟨_, rfl⟩
theorem issued_bltn (a : BitVec 5) (t : BitVec 1) (b : BitVec 5) (u : BitVec 1) (o : BitVec 14) (s : State) : Issued s (.bltn a t b u o) := by
  rw [Issued, exec_bltn, execBltn]; exact .inl ⟨_, rfl⟩
theorem issued_bgen (a : BitVec 5) (t : BitVec 1) (b : BitVec 5) (u : BitVec 1) (o : BitVec 14) (s : State) : Issued s (.bgen a t b u o) := by
  rw [Issued, exec_bgen, execBgen]; exact .inl ⟨_, rfl⟩
theorem issued_lpnext (l : BitVec 2) (o : BitVec 14) (s : State) : Issued s (.lpnext l o) := by
  rw [Issued, exec_lpnext, execLpnext]; exact .inl ⟨_, rfl⟩
theorem issued_ldN8 (d : BitVec 5) (b : BitVec 5) (t : BitVec 1) (w : BitVec 2) (r : BitVec 1) (p : BitVec 12) (s : State) : Issued s (.ldN8 d b t w r p) := by
  rw [Issued, exec_ldN8, execLdN8, loadScalar]; dsimp only; split
  · exact .inr ⟨_, _, _, rfl⟩
  · exact .inl ⟨_, rfl⟩
theorem issued_ldN16 (d : BitVec 5) (b : BitVec 5) (t : BitVec 1) (w : BitVec 2) (r : BitVec 1) (p : BitVec 12) (s : State) : Issued s (.ldN16 d b t w r p) := by
  rw [Issued, exec_ldN16, execLdN16, loadScalar]; dsimp only; split
  · exact .inr ⟨_, _, _, rfl⟩
  · exact .inl ⟨_, rfl⟩
theorem issued_ldN32 (d : BitVec 5) (b : BitVec 5) (t : BitVec 1) (w : BitVec 2) (r : BitVec 1) (p : BitVec 12) (s : State) : Issued s (.ldN32 d b t w r p) := by
  rw [Issued, exec_ldN32, execLdN32, loadScalar]; dsimp only; split
  · exact .inr ⟨_, _, _, rfl⟩
  · exact .inl ⟨_, rfl⟩
theorem issued_ld64 (d : BitVec 5) (b : BitVec 5) (t : BitVec 1) (w : BitVec 2) (r : BitVec 1) (p : BitVec 12) (s : State) : Issued s (.ld64 d b t w r p) := by
  rw [Issued, exec_ld64, execLd64, loadScalar]; dsimp only; split
  · exact .inr ⟨_, _, _, rfl⟩
  · exact .inl ⟨_, rfl⟩
theorem issued_ldS8 (d : BitVec 5) (b : BitVec 5) (t : BitVec 1) (w : BitVec 2) (r : BitVec 1) (p : BitVec 12) (s : State) : Issued s (.ldS8 d b t w r p) := by
  rw [Issued, exec_ldS8, execLdS8, loadScalar]; dsimp only; split
  · exact .inr ⟨_, _, _, rfl⟩
  · exact .inl ⟨_, rfl⟩
theorem issued_ldS16 (d : BitVec 5) (b : BitVec 5) (t : BitVec 1) (w : BitVec 2) (r : BitVec 1) (p : BitVec 12) (s : State) : Issued s (.ldS16 d b t w r p) := by
  rw [Issued, exec_ldS16, execLdS16, loadScalar]; dsimp only; split
  · exact .inr ⟨_, _, _, rfl⟩
  · exact .inl ⟨_, rfl⟩
theorem issued_ldS32 (d : BitVec 5) (b : BitVec 5) (t : BitVec 1) (w : BitVec 2) (r : BitVec 1) (p : BitVec 12) (s : State) : Issued s (.ldS32 d b t w r p) := by
  rw [Issued, exec_ldS32, execLdS32, loadScalar]; dsimp only; split
  · exact .inr ⟨_, _, _, rfl⟩
  · exact .inl ⟨_, rfl⟩
theorem issued_vld (v : BitVec 5) (b : BitVec 5) (t : BitVec 1) (w : BitVec 2) (r : BitVec 1) (x : BitVec 1) (p : BitVec 11) (s : State) : Issued s (.vld v b t w r x p) := by
  rw [Issued, exec_vld, execVld]; exact .inl ⟨_, rfl⟩
theorem issued_st8 (d : BitVec 5) (b : BitVec 5) (t : BitVec 1) (w : BitVec 2) (r : BitVec 1) (p : BitVec 12) (s : State) : Issued s (.st8 d b t w r p) := by
  rw [Issued, exec_st8, execSt8]; exact .inl ⟨_, rfl⟩
theorem issued_st16 (d : BitVec 5) (b : BitVec 5) (t : BitVec 1) (w : BitVec 2) (r : BitVec 1) (p : BitVec 12) (s : State) : Issued s (.st16 d b t w r p) := by
  rw [Issued, exec_st16, execSt16]; exact .inl ⟨_, rfl⟩
theorem issued_st32 (d : BitVec 5) (b : BitVec 5) (t : BitVec 1) (w : BitVec 2) (r : BitVec 1) (p : BitVec 12) (s : State) : Issued s (.st32 d b t w r p) := by
  rw [Issued, exec_st32, execSt32]; exact .inl ⟨_, rfl⟩
theorem issued_st64 (d : BitVec 5) (b : BitVec 5) (t : BitVec 1) (w : BitVec 2) (r : BitVec 1) (p : BitVec 12) (s : State) : Issued s (.st64 d b t w r p) := by
  rw [Issued, exec_st64, execSt64]; exact .inl ⟨_, rfl⟩
theorem issued_vst (v : BitVec 5) (b : BitVec 5) (t : BitVec 1) (w : BitVec 2) (r : BitVec 1) (x : BitVec 1) (p : BitVec 11) (s : State) : Issued s (.vst v b t w r x p) := by
  rw [Issued, exec_vst, execVst]; exact .inl ⟨_, rfl⟩
theorem issued_ldAcq32 (d : BitVec 5) (b : BitVec 5) (t : BitVec 1) (s1 : BitVec 3) (p : BitVec 12) (s : State) : Issued s (.ldAcq32 d b t s1 p) := by
  rw [Issued, exec_ldAcq32, execLdAcq32, loadScalar]; dsimp only; split
  · exact .inr ⟨_, _, _, rfl⟩
  · exact .inl ⟨_, rfl⟩
theorem issued_ldAcq64 (d : BitVec 5) (b : BitVec 5) (t : BitVec 1) (s1 : BitVec 3) (p : BitVec 12) (s : State) : Issued s (.ldAcq64 d b t s1 p) := by
  rw [Issued, exec_ldAcq64, execLdAcq64, loadScalar]; dsimp only; split
  · exact .inr ⟨_, _, _, rfl⟩
  · exact .inl ⟨_, rfl⟩
theorem issued_stRel32 (d : BitVec 5) (b : BitVec 5) (t : BitVec 1) (s1 : BitVec 3) (p : BitVec 12) (s : State) : Issued s (.stRel32 d b t s1 p) := by
  rw [Issued, exec_stRel32, execStRel32]; exact .inl ⟨_, rfl⟩
theorem issued_stRel64 (d : BitVec 5) (b : BitVec 5) (t : BitVec 1) (s1 : BitVec 3) (p : BitVec 12) (s : State) : Issued s (.stRel64 d b t s1 p) := by
  rw [Issued, exec_stRel64, execStRel64]; exact .inl ⟨_, rfl⟩
theorem issued_ldfe (d : BitVec 5) (b : BitVec 5) (t : BitVec 1) (w : BitVec 2) (r : BitVec 1) (p : BitVec 12) (s : State) : Issued s (.ldfe d b t w r p) := by
  rw [Issued, exec_ldfe, execLdfe, issueAnswer]; exact .inr ⟨_, _, _, rfl⟩
theorem issued_stef (d : BitVec 5) (b : BitVec 5) (t : BitVec 1) (w : BitVec 2) (r : BitVec 1) (p : BitVec 12) (s : State) : Issued s (.stef d b t w r p) := by
  rw [Issued, exec_stef, execStef]; exact .inl ⟨_, rfl⟩
theorem issued_ldPw (d : BitVec 5) (b : BitVec 5) (t : BitVec 1) (w : BitVec 2) (r : BitVec 1) (p : BitVec 12) (s : State) : Issued s (.ldPw d b t w r p) := by
  rw [Issued, exec_ldPw, execLdPw, issueAnswer]; exact .inr ⟨_, _, _, rfl⟩
theorem issued_vlds (v : BitVec 5) (a : BitVec 5) (t : BitVec 1) (b : BitVec 5) (u : BitVec 1) (x : BitVec 1) (w : BitVec 2) (r : BitVec 1) (z : BitVec 2) (s : State) : Issued s (.vlds v a t b u x w r z) := by
  rw [Issued, exec_vlds, execVlds]; exact .inl ⟨_, rfl⟩
theorem issued_vldx (v : BitVec 5) (a : BitVec 5) (t : BitVec 1) (b : BitVec 5) (u : BitVec 1) (x : BitVec 1) (w : BitVec 2) (r : BitVec 1) (s : State) : Issued s (.vldx v a t b u x w r) := by
  rw [Issued, exec_vldx, execVldx]; exact .inl ⟨_, rfl⟩
theorem issued_mwait (k : BitVec 2) (s : State) : Issued s (.mwait k) := by
  rw [Issued, exec_mwait, execMwait]; exact .inl ⟨_, rfl⟩
theorem issued_qbind (a : BitVec 5) (t : BitVec 1) (k : BitVec 2) (s : State) : Issued s (.qbind a t k) := by
  rw [Issued, exec_qbind, execQbind]; exact .inl ⟨_, rfl⟩
theorem issued_qunbind (k : BitVec 2) (s : State) : Issued s (.qunbind k) := by
  rw [Issued, exec_qunbind, execQunbind]; exact .inl ⟨_, rfl⟩
theorem issued_qstat (d : BitVec 5) (k : BitVec 2) (s : State) : Issued s (.qstat d k) := by
  rw [Issued, exec_qstat, execQstat]; exact .inr ⟨_, _, _, rfl⟩
theorem issued_qpeek (d : BitVec 5) (k : BitVec 2) (s : State) : Issued s (.qpeek d k) := by
  rw [Issued, exec_qpeek, execQpeek]; exact .inr ⟨_, _, _, rfl⟩
theorem issued_vqpush (v : BitVec 5) (t : BitVec 1) (x : BitVec 1) (k : BitVec 2) (s : State) : Issued s (.vqpush v t x k) := by
  rw [Issued, exec_vqpush, execVqpush]; exact .inl ⟨_, rfl⟩
theorem issued_vqpop (v : BitVec 5) (x : BitVec 1) (k : BitVec 2) (s : State) : Issued s (.vqpop v x k) := by
  rw [Issued, exec_vqpop, execVqpop]; exact .inl ⟨_, rfl⟩
theorem issued_qcfgr (d : BitVec 5) (a : BitVec 5) (t : BitVec 1) (s : State) : Issued s (.qcfgr d a t) := by
  rw [Issued, exec_qcfgr, execQcfgr]; exact .inr ⟨_, _, _, rfl⟩
theorem issued_qcfgw (a : BitVec 5) (t : BitVec 1) (b : BitVec 5) (u : BitVec 1) (s : State) : Issued s (.qcfgw a t b u) := by
  rw [Issued, exec_qcfgw, execQcfgw]; exact .inl ⟨_, rfl⟩
theorem issued_ttag (d : BitVec 5) (a : BitVec 5) (t : BitVec 1) (b : BitVec 5) (u : BitVec 1) (s : State) : Issued s (.ttag d a t b u) := by
  rw [Issued, exec_ttag, execTtag]; exact .inr ⟨_, _, _, rfl⟩
theorem issued_tfld (d : BitVec 5) (a : BitVec 5) (t : BitVec 1) (f : BitVec 3) (s : State) : Issued s (.tfld d a t f) := by
  rw [Issued, exec_tfld, execTfld]; exact .inr ⟨_, _, _, rfl⟩
theorem issued_tins (a : BitVec 5) (t : BitVec 1) (b : BitVec 5) (u : BitVec 1) (s : State) : Issued s (.tins a t b u) := by
  rw [Issued, exec_tins, execTins]; exact .inl ⟨_, rfl⟩
theorem issued_tinsd (a : BitVec 5) (t : BitVec 1) (b : BitVec 5) (u : BitVec 1) (s : State) : Issued s (.tinsd a t b u) := by
  rw [Issued, exec_tinsd, execTinsd]; exact .inl ⟨_, rfl⟩
theorem issued_tgen (d : BitVec 5) (s : State) : Issued s (.tgen d) := by
  rw [Issued, exec_tgen, execTgen]; exact .inr ⟨_, _, _, rfl⟩
theorem issued_covQ (d : BitVec 5) (a : BitVec 5) (t : BitVec 1) (s : State) : Issued s (.covQ d a t) := by
  rw [Issued, exec_covQ, execCovQ]; exact .inr ⟨_, _, _, rfl⟩
theorem issued_covRd (d : BitVec 5) (i : BitVec 3) (s : State) : Issued s (.covRd d i) := by
  rw [Issued, exec_covRd, execCovRd]; exact .inr ⟨_, _, _, rfl⟩
theorem issued_poolCnt (d : BitVec 5) (s : State) : Issued s (.poolCnt d) := by
  rw [Issued, exec_poolCnt, execPoolCnt]; exact .inr ⟨_, _, _, rfl⟩
theorem issued_amoAdd (d : BitVec 5) (a : BitVec 5) (t : BitVec 1) (b : BitVec 5) (u : BitVec 1) (l : BitVec 1) (r : BitVec 1) (w : BitVec 2) (s : State) : Issued s (.amoAdd d a t b u l r w) := by
  rw [Issued, exec_amoAdd, execAmoAdd]; exact .inl ⟨_, rfl⟩
theorem issued_amoAnd (d : BitVec 5) (a : BitVec 5) (t : BitVec 1) (b : BitVec 5) (u : BitVec 1) (l : BitVec 1) (r : BitVec 1) (w : BitVec 2) (s : State) : Issued s (.amoAnd d a t b u l r w) := by
  rw [Issued, exec_amoAnd, execAmoAnd]; exact .inl ⟨_, rfl⟩
theorem issued_amoOr (d : BitVec 5) (a : BitVec 5) (t : BitVec 1) (b : BitVec 5) (u : BitVec 1) (l : BitVec 1) (r : BitVec 1) (w : BitVec 2) (s : State) : Issued s (.amoOr d a t b u l r w) := by
  rw [Issued, exec_amoOr, execAmoOr]; exact .inl ⟨_, rfl⟩
theorem issued_amoXor (d : BitVec 5) (a : BitVec 5) (t : BitVec 1) (b : BitVec 5) (u : BitVec 1) (l : BitVec 1) (r : BitVec 1) (w : BitVec 2) (s : State) : Issued s (.amoXor d a t b u l r w) := by
  rw [Issued, exec_amoXor, execAmoXor]; exact .inl ⟨_, rfl⟩
theorem issued_amoMin (d : BitVec 5) (a : BitVec 5) (t : BitVec 1) (b : BitVec 5) (u : BitVec 1) (l : BitVec 1) (r : BitVec 1) (w : BitVec 2) (s : State) : Issued s (.amoMin d a t b u l r w) := by
  rw [Issued, exec_amoMin, execAmoMin]; exact .inl ⟨_, rfl⟩
theorem issued_amoMax (d : BitVec 5) (a : BitVec 5) (t : BitVec 1) (b : BitVec 5) (u : BitVec 1) (l : BitVec 1) (r : BitVec 1) (w : BitVec 2) (s : State) : Issued s (.amoMax d a t b u l r w) := by
  rw [Issued, exec_amoMax, execAmoMax]; exact .inl ⟨_, rfl⟩
theorem issued_amoMinu (d : BitVec 5) (a : BitVec 5) (t : BitVec 1) (b : BitVec 5) (u : BitVec 1) (l : BitVec 1) (r : BitVec 1) (w : BitVec 2) (s : State) : Issued s (.amoMinu d a t b u l r w) := by
  rw [Issued, exec_amoMinu, execAmoMinu]; exact .inl ⟨_, rfl⟩
theorem issued_amoMaxu (d : BitVec 5) (a : BitVec 5) (t : BitVec 1) (b : BitVec 5) (u : BitVec 1) (l : BitVec 1) (r : BitVec 1) (w : BitVec 2) (s : State) : Issued s (.amoMaxu d a t b u l r w) := by
  rw [Issued, exec_amoMaxu, execAmoMaxu]; exact .inl ⟨_, rfl⟩
theorem issued_amoSwap (d : BitVec 5) (a : BitVec 5) (t : BitVec 1) (b : BitVec 5) (u : BitVec 1) (l : BitVec 1) (r : BitVec 1) (w : BitVec 2) (s : State) : Issued s (.amoSwap d a t b u l r w) := by
  rw [Issued, exec_amoSwap, execAmoSwap]; exact .inl ⟨_, rfl⟩
theorem issued_amoCas (d : BitVec 5) (a : BitVec 5) (t : BitVec 1) (b : BitVec 5) (u : BitVec 1) (l : BitVec 1) (r : BitVec 1) (w : BitVec 2) (s : State) : Issued s (.amoCas d a t b u l r w) := by
  rw [Issued, exec_amoCas, execAmoCas]; exact .inl ⟨_, rfl⟩
theorem issued_amoFaddF32 (d : BitVec 5) (a : BitVec 5) (t : BitVec 1) (b : BitVec 5) (u : BitVec 1) (r : BitVec 1) (w : BitVec 2) (s : State) : Issued s (.amoFaddF32 d a t b u r w) := by
  rw [Issued, exec_amoFaddF32, execAmoFaddF32]; exact .inl ⟨_, rfl⟩
theorem issued_amoInclt (d : BitVec 5) (a : BitVec 5) (t : BitVec 1) (b : BitVec 5) (u : BitVec 1) (l : BitVec 1) (r : BitVec 1) (w : BitVec 2) (s : State) : Issued s (.amoInclt d a t b u l r w) := by
  rw [Issued, exec_amoInclt, execAmoInclt]; exact .inl ⟨_, rfl⟩
theorem issued_joinInit (a : BitVec 5) (t : BitVec 1) (b : BitVec 5) (u : BitVec 1) (s : State) : Issued s (.joinInit a t b u) := by
  rw [Issued, exec_joinInit, execJoinInit]; exact .inl ⟨_, rfl⟩
theorem issued_joinArrive (a : BitVec 5) (t : BitVec 1) (b : BitVec 5) (u : BitVec 1) (s : State) : Issued s (.joinArrive a t b u) := by
  rw [Issued, exec_joinArrive, execJoinArrive]; exact .inl ⟨_, rfl⟩
theorem issued_ssigSet (a : BitVec 5) (t : BitVec 1) (b : BitVec 5) (u : BitVec 1) (s : State) : Issued s (.ssigSet a t b u) := by
  rw [Issued, exec_ssigSet, execSsigSet]; exact .inl ⟨_, rfl⟩
theorem issued_ssigAdd (a : BitVec 5) (t : BitVec 1) (b : BitVec 5) (u : BitVec 1) (s : State) : Issued s (.ssigAdd a t b u) := by
  rw [Issued, exec_ssigAdd, execSsigAdd]; exact .inl ⟨_, rfl⟩
theorem issued_swait (d : BitVec 5) (a : BitVec 5) (t : BitVec 1) (b : BitVec 5) (u : BitVec 1) (c : BitVec 3) (s : State) : Issued s (.swait d a t b u c) := by
  rw [Issued, exec_swait, execSwait, issueAnswer]; exact .inr ⟨_, _, _, rfl⟩
theorem issued_barrArr (l : BitVec 3) (i : BitVec 6) (s : State) : Issued s (.barrArr l i) := by
  rw [Issued, exec_barrArr, execBarrArr]; exact .inl ⟨_, rfl⟩
theorem issued_barrWait (l : BitVec 3) (i : BitVec 6) (s : State) : Issued s (.barrWait l i) := by
  rw [Issued, exec_barrWait, execBarrWait]; exact .inl ⟨_, rfl⟩
theorem issued_barrSync (l : BitVec 3) (i : BitVec 6) (s : State) : Issued s (.barrSync l i) := by
  rw [Issued, exec_barrSync, execBarrSync]; exact .inl ⟨_, rfl⟩
theorem issued_barrSyncCmb (a : BitVec 5) (t : BitVec 1) (l : BitVec 3) (i : BitVec 6) (s : State) : Issued s (.barrSyncCmb a t l i) := by
  rw [Issued, exec_barrSyncCmb, execBarrSyncCmb]; exact .inl ⟨_, rfl⟩
theorem issued_repart (m : BitVec 2) (s : State) : Issued s (.repart m) := by
  rw [Issued, exec_repart, execRepart]; exact .inl ⟨_, rfl⟩
theorem issued_slotw (a : BitVec 5) (t : BitVec 1) (s : State) : Issued s (.slotw a t) := by
  rw [Issued, exec_slotw, execSlotw]; exact .inl ⟨_, rfl⟩
theorem issued_sleep (a : BitVec 5) (t : BitVec 1) (s : State) : Issued s (.sleep a t) := by
  rw [Issued, exec_sleep, execSleep]; exact .inl ⟨_, rfl⟩
theorem issued_xlinv (a : BitVec 5) (t : BitVec 1) (b : BitVec 5) (u : BitVec 1) (s : State) : Issued s (.xlinv a t b u) := by
  rw [Issued, exec_xlinv, execXlinv]; exact .inl ⟨_, rfl⟩
theorem issued_ctxsv (a : BitVec 5) (t : BitVec 1) (b : BitVec 5) (u : BitVec 1) (s : State) : Issued s (.ctxsv a t b u) := by
  rw [Issued, exec_ctxsv, execCtxsv]; exact .inl ⟨_, rfl⟩
theorem issued_ctxld (a : BitVec 5) (t : BitVec 1) (b : BitVec 5) (u : BitVec 1) (s : State) : Issued s (.ctxld a t b u) := by
  rw [Issued, exec_ctxld, execCtxld]; exact .inl ⟨_, rfl⟩
theorem issued_telEv (a : BitVec 5) (t : BitVec 1) (b : BitVec 5) (u : BitVec 1) (s : State) : Issued s (.telEv a t b u) := by
  rw [Issued, exec_telEv, execTelEv]; exact .inl ⟨_, rfl⟩
theorem issued_lim (d : BitVec 5) (i : BitVec 48) (s : State) : Issued s (.lim d i) := by
  rw [Issued, exec_lim, execLim]; exact .inr ⟨_, _, _, rfl⟩
theorem issued_call (d : BitVec 5) (o : BitVec 32) (s : State) : Issued s (.call d o) := by
  rw [Issued, exec_call, execCall]; exact .inr ⟨_, _, _, rfl⟩
theorem issued_vcvtScaled (k : BitVec 10) (r : BitVec 2) (d : BitVec 6) (a : BitVec 6) (t : BitVec 1) (g : BitVec 6) (s1 : BitVec 6) (o : BitVec 1) (s : State) : Issued s (.vcvtScaled k r d a t g s1 o) := by
  rw [Issued, exec_vcvtScaled, execVcvtScaled]; exact .inl ⟨_, rfl⟩
theorem issued_spawn (b : BitVec 5) (a : BitVec 5) (t : BitVec 1) (h : BitVec 1) (l : BitVec 2) (o : BitVec 32) (s : State) : Issued s (.spawn b a t h l o) := by
  rw [Issued, exec_spawn, execSpawn]; exact .inl ⟨_, rfl⟩
theorem issued_vand (d : BitVec 6) (a : BitVec 6) (t : BitVec 1) (b : BitVec 6) (u : BitVec 1) (s : State) : Issued s (.vand d a t b u) := by
  rw [Issued, exec_vand, execVand]; exact .inl ⟨_, rfl⟩
theorem issued_vor (d : BitVec 6) (a : BitVec 6) (t : BitVec 1) (b : BitVec 6) (u : BitVec 1) (s : State) : Issued s (.vor d a t b u) := by
  rw [Issued, exec_vor, execVor]; exact .inl ⟨_, rfl⟩
theorem issued_vxor (d : BitVec 6) (a : BitVec 6) (t : BitVec 1) (b : BitVec 6) (u : BitVec 1) (s : State) : Issued s (.vxor d a t b u) := by
  rw [Issued, exec_vxor, execVxor]; exact .inl ⟨_, rfl⟩
theorem issued_vandn (d : BitVec 6) (a : BitVec 6) (t : BitVec 1) (b : BitVec 6) (u : BitVec 1) (s : State) : Issued s (.vandn d a t b u) := by
  rw [Issued, exec_vandn, execVandn]; exact .inl ⟨_, rfl⟩
theorem issued_vsel (d : BitVec 6) (a : BitVec 6) (t : BitVec 1) (b : BitVec 6) (u : BitVec 1) (s : State) : Issued s (.vsel d a t b u) := by
  rw [Issued, exec_vsel, execVsel]; exact .inl ⟨_, rfl⟩
theorem issued_vmov (d : BitVec 6) (a : BitVec 6) (t : BitVec 1) (s : State) : Issued s (.vmov d a t) := by
  rw [Issued, exec_vmov, execVmov]; exact .inl ⟨_, rfl⟩
theorem issued_vshuf (d : BitVec 6) (a : BitVec 6) (t : BitVec 1) (b : BitVec 6) (u : BitVec 1) (s : State) : Issued s (.vshuf d a t b u) := by
  rw [Issued, exec_vshuf, execVshuf]; exact .inl ⟨_, rfl⟩
theorem issued_vcrc (d : BitVec 6) (a : BitVec 6) (t : BitVec 1) (s : State) : Issued s (.vcrc d a t) := by
  rw [Issued, exec_vcrc, execVcrc]; exact .inl ⟨_, rfl⟩
theorem issued_vadd (d : BitVec 6) (a : BitVec 6) (t : BitVec 1) (b : BitVec 6) (u : BitVec 1) (y : BitVec 6) (s : State) : Issued s (.vadd d a t b u y) := by
  rw [Issued, exec_vadd, execVadd]; exact .inl ⟨_, rfl⟩
theorem issued_vsub (d : BitVec 6) (a : BitVec 6) (t : BitVec 1) (b : BitVec 6) (u : BitVec 1) (y : BitVec 6) (s : State) : Issued s (.vsub d a t b u y) := by
  rw [Issued, exec_vsub, execVsub]; exact .inl ⟨_, rfl⟩
theorem issued_vmul (d : BitVec 6) (a : BitVec 6) (t : BitVec 1) (b : BitVec 6) (u : BitVec 1) (y : BitVec 6) (s : State) : Issued s (.vmul d a t b u y) := by
  rw [Issued, exec_vmul, execVmul]; exact .inl ⟨_, rfl⟩
theorem issued_vmin (d : BitVec 6) (a : BitVec 6) (t : BitVec 1) (b : BitVec 6) (u : BitVec 1) (y : BitVec 6) (s : State) : Issued s (.vmin d a t b u y) := by
  rw [Issued, exec_vmin, execVmin]; exact .inl ⟨_, rfl⟩
theorem issued_vmax (d : BitVec 6) (a : BitVec 6) (t : BitVec 1) (b : BitVec 6) (u : BitVec 1) (y : BitVec 6) (s : State) : Issued s (.vmax d a t b u y) := by
  rw [Issued, exec_vmax, execVmax]; exact .inl ⟨_, rfl⟩
theorem issued_vfma (d : BitVec 6) (a : BitVec 6) (t : BitVec 1) (b : BitVec 6) (u : BitVec 1) (y : BitVec 6) (s : State) : Issued s (.vfma d a t b u y) := by
  rw [Issued, exec_vfma, execVfma]; exact .inl ⟨_, rfl⟩
theorem issued_vfms (d : BitVec 6) (a : BitVec 6) (t : BitVec 1) (b : BitVec 6) (u : BitVec 1) (y : BitVec 6) (s : State) : Issued s (.vfms d a t b u y) := by
  rw [Issued, exec_vfms, execVfms]; exact .inl ⟨_, rfl⟩
theorem issued_vabs (d : BitVec 6) (a : BitVec 6) (t : BitVec 1) (y : BitVec 6) (s : State) : Issued s (.vabs d a t y) := by
  rw [Issued, exec_vabs, execVabs]; exact .inl ⟨_, rfl⟩
theorem issued_vneg (d : BitVec 6) (a : BitVec 6) (t : BitVec 1) (y : BitVec 6) (s : State) : Issued s (.vneg d a t y) := by
  rw [Issued, exec_vneg, execVneg]; exact .inl ⟨_, rfl⟩
theorem issued_vclamp (d : BitVec 6) (a : BitVec 6) (t : BitVec 1) (b : BitVec 6) (u : BitVec 1) (y : BitVec 6) (s : State) : Issued s (.vclamp d a t b u y) := by
  rw [Issued, exec_vclamp, execVclamp]; exact .inl ⟨_, rfl⟩
theorem issued_vceq (d : BitVec 6) (a : BitVec 6) (t : BitVec 1) (b : BitVec 6) (u : BitVec 1) (y : BitVec 6) (s : State) : Issued s (.vceq d a t b u y) := by
  rw [Issued, exec_vceq, execVceq]; exact .inl ⟨_, rfl⟩
theorem issued_vcne (d : BitVec 6) (a : BitVec 6) (t : BitVec 1) (b : BitVec 6) (u : BitVec 1) (y : BitVec 6) (s : State) : Issued s (.vcne d a t b u y) := by
  rw [Issued, exec_vcne, execVcne]; exact .inl ⟨_, rfl⟩
theorem issued_vclt (d : BitVec 6) (a : BitVec 6) (t : BitVec 1) (b : BitVec 6) (u : BitVec 1) (y : BitVec 6) (s : State) : Issued s (.vclt d a t b u y) := by
  rw [Issued, exec_vclt, execVclt]; exact .inl ⟨_, rfl⟩
theorem issued_vcle (d : BitVec 6) (a : BitVec 6) (t : BitVec 1) (b : BitVec 6) (u : BitVec 1) (y : BitVec 6) (s : State) : Issued s (.vcle d a t b u y) := by
  rw [Issued, exec_vcle, execVcle]; exact .inl ⟨_, rfl⟩
theorem issued_vdot2F16 (d : BitVec 6) (a : BitVec 6) (t : BitVec 1) (b : BitVec 6) (u : BitVec 1) (r : BitVec 2) (s : State) : Issued s (.vdot2F16 d a t b u r) := by
  rw [Issued, exec_vdot2F16, execVdot2F16]; exact .inl ⟨_, rfl⟩
theorem issued_vdot4S8 (d : BitVec 6) (a : BitVec 6) (t : BitVec 1) (b : BitVec 6) (u : BitVec 1) (s : State) : Issued s (.vdot4S8 d a t b u) := by
  rw [Issued, exec_vdot4S8, execVdot4S8]; exact .inl ⟨_, rfl⟩
theorem issued_vredadd (d : BitVec 6) (a : BitVec 6) (t : BitVec 1) (y : BitVec 6) (s : State) : Issued s (.vredadd d a t y) := by
  rw [Issued, exec_vredadd, execVredadd]; exact .inl ⟨_, rfl⟩
theorem issued_vredmin (d : BitVec 6) (a : BitVec 6) (t : BitVec 1) (y : BitVec 6) (s : State) : Issued s (.vredmin d a t y) := by
  rw [Issued, exec_vredmin, execVredmin]; exact .inl ⟨_, rfl⟩
theorem issued_vredmax (d : BitVec 6) (a : BitVec 6) (t : BitVec 1) (y : BitVec 6) (s : State) : Issued s (.vredmax d a t y) := by
  rw [Issued, exec_vredmax, execVredmax]; exact .inl ⟨_, rfl⟩
theorem issued_vsll (d : BitVec 6) (a : BitVec 6) (t : BitVec 1) (y : BitVec 6) (k : BitVec 7) (s : State) : Issued s (.vsll d a t y k) := by
  rw [Issued, exec_vsll, execVsll]; exact .inl ⟨_, rfl⟩
theorem issued_vsrl (d : BitVec 6) (a : BitVec 6) (t : BitVec 1) (y : BitVec 6) (k : BitVec 7) (s : State) : Issued s (.vsrl d a t y k) := by
  rw [Issued, exec_vsrl, execVsrl]; exact .inl ⟨_, rfl⟩
theorem issued_vsra (d : BitVec 6) (a : BitVec 6) (t : BitVec 1) (y : BitVec 6) (k : BitVec 7) (s : State) : Issued s (.vsra d a t y k) := by
  rw [Issued, exec_vsra, execVsra]; exact .inl ⟨_, rfl⟩
theorem issued_vscale (d : BitVec 6) (a : BitVec 6) (t : BitVec 1) (y : BitVec 6) (k : BitVec 7) (s : State) : Issued s (.vscale d a t y k) := by
  rw [Issued, exec_vscale, execVscale]; exact .inl ⟨_, rfl⟩
theorem issued_vsplat (d : BitVec 6) (s1 : BitVec 5) (t : BitVec 1) (y : BitVec 6) (s : State) : Issued s (.vsplat d s1 t y) := by
  rw [Issued, exec_vsplat, execVsplat]; exact .inl ⟨_, rfl⟩
theorem issued_vins (d : BitVec 6) (s1 : BitVec 5) (t : BitVec 1) (y : BitVec 6) (i : BitVec 5) (s : State) : Issued s (.vins d s1 t y i) := by
  rw [Issued, exec_vins, execVins]; exact .inl ⟨_, rfl⟩
theorem issued_vext (s1 : BitVec 5) (a : BitVec 6) (t : BitVec 1) (y : BitVec 6) (i : BitVec 5) (s : State) : Issued s (.vext s1 a t y i) := by
  rw [Issued, exec_vext, execVext]; exact .inl ⟨_, rfl⟩
theorem issued_vpack (d : BitVec 6) (a : BitVec 6) (t : BitVec 1) (y : BitVec 6) (s : State) : Issued s (.vpack d a t y) := by
  rw [Issued, exec_vpack, execVpack]; exact .inl ⟨_, rfl⟩
theorem issued_vunpack (d : BitVec 6) (a : BitVec 6) (t : BitVec 1) (h : BitVec 1) (y : BitVec 6) (s : State) : Issued s (.vunpack d a t h y) := by
  rw [Issued, exec_vunpack, execVunpack]; exact .inl ⟨_, rfl⟩
theorem issued_vcvt (r : BitVec 2) (d : BitVec 6) (a : BitVec 6) (t : BitVec 1) (g : BitVec 6) (s1 : BitVec 6) (o : BitVec 1) (s : State) : Issued s (.vcvt r d a t g s1 o) := by
  rw [Issued, exec_vcvt, execVcvt]; exact .inl ⟨_, rfl⟩
theorem issued_rcp (d : BitVec 6) (a : BitVec 6) (t : BitVec 1) (y : BitVec 6) (s : State) : Issued s (.rcp d a t y) := by
  rw [Issued, exec_rcp, execRcp]; exact .inl ⟨_, rfl⟩
theorem issued_rsqrt (d : BitVec 6) (a : BitVec 6) (t : BitVec 1) (y : BitVec 6) (s : State) : Issued s (.rsqrt d a t y) := by
  rw [Issued, exec_rsqrt, execRsqrt]; exact .inl ⟨_, rfl⟩
theorem issued_sqrt (d : BitVec 6) (a : BitVec 6) (t : BitVec 1) (y : BitVec 6) (s : State) : Issued s (.sqrt d a t y) := by
  rw [Issued, exec_sqrt, execSqrt]; exact .inl ⟨_, rfl⟩
theorem issued_exp2 (d : BitVec 6) (a : BitVec 6) (t : BitVec 1) (y : BitVec 6) (s : State) : Issued s (.exp2 d a t y) := by
  rw [Issued, exec_exp2, execExp2]; exact .inl ⟨_, rfl⟩
theorem issued_log2 (d : BitVec 6) (a : BitVec 6) (t : BitVec 1) (y : BitVec 6) (s : State) : Issued s (.log2 d a t y) := by
  rw [Issued, exec_log2, execLog2]; exact .inl ⟨_, rfl⟩
theorem issued_tanh (d : BitVec 6) (a : BitVec 6) (t : BitVec 1) (y : BitVec 6) (s : State) : Issued s (.tanh d a t y) := by
  rw [Issued, exec_tanh, execTanh]; exact .inl ⟨_, rfl⟩
theorem issued_ret (s : State) : Issued s (.ret) := by
  rw [Issued, exec_ret, execRet]; exact .inl ⟨_, rfl⟩
theorem issued_retire (s : State) : Issued s (.retire) := by
  rw [Issued, exec_retire, execRetire]; exact .inl ⟨_, rfl⟩
theorem issued_eret (s : State) : Issued s (.eret) := by
  rw [Issued, exec_eret, execEret]; exact .inl ⟨_, rfl⟩
theorem issued_iflush (s : State) : Issued s (.iflush) := by
  rw [Issued, exec_iflush, execIflush]; exact .inl ⟨_, rfl⟩
theorem issued_vnop (s : State) : Issued s (.vnop) := by
  rw [Issued, exec_vnop, execVnop]; exact .inl ⟨_, rfl⟩
theorem issued_syllable (s : State) (i : Instr) (h : isSyllable i = true) : Issued s i := by
  cases i with
  | add => exact issued_add ..
  | sub => exact issued_sub ..
  | and => exact issued_and ..
  | or => exact issued_or ..
  | xor => exact issued_xor ..
  | andn => exact issued_andn ..
  | sll => exact issued_sll ..
  | srl => exact issued_srl ..
  | sra => exact issued_sra ..
  | slt => exact issued_slt ..
  | sltn => exact issued_sltn ..
  | min => exact issued_min ..
  | max => exact issued_max ..
  | minn => exact issued_minn ..
  | maxn => exact issued_maxn ..
  | lea => exact issued_lea ..
  | mul => exact issued_mul ..
  | mulh => exact issued_mulh ..
  | mulhn => exact issued_mulhn ..
  | mulhsn => exact issued_mulhsn ..
  | div => exact issued_div ..
  | divn => exact issued_divn ..
  | rem => exact issued_rem ..
  | remn => exact issued_remn ..
  | clz => exact issued_clz ..
  | ctz => exact issued_ctz ..
  | popc => exact issued_popc ..
  | sel => exact issued_sel ..
  | bext => exact issued_bext ..
  | bexts => exact issued_bexts ..
  | bins => exact issued_bins ..
  | jr => exact issued_jr ..
  | callr => exact issued_callr ..
  | lpset => exact issued_lpset ..
  | lpidx => exact issued_lpidx ..
  | lpaddr => exact issued_lpaddr ..
  | addi => exact issued_addi ..
  | andi => exact issued_andi ..
  | ori => exact issued_ori ..
  | xori => exact issued_xori ..
  | slti => exact issued_slti ..
  | sltni => exact issued_sltni ..
  | slli => exact issued_slli ..
  | srli => exact issued_srli ..
  | srai => exact issued_srai ..
  | cadr => exact issued_cadr ..
  | trap => exact issued_trap ..
  | ctlr => exact issued_ctlr ..
  | ctlw => exact issued_ctlw ..
  | beq => exact issued_beq ..
  | bne => exact issued_bne ..
  | blt => exact issued_blt ..
  | bge => exact issued_bge ..
  | bltn => exact issued_bltn ..
  | bgen => exact issued_bgen ..
  | lpnext => exact issued_lpnext ..
  | ldN8 => exact issued_ldN8 ..
  | ldN16 => exact issued_ldN16 ..
  | ldN32 => exact issued_ldN32 ..
  | ld64 => exact issued_ld64 ..
  | ldS8 => exact issued_ldS8 ..
  | ldS16 => exact issued_ldS16 ..
  | ldS32 => exact issued_ldS32 ..
  | vld => exact issued_vld ..
  | st8 => exact issued_st8 ..
  | st16 => exact issued_st16 ..
  | st32 => exact issued_st32 ..
  | st64 => exact issued_st64 ..
  | vst => exact issued_vst ..
  | ldAcq32 => exact issued_ldAcq32 ..
  | ldAcq64 => exact issued_ldAcq64 ..
  | stRel32 => exact issued_stRel32 ..
  | stRel64 => exact issued_stRel64 ..
  | ldfe => exact issued_ldfe ..
  | stef => exact issued_stef ..
  | ldPw => exact issued_ldPw ..
  | vlds => exact issued_vlds ..
  | vldx => exact issued_vldx ..
  | mwait => exact issued_mwait ..
  | qbind => exact issued_qbind ..
  | qunbind => exact issued_qunbind ..
  | qstat => exact issued_qstat ..
  | qpeek => exact issued_qpeek ..
  | vqpush => exact issued_vqpush ..
  | vqpop => exact issued_vqpop ..
  | qcfgr => exact issued_qcfgr ..
  | qcfgw => exact issued_qcfgw ..
  | ttag => exact issued_ttag ..
  | tfld => exact issued_tfld ..
  | tins => exact issued_tins ..
  | tinsd => exact issued_tinsd ..
  | tgen => exact issued_tgen ..
  | covQ => exact issued_covQ ..
  | covRd => exact issued_covRd ..
  | poolCnt => exact issued_poolCnt ..
  | amoAdd => exact issued_amoAdd ..
  | amoAnd => exact issued_amoAnd ..
  | amoOr => exact issued_amoOr ..
  | amoXor => exact issued_amoXor ..
  | amoMin => exact issued_amoMin ..
  | amoMax => exact issued_amoMax ..
  | amoMinu => exact issued_amoMinu ..
  | amoMaxu => exact issued_amoMaxu ..
  | amoSwap => exact issued_amoSwap ..
  | amoCas => exact issued_amoCas ..
  | amoFaddF32 => exact issued_amoFaddF32 ..
  | amoInclt => exact issued_amoInclt ..
  | joinInit => exact issued_joinInit ..
  | joinArrive => exact issued_joinArrive ..
  | ssigSet => exact issued_ssigSet ..
  | ssigAdd => exact issued_ssigAdd ..
  | swait => exact issued_swait ..
  | barrArr => exact issued_barrArr ..
  | barrWait => exact issued_barrWait ..
  | barrSync => exact issued_barrSync ..
  | barrSyncCmb => exact issued_barrSyncCmb ..
  | repart => exact issued_repart ..
  | slotw => exact issued_slotw ..
  | sleep => exact issued_sleep ..
  | xlinv => exact issued_xlinv ..
  | ctxsv => exact issued_ctxsv ..
  | ctxld => exact issued_ctxld ..
  | telEv => exact issued_telEv ..
  | lim => exact issued_lim ..
  | call => exact issued_call ..
  | vcvtScaled => exact issued_vcvtScaled ..
  | spawn => exact issued_spawn ..
  | vand => exact issued_vand ..
  | vor => exact issued_vor ..
  | vxor => exact issued_vxor ..
  | vandn => exact issued_vandn ..
  | vsel => exact issued_vsel ..
  | vmov => exact issued_vmov ..
  | vshuf => exact issued_vshuf ..
  | vcrc => exact issued_vcrc ..
  | vadd => exact issued_vadd ..
  | vsub => exact issued_vsub ..
  | vmul => exact issued_vmul ..
  | vmin => exact issued_vmin ..
  | vmax => exact issued_vmax ..
  | vfma => exact issued_vfma ..
  | vfms => exact issued_vfms ..
  | vabs => exact issued_vabs ..
  | vneg => exact issued_vneg ..
  | vclamp => exact issued_vclamp ..
  | vceq => exact issued_vceq ..
  | vcne => exact issued_vcne ..
  | vclt => exact issued_vclt ..
  | vcle => exact issued_vcle ..
  | vdot2F16 => exact issued_vdot2F16 ..
  | vdot4S8 => exact issued_vdot4S8 ..
  | vredadd => exact issued_vredadd ..
  | vredmin => exact issued_vredmin ..
  | vredmax => exact issued_vredmax ..
  | vsll => exact issued_vsll ..
  | vsrl => exact issued_vsrl ..
  | vsra => exact issued_vsra ..
  | vscale => exact issued_vscale ..
  | vsplat => exact issued_vsplat ..
  | vins => exact issued_vins ..
  | vext => exact issued_vext ..
  | vpack => exact issued_vpack ..
  | vunpack => exact issued_vunpack ..
  | vcvt => exact issued_vcvt ..
  | rcp => exact issued_rcp ..
  | rsqrt => exact issued_rsqrt ..
  | sqrt => exact issued_sqrt ..
  | exp2 => exact issued_exp2 ..
  | log2 => exact issued_log2 ..
  | tanh => exact issued_tanh ..
  | mxCfg => exact absurd h Bool.false_ne_true
  | mxLdst => exact absurd h Bool.false_ne_true
  | mxSwap => exact absurd h Bool.false_ne_true
  | mxStream => exact absurd h Bool.false_ne_true
  | mxZero => exact absurd h Bool.false_ne_true
  | mxDrain => exact absurd h Bool.false_ne_true
  | cpCopy => exact absurd h Bool.false_ne_true
  | cpMcast => exact absurd h Bool.false_ne_true
  | cpGather => exact absurd h Bool.false_ne_true
  | cpScatter => exact absurd h Bool.false_ne_true
  | cpFill => exact absurd h Bool.false_ne_true
  | cpCrc => exact absurd h Bool.false_ne_true
  | cpSend => exact absurd h Bool.false_ne_true
  | collReduce => exact absurd h Bool.false_ne_true
  | collBcast => exact absurd h Bool.false_ne_true
  | collAllgather => exact absurd h Bool.false_ne_true
  | rcKern => exact absurd h Bool.false_ne_true
  | rcCmp => exact absurd h Bool.false_ne_true
  | quinudFx => exact absurd h Bool.false_ne_true
  | quinudLi => exact absurd h Bool.false_ne_true
  | quinudAddi => exact absurd h Bool.false_ne_true
  | quinudAdd => exact absurd h Bool.false_ne_true
  | quinudSub => exact absurd h Bool.false_ne_true
  | quinudAnd => exact absurd h Bool.false_ne_true
  | quinudOr => exact absurd h Bool.false_ne_true
  | quinudXor => exact absurd h Bool.false_ne_true
  | quinudShl => exact absurd h Bool.false_ne_true
  | quinudShr => exact absurd h Bool.false_ne_true
  | quinudMul => exact absurd h Bool.false_ne_true
  | quinudMin => exact absurd h Bool.false_ne_true
  | quinudMax => exact absurd h Bool.false_ne_true
  | quinudCmp => exact absurd h Bool.false_ne_true
  | quinudSel => exact absurd h Bool.false_ne_true
  | quinudLd => exact absurd h Bool.false_ne_true
  | quinudSt => exact absurd h Bool.false_ne_true
  | quinudKadd => exact absurd h Bool.false_ne_true
  | quinudKmin => exact absurd h Bool.false_ne_true
  | quinudKmax => exact absurd h Bool.false_ne_true
  | quinudEwma => exact absurd h Bool.false_ne_true
  | quinudHlin => exact absurd h Bool.false_ne_true
  | quinudHlog => exact absurd h Bool.false_ne_true
  | quinudCms => exact absurd h Bool.false_ne_true
  | quinudCmq => exact absurd h Bool.false_ne_true
  | quinudBz => exact absurd h Bool.false_ne_true
  | quinudBnz => exact absurd h Bool.false_ne_true
  | quinudTrig => exact absurd h Bool.false_ne_true
  | commandCompletion => exact absurd h Bool.false_ne_true
  | recordArrival => exact absurd h Bool.false_ne_true
  | firingDelivery => exact absurd h Bool.false_ne_true
  | wakeMessage => exact absurd h Bool.false_ne_true
  | contextFreeNotice => exact absurd h Bool.false_ne_true
  | refusalRetry => exact absurd h Bool.false_ne_true
  | withdrawal => exact absurd h Bool.false_ne_true
  | presenceRequest => exact absurd h Bool.false_ne_true
  | presenceAnswer => exact absurd h Bool.false_ne_true
  | remoteAccess => exact absurd h Bool.false_ne_true
  | storeAck => exact absurd h Bool.false_ne_true
  | loadResult => exact absurd h Bool.false_ne_true
  | syncWordUpdate => exact absurd h Bool.false_ne_true
  | joinArrival => exact absurd h Bool.false_ne_true
  | swaitRequest => exact absurd h Bool.false_ne_true
  | barrierArrival => exact absurd h Bool.false_ne_true
  | channelEntry => exact absurd h Bool.false_ne_true
  | creditReturn => exact absurd h Bool.false_ne_true
  | bindAnswer => exact absurd h Bool.false_ne_true
  | launch => exact absurd h Bool.false_ne_true
  | replay => exact absurd h Bool.false_ne_true
  | closeSources => exact absurd h Bool.false_ne_true
  | release => exact absurd h Bool.false_ne_true
  | dump => exact absurd h Bool.false_ne_true
  | attachRing => exact absurd h Bool.false_ne_true
  | frameArrival => exact absurd h Bool.false_ne_true
  | telemetryRecord => exact absurd h Bool.false_ne_true
  | instructionCacheFill => exact absurd h Bool.false_ne_true
  | combineTimeout => exact absurd h Bool.false_ne_true
  | spillReturn => exact absurd h Bool.false_ne_true
  | processTrigger => exact absurd h Bool.false_ne_true
  | contextFree => exact absurd h Bool.false_ne_true
  | slotTableSwitch => exact absurd h Bool.false_ne_true
  | sleepEnd => exact absurd h Bool.false_ne_true
  | deferredTrap => exact absurd h Bool.false_ne_true
  | qstall => exact absurd h Bool.false_ne_true
  | fewaitExpiry => exact absurd h Bool.false_ne_true
  | presenceResend => exact absurd h Bool.false_ne_true
  | storeBufferWrite => exact absurd h Bool.false_ne_true
  | translationWalk => exact absurd h Bool.false_ne_true
  | faultAnswer => exact absurd h Bool.false_ne_true
  | walkerEmit => exact absurd h Bool.false_ne_true
  | reconFiring => exact absurd h Bool.false_ne_true
  | holeUnresolved => exact absurd h Bool.false_ne_true
  | stabilityWave => exact absurd h Bool.false_ne_true
  | logicalQuadTurn => exact absurd h Bool.false_ne_true
  | doorbell => exact absurd h Bool.false_ne_true
  | qcfgWrite => exact absurd h Bool.false_ne_true
  | requestAccept => exact absurd h Bool.false_ne_true
  | launchStart => exact absurd h Bool.false_ne_true
  | apertureAccess => exact absurd h Bool.false_ne_true
  | ringConfigWrite => exact absurd h Bool.false_ne_true
  | classifierWrite => exact absurd h Bool.false_ne_true
  | egressFrame => exact absurd h Bool.false_ne_true
  | egstampRead => exact absurd h Bool.false_ne_true
  | pcsLock => exact absurd h Bool.false_ne_true
  | trainFlit => exact absurd h Bool.false_ne_true
  | dataFlitSend => exact absurd h Bool.false_ne_true
  | flitReceive => exact absurd h Bool.false_ne_true
  | nakResend => exact absurd h Bool.false_ne_true
  | clklatchWrite => exact absurd h Bool.false_ne_true
  | clkstepWrite => exact absurd h Bool.false_ne_true
  | partWrite => exact absurd h Bool.false_ne_true
  | xconnWrite => exact absurd h Bool.false_ne_true
  | xcselWrite => exact absurd h Bool.false_ne_true
  | ownsetGo => exact absurd h Bool.false_ne_true
  | xfenceGo => exact absurd h Bool.false_ne_true
  | preemptDrain => exact absurd h Bool.false_ne_true
  | preemptSave => exact absurd h Bool.false_ne_true
  | saveCaptureComplete => exact absurd h Bool.false_ne_true
  | preemptReset => exact absurd h Bool.false_ne_true
  | preemptRestore => exact absurd h Bool.false_ne_true
  | trapRecord => exact absurd h Bool.false_ne_true
  | watchdog => exact absurd h Bool.false_ne_true
  | queueSteal => exact absurd h Bool.false_ne_true
  | mailboxMessage => exact absurd h Bool.false_ne_true
  | fwctlGo => exact absurd h Bool.false_ne_true
  | fwbeatWrite => exact absurd h Bool.false_ne_true
  | syncovfWrite => exact absurd h Bool.false_ne_true
  | uncorrectableError => exact absurd h Bool.false_ne_true
  | correctedError => exact absurd h Bool.false_ne_true
  | hopCrcError => exact absurd h Bool.false_ne_true
  | channelRetired => exact absurd h Bool.false_ne_true
  | filterEvent => exact absurd h Bool.false_ne_true
  | tattachWrite => exact absurd h Bool.false_ne_true
  | tdetachWrite => exact absurd h Bool.false_ne_true
  | tbudgetWrite => exact absurd h Bool.false_ne_true
  | budgetWindow => exact absurd h Bool.false_ne_true
  | exportSnap => exact absurd h Bool.false_ne_true
  | slots => exact absurd h Bool.false_ne_true
  | therm => exact absurd h Bool.false_ne_true
  | throttleUpdate => exact absurd h Bool.false_ne_true
  | ckptGo => exact absurd h Bool.false_ne_true
  | registerWrite => exact absurd h Bool.false_ne_true
  | portDown => exact absurd h Bool.false_ne_true
  | linkWidthChange => exact absurd h Bool.false_ne_true
  | spdmMessage => exact absurd h Bool.false_ne_true
  | ret => exact issued_ret ..
  | retire => exact issued_retire ..
  | eret => exact issued_eret ..
  | iflush => exact issued_iflush ..
  | vnop => exact issued_vnop ..
  | fwRollback => exact absurd h Bool.false_ne_true
  | fwHang => exact absurd h Bool.false_ne_true
  | reset => exact absurd h Bool.false_ne_true
  | thermtrip => exact absurd h Bool.false_ne_true
  | quinudEnd => exact absurd h Bool.false_ne_true

/-! ### Every event, command and filter instruction answers a next state -/

theorem next_mxCfg (c : Cmd) (s : State) : ∃ next, exec (.mxCfg c) s = .next next := ⟨_, exec_mxCfg ..⟩
theorem next_mxLdst (c : Cmd) (s : State) : ∃ next, exec (.mxLdst c) s = .next next := ⟨_, exec_mxLdst ..⟩
theorem next_mxSwap (c : Cmd) (s : State) : ∃ next, exec (.mxSwap c) s = .next next := ⟨_, exec_mxSwap ..⟩
theorem next_mxStream (c : Cmd) (s : State) : ∃ next, exec (.mxStream c) s = .next next := ⟨_, exec_mxStream ..⟩
theorem next_mxZero (c : Cmd) (s : State) : ∃ next, exec (.mxZero c) s = .next next := ⟨_, exec_mxZero ..⟩
theorem next_mxDrain (c : Cmd) (s : State) : ∃ next, exec (.mxDrain c) s = .next next := ⟨_, exec_mxDrain ..⟩
theorem next_cpCopy (c : Cmd) (s : State) : ∃ next, exec (.cpCopy c) s = .next next := ⟨_, exec_cpCopy ..⟩
theorem next_cpMcast (c : Cmd) (s : State) : ∃ next, exec (.cpMcast c) s = .next next := ⟨_, exec_cpMcast ..⟩
theorem next_cpGather (c : Cmd) (s : State) : ∃ next, exec (.cpGather c) s = .next next := ⟨_, exec_cpGather ..⟩
theorem next_cpScatter (c : Cmd) (s : State) : ∃ next, exec (.cpScatter c) s = .next next := ⟨_, exec_cpScatter ..⟩
theorem next_cpFill (c : Cmd) (s : State) : ∃ next, exec (.cpFill c) s = .next next := ⟨_, exec_cpFill ..⟩
theorem next_cpCrc (c : Cmd) (s : State) : ∃ next, exec (.cpCrc c) s = .next next := ⟨_, exec_cpCrc ..⟩
theorem next_cpSend (c : Cmd) (s : State) : ∃ next, exec (.cpSend c) s = .next next := ⟨_, exec_cpSend ..⟩
theorem next_collReduce (c : Cmd) (s : State) : ∃ next, exec (.collReduce c) s = .next next := ⟨_, exec_collReduce ..⟩
theorem next_collBcast (c : Cmd) (s : State) : ∃ next, exec (.collBcast c) s = .next next := ⟨_, exec_collBcast ..⟩
theorem next_collAllgather (c : Cmd) (s : State) : ∃ next, exec (.collAllgather c) s = .next next := ⟨_, exec_collAllgather ..⟩
theorem next_rcKern (c : Cmd) (s : State) : ∃ next, exec (.rcKern c) s = .next next := ⟨_, exec_rcKern ..⟩
theorem next_rcCmp (c : Cmd) (s : State) : ∃ next, exec (.rcCmp c) s = .next next := ⟨_, exec_rcCmp ..⟩
theorem next_quinudFx (d : BitVec 3) (e : BitVec 3) (l : BitVec 5) (n : BitVec 5) (s : State) : ∃ next, exec (.quinudFx d e l n) s = .next next := ⟨_, exec_quinudFx ..⟩
theorem next_quinudLi (d : BitVec 3) (i : BitVec 20) (s : State) : ∃ next, exec (.quinudLi d i) s = .next next := ⟨_, exec_quinudLi ..⟩
theorem next_quinudAddi (d : BitVec 3) (a : BitVec 3) (i : BitVec 20) (s : State) : ∃ next, exec (.quinudAddi d a i) s = .next next := ⟨_, exec_quinudAddi ..⟩
theorem next_quinudAdd (d : BitVec 3) (a : BitVec 3) (b : BitVec 3) (s : State) : ∃ next, exec (.quinudAdd d a b) s = .next next := ⟨_, exec_quinudAdd ..⟩
theorem next_quinudSub (d : BitVec 3) (a : BitVec 3) (b : BitVec 3) (s : State) : ∃ next, exec (.quinudSub d a b) s = .next next := ⟨_, exec_quinudSub ..⟩
theorem next_quinudAnd (d : BitVec 3) (a : BitVec 3) (b : BitVec 3) (s : State) : ∃ next, exec (.quinudAnd d a b) s = .next next := ⟨_, exec_quinudAnd ..⟩
theorem next_quinudOr (d : BitVec 3) (a : BitVec 3) (b : BitVec 3) (s : State) : ∃ next, exec (.quinudOr d a b) s = .next next := ⟨_, exec_quinudOr ..⟩
theorem next_quinudXor (d : BitVec 3) (a : BitVec 3) (b : BitVec 3) (s : State) : ∃ next, exec (.quinudXor d a b) s = .next next := ⟨_, exec_quinudXor ..⟩
theorem next_quinudShl (d : BitVec 3) (a : BitVec 3) (b : BitVec 3) (s : State) : ∃ next, exec (.quinudShl d a b) s = .next next := ⟨_, exec_quinudShl ..⟩
theorem next_quinudShr (d : BitVec 3) (a : BitVec 3) (b : BitVec 3) (s : State) : ∃ next, exec (.quinudShr d a b) s = .next next := ⟨_, exec_quinudShr ..⟩
theorem next_quinudMul (d : BitVec 3) (a : BitVec 3) (b : BitVec 3) (s : State) : ∃ next, exec (.quinudMul d a b) s = .next next := ⟨_, exec_quinudMul ..⟩
theorem next_quinudMin (d : BitVec 3) (a : BitVec 3) (b : BitVec 3) (s : State) : ∃ next, exec (.quinudMin d a b) s = .next next := ⟨_, exec_quinudMin ..⟩
theorem next_quinudMax (d : BitVec 3) (a : BitVec 3) (b : BitVec 3) (s : State) : ∃ next, exec (.quinudMax d a b) s = .next next := ⟨_, exec_quinudMax ..⟩
theorem next_quinudCmp (d : BitVec 3) (a : BitVec 3) (b : BitVec 3) (c : BitVec 3) (s : State) : ∃ next, exec (.quinudCmp d a b c) s = .next next := ⟨_, exec_quinudCmp ..⟩
theorem next_quinudSel (d : BitVec 3) (a : BitVec 3) (b : BitVec 3) (c : BitVec 3) (s : State) : ∃ next, exec (.quinudSel d a b c) s = .next next := ⟨_, exec_quinudSel ..⟩
theorem next_quinudLd (d : BitVec 3) (k : BitVec 10) (s : State) : ∃ next, exec (.quinudLd d k) s = .next next := ⟨_, exec_quinudLd ..⟩
theorem next_quinudSt (a : BitVec 3) (k : BitVec 10) (s : State) : ∃ next, exec (.quinudSt a k) s = .next next := ⟨_, exec_quinudSt ..⟩
theorem next_quinudKadd (a : BitVec 3) (k : BitVec 10) (s : State) : ∃ next, exec (.quinudKadd a k) s = .next next := ⟨_, exec_quinudKadd ..⟩
theorem next_quinudKmin (a : BitVec 3) (k : BitVec 10) (s : State) : ∃ next, exec (.quinudKmin a k) s = .next next := ⟨_, exec_quinudKmin ..⟩
theorem next_quinudKmax (a : BitVec 3) (k : BitVec 10) (s : State) : ∃ next, exec (.quinudKmax a k) s = .next next := ⟨_, exec_quinudKmax ..⟩
theorem next_quinudEwma (a : BitVec 3) (k : BitVec 10) (s1 : BitVec 5) (s : State) : ∃ next, exec (.quinudEwma a k s1) s = .next next := ⟨_, exec_quinudEwma ..⟩
theorem next_quinudHlin (d : BitVec 3) (a : BitVec 3) (k : BitVec 10) (m : BitVec 6) (s1 : BitVec 4) (s : State) : ∃ next, exec (.quinudHlin d a k m s1) s = .next next := ⟨_, exec_quinudHlin ..⟩
theorem next_quinudHlog (a : BitVec 3) (k : BitVec 10) (m : BitVec 6) (s : State) : ∃ next, exec (.quinudHlog a k m) s = .next next := ⟨_, exec_quinudHlog ..⟩
theorem next_quinudCms (a : BitVec 3) (k : BitVec 10) (m : BitVec 4) (s : State) : ∃ next, exec (.quinudCms a k m) s = .next next := ⟨_, exec_quinudCms ..⟩
theorem next_quinudCmq (d : BitVec 3) (a : BitVec 3) (k : BitVec 10) (m : BitVec 4) (s : State) : ∃ next, exec (.quinudCmq d a k m) s = .next next := ⟨_, exec_quinudCmq ..⟩
theorem next_quinudBz (a : BitVec 3) (o : BitVec 5) (s : State) : ∃ next, exec (.quinudBz a o) s = .next next := ⟨_, exec_quinudBz ..⟩
theorem next_quinudBnz (a : BitVec 3) (o : BitVec 5) (s : State) : ∃ next, exec (.quinudBnz a o) s = .next next := ⟨_, exec_quinudBnz ..⟩
theorem next_quinudTrig (a : BitVec 3) (t : BitVec 3) (s : State) : ∃ next, exec (.quinudTrig a t) s = .next next := ⟨_, exec_quinudTrig ..⟩
theorem next_commandCompletion (c : Cmd) (r : CmdResult) (s : State) : ∃ next, exec (.commandCompletion c r) s = .next next := ⟨_, exec_commandCompletion ..⟩
theorem next_recordArrival (a : Arrival) (s : State) : ∃ next, exec (.recordArrival a) s = .next next := ⟨_, exec_recordArrival ..⟩
theorem next_firingDelivery (core : Nat) (f : Firing) (s : State) : ∃ next, exec (.firingDelivery core f) s = .next next := ⟨_, exec_firingDelivery ..⟩
theorem next_wakeMessage (w : Wake) (s : State) : ∃ next, exec (.wakeMessage w) s = .next next := ⟨_, exec_wakeMessage ..⟩
theorem next_contextFreeNotice (core : Nat) (m : Start) (s : State) : ∃ next, exec (.contextFreeNotice core m) s = .next next := ⟨_, exec_contextFreeNotice ..⟩
theorem next_refusalRetry (core : Nat) (m : Start) (s : State) : ∃ next, exec (.refusalRetry core m) s = .next next := ⟨_, exec_refusalRetry ..⟩
theorem next_withdrawal (r : Req) (s : State) : ∃ next, exec (.withdrawal r) s = .next next := ⟨_, exec_withdrawal ..⟩
theorem next_presenceRequest (r : Req) (s : State) : ∃ next, exec (.presenceRequest r) s = .next next := ⟨_, exec_presenceRequest ..⟩
theorem next_presenceAnswer (th seq : Nat) (x : Word) (s : State) : ∃ next, exec (.presenceAnswer th seq x) s = .next next := ⟨_, exec_presenceAnswer ..⟩
theorem next_remoteAccess (r : Req) (s : State) : ∃ next, exec (.remoteAccess r) s = .next next := ⟨_, exec_remoteAccess ..⟩
theorem next_storeAck (th : Nat) (k : Acked) (s : State) : ∃ next, exec (.storeAck th k) s = .next next := ⟨_, exec_storeAck ..⟩
theorem next_loadResult (l : Load) (s : State) : ∃ next, exec (.loadResult l) s = .next next := ⟨_, exec_loadResult ..⟩
theorem next_syncWordUpdate (r : Req) (s : State) : ∃ next, exec (.syncWordUpdate r) s = .next next := ⟨_, exec_syncWordUpdate ..⟩
theorem next_joinArrival (r : Req) (s : State) : ∃ next, exec (.joinArrival r) s = .next next := ⟨_, exec_joinArrival ..⟩
theorem next_swaitRequest (r : Req) (s : State) : ∃ next, exec (.swaitRequest r) s = .next next := ⟨_, exec_swaitRequest ..⟩
theorem next_barrierArrival (b : BarrierMsg) (s : State) : ∃ next, exec (.barrierArrival b) s = .next next := ⟨_, exec_barrierArrival ..⟩
theorem next_channelEntry (core buf : Nat) (x : VWord) (s : State) : ∃ next, exec (.channelEntry core buf x) s = .next next := ⟨_, exec_channelEntry ..⟩
theorem next_creditReturn (th core buf : Nat) (s : State) : ∃ next, exec (.creditReturn th core buf) s = .next next := ⟨_, exec_creditReturn ..⟩
theorem next_bindAnswer (th win seq : Nat) (word : Word) (s : State) : ∃ next, exec (.bindAnswer th win seq word) s = .next next := ⟨_, exec_bindAnswer ..⟩
theorem next_launch (r : Request) (s : State) : ∃ next, exec (.launch r) s = .next next := ⟨_, exec_launch ..⟩
theorem next_replay (r : Request) (s : State) : ∃ next, exec (.replay r) s = .next next := ⟨_, exec_replay ..⟩
theorem next_closeSources (r : Request) (s : State) : ∃ next, exec (.closeSources r) s = .next next := ⟨_, exec_closeSources ..⟩
theorem next_release (r : Request) (s : State) : ∃ next, exec (.release r) s = .next next := ⟨_, exec_release ..⟩
theorem next_dump (r : Request) (s : State) : ∃ next, exec (.dump r) s = .next next := ⟨_, exec_dump ..⟩
theorem next_attachRing (r : Request) (s : State) : ∃ next, exec (.attachRing r) s = .next next := ⟨_, exec_attachRing ..⟩
theorem next_frameArrival (port : Nat) (good : Bool) (frame : List Byte) (s : State) : ∃ next, exec (.frameArrival port good frame) s = .next next := ⟨_, exec_frameArrival ..⟩
theorem next_telemetryRecord (die : Nat) (e : List (BitVec 32)) (s : State) : ∃ next, exec (.telemetryRecord die e) s = .next next := ⟨_, exec_telemetryRecord ..⟩
theorem next_instructionCacheFill (quad xctx line : Nat) (s : State) : ∃ next, exec (.instructionCacheFill quad xctx line) s = .next next := ⟨_, exec_instructionCacheFill ..⟩
theorem next_combineTimeout (quad key : Nat) (s : State) : ∃ next, exec (.combineTimeout quad key) s = .next next := ⟨_, exec_combineTimeout ..⟩
theorem next_spillReturn (quad : Nat) (s : State) : ∃ next, exec (.spillReturn quad) s = .next next := ⟨_, exec_spillReturn ..⟩
theorem next_processTrigger (quad : Nat) (s : State) : ∃ next, exec (.processTrigger quad) s = .next next := ⟨_, exec_processTrigger ..⟩
theorem next_contextFree (th : Nat) (s : State) : ∃ next, exec (.contextFree th) s = .next next := ⟨_, exec_contextFree ..⟩
theorem next_slotTableSwitch (core : Nat) (s : State) : ∃ next, exec (.slotTableSwitch core) s = .next next := ⟨_, exec_slotTableSwitch ..⟩
theorem next_sleepEnd (th : Nat) (s : State) : ∃ next, exec (.sleepEnd th) s = .next next := ⟨_, exec_sleepEnd ..⟩
theorem next_deferredTrap (th : Nat) (s : State) : ∃ next, exec (.deferredTrap th) s = .next next := ⟨_, exec_deferredTrap ..⟩
theorem next_qstall (th : Nat) (s : State) : ∃ next, exec (.qstall th) s = .next next := ⟨_, exec_qstall ..⟩
theorem next_fewaitExpiry (th : Nat) (s : State) : ∃ next, exec (.fewaitExpiry th) s = .next next := ⟨_, exec_fewaitExpiry ..⟩
theorem next_presenceResend (th : Nat) (s : State) : ∃ next, exec (.presenceResend th) s = .next next := ⟨_, exec_presenceResend ..⟩
theorem next_storeBufferWrite (core : Nat) (s : State) : ∃ next, exec (.storeBufferWrite core) s = .next next := ⟨_, exec_storeBufferWrite ..⟩
theorem next_translationWalk (die : Nat) (s : State) : ∃ next, exec (.translationWalk die) s = .next next := ⟨_, exec_translationWalk ..⟩
theorem next_faultAnswer (die index : Nat) (resume : Bool) (s : State) : ∃ next, exec (.faultAnswer die index resume) s = .next next := ⟨_, exec_faultAnswer ..⟩
theorem next_walkerEmit (lid : Nat) (s : State) : ∃ next, exec (.walkerEmit lid) s = .next next := ⟨_, exec_walkerEmit ..⟩
theorem next_reconFiring (quad : Nat) (s : State) : ∃ next, exec (.reconFiring quad) s = .next next := ⟨_, exec_reconFiring ..⟩
theorem next_holeUnresolved (lid : Nat) (s : State) : ∃ next, exec (.holeUnresolved lid) s = .next next := ⟨_, exec_holeUnresolved ..⟩
theorem next_stabilityWave (lid : Nat) (s : State) : ∃ next, exec (.stabilityWave lid) s = .next next := ⟨_, exec_stabilityWave ..⟩
theorem next_logicalQuadTurn (quad : Nat) (s : State) : ∃ next, exec (.logicalQuadTurn quad) s = .next next := ⟨_, exec_logicalQuadTurn ..⟩
theorem next_doorbell (q : Nat) (p : Word) (s : State) : ∃ next, exec (.doorbell q p) s = .next next := ⟨_, exec_doorbell ..⟩
theorem next_qcfgWrite (q reg : Nat) (x : Word) (s : State) : ∃ next, exec (.qcfgWrite q reg x) s = .next next := ⟨_, exec_qcfgWrite ..⟩
theorem next_requestAccept (svc : Nat) (s : State) : ∃ next, exec (.requestAccept svc) s = .next next := ⟨_, exec_requestAccept ..⟩
theorem next_launchStart (lid : Nat) (s : State) : ∃ next, exec (.launchStart lid) s = .next next := ⟨_, exec_launchStart ..⟩
theorem next_apertureAccess (fn off size : Nat) (write : Bool) (x : Word) (s : State) : ∃ next, exec (.apertureAccess fn off size write x) s = .next next := ⟨_, exec_apertureAccess ..⟩
theorem next_ringConfigWrite (ring : Nat) (x : Word) (s : State) : ∃ next, exec (.ringConfigWrite ring x) s = .next next := ⟨_, exec_ringConfigWrite ..⟩
theorem next_classifierWrite (entry word : Nat) (x : Word) (s : State) : ∃ next, exec (.classifierWrite entry word x) s = .next next := ⟨_, exec_classifierWrite ..⟩
theorem next_egressFrame (port : Nat) (s : State) : ∃ next, exec (.egressFrame port) s = .next next := ⟨_, exec_egressFrame ..⟩
theorem next_egstampRead (port : Nat) (s : State) : ∃ next, exec (.egstampRead port) s = .next next := ⟨_, exec_egstampRead ..⟩
theorem next_pcsLock (port : Nat) (width : Nat) (s : State) : ∃ next, exec (.pcsLock port width) s = .next next := ⟨_, exec_pcsLock ..⟩
theorem next_trainFlit (port : Nat) (s : State) : ∃ next, exec (.trainFlit port) s = .next next := ⟨_, exec_trainFlit ..⟩
theorem next_dataFlitSend (port vc : Nat) (s : State) : ∃ next, exec (.dataFlitSend port vc) s = .next next := ⟨_, exec_dataFlitSend ..⟩
theorem next_flitReceive (port : Nat) (flit : List Byte) (s : State) : ∃ next, exec (.flitReceive port flit) s = .next next := ⟨_, exec_flitReceive ..⟩
theorem next_nakResend (port : Nat) (s : State) : ∃ next, exec (.nakResend port) s = .next next := ⟨_, exec_nakResend ..⟩
theorem next_clklatchWrite (x : Word) (s : State) : ∃ next, exec (.clklatchWrite x) s = .next next := ⟨_, exec_clklatchWrite ..⟩
theorem next_clkstepWrite (x : Word) (s : State) : ∃ next, exec (.clkstepWrite x) s = .next next := ⟨_, exec_clkstepWrite ..⟩
theorem next_partWrite (n : Nat) (x : Word) (s : State) : ∃ next, exec (.partWrite n x) s = .next next := ⟨_, exec_partWrite ..⟩
theorem next_xconnWrite (p : Nat) (x : Word) (s : State) : ∃ next, exec (.xconnWrite p x) s = .next next := ⟨_, exec_xconnWrite ..⟩
theorem next_xcselWrite (x : Word) (s : State) : ∃ next, exec (.xcselWrite x) s = .next next := ⟨_, exec_xcselWrite ..⟩
theorem next_ownsetGo (x : Word) (s : State) : ∃ next, exec (.ownsetGo x) s = .next next := ⟨_, exec_ownsetGo ..⟩
theorem next_xfenceGo (x : Word) (s : State) : ∃ next, exec (.xfenceGo x) s = .next next := ⟨_, exec_xfenceGo ..⟩
theorem next_preemptDrain (lid : Nat) (s : State) : ∃ next, exec (.preemptDrain lid) s = .next next := ⟨_, exec_preemptDrain ..⟩
theorem next_preemptSave (lid : Nat) (s : State) : ∃ next, exec (.preemptSave lid) s = .next next := ⟨_, exec_preemptSave ..⟩
theorem next_saveCaptureComplete (lid : Nat) (s : State) : ∃ next, exec (.saveCaptureComplete lid) s = .next next := ⟨_, exec_saveCaptureComplete ..⟩
theorem next_preemptReset (lid : Nat) (s : State) : ∃ next, exec (.preemptReset lid) s = .next next := ⟨_, exec_preemptReset ..⟩
theorem next_preemptRestore (lid : Nat) (s : State) : ∃ next, exec (.preemptRestore lid) s = .next next := ⟨_, exec_preemptRestore ..⟩
theorem next_trapRecord (die : Nat) (s : State) : ∃ next, exec (.trapRecord die) s = .next next := ⟨_, exec_trapRecord ..⟩
theorem next_watchdog (part : Nat) (cycles : Nat) (s : State) : ∃ next, exec (.watchdog part cycles) s = .next next := ⟨_, exec_watchdog ..⟩
theorem next_queueSteal (thief q : Nat) (s : State) : ∃ next, exec (.queueSteal thief q) s = .next next := ⟨_, exec_queueSteal ..⟩
theorem next_mailboxMessage (die : Nat) (x : Word) (s : State) : ∃ next, exec (.mailboxMessage die x) s = .next next := ⟨_, exec_mailboxMessage ..⟩
theorem next_fwctlGo (x : Word) (s : State) : ∃ next, exec (.fwctlGo x) s = .next next := ⟨_, exec_fwctlGo ..⟩
theorem next_fwbeatWrite (x : Word) (s : State) : ∃ next, exec (.fwbeatWrite x) s = .next next := ⟨_, exec_fwbeatWrite ..⟩
theorem next_syncovfWrite (die : Nat) (x : Word) (s : State) : ∃ next, exec (.syncovfWrite die x) s = .next next := ⟨_, exec_syncovfWrite ..⟩
theorem next_uncorrectableError (e : HwError) (s : State) : ∃ next, exec (.uncorrectableError e) s = .next next := ⟨_, exec_uncorrectableError ..⟩
theorem next_correctedError (e : HwError) (s : State) : ∃ next, exec (.correctedError e) s = .next next := ⟨_, exec_correctedError ..⟩
theorem next_hopCrcError (die : Nat) (unit : Nat) (msg : Nat) (s : State) : ∃ next, exec (.hopCrcError die unit msg) s = .next next := ⟨_, exec_hopCrcError ..⟩
theorem next_channelRetired (group : Nat) (s : State) : ∃ next, exec (.channelRetired group) s = .next next := ⟨_, exec_channelRetired ..⟩
theorem next_filterEvent (die : Nat) (s : State) : ∃ next, exec (.filterEvent die) s = .next next := ⟨_, exec_filterEvent ..⟩
theorem next_tattachWrite (fn : Nat) (x : Word) (s : State) : ∃ next, exec (.tattachWrite fn x) s = .next next := ⟨_, exec_tattachWrite ..⟩
theorem next_tdetachWrite (fn : Nat) (x : Word) (s : State) : ∃ next, exec (.tdetachWrite fn x) s = .next next := ⟨_, exec_tdetachWrite ..⟩
theorem next_tbudgetWrite (die tenant : Nat) (x : Word) (s : State) : ∃ next, exec (.tbudgetWrite die tenant x) s = .next next := ⟨_, exec_tbudgetWrite ..⟩
theorem next_budgetWindow (die : Nat) (s : State) : ∃ next, exec (.budgetWindow die) s = .next next := ⟨_, exec_budgetWindow ..⟩
theorem next_exportSnap (die slot : Nat) (s : State) : ∃ next, exec (.exportSnap die slot) s = .next next := ⟨_, exec_exportSnap ..⟩
theorem next_slots (core : Nat) (s : State) : ∃ next, exec (.slots core) s = .next next := ⟨_, exec_slots ..⟩
theorem next_therm (die sensor : Nat) (temp : BitVec 32) (s : State) : ∃ next, exec (.therm die sensor temp) s = .next next := ⟨_, exec_therm ..⟩
theorem next_throttleUpdate (watts hottest : Nat) (s : State) : ∃ next, exec (.throttleUpdate watts hottest) s = .next next := ⟨_, exec_throttleUpdate ..⟩
theorem next_ckptGo (x : Word) (s : State) : ∃ next, exec (.ckptGo x) s = .next next := ⟨_, exec_ckptGo ..⟩
theorem next_registerWrite (off : Nat) (level : Nat) (x : Word) (s : State) : ∃ next, exec (.registerWrite off level x) s = .next next := ⟨_, exec_registerWrite ..⟩
theorem next_portDown (port : Nat) (s : State) : ∃ next, exec (.portDown port) s = .next next := ⟨_, exec_portDown ..⟩
theorem next_linkWidthChange (link width : Nat) (s : State) : ∃ next, exec (.linkWidthChange link width) s = .next next := ⟨_, exec_linkWidthChange ..⟩
theorem next_spdmMessage (m : Spdm) (s : State) : ∃ next, exec (.spdmMessage m) s = .next next := ⟨_, exec_spdmMessage ..⟩
theorem next_fwRollback (s : State) : ∃ next, exec (.fwRollback) s = .next next := ⟨_, exec_fwRollback ..⟩
theorem next_fwHang (s : State) : ∃ next, exec (.fwHang) s = .next next := ⟨_, exec_fwHang ..⟩
theorem next_reset (s : State) : ∃ next, exec (.reset) s = .next next := ⟨_, exec_reset ..⟩
theorem next_thermtrip (s : State) : ∃ next, exec (.thermtrip) s = .next next := ⟨_, exec_thermtrip ..⟩
theorem next_quinudEnd (s : State) : ∃ next, exec (.quinudEnd) s = .next next := ⟨_, exec_quinudEnd ..⟩

theorem next_of_issued {s : State} {i : Instr} (h : Issued s i) : ∃ next, exec i s = .next next := by
  rcases h with ⟨eff, h⟩ | ⟨d, val, eff, h⟩
  · rw [h]; exact issue_next i eff s
  · rw [h, issueD]; split
    · exact ⟨_, rfl⟩
    · exact issue_next i eff s

end Sys2Proof.Machine
end

