-- ==== Sys2Proof/Laws/PerInstr.lean ====
section
/-! SUPPORT. One law for each constructor: the register numbers in the fields of a legal instruction are numbers of registers. -/

namespace Sys2Proof.Laws.Registers

open Sys2Proof.Machine

/-- A field names one of 32 scalar or 64 vector registers (03 R96). -/
def srcOk (x : Src) : Bool := decide (x.reg < if x.vec then 64 else 32)
def dstOk (x : Dst) : Bool := decide (x.reg < if x.vec then 64 else 32)

/-- Every source and destination field of a legal instruction names a register there is. -/
def Statement (i : Instr) : Prop := i.wf = true → (srcsOf i).all srcOk = true ∧ (dstsOf i).all dstOk = true

theorem all_cons {α : Type} {p : α → Bool} {x : α} {l : List α} (h : p x = true) (hl : l.all p = true) :
    (x :: l).all p = true := by simp [h, hl]
theorem src5 (r : BitVec 5) (t : Bool) (k : Nat) (w : Bool) : srcOk ⟨r.toNat, t, k, false, w⟩ = true := decide_eq_true r.isLt
theorem src6 (r : BitVec 6) (t : Bool) (k : Nat) (w : Bool) : srcOk ⟨r.toNat, t, k, true, w⟩ = true := decide_eq_true r.isLt
theorem vreg_lt (v : BitVec 5) (x : BitVec 1) : vreg v x < 64 := by unfold vreg; omega
theorem srcV (v : BitVec 5) (x : BitVec 1) (t : Bool) (k : Nat) (w : Bool) : srcOk ⟨vreg v x, t, k, true, w⟩ = true :=
  decide_eq_true (vreg_lt v x)
theorem srcV5 (r : BitVec 5) (t : Bool) (k : Nat) (w : Bool) : srcOk ⟨r.toNat, t, k, true, w⟩ = true :=
  decide_eq_true (show r.toNat < 64 from Nat.lt_of_lt_of_le r.isLt (by decide))
theorem dst5 (r : BitVec 5) (w : Bool) : dstOk ⟨r.toNat, false, w⟩ = true := decide_eq_true r.isLt
theorem dst6 (r : BitVec 6) (w : Bool) : dstOk ⟨r.toNat, true, w⟩ = true := decide_eq_true r.isLt
theorem dstX (v : BitVec 5) (x : BitVec 1) (w : Bool) : dstOk ⟨vreg v x, true, w⟩ = true := decide_eq_true (vreg_lt v x)

theorem add (d : BitVec 5) (a : BitVec 5) (t : BitVec 1) (b : BitVec 5) (u : BitVec 1) : Statement (.add d a t b u) := fun _ => ⟨all_cons (src5 _ _ _ _) (all_cons (src5 _ _ _ _) rfl), all_cons (dst5 _ _) rfl⟩
theorem sub (d : BitVec 5) (a : BitVec 5) (t : BitVec 1) (b : BitVec 5) (u : BitVec 1) : Statement (.sub d a t b u) := fun _ => ⟨all_cons (src5 _ _ _ _) (all_cons (src5 _ _ _ _) rfl), all_cons (dst5 _ _) rfl⟩
theorem and (d : BitVec 5) (a : BitVec 5) (t : BitVec 1) (b : BitVec 5) (u : BitVec 1) : Statement (.and d a t b u) := fun _ => ⟨all_cons (src5 _ _ _ _) (all_cons (src5 _ _ _ _) rfl), all_cons (dst5 _ _) rfl⟩
theorem or (d : BitVec 5) (a : BitVec 5) (t : BitVec 1) (b : BitVec 5) (u : BitVec 1) : Statement (.or d a t b u) := fun _ => ⟨all_cons (src5 _ _ _ _) (all_cons (src5 _ _ _ _) rfl), all_cons (dst5 _ _) rfl⟩
theorem xor (d : BitVec 5) (a : BitVec 5) (t : BitVec 1) (b : BitVec 5) (u : BitVec 1) : Statement (.xor d a t b u) := fun _ => ⟨all_cons (src5 _ _ _ _) (all_cons (src5 _ _ _ _) rfl), all_cons (dst5 _ _) rfl⟩
theorem andn (d : BitVec 5) (a : BitVec 5) (t : BitVec 1) (b : BitVec 5) (u : BitVec 1) : Statement (.andn d a t b u) := fun _ => ⟨all_cons (src5 _ _ _ _) (all_cons (src5 _ _ _ _) rfl), all_cons (dst5 _ _) rfl⟩
theorem sll (d : BitVec 5) (a : BitVec 5) (t : BitVec 1) (b : BitVec 5) (u : BitVec 1) : Statement (.sll d a t b u) := fun _ => ⟨all_cons (src5 _ _ _ _) (all_cons (src5 _ _ _ _) rfl), all_cons (dst5 _ _) rfl⟩
theorem srl (d : BitVec 5) (a : BitVec 5) (t : BitVec 1) (b : BitVec 5) (u : BitVec 1) : Statement (.srl d a t b u) := fun _ => ⟨all_cons (src5 _ _ _ _) (all_cons (src5 _ _ _ _) rfl), all_cons (dst5 _ _) rfl⟩
theorem sra (d : BitVec 5) (a : BitVec 5) (t : BitVec 1) (b : BitVec 5) (u : BitVec 1) : Statement (.sra d a t b u) := fun _ => ⟨all_cons (src5 _ _ _ _) (all_cons (src5 _ _ _ _) rfl), all_cons (dst5 _ _) rfl⟩
theorem slt (d : BitVec 5) (a : BitVec 5) (t : BitVec 1) (b : BitVec 5) (u : BitVec 1) : Statement (.slt d a t b u) := fun _ => ⟨all_cons (src5 _ _ _ _) (all_cons (src5 _ _ _ _) rfl), all_cons (dst5 _ _) rfl⟩
theorem sltn (d : BitVec 5) (a : BitVec 5) (t : BitVec 1) (b : BitVec 5) (u : BitVec 1) : Statement (.sltn d a t b u) := fun _ => ⟨all_cons (src5 _ _ _ _) (all_cons (src5 _ _ _ _) rfl), all_cons (dst5 _ _) rfl⟩
theorem min (d : BitVec 5) (a : BitVec 5) (t : BitVec 1) (b : BitVec 5) (u : BitVec 1) : Statement (.min d a t b u) := fun _ => ⟨all_cons (src5 _ _ _ _) (all_cons (src5 _ _ _ _) rfl), all_cons (dst5 _ _) rfl⟩
theorem max (d : BitVec 5) (a : BitVec 5) (t : BitVec 1) (b : BitVec 5) (u : BitVec 1) : Statement (.max d a t b u) := fun _ => ⟨all_cons (src5 _ _ _ _) (all_cons (src5 _ _ _ _) rfl), all_cons (dst5 _ _) rfl⟩
theorem minn (d : BitVec 5) (a : BitVec 5) (t : BitVec 1) (b : BitVec 5) (u : BitVec 1) : Statement (.minn d a t b u) := fun _ => ⟨all_cons (src5 _ _ _ _) (all_cons (src5 _ _ _ _) rfl), all_cons (dst5 _ _) rfl⟩
theorem maxn (d : BitVec 5) (a : BitVec 5) (t : BitVec 1) (b : BitVec 5) (u : BitVec 1) : Statement (.maxn d a t b u) := fun _ => ⟨all_cons (src5 _ _ _ _) (all_cons (src5 _ _ _ _) rfl), all_cons (dst5 _ _) rfl⟩
theorem lea (d : BitVec 5) (a : BitVec 5) (t : BitVec 1) (b : BitVec 5) (u : BitVec 1) (k : BitVec 3) : Statement (.lea d a t b u k) := fun _ => ⟨all_cons (src5 _ _ _ _) (all_cons (src5 _ _ _ _) rfl), all_cons (dst5 _ _) rfl⟩
theorem mul (d : BitVec 5) (a : BitVec 5) (t : BitVec 1) (b : BitVec 5) (u : BitVec 1) : Statement (.mul d a t b u) := fun _ => ⟨all_cons (src5 _ _ _ _) (all_cons (src5 _ _ _ _) rfl), all_cons (dst5 _ _) rfl⟩
theorem mulh (d : BitVec 5) (a : BitVec 5) (t : BitVec 1) (b : BitVec 5) (u : BitVec 1) : Statement (.mulh d a t b u) := fun _ => ⟨all_cons (src5 _ _ _ _) (all_cons (src5 _ _ _ _) rfl), all_cons (dst5 _ _) rfl⟩
theorem mulhn (d : BitVec 5) (a : BitVec 5) (t : BitVec 1) (b : BitVec 5) (u : BitVec 1) : Statement (.mulhn d a t b u) := fun _ => ⟨all_cons (src5 _ _ _ _) (all_cons (src5 _ _ _ _) rfl), all_cons (dst5 _ _) rfl⟩
theorem mulhsn (d : BitVec 5) (a : BitVec 5) (t : BitVec 1) (b : BitVec 5) (u : BitVec 1) : Statement (.mulhsn d a t b u) := fun _ => ⟨all_cons (src5 _ _ _ _) (all_cons (src5 _ _ _ _) rfl), all_cons (dst5 _ _) rfl⟩
theorem div (d : BitVec 5) (a : BitVec 5) (t : BitVec 1) (b : BitVec 5) (u : BitVec 1) : Statement (.div d a t b u) := fun _ => ⟨all_cons (src5 _ _ _ _) (all_cons (src5 _ _ _ _) rfl), all_cons (dst5 _ _) rfl⟩
theorem divn (d : BitVec 5) (a : BitVec 5) (t : BitVec 1) (b : BitVec 5) (u : BitVec 1) : Statement (.divn d a t b u) := fun _ => ⟨all_cons (src5 _ _ _ _) (all_cons (src5 _ _ _ _) rfl), all_cons (dst5 _ _) rfl⟩
theorem rem (d : BitVec 5) (a : BitVec 5) (t : BitVec 1) (b : BitVec 5) (u : BitVec 1) : Statement (.rem d a t b u) := fun _ => ⟨all_cons (src5 _ _ _ _) (all_cons (src5 _ _ _ _) rfl), all_cons (dst5 _ _) rfl⟩
theorem remn (d : BitVec 5) (a : BitVec 5) (t : BitVec 1) (b : BitVec 5) (u : BitVec 1) : Statement (.remn d a t b u) := fun _ => ⟨all_cons (src5 _ _ _ _) (all_cons (src5 _ _ _ _) rfl), all_cons (dst5 _ _) rfl⟩
theorem clz (d : BitVec 5) (a : BitVec 5) (t : BitVec 1) : Statement (.clz d a t) := fun _ => ⟨all_cons (src5 _ _ _ _) rfl, all_cons (dst5 _ _) rfl⟩
theorem ctz (d : BitVec 5) (a : BitVec 5) (t : BitVec 1) : Statement (.ctz d a t) := fun _ => ⟨all_cons (src5 _ _ _ _) rfl, all_cons (dst5 _ _) rfl⟩
theorem popc (d : BitVec 5) (a : BitVec 5) (t : BitVec 1) : Statement (.popc d a t) := fun _ => ⟨all_cons (src5 _ _ _ _) rfl, all_cons (dst5 _ _) rfl⟩
theorem sel (d : BitVec 5) (a : BitVec 5) (t : BitVec 1) (b : BitVec 5) (u : BitVec 1) : Statement (.sel d a t b u) := fun _ => ⟨all_cons (src5 _ _ _ _) (all_cons (src5 _ _ _ _) (all_cons (src5 _ _ _ _) rfl)), all_cons (dst5 _ _) rfl⟩
theorem bext (d : BitVec 5) (a : BitVec 5) (t : BitVec 1) (b : BitVec 5) (u : BitVec 1) : Statement (.bext d a t b u) := fun _ => ⟨all_cons (src5 _ _ _ _) (all_cons (src5 _ _ _ _) rfl), all_cons (dst5 _ _) rfl⟩
theorem bexts (d : BitVec 5) (a : BitVec 5) (t : BitVec 1) (b : BitVec 5) (u : BitVec 1) : Statement (.bexts d a t b u) := fun _ => ⟨all_cons (src5 _ _ _ _) (all_cons (src5 _ _ _ _) rfl), all_cons (dst5 _ _) rfl⟩
theorem bins (d : BitVec 5) (a : BitVec 5) (t : BitVec 1) (b : BitVec 5) (u : BitVec 1) : Statement (.bins d a t b u) := fun _ => ⟨all_cons (src5 _ _ _ _) (all_cons (src5 _ _ _ _) (all_cons (src5 _ _ _ _) rfl)), all_cons (dst5 _ _) rfl⟩
theorem jr (a : BitVec 5) (t : BitVec 1) : Statement (.jr a t) := fun _ => ⟨all_cons (src5 _ _ _ _) rfl, rfl⟩
theorem callr (d : BitVec 5) (a : BitVec 5) (t : BitVec 1) : Statement (.callr d a t) := fun _ => ⟨all_cons (src5 _ _ _ _) rfl, all_cons (dst5 _ _) rfl⟩
theorem lpset (a : BitVec 5) (t : BitVec 1) : Statement (.lpset a t) := fun _ => ⟨all_cons (src5 _ _ _ _) rfl, rfl⟩
theorem lpidx (d : BitVec 5) (l : BitVec 2) : Statement (.lpidx d l) := fun _ => ⟨rfl, all_cons (dst5 _ _) rfl⟩
theorem lpaddr (d : BitVec 5) (l : BitVec 2) : Statement (.lpaddr d l) := fun _ => ⟨rfl, all_cons (dst5 _ _) rfl⟩
theorem addi (d : BitVec 5) (a : BitVec 5) (t : BitVec 1) (i : BitVec 15) : Statement (.addi d a t i) := fun _ => ⟨all_cons (src5 _ _ _ _) rfl, all_cons (dst5 _ _) rfl⟩
theorem andi (d : BitVec 5) (a : BitVec 5) (t : BitVec 1) (i : BitVec 15) : Statement (.andi d a t i) := fun _ => ⟨all_cons (src5 _ _ _ _) rfl, all_cons (dst5 _ _) rfl⟩
theorem ori (d : BitVec 5) (a : BitVec 5) (t : BitVec 1) (i : BitVec 15) : Statement (.ori d a t i) := fun _ => ⟨all_cons (src5 _ _ _ _) rfl, all_cons (dst5 _ _) rfl⟩
theorem xori (d : BitVec 5) (a : BitVec 5) (t : BitVec 1) (i : BitVec 15) : Statement (.xori d a t i) := fun _ => ⟨all_cons (src5 _ _ _ _) rfl, all_cons (dst5 _ _) rfl⟩
theorem slti (d : BitVec 5) (a : BitVec 5) (t : BitVec 1) (i : BitVec 15) : Statement (.slti d a t i) := fun _ => ⟨all_cons (src5 _ _ _ _) rfl, all_cons (dst5 _ _) rfl⟩
theorem sltni (d : BitVec 5) (a : BitVec 5) (t : BitVec 1) (i : BitVec 15) : Statement (.sltni d a t i) := fun _ => ⟨all_cons (src5 _ _ _ _) rfl, all_cons (dst5 _ _) rfl⟩
theorem slli (d : BitVec 5) (a : BitVec 5) (t : BitVec 1) (n : BitVec 6) : Statement (.slli d a t n) := fun _ => ⟨all_cons (src5 _ _ _ _) rfl, all_cons (dst5 _ _) rfl⟩
theorem srli (d : BitVec 5) (a : BitVec 5) (t : BitVec 1) (n : BitVec 6) : Statement (.srli d a t n) := fun _ => ⟨all_cons (src5 _ _ _ _) rfl, all_cons (dst5 _ _) rfl⟩
theorem srai (d : BitVec 5) (a : BitVec 5) (t : BitVec 1) (n : BitVec 6) : Statement (.srai d a t n) := fun _ => ⟨all_cons (src5 _ _ _ _) rfl, all_cons (dst5 _ _) rfl⟩
theorem cadr (d : BitVec 5) (a : BitVec 5) (t : BitVec 1) (g : BitVec 3) (x : BitVec 4) (y : BitVec 4) (c : BitVec 2) : Statement (.cadr d a t g x y c) := fun _ => ⟨all_cons (src5 _ _ _ _) rfl, all_cons (dst5 _ _) rfl⟩
theorem trap (n : BitVec 15) : Statement (.trap n) := fun _ => ⟨rfl, rfl⟩
theorem ctlr (d : BitVec 5) (i : BitVec 12) : Statement (.ctlr d i) := fun _ => ⟨rfl, all_cons (dst5 _ _) rfl⟩
theorem ctlw (a : BitVec 5) (t : BitVec 1) (i : BitVec 12) : Statement (.ctlw a t i) := fun _ => ⟨all_cons (src5 _ _ _ _) rfl, rfl⟩
theorem beq (a : BitVec 5) (t : BitVec 1) (b : BitVec 5) (u : BitVec 1) (o : BitVec 14) : Statement (.beq a t b u o) := fun _ => ⟨all_cons (src5 _ _ _ _) (all_cons (src5 _ _ _ _) rfl), rfl⟩
theorem bne (a : BitVec 5) (t : BitVec 1) (b : BitVec 5) (u : BitVec 1) (o : BitVec 14) : Statement (.bne a t b u o) := fun _ => ⟨all_cons (src5 _ _ _ _) (all_cons (src5 _ _ _ _) rfl), rfl⟩
theorem blt (a : BitVec 5) (t : BitVec 1) (b : BitVec 5) (u : BitVec 1) (o : BitVec 14) : Statement (.blt a t b u o) := fun _ => ⟨all_cons (src5 _ _ _ _) (all_cons (src5 _ _ _ _) rfl), rfl⟩
theorem bge (a : BitVec 5) (t : BitVec 1) (b : BitVec 5) (u : BitVec 1) (o : BitVec 14) : Statement (.bge a t b u o) := fun _ => ⟨all_cons (src5 _ _ _ _) (all_cons (src5 _ _ _ _) rfl), rfl⟩
theorem bltn (a : BitVec 5) (t : BitVec 1) (b : BitVec 5) (u : BitVec 1) (o : BitVec 14) : Statement (.bltn a t b u o) := fun _ => ⟨all_cons (src5 _ _ _ _) (all_cons (src5 _ _ _ _) rfl), rfl⟩
theorem bgen (a : BitVec 5) (t : BitVec 1) (b : BitVec 5) (u : BitVec 1) (o : BitVec 14) : Statement (.bgen a t b u o) := fun _ => ⟨all_cons (src5 _ _ _ _) (all_cons (src5 _ _ _ _) rfl), rfl⟩
theorem lpnext (l : BitVec 2) (o : BitVec 14) : Statement (.lpnext l o) := fun _ => ⟨rfl, rfl⟩
theorem ldN8 (d : BitVec 5) (b : BitVec 5) (t : BitVec 1) (w : BitVec 2) (r : BitVec 1) (p : BitVec 12) : Statement (.ldN8 d b t w r p) := fun _ => ⟨all_cons (src5 _ _ _ _) rfl, all_cons (dst5 _ _) rfl⟩
theorem ldN16 (d : BitVec 5) (b : BitVec 5) (t : BitVec 1) (w : BitVec 2) (r : BitVec 1) (p : BitVec 12) : Statement (.ldN16 d b t w r p) := fun _ => ⟨all_cons (src5 _ _ _ _) rfl, all_cons (dst5 _ _) rfl⟩
theorem ldN32 (d : BitVec 5) (b : BitVec 5) (t : BitVec 1) (w : BitVec 2) (r : BitVec 1) (p : BitVec 12) : Statement (.ldN32 d b t w r p) := fun _ => ⟨all_cons (src5 _ _ _ _) rfl, all_cons (dst5 _ _) rfl⟩
theorem ld64 (d : BitVec 5) (b : BitVec 5) (t : BitVec 1) (w : BitVec 2) (r : BitVec 1) (p : BitVec 12) : Statement (.ld64 d b t w r p) := fun _ => ⟨all_cons (src5 _ _ _ _) rfl, all_cons (dst5 _ _) rfl⟩
theorem ldS8 (d : BitVec 5) (b : BitVec 5) (t : BitVec 1) (w : BitVec 2) (r : BitVec 1) (p : BitVec 12) : Statement (.ldS8 d b t w r p) := fun _ => ⟨all_cons (src5 _ _ _ _) rfl, all_cons (dst5 _ _) rfl⟩
theorem ldS16 (d : BitVec 5) (b : BitVec 5) (t : BitVec 1) (w : BitVec 2) (r : BitVec 1) (p : BitVec 12) : Statement (.ldS16 d b t w r p) := fun _ => ⟨all_cons (src5 _ _ _ _) rfl, all_cons (dst5 _ _) rfl⟩
theorem ldS32 (d : BitVec 5) (b : BitVec 5) (t : BitVec 1) (w : BitVec 2) (r : BitVec 1) (p : BitVec 12) : Statement (.ldS32 d b t w r p) := fun _ => ⟨all_cons (src5 _ _ _ _) rfl, all_cons (dst5 _ _) rfl⟩
theorem vld (v : BitVec 5) (b : BitVec 5) (t : BitVec 1) (w : BitVec 2) (r : BitVec 1) (x : BitVec 1) (p : BitVec 11) : Statement (.vld v b t w r x p) := fun _ => ⟨all_cons (src5 _ _ _ _) rfl, all_cons (dstX _ _ _) rfl⟩
theorem st8 (d : BitVec 5) (b : BitVec 5) (t : BitVec 1) (w : BitVec 2) (r : BitVec 1) (p : BitVec 12) : Statement (.st8 d b t w r p) := fun _ => ⟨all_cons (src5 _ _ _ _) (all_cons (src5 _ _ _ _) rfl), rfl⟩
theorem st16 (d : BitVec 5) (b : BitVec 5) (t : BitVec 1) (w : BitVec 2) (r : BitVec 1) (p : BitVec 12) : Statement (.st16 d b t w r p) := fun _ => ⟨all_cons (src5 _ _ _ _) (all_cons (src5 _ _ _ _) rfl), rfl⟩
theorem st32 (d : BitVec 5) (b : BitVec 5) (t : BitVec 1) (w : BitVec 2) (r : BitVec 1) (p : BitVec 12) : Statement (.st32 d b t w r p) := fun _ => ⟨all_cons (src5 _ _ _ _) (all_cons (src5 _ _ _ _) rfl), rfl⟩
theorem st64 (d : BitVec 5) (b : BitVec 5) (t : BitVec 1) (w : BitVec 2) (r : BitVec 1) (p : BitVec 12) : Statement (.st64 d b t w r p) := fun _ => ⟨all_cons (src5 _ _ _ _) (all_cons (src5 _ _ _ _) rfl), rfl⟩
theorem vst (v : BitVec 5) (b : BitVec 5) (t : BitVec 1) (w : BitVec 2) (r : BitVec 1) (x : BitVec 1) (p : BitVec 11) : Statement (.vst v b t w r x p) := fun _ => ⟨all_cons (srcV _ _ _ _ _) (all_cons (src5 _ _ _ _) rfl), rfl⟩
theorem ldAcq32 (d : BitVec 5) (b : BitVec 5) (t : BitVec 1) (s : BitVec 3) (p : BitVec 12) : Statement (.ldAcq32 d b t s p) := fun _ => ⟨all_cons (src5 _ _ _ _) rfl, all_cons (dst5 _ _) rfl⟩
theorem ldAcq64 (d : BitVec 5) (b : BitVec 5) (t : BitVec 1) (s : BitVec 3) (p : BitVec 12) : Statement (.ldAcq64 d b t s p) := fun _ => ⟨all_cons (src5 _ _ _ _) rfl, all_cons (dst5 _ _) rfl⟩
theorem stRel32 (d : BitVec 5) (b : BitVec 5) (t : BitVec 1) (s : BitVec 3) (p : BitVec 12) : Statement (.stRel32 d b t s p) := fun _ => ⟨all_cons (src5 _ _ _ _) (all_cons (src5 _ _ _ _) rfl), rfl⟩
theorem stRel64 (d : BitVec 5) (b : BitVec 5) (t : BitVec 1) (s : BitVec 3) (p : BitVec 12) : Statement (.stRel64 d b t s p) := fun _ => ⟨all_cons (src5 _ _ _ _) (all_cons (src5 _ _ _ _) rfl), rfl⟩
theorem ldfe (d : BitVec 5) (b : BitVec 5) (t : BitVec 1) (w : BitVec 2) (r : BitVec 1) (p : BitVec 12) : Statement (.ldfe d b t w r p) := fun _ => ⟨all_cons (src5 _ _ _ _) rfl, all_cons (dst5 _ _) rfl⟩
theorem stef (d : BitVec 5) (b : BitVec 5) (t : BitVec 1) (w : BitVec 2) (r : BitVec 1) (p : BitVec 12) : Statement (.stef d b t w r p) := fun _ => ⟨all_cons (src5 _ _ _ _) (all_cons (src5 _ _ _ _) rfl), rfl⟩
theorem ldPw (d : BitVec 5) (b : BitVec 5) (t : BitVec 1) (w : BitVec 2) (r : BitVec 1) (p : BitVec 12) : Statement (.ldPw d b t w r p) := fun _ => ⟨all_cons (src5 _ _ _ _) rfl, all_cons (dst5 _ _) rfl⟩
theorem vlds (v : BitVec 5) (a : BitVec 5) (t : BitVec 1) (b : BitVec 5) (u : BitVec 1) (x : BitVec 1) (w : BitVec 2) (r : BitVec 1) (z : BitVec 2) : Statement (.vlds v a t b u x w r z) := fun _ => ⟨all_cons (src5 _ _ _ _) (all_cons (src5 _ _ _ _) rfl), all_cons (dstX _ _ _) rfl⟩
theorem vldx (v : BitVec 5) (a : BitVec 5) (t : BitVec 1) (b : BitVec 5) (u : BitVec 1) (x : BitVec 1) (w : BitVec 2) (r : BitVec 1) : Statement (.vldx v a t b u x w r) := fun _ => ⟨all_cons (src5 _ _ _ _) (all_cons (srcV5 _ _ _ _) rfl), all_cons (dstX _ _ _) rfl⟩
theorem mwait (k : BitVec 2) : Statement (.mwait k) := fun _ => ⟨rfl, rfl⟩
theorem qbind (a : BitVec 5) (t : BitVec 1) (k : BitVec 2) : Statement (.qbind a t k) := fun _ => ⟨all_cons (src5 _ _ _ _) rfl, rfl⟩
theorem qunbind (k : BitVec 2) : Statement (.qunbind k) := fun _ => ⟨rfl, rfl⟩
theorem qstat (d : BitVec 5) (k : BitVec 2) : Statement (.qstat d k) := fun _ => ⟨rfl, all_cons (dst5 _ _) rfl⟩
theorem qpeek (d : BitVec 5) (k : BitVec 2) : Statement (.qpeek d k) := fun _ => ⟨rfl, all_cons (dst5 _ _) rfl⟩
theorem vqpush (v : BitVec 5) (t : BitVec 1) (x : BitVec 1) (k : BitVec 2) : Statement (.vqpush v t x k) := fun _ => ⟨all_cons (srcV _ _ _ _ _) rfl, rfl⟩
theorem vqpop (v : BitVec 5) (x : BitVec 1) (k : BitVec 2) : Statement (.vqpop v x k) := fun _ => ⟨rfl, all_cons (dstX _ _ _) rfl⟩
theorem qcfgr (d : BitVec 5) (a : BitVec 5) (t : BitVec 1) : Statement (.qcfgr d a t) := fun _ => ⟨all_cons (src5 _ _ _ _) rfl, all_cons (dst5 _ _) rfl⟩
theorem qcfgw (a : BitVec 5) (t : BitVec 1) (b : BitVec 5) (u : BitVec 1) : Statement (.qcfgw a t b u) := fun _ => ⟨all_cons (src5 _ _ _ _) (all_cons (src5 _ _ _ _) rfl), rfl⟩
theorem ttag (d : BitVec 5) (a : BitVec 5) (t : BitVec 1) (b : BitVec 5) (u : BitVec 1) : Statement (.ttag d a t b u) := fun _ => ⟨all_cons (src5 _ _ _ _) (all_cons (src5 _ _ _ _) rfl), all_cons (dst5 _ _) rfl⟩
theorem tfld (d : BitVec 5) (a : BitVec 5) (t : BitVec 1) (f : BitVec 3) : Statement (.tfld d a t f) := fun _ => ⟨all_cons (src5 _ _ _ _) rfl, all_cons (dst5 _ _) rfl⟩
theorem tins (a : BitVec 5) (t : BitVec 1) (b : BitVec 5) (u : BitVec 1) : Statement (.tins a t b u) := fun _ => ⟨all_cons (src5 _ _ _ _) (all_cons (src5 _ _ _ _) rfl), rfl⟩
theorem tinsd (a : BitVec 5) (t : BitVec 1) (b : BitVec 5) (u : BitVec 1) : Statement (.tinsd a t b u) := fun _ => ⟨all_cons (src5 _ _ _ _) (all_cons (src5 _ _ _ _) rfl), rfl⟩
theorem tgen (d : BitVec 5) : Statement (.tgen d) := fun _ => ⟨rfl, all_cons (dst5 _ _) rfl⟩
theorem covQ (d : BitVec 5) (a : BitVec 5) (t : BitVec 1) : Statement (.covQ d a t) := fun _ => ⟨all_cons (src5 _ _ _ _) rfl, all_cons (dst5 _ _) rfl⟩
theorem covRd (d : BitVec 5) (i : BitVec 3) : Statement (.covRd d i) := fun _ => ⟨rfl, all_cons (dst5 _ _) rfl⟩
theorem poolCnt (d : BitVec 5) : Statement (.poolCnt d) := fun _ => ⟨rfl, all_cons (dst5 _ _) rfl⟩
theorem amoAdd (d : BitVec 5) (a : BitVec 5) (t : BitVec 1) (b : BitVec 5) (u : BitVec 1) (l : BitVec 1) (r : BitVec 1) (w : BitVec 2) : Statement (.amoAdd d a t b u l r w) := fun _ => ⟨all_cons (src5 _ _ _ _) (all_cons (src5 _ _ _ _) rfl), all_cons (dst5 _ _) rfl⟩
theorem amoAnd (d : BitVec 5) (a : BitVec 5) (t : BitVec 1) (b : BitVec 5) (u : BitVec 1) (l : BitVec 1) (r : BitVec 1) (w : BitVec 2) : Statement (.amoAnd d a t b u l r w) := fun _ => ⟨all_cons (src5 _ _ _ _) (all_cons (src5 _ _ _ _) rfl), all_cons (dst5 _ _) rfl⟩
theorem amoOr (d : BitVec 5) (a : BitVec 5) (t : BitVec 1) (b : BitVec 5) (u : BitVec 1) (l : BitVec 1) (r : BitVec 1) (w : BitVec 2) : Statement (.amoOr d a t b u l r w) := fun _ => ⟨all_cons (src5 _ _ _ _) (all_cons (src5 _ _ _ _) rfl), all_cons (dst5 _ _) rfl⟩
theorem amoXor (d : BitVec 5) (a : BitVec 5) (t : BitVec 1) (b : BitVec 5) (u : BitVec 1) (l : BitVec 1) (r : BitVec 1) (w : BitVec 2) : Statement (.amoXor d a t b u l r w) := fun _ => ⟨all_cons (src5 _ _ _ _) (all_cons (src5 _ _ _ _) rfl), all_cons (dst5 _ _) rfl⟩
theorem amoMin (d : BitVec 5) (a : BitVec 5) (t : BitVec 1) (b : BitVec 5) (u : BitVec 1) (l : BitVec 1) (r : BitVec 1) (w : BitVec 2) : Statement (.amoMin d a t b u l r w) := fun _ => ⟨all_cons (src5 _ _ _ _) (all_cons (src5 _ _ _ _) rfl), all_cons (dst5 _ _) rfl⟩
theorem amoMax (d : BitVec 5) (a : BitVec 5) (t : BitVec 1) (b : BitVec 5) (u : BitVec 1) (l : BitVec 1) (r : BitVec 1) (w : BitVec 2) : Statement (.amoMax d a t b u l r w) := fun _ => ⟨all_cons (src5 _ _ _ _) (all_cons (src5 _ _ _ _) rfl), all_cons (dst5 _ _) rfl⟩
theorem amoMinu (d : BitVec 5) (a : BitVec 5) (t : BitVec 1) (b : BitVec 5) (u : BitVec 1) (l : BitVec 1) (r : BitVec 1) (w : BitVec 2) : Statement (.amoMinu d a t b u l r w) := fun _ => ⟨all_cons (src5 _ _ _ _) (all_cons (src5 _ _ _ _) rfl), all_cons (dst5 _ _) rfl⟩
theorem amoMaxu (d : BitVec 5) (a : BitVec 5) (t : BitVec 1) (b : BitVec 5) (u : BitVec 1) (l : BitVec 1) (r : BitVec 1) (w : BitVec 2) : Statement (.amoMaxu d a t b u l r w) := fun _ => ⟨all_cons (src5 _ _ _ _) (all_cons (src5 _ _ _ _) rfl), all_cons (dst5 _ _) rfl⟩
theorem amoSwap (d : BitVec 5) (a : BitVec 5) (t : BitVec 1) (b : BitVec 5) (u : BitVec 1) (l : BitVec 1) (r : BitVec 1) (w : BitVec 2) : Statement (.amoSwap d a t b u l r w) := fun _ => ⟨all_cons (src5 _ _ _ _) (all_cons (src5 _ _ _ _) rfl), all_cons (dst5 _ _) rfl⟩
theorem amoCas (d : BitVec 5) (a : BitVec 5) (t : BitVec 1) (b : BitVec 5) (u : BitVec 1) (l : BitVec 1) (r : BitVec 1) (w : BitVec 2) : Statement (.amoCas d a t b u l r w) := fun _ => ⟨all_cons (src5 _ _ _ _) (all_cons (src5 _ _ _ _) (all_cons (src5 _ _ _ _) rfl)), all_cons (dst5 _ _) rfl⟩
theorem amoFaddF32 (d : BitVec 5) (a : BitVec 5) (t : BitVec 1) (b : BitVec 5) (u : BitVec 1) (r : BitVec 1) (w : BitVec 2) : Statement (.amoFaddF32 d a t b u r w) := fun _ => ⟨all_cons (src5 _ _ _ _) (all_cons (src5 _ _ _ _) rfl), all_cons (dst5 _ _) rfl⟩
theorem amoInclt (d : BitVec 5) (a : BitVec 5) (t : BitVec 1) (b : BitVec 5) (u : BitVec 1) (l : BitVec 1) (r : BitVec 1) (w : BitVec 2) : Statement (.amoInclt d a t b u l r w) := fun _ => ⟨all_cons (src5 _ _ _ _) (all_cons (src5 _ _ _ _) rfl), all_cons (dst5 _ _) rfl⟩
theorem joinInit (a : BitVec 5) (t : BitVec 1) (b : BitVec 5) (u : BitVec 1) : Statement (.joinInit a t b u) := fun _ => ⟨all_cons (src5 _ _ _ _) (all_cons (src5 _ _ _ _) rfl), rfl⟩
theorem joinArrive (a : BitVec 5) (t : BitVec 1) (b : BitVec 5) (u : BitVec 1) : Statement (.joinArrive a t b u) := fun _ => ⟨all_cons (src5 _ _ _ _) (all_cons (src5 _ _ _ _) rfl), rfl⟩
theorem ssigSet (a : BitVec 5) (t : BitVec 1) (b : BitVec 5) (u : BitVec 1) : Statement (.ssigSet a t b u) := fun _ => ⟨all_cons (src5 _ _ _ _) (all_cons (src5 _ _ _ _) rfl), rfl⟩
theorem ssigAdd (a : BitVec 5) (t : BitVec 1) (b : BitVec 5) (u : BitVec 1) : Statement (.ssigAdd a t b u) := fun _ => ⟨all_cons (src5 _ _ _ _) (all_cons (src5 _ _ _ _) rfl), rfl⟩
theorem swait (d : BitVec 5) (a : BitVec 5) (t : BitVec 1) (b : BitVec 5) (u : BitVec 1) (c : BitVec 3) : Statement (.swait d a t b u c) := fun _ => ⟨all_cons (src5 _ _ _ _) (all_cons (src5 _ _ _ _) rfl), all_cons (dst5 _ _) rfl⟩
theorem barrArr (l : BitVec 3) (i : BitVec 6) : Statement (.barrArr l i) := fun _ => ⟨rfl, rfl⟩
theorem barrWait (l : BitVec 3) (i : BitVec 6) : Statement (.barrWait l i) := fun _ => ⟨rfl, rfl⟩
theorem barrSync (l : BitVec 3) (i : BitVec 6) : Statement (.barrSync l i) := fun _ => ⟨rfl, rfl⟩
theorem barrSyncCmb (a : BitVec 5) (t : BitVec 1) (l : BitVec 3) (i : BitVec 6) : Statement (.barrSyncCmb a t l i) := fun _ => ⟨all_cons (src5 _ _ _ _) rfl, rfl⟩
theorem repart (m : BitVec 2) : Statement (.repart m) := fun _ => ⟨rfl, rfl⟩
theorem slotw (a : BitVec 5) (t : BitVec 1) : Statement (.slotw a t) := fun _ => ⟨all_cons (src5 _ _ _ _) rfl, rfl⟩
theorem sleep (a : BitVec 5) (t : BitVec 1) : Statement (.sleep a t) := fun _ => ⟨all_cons (src5 _ _ _ _) rfl, rfl⟩
theorem xlinv (a : BitVec 5) (t : BitVec 1) (b : BitVec 5) (u : BitVec 1) : Statement (.xlinv a t b u) := fun _ => ⟨all_cons (src5 _ _ _ _) (all_cons (src5 _ _ _ _) rfl), rfl⟩
theorem ctxsv (a : BitVec 5) (t : BitVec 1) (b : BitVec 5) (u : BitVec 1) : Statement (.ctxsv a t b u) := fun _ => ⟨all_cons (src5 _ _ _ _) (all_cons (src5 _ _ _ _) rfl), rfl⟩
theorem ctxld (a : BitVec 5) (t : BitVec 1) (b : BitVec 5) (u : BitVec 1) : Statement (.ctxld a t b u) := fun _ => ⟨all_cons (src5 _ _ _ _) (all_cons (src5 _ _ _ _) rfl), rfl⟩
theorem telEv (a : BitVec 5) (t : BitVec 1) (b : BitVec 5) (u : BitVec 1) : Statement (.telEv a t b u) := fun _ => ⟨all_cons (src5 _ _ _ _) (all_cons (src5 _ _ _ _) rfl), rfl⟩
theorem lim (d : BitVec 5) (i : BitVec 48) : Statement (.lim d i) := fun _ => ⟨rfl, all_cons (dst5 _ _) rfl⟩
theorem call (d : BitVec 5) (o : BitVec 32) : Statement (.call d o) := fun _ => ⟨rfl, all_cons (dst5 _ _) rfl⟩
theorem vcvtScaled (k : BitVec 10) (r : BitVec 2) (d : BitVec 6) (a : BitVec 6) (t : BitVec 1) (g : BitVec 6) (s : BitVec 6) (o : BitVec 1) : Statement (.vcvtScaled k r d a t g s o) := fun _ => ⟨all_cons (src6 _ _ _ _) rfl, all_cons (dst6 _ _) rfl⟩
theorem spawn (b : BitVec 5) (a : BitVec 5) (t : BitVec 1) (h : BitVec 1) (l : BitVec 2) (o : BitVec 32) : Statement (.spawn b a t h l o) := by
  intro h
  replace h : decide (b.toNat ≤ 24) = true := h
  have hb := of_decide_eq_true h
  exact ⟨all_cons (src5 _ _ _ _) (all_cons (decide_eq_true (show _ < 32 by simp; omega)) (all_cons (decide_eq_true (show _ < 32 by simp; omega)) (all_cons (decide_eq_true (show _ < 32 by simp; omega)) (all_cons (decide_eq_true (show _ < 32 by simp; omega)) rfl)))), rfl⟩
theorem vand (d : BitVec 6) (a : BitVec 6) (t : BitVec 1) (b : BitVec 6) (u : BitVec 1) : Statement (.vand d a t b u) := fun _ => ⟨all_cons (src6 _ _ _ _) (all_cons (src6 _ _ _ _) rfl), all_cons (dst6 _ _) rfl⟩
theorem vor (d : BitVec 6) (a : BitVec 6) (t : BitVec 1) (b : BitVec 6) (u : BitVec 1) : Statement (.vor d a t b u) := fun _ => ⟨all_cons (src6 _ _ _ _) (all_cons (src6 _ _ _ _) rfl), all_cons (dst6 _ _) rfl⟩
theorem vxor (d : BitVec 6) (a : BitVec 6) (t : BitVec 1) (b : BitVec 6) (u : BitVec 1) : Statement (.vxor d a t b u) := fun _ => ⟨all_cons (src6 _ _ _ _) (all_cons (src6 _ _ _ _) rfl), all_cons (dst6 _ _) rfl⟩
theorem vandn (d : BitVec 6) (a : BitVec 6) (t : BitVec 1) (b : BitVec 6) (u : BitVec 1) : Statement (.vandn d a t b u) := fun _ => ⟨all_cons (src6 _ _ _ _) (all_cons (src6 _ _ _ _) rfl), all_cons (dst6 _ _) rfl⟩
theorem vsel (d : BitVec 6) (a : BitVec 6) (t : BitVec 1) (b : BitVec 6) (u : BitVec 1) : Statement (.vsel d a t b u) := fun _ => ⟨all_cons (src6 _ _ _ _) (all_cons (src6 _ _ _ _) (all_cons (src6 _ _ _ _) rfl)), all_cons (dst6 _ _) rfl⟩
theorem vmov (d : BitVec 6) (a : BitVec 6) (t : BitVec 1) : Statement (.vmov d a t) := fun _ => ⟨all_cons (src6 _ _ _ _) rfl, all_cons (dst6 _ _) rfl⟩
theorem vshuf (d : BitVec 6) (a : BitVec 6) (t : BitVec 1) (b : BitVec 6) (u : BitVec 1) : Statement (.vshuf d a t b u) := fun _ => ⟨all_cons (src6 _ _ _ _) (all_cons (src6 _ _ _ _) rfl), all_cons (dst6 _ _) rfl⟩
theorem vcrc (d : BitVec 6) (a : BitVec 6) (t : BitVec 1) : Statement (.vcrc d a t) := fun _ => ⟨all_cons (src6 _ _ _ _) (all_cons (src6 _ _ _ _) rfl), all_cons (dst6 _ _) rfl⟩
theorem vadd (d : BitVec 6) (a : BitVec 6) (t : BitVec 1) (b : BitVec 6) (u : BitVec 1) (y : BitVec 6) : Statement (.vadd d a t b u y) := fun _ => ⟨all_cons (src6 _ _ _ _) (all_cons (src6 _ _ _ _) rfl), all_cons (dst6 _ _) rfl⟩
theorem vsub (d : BitVec 6) (a : BitVec 6) (t : BitVec 1) (b : BitVec 6) (u : BitVec 1) (y : BitVec 6) : Statement (.vsub d a t b u y) := fun _ => ⟨all_cons (src6 _ _ _ _) (all_cons (src6 _ _ _ _) rfl), all_cons (dst6 _ _) rfl⟩
theorem vmul (d : BitVec 6) (a : BitVec 6) (t : BitVec 1) (b : BitVec 6) (u : BitVec 1) (y : BitVec 6) : Statement (.vmul d a t b u y) := fun _ => ⟨all_cons (src6 _ _ _ _) (all_cons (src6 _ _ _ _) rfl), all_cons (dst6 _ _) rfl⟩
theorem vmin (d : BitVec 6) (a : BitVec 6) (t : BitVec 1) (b : BitVec 6) (u : BitVec 1) (y : BitVec 6) : Statement (.vmin d a t b u y) := fun _ => ⟨all_cons (src6 _ _ _ _) (all_cons (src6 _ _ _ _) rfl), all_cons (dst6 _ _) rfl⟩
theorem vmax (d : BitVec 6) (a : BitVec 6) (t : BitVec 1) (b : BitVec 6) (u : BitVec 1) (y : BitVec 6) : Statement (.vmax d a t b u y) := fun _ => ⟨all_cons (src6 _ _ _ _) (all_cons (src6 _ _ _ _) rfl), all_cons (dst6 _ _) rfl⟩
theorem vfma (d : BitVec 6) (a : BitVec 6) (t : BitVec 1) (b : BitVec 6) (u : BitVec 1) (y : BitVec 6) : Statement (.vfma d a t b u y) := fun _ => ⟨all_cons (src6 _ _ _ _) (all_cons (src6 _ _ _ _) (all_cons (src6 _ _ _ _) rfl)), all_cons (dst6 _ _) rfl⟩
theorem vfms (d : BitVec 6) (a : BitVec 6) (t : BitVec 1) (b : BitVec 6) (u : BitVec 1) (y : BitVec 6) : Statement (.vfms d a t b u y) := fun _ => ⟨all_cons (src6 _ _ _ _) (all_cons (src6 _ _ _ _) (all_cons (src6 _ _ _ _) rfl)), all_cons (dst6 _ _) rfl⟩
theorem vabs (d : BitVec 6) (a : BitVec 6) (t : BitVec 1) (y : BitVec 6) : Statement (.vabs d a t y) := fun _ => ⟨all_cons (src6 _ _ _ _) rfl, all_cons (dst6 _ _) rfl⟩
theorem vneg (d : BitVec 6) (a : BitVec 6) (t : BitVec 1) (y : BitVec 6) : Statement (.vneg d a t y) := fun _ => ⟨all_cons (src6 _ _ _ _) rfl, all_cons (dst6 _ _) rfl⟩
theorem vclamp (d : BitVec 6) (a : BitVec 6) (t : BitVec 1) (b : BitVec 6) (u : BitVec 1) (y : BitVec 6) : Statement (.vclamp d a t b u y) := fun _ => ⟨all_cons (src6 _ _ _ _) (all_cons (src6 _ _ _ _) (all_cons (src6 _ _ _ _) rfl)), all_cons (dst6 _ _) rfl⟩
theorem vceq (d : BitVec 6) (a : BitVec 6) (t : BitVec 1) (b : BitVec 6) (u : BitVec 1) (y : BitVec 6) : Statement (.vceq d a t b u y) := fun _ => ⟨all_cons (src6 _ _ _ _) (all_cons (src6 _ _ _ _) rfl), all_cons (dst6 _ _) rfl⟩
theorem vcne (d : BitVec 6) (a : BitVec 6) (t : BitVec 1) (b : BitVec 6) (u : BitVec 1) (y : BitVec 6) : Statement (.vcne d a t b u y) := fun _ => ⟨all_cons (src6 _ _ _ _) (all_cons (src6 _ _ _ _) rfl), all_cons (dst6 _ _) rfl⟩
theorem vclt (d : BitVec 6) (a : BitVec 6) (t : BitVec 1) (b : BitVec 6) (u : BitVec 1) (y : BitVec 6) : Statement (.vclt d a t b u y) := fun _ => ⟨all_cons (src6 _ _ _ _) (all_cons (src6 _ _ _ _) rfl), all_cons (dst6 _ _) rfl⟩
theorem vcle (d : BitVec 6) (a : BitVec 6) (t : BitVec 1) (b : BitVec 6) (u : BitVec 1) (y : BitVec 6) : Statement (.vcle d a t b u y) := fun _ => ⟨all_cons (src6 _ _ _ _) (all_cons (src6 _ _ _ _) rfl), all_cons (dst6 _ _) rfl⟩
theorem vdot2F16 (d : BitVec 6) (a : BitVec 6) (t : BitVec 1) (b : BitVec 6) (u : BitVec 1) (r : BitVec 2) : Statement (.vdot2F16 d a t b u r) := fun _ => ⟨all_cons (src6 _ _ _ _) (all_cons (src6 _ _ _ _) (all_cons (src6 _ _ _ _) rfl)), all_cons (dst6 _ _) rfl⟩
theorem vdot4S8 (d : BitVec 6) (a : BitVec 6) (t : BitVec 1) (b : BitVec 6) (u : BitVec 1) : Statement (.vdot4S8 d a t b u) := fun _ => ⟨all_cons (src6 _ _ _ _) (all_cons (src6 _ _ _ _) (all_cons (src6 _ _ _ _) rfl)), all_cons (dst6 _ _) rfl⟩
theorem vredadd (d : BitVec 6) (a : BitVec 6) (t : BitVec 1) (y : BitVec 6) : Statement (.vredadd d a t y) := fun _ => ⟨all_cons (src6 _ _ _ _) rfl, all_cons (dst6 _ _) rfl⟩
theorem vredmin (d : BitVec 6) (a : BitVec 6) (t : BitVec 1) (y : BitVec 6) : Statement (.vredmin d a t y) := fun _ => ⟨all_cons (src6 _ _ _ _) rfl, all_cons (dst6 _ _) rfl⟩
theorem vredmax (d : BitVec 6) (a : BitVec 6) (t : BitVec 1) (y : BitVec 6) : Statement (.vredmax d a t y) := fun _ => ⟨all_cons (src6 _ _ _ _) rfl, all_cons (dst6 _ _) rfl⟩
theorem vsll (d : BitVec 6) (a : BitVec 6) (t : BitVec 1) (y : BitVec 6) (k : BitVec 7) : Statement (.vsll d a t y k) := fun _ => ⟨all_cons (src6 _ _ _ _) rfl, all_cons (dst6 _ _) rfl⟩
theorem vsrl (d : BitVec 6) (a : BitVec 6) (t : BitVec 1) (y : BitVec 6) (k : BitVec 7) : Statement (.vsrl d a t y k) := fun _ => ⟨all_cons (src6 _ _ _ _) rfl, all_cons (dst6 _ _) rfl⟩
theorem vsra (d : BitVec 6) (a : BitVec 6) (t : BitVec 1) (y : BitVec 6) (k : BitVec 7) : Statement (.vsra d a t y k) := fun _ => ⟨all_cons (src6 _ _ _ _) rfl, all_cons (dst6 _ _) rfl⟩
theorem vscale (d : BitVec 6) (a : BitVec 6) (t : BitVec 1) (y : BitVec 6) (k : BitVec 7) : Statement (.vscale d a t y k) := fun _ => ⟨all_cons (src6 _ _ _ _) rfl, all_cons (dst6 _ _) rfl⟩
theorem vsplat (d : BitVec 6) (s : BitVec 5) (t : BitVec 1) (y : BitVec 6) : Statement (.vsplat d s t y) := fun _ => ⟨all_cons (src5 _ _ _ _) rfl, all_cons (dst6 _ _) rfl⟩
theorem vins (d : BitVec 6) (s : BitVec 5) (t : BitVec 1) (y : BitVec 6) (i : BitVec 5) : Statement (.vins d s t y i) := fun _ => ⟨all_cons (src6 _ _ _ _) (all_cons (src5 _ _ _ _) rfl), all_cons (dst6 _ _) rfl⟩
theorem vext (s : BitVec 5) (a : BitVec 6) (t : BitVec 1) (y : BitVec 6) (i : BitVec 5) : Statement (.vext s a t y i) := fun _ => ⟨all_cons (src6 _ _ _ _) rfl, all_cons (dst5 _ _) rfl⟩
theorem vpack (d : BitVec 6) (a : BitVec 6) (t : BitVec 1) (y : BitVec 6) : Statement (.vpack d a t y) := fun _ => ⟨all_cons (src6 _ _ _ _) (all_cons (src6 _ _ _ _) rfl), all_cons (dst6 _ _) rfl⟩
theorem vunpack (d : BitVec 6) (a : BitVec 6) (t : BitVec 1) (h : BitVec 1) (y : BitVec 6) : Statement (.vunpack d a t h y) := fun _ => ⟨all_cons (src6 _ _ _ _) rfl, all_cons (dst6 _ _) rfl⟩
theorem vcvt (r : BitVec 2) (d : BitVec 6) (a : BitVec 6) (t : BitVec 1) (g : BitVec 6) (s : BitVec 6) (o : BitVec 1) : Statement (.vcvt r d a t g s o) := fun _ => ⟨all_cons (src6 _ _ _ _) rfl, all_cons (dst6 _ _) rfl⟩
theorem rcp (d : BitVec 6) (a : BitVec 6) (t : BitVec 1) (y : BitVec 6) : Statement (.rcp d a t y) := fun _ => ⟨all_cons (src6 _ _ _ _) rfl, all_cons (dst6 _ _) rfl⟩
theorem rsqrt (d : BitVec 6) (a : BitVec 6) (t : BitVec 1) (y : BitVec 6) : Statement (.rsqrt d a t y) := fun _ => ⟨all_cons (src6 _ _ _ _) rfl, all_cons (dst6 _ _) rfl⟩
theorem sqrt (d : BitVec 6) (a : BitVec 6) (t : BitVec 1) (y : BitVec 6) : Statement (.sqrt d a t y) := fun _ => ⟨all_cons (src6 _ _ _ _) rfl, all_cons (dst6 _ _) rfl⟩
theorem exp2 (d : BitVec 6) (a : BitVec 6) (t : BitVec 1) (y : BitVec 6) : Statement (.exp2 d a t y) := fun _ => ⟨all_cons (src6 _ _ _ _) rfl, all_cons (dst6 _ _) rfl⟩
theorem log2 (d : BitVec 6) (a : BitVec 6) (t : BitVec 1) (y : BitVec 6) : Statement (.log2 d a t y) := fun _ => ⟨all_cons (src6 _ _ _ _) rfl, all_cons (dst6 _ _) rfl⟩
theorem tanh (d : BitVec 6) (a : BitVec 6) (t : BitVec 1) (y : BitVec 6) : Statement (.tanh d a t y) := fun _ => ⟨all_cons (src6 _ _ _ _) rfl, all_cons (dst6 _ _) rfl⟩
theorem mxCfg (c : Cmd) : Statement (.mxCfg c) := fun _ => ⟨rfl, rfl⟩
theorem mxLdst (c : Cmd) : Statement (.mxLdst c) := fun _ => ⟨rfl, rfl⟩
theorem mxSwap (c : Cmd) : Statement (.mxSwap c) := fun _ => ⟨rfl, rfl⟩
theorem mxStream (c : Cmd) : Statement (.mxStream c) := fun _ => ⟨rfl, rfl⟩
theorem mxZero (c : Cmd) : Statement (.mxZero c) := fun _ => ⟨rfl, rfl⟩
theorem mxDrain (c : Cmd) : Statement (.mxDrain c) := fun _ => ⟨rfl, rfl⟩
theorem cpCopy (c : Cmd) : Statement (.cpCopy c) := fun _ => ⟨rfl, rfl⟩
theorem cpMcast (c : Cmd) : Statement (.cpMcast c) := fun _ => ⟨rfl, rfl⟩
theorem cpGather (c : Cmd) : Statement (.cpGather c) := fun _ => ⟨rfl, rfl⟩
theorem cpScatter (c : Cmd) : Statement (.cpScatter c) := fun _ => ⟨rfl, rfl⟩
theorem cpFill (c : Cmd) : Statement (.cpFill c) := fun _ => ⟨rfl, rfl⟩
theorem cpCrc (c : Cmd) : Statement (.cpCrc c) := fun _ => ⟨rfl, rfl⟩
theorem cpSend (c : Cmd) : Statement (.cpSend c) := fun _ => ⟨rfl, rfl⟩
theorem collReduce (c : Cmd) : Statement (.collReduce c) := fun _ => ⟨rfl, rfl⟩
theorem collBcast (c : Cmd) : Statement (.collBcast c) := fun _ => ⟨rfl, rfl⟩
theorem collAllgather (c : Cmd) : Statement (.collAllgather c) := fun _ => ⟨rfl, rfl⟩
theorem rcKern (c : Cmd) : Statement (.rcKern c) := fun _ => ⟨rfl, rfl⟩
theorem rcCmp (c : Cmd) : Statement (.rcCmp c) := fun _ => ⟨rfl, rfl⟩
theorem quinudFx (d : BitVec 3) (e : BitVec 3) (l : BitVec 5) (n : BitVec 5) : Statement (.quinudFx d e l n) := fun _ => ⟨rfl, rfl⟩
theorem quinudLi (d : BitVec 3) (i : BitVec 20) : Statement (.quinudLi d i) := fun _ => ⟨rfl, rfl⟩
theorem quinudAddi (d : BitVec 3) (a : BitVec 3) (i : BitVec 20) : Statement (.quinudAddi d a i) := fun _ => ⟨rfl, rfl⟩
theorem quinudAdd (d : BitVec 3) (a : BitVec 3) (b : BitVec 3) : Statement (.quinudAdd d a b) := fun _ => ⟨rfl, rfl⟩
theorem quinudSub (d : BitVec 3) (a : BitVec 3) (b : BitVec 3) : Statement (.quinudSub d a b) := fun _ => ⟨rfl, rfl⟩
theorem quinudAnd (d : BitVec 3) (a : BitVec 3) (b : BitVec 3) : Statement (.quinudAnd d a b) := fun _ => ⟨rfl, rfl⟩
theorem quinudOr (d : BitVec 3) (a : BitVec 3) (b : BitVec 3) : Statement (.quinudOr d a b) := fun _ => ⟨rfl, rfl⟩
theorem quinudXor (d : BitVec 3) (a : BitVec 3) (b : BitVec 3) : Statement (.quinudXor d a b) := fun _ => ⟨rfl, rfl⟩
theorem quinudShl (d : BitVec 3) (a : BitVec 3) (b : BitVec 3) : Statement (.quinudShl d a b) := fun _ => ⟨rfl, rfl⟩
theorem quinudShr (d : BitVec 3) (a : BitVec 3) (b : BitVec 3) : Statement (.quinudShr d a b) := fun _ => ⟨rfl, rfl⟩
theorem quinudMul (d : BitVec 3) (a : BitVec 3) (b : BitVec 3) : Statement (.quinudMul d a b) := fun _ => ⟨rfl, rfl⟩
theorem quinudMin (d : BitVec 3) (a : BitVec 3) (b : BitVec 3) : Statement (.quinudMin d a b) := fun _ => ⟨rfl, rfl⟩
theorem quinudMax (d : BitVec 3) (a : BitVec 3) (b : BitVec 3) : Statement (.quinudMax d a b) := fun _ => ⟨rfl, rfl⟩
theorem quinudCmp (d : BitVec 3) (a : BitVec 3) (b : BitVec 3) (c : BitVec 3) : Statement (.quinudCmp d a b c) := fun _ => ⟨rfl, rfl⟩
theorem quinudSel (d : BitVec 3) (a : BitVec 3) (b : BitVec 3) (c : BitVec 3) : Statement (.quinudSel d a b c) := fun _ => ⟨rfl, rfl⟩
theorem quinudLd (d : BitVec 3) (k : BitVec 10) : Statement (.quinudLd d k) := fun _ => ⟨rfl, rfl⟩
theorem quinudSt (a : BitVec 3) (k : BitVec 10) : Statement (.quinudSt a k) := fun _ => ⟨rfl, rfl⟩
theorem quinudKadd (a : BitVec 3) (k : BitVec 10) : Statement (.quinudKadd a k) := fun _ => ⟨rfl, rfl⟩
theorem quinudKmin (a : BitVec 3) (k : BitVec 10) : Statement (.quinudKmin a k) := fun _ => ⟨rfl, rfl⟩
theorem quinudKmax (a : BitVec 3) (k : BitVec 10) : Statement (.quinudKmax a k) := fun _ => ⟨rfl, rfl⟩
theorem quinudEwma (a : BitVec 3) (k : BitVec 10) (s : BitVec 5) : Statement (.quinudEwma a k s) := fun _ => ⟨rfl, rfl⟩
theorem quinudHlin (d : BitVec 3) (a : BitVec 3) (k : BitVec 10) (m : BitVec 6) (s : BitVec 4) : Statement (.quinudHlin d a k m s) := fun _ => ⟨rfl, rfl⟩
theorem quinudHlog (a : BitVec 3) (k : BitVec 10) (m : BitVec 6) : Statement (.quinudHlog a k m) := fun _ => ⟨rfl, rfl⟩
theorem quinudCms (a : BitVec 3) (k : BitVec 10) (m : BitVec 4) : Statement (.quinudCms a k m) := fun _ => ⟨rfl, rfl⟩
theorem quinudCmq (d : BitVec 3) (a : BitVec 3) (k : BitVec 10) (m : BitVec 4) : Statement (.quinudCmq d a k m) := fun _ => ⟨rfl, rfl⟩
theorem quinudBz (a : BitVec 3) (o : BitVec 5) : Statement (.quinudBz a o) := fun _ => ⟨rfl, rfl⟩
theorem quinudBnz (a : BitVec 3) (o : BitVec 5) : Statement (.quinudBnz a o) := fun _ => ⟨rfl, rfl⟩
theorem quinudTrig (a : BitVec 3) (t : BitVec 3) : Statement (.quinudTrig a t) := fun _ => ⟨rfl, rfl⟩
theorem commandCompletion (c : Cmd) (r : CmdResult) : Statement (.commandCompletion c r) := fun _ => ⟨rfl, rfl⟩
theorem recordArrival (a : Arrival) : Statement (.recordArrival a) := fun _ => ⟨rfl, rfl⟩
theorem firingDelivery (core : Nat) (f : Firing) : Statement (.firingDelivery core f) := fun _ => ⟨rfl, rfl⟩
theorem wakeMessage (w : Wake) : Statement (.wakeMessage w) := fun _ => ⟨rfl, rfl⟩
theorem contextFreeNotice (core : Nat) (m : Start) : Statement (.contextFreeNotice core m) := fun _ => ⟨rfl, rfl⟩
theorem refusalRetry (core : Nat) (m : Start) : Statement (.refusalRetry core m) := fun _ => ⟨rfl, rfl⟩
theorem withdrawal (r : Req) : Statement (.withdrawal r) := fun _ => ⟨rfl, rfl⟩
theorem presenceRequest (r : Req) : Statement (.presenceRequest r) := fun _ => ⟨rfl, rfl⟩
theorem presenceAnswer (th seq : Nat) (x : Word) : Statement (.presenceAnswer th seq x) := fun _ => ⟨rfl, rfl⟩
theorem remoteAccess (r : Req) : Statement (.remoteAccess r) := fun _ => ⟨rfl, rfl⟩
theorem storeAck (th : Nat) (k : Acked) : Statement (.storeAck th k) := fun _ => ⟨rfl, rfl⟩
theorem loadResult (l : Load) : Statement (.loadResult l) := fun _ => ⟨rfl, rfl⟩
theorem syncWordUpdate (r : Req) : Statement (.syncWordUpdate r) := fun _ => ⟨rfl, rfl⟩
theorem joinArrival (r : Req) : Statement (.joinArrival r) := fun _ => ⟨rfl, rfl⟩
theorem swaitRequest (r : Req) : Statement (.swaitRequest r) := fun _ => ⟨rfl, rfl⟩
theorem barrierArrival (b : BarrierMsg) : Statement (.barrierArrival b) := fun _ => ⟨rfl, rfl⟩
theorem channelEntry (core buf : Nat) (x : VWord) : Statement (.channelEntry core buf x) := fun _ => ⟨rfl, rfl⟩
theorem creditReturn (th core buf : Nat) : Statement (.creditReturn th core buf) := fun _ => ⟨rfl, rfl⟩
theorem bindAnswer (th win seq : Nat) (word : Word) : Statement (.bindAnswer th win seq word) := fun _ => ⟨rfl, rfl⟩
theorem launch (r : Request) : Statement (.launch r) := fun _ => ⟨rfl, rfl⟩
theorem replay (r : Request) : Statement (.replay r) := fun _ => ⟨rfl, rfl⟩
theorem closeSources (r : Request) : Statement (.closeSources r) := fun _ => ⟨rfl, rfl⟩
theorem release (r : Request) : Statement (.release r) := fun _ => ⟨rfl, rfl⟩
theorem dump (r : Request) : Statement (.dump r) := fun _ => ⟨rfl, rfl⟩
theorem attachRing (r : Request) : Statement (.attachRing r) := fun _ => ⟨rfl, rfl⟩
theorem frameArrival (port : Nat) (good : Bool) (frame : List Byte) : Statement (.frameArrival port good frame) := fun _ => ⟨rfl, rfl⟩
theorem telemetryRecord (die : Nat) (e : List (BitVec 32)) : Statement (.telemetryRecord die e) := fun _ => ⟨rfl, rfl⟩
theorem instructionCacheFill (quad xctx line : Nat) : Statement (.instructionCacheFill quad xctx line) := fun _ => ⟨rfl, rfl⟩
theorem combineTimeout (quad key : Nat) : Statement (.combineTimeout quad key) := fun _ => ⟨rfl, rfl⟩
theorem spillReturn (quad : Nat) : Statement (.spillReturn quad) := fun _ => ⟨rfl, rfl⟩
theorem processTrigger (quad : Nat) : Statement (.processTrigger quad) := fun _ => ⟨rfl, rfl⟩
theorem contextFree (th : Nat) : Statement (.contextFree th) := fun _ => ⟨rfl, rfl⟩
theorem slotTableSwitch (core : Nat) : Statement (.slotTableSwitch core) := fun _ => ⟨rfl, rfl⟩
theorem sleepEnd (th : Nat) : Statement (.sleepEnd th) := fun _ => ⟨rfl, rfl⟩
theorem deferredTrap (th : Nat) : Statement (.deferredTrap th) := fun _ => ⟨rfl, rfl⟩
theorem qstall (th : Nat) : Statement (.qstall th) := fun _ => ⟨rfl, rfl⟩
theorem fewaitExpiry (th : Nat) : Statement (.fewaitExpiry th) := fun _ => ⟨rfl, rfl⟩
theorem presenceResend (th : Nat) : Statement (.presenceResend th) := fun _ => ⟨rfl, rfl⟩
theorem storeBufferWrite (core : Nat) : Statement (.storeBufferWrite core) := fun _ => ⟨rfl, rfl⟩
theorem translationWalk (die : Nat) : Statement (.translationWalk die) := fun _ => ⟨rfl, rfl⟩
theorem faultAnswer (die index : Nat) (resume : Bool) : Statement (.faultAnswer die index resume) := fun _ => ⟨rfl, rfl⟩
theorem walkerEmit (lid : Nat) : Statement (.walkerEmit lid) := fun _ => ⟨rfl, rfl⟩
theorem reconFiring (quad : Nat) : Statement (.reconFiring quad) := fun _ => ⟨rfl, rfl⟩
theorem holeUnresolved (lid : Nat) : Statement (.holeUnresolved lid) := fun _ => ⟨rfl, rfl⟩
theorem stabilityWave (lid : Nat) : Statement (.stabilityWave lid) := fun _ => ⟨rfl, rfl⟩
theorem logicalQuadTurn (quad : Nat) : Statement (.logicalQuadTurn quad) := fun _ => ⟨rfl, rfl⟩
theorem doorbell (q : Nat) (p : Word) : Statement (.doorbell q p) := fun _ => ⟨rfl, rfl⟩
theorem qcfgWrite (q reg : Nat) (x : Word) : Statement (.qcfgWrite q reg x) := fun _ => ⟨rfl, rfl⟩
theorem requestAccept (svc : Nat) : Statement (.requestAccept svc) := fun _ => ⟨rfl, rfl⟩
theorem launchStart (lid : Nat) : Statement (.launchStart lid) := fun _ => ⟨rfl, rfl⟩
theorem apertureAccess (fn off size : Nat) (write : Bool) (x : Word) : Statement (.apertureAccess fn off size write x) := fun _ => ⟨rfl, rfl⟩
theorem ringConfigWrite (ring : Nat) (x : Word) : Statement (.ringConfigWrite ring x) := fun _ => ⟨rfl, rfl⟩
theorem classifierWrite (entry word : Nat) (x : Word) : Statement (.classifierWrite entry word x) := fun _ => ⟨rfl, rfl⟩
theorem egressFrame (port : Nat) : Statement (.egressFrame port) := fun _ => ⟨rfl, rfl⟩
theorem egstampRead (port : Nat) : Statement (.egstampRead port) := fun _ => ⟨rfl, rfl⟩
theorem pcsLock (port : Nat) (width : Nat) : Statement (.pcsLock port width) := fun _ => ⟨rfl, rfl⟩
theorem trainFlit (port : Nat) : Statement (.trainFlit port) := fun _ => ⟨rfl, rfl⟩
theorem dataFlitSend (port vc : Nat) : Statement (.dataFlitSend port vc) := fun _ => ⟨rfl, rfl⟩
theorem flitReceive (port : Nat) (flit : List Byte) : Statement (.flitReceive port flit) := fun _ => ⟨rfl, rfl⟩
theorem nakResend (port : Nat) : Statement (.nakResend port) := fun _ => ⟨rfl, rfl⟩
theorem clklatchWrite (x : Word) : Statement (.clklatchWrite x) := fun _ => ⟨rfl, rfl⟩
theorem clkstepWrite (x : Word) : Statement (.clkstepWrite x) := fun _ => ⟨rfl, rfl⟩
theorem partWrite (n : Nat) (x : Word) : Statement (.partWrite n x) := fun _ => ⟨rfl, rfl⟩
theorem xconnWrite (p : Nat) (x : Word) : Statement (.xconnWrite p x) := fun _ => ⟨rfl, rfl⟩
theorem xcselWrite (x : Word) : Statement (.xcselWrite x) := fun _ => ⟨rfl, rfl⟩
theorem ownsetGo (x : Word) : Statement (.ownsetGo x) := fun _ => ⟨rfl, rfl⟩
theorem xfenceGo (x : Word) : Statement (.xfenceGo x) := fun _ => ⟨rfl, rfl⟩
theorem preemptDrain (lid : Nat) : Statement (.preemptDrain lid) := fun _ => ⟨rfl, rfl⟩
theorem preemptSave (lid : Nat) : Statement (.preemptSave lid) := fun _ => ⟨rfl, rfl⟩
theorem saveCaptureComplete (lid : Nat) : Statement (.saveCaptureComplete lid) := fun _ => ⟨rfl, rfl⟩
theorem preemptReset (lid : Nat) : Statement (.preemptReset lid) := fun _ => ⟨rfl, rfl⟩
theorem preemptRestore (lid : Nat) : Statement (.preemptRestore lid) := fun _ => ⟨rfl, rfl⟩
theorem trapRecord (die : Nat) : Statement (.trapRecord die) := fun _ => ⟨rfl, rfl⟩
theorem watchdog (part : Nat) (cycles : Nat) : Statement (.watchdog part cycles) := fun _ => ⟨rfl, rfl⟩
theorem queueSteal (thief q : Nat) : Statement (.queueSteal thief q) := fun _ => ⟨rfl, rfl⟩
theorem mailboxMessage (die : Nat) (x : Word) : Statement (.mailboxMessage die x) := fun _ => ⟨rfl, rfl⟩
theorem fwctlGo (x : Word) : Statement (.fwctlGo x) := fun _ => ⟨rfl, rfl⟩
theorem fwbeatWrite (x : Word) : Statement (.fwbeatWrite x) := fun _ => ⟨rfl, rfl⟩
theorem syncovfWrite (die : Nat) (x : Word) : Statement (.syncovfWrite die x) := fun _ => ⟨rfl, rfl⟩
theorem uncorrectableError (e : HwError) : Statement (.uncorrectableError e) := fun _ => ⟨rfl, rfl⟩
theorem correctedError (e : HwError) : Statement (.correctedError e) := fun _ => ⟨rfl, rfl⟩
theorem hopCrcError (die : Nat) (unit : Nat) (msg : Nat) : Statement (.hopCrcError die unit msg) := fun _ => ⟨rfl, rfl⟩
theorem channelRetired (group : Nat) : Statement (.channelRetired group) := fun _ => ⟨rfl, rfl⟩
theorem filterEvent (die : Nat) : Statement (.filterEvent die) := fun _ => ⟨rfl, rfl⟩
theorem tattachWrite (fn : Nat) (x : Word) : Statement (.tattachWrite fn x) := fun _ => ⟨rfl, rfl⟩
theorem tdetachWrite (fn : Nat) (x : Word) : Statement (.tdetachWrite fn x) := fun _ => ⟨rfl, rfl⟩
theorem tbudgetWrite (die tenant : Nat) (x : Word) : Statement (.tbudgetWrite die tenant x) := fun _ => ⟨rfl, rfl⟩
theorem budgetWindow (die : Nat) : Statement (.budgetWindow die) := fun _ => ⟨rfl, rfl⟩
theorem exportSnap (die slot : Nat) : Statement (.exportSnap die slot) := fun _ => ⟨rfl, rfl⟩
theorem slots (core : Nat) : Statement (.slots core) := fun _ => ⟨rfl, rfl⟩
theorem therm (die sensor : Nat) (temp : BitVec 32) : Statement (.therm die sensor temp) := fun _ => ⟨rfl, rfl⟩
theorem throttleUpdate (watts hottest : Nat) : Statement (.throttleUpdate watts hottest) := fun _ => ⟨rfl, rfl⟩
theorem ckptGo (x : Word) : Statement (.ckptGo x) := fun _ => ⟨rfl, rfl⟩
theorem registerWrite (off : Nat) (level : Nat) (x : Word) : Statement (.registerWrite off level x) := fun _ => ⟨rfl, rfl⟩
theorem portDown (port : Nat) : Statement (.portDown port) := fun _ => ⟨rfl, rfl⟩
theorem linkWidthChange (link width : Nat) : Statement (.linkWidthChange link width) := fun _ => ⟨rfl, rfl⟩
theorem spdmMessage (m : Spdm) : Statement (.spdmMessage m) := fun _ => ⟨rfl, rfl⟩
theorem ret : Statement (.ret) := fun _ => ⟨all_cons (rfl) rfl, rfl⟩
theorem retire : Statement (.retire) := fun _ => ⟨rfl, rfl⟩
theorem eret : Statement (.eret) := fun _ => ⟨rfl, rfl⟩
theorem iflush : Statement (.iflush) := fun _ => ⟨rfl, rfl⟩
theorem vnop : Statement (.vnop) := fun _ => ⟨rfl, rfl⟩
theorem fwRollback : Statement (.fwRollback) := fun _ => ⟨rfl, rfl⟩
theorem fwHang : Statement (.fwHang) := fun _ => ⟨rfl, rfl⟩
theorem reset : Statement (.reset) := fun _ => ⟨rfl, rfl⟩
theorem thermtrip : Statement (.thermtrip) := fun _ => ⟨rfl, rfl⟩
theorem quinudEnd : Statement (.quinudEnd) := fun _ => ⟨rfl, rfl⟩

end Sys2Proof.Laws.Registers
end

