-- ==== Sys2Proof/Tests/Slice0.lean ====
section
/-! SUPPORT. Tests of single words, fields and steps, and witnesses that the hypotheses of the statements can be met. -/

open Sys2Proof Sys2Proof.Machine

namespace Sys2Proof.Tests

set_option Elab.async false

/-! ### Small states -/

/-- The monitor's context after reset, changed by `f`. -/
def atMonitor (f : Ctx → Ctx) : State := State.reset.modCtx 48 f

/-- The monitor's context with the registers of `m`. -/
def withRegs (m : FMap Word) : State := atMonitor fun c => { c with s := m }

/-- Every instruction of the list issues in `s`. -/
abbrev AllIssue (s : State) (l : List Instr) : Prop := s.latch = none ∧ ∀ i ∈ l, s.verdict [i] = .go

/-- The state after a step of the instruction, as far as `f` shows it. -/
def shows {α : Type} (o : Host.Outcome State Fault Refusal) (f : State → α) : Option α := match o with
  | .next t => some (f t)
  | _ => none

/-- Scalar register `n` after the instruction. -/
def regAfter (s : State) (i : Instr) (n : Nat) : Option Word := shows (exec i s) fun t => (t.ctx 48).sreg n

/-- The pc after the instruction. -/
def pcAfter (s : State) (i : Instr) : Option Word := shows (exec i s) fun t => (t.ctx 48).pc

/-! ### Words of the spec's encodings (05 to 09 "Worked encoding", 22 R538) -/

theorem test_words_scalar : decodeS 0x10847FFF = some (.addi 4 4 0 0x7FFF) ∧ decodeS 0x58003FFE = some (.lpnext 0 0x3FFE) ∧
    decodeS 0x2CC000E6 = some (.cadr 6 0 0 0 3 9 2) ∧ decodeS 0x30000007 = some (.trap 7) ∧
    decodeS 0x34A00001 = some (.ctlr 5 1) ∧ decodeS 0x0C000003 = some .retire := ⟨rfl, rfl, rfl, rfl, rfl, rfl⟩

theorem test_words_long : decodeBundle 0xE5E0000000000005 = .ok (.long (.call 15 5)) ∧
    decodeBundle 0xED14400000000005 = .ok (.long (.spawn 8 20 0 1 0 5)) ∧
    decodeBundle 0xE0E0123456789ABC = .ok (.long (.lim 7 0x123456789ABC)) ∧
    decodeBundle 0xEBFD00008010D224 = .ok (.long (.vcvtScaled 0x3FD 0 1 3 0 0x24 0x12 0)) := ⟨rfl, rfl, rfl, rfl⟩

/-- 05, the first worked encoding, from the bytes in memory. -/
theorem test_word_pair : decodeBundle (bundleOfBytes [0x12, 0x43, 0x41, 0x18, 0x00, 0x16, 0x61, 0x00]) =
    .ok (.pair (.add 3 1 0 5 1) (.vfma 4 5 0 6 0 0x12)) := rfl

theorem test_words_memory : decodeS 0x68620004 = some (.ldN32 3 2 0 0 0 4) ∧
    decodeS 0x8CA63FFF = some (.st64 5 6 0 1 1 0xFFF) ∧ decodeS 0xAC892000 = some (.stRel64 4 9 0 2 0) ∧
    decodeS 0xB0EA0001 = some (.ldfe 7 10 0 0 0 1) ∧ decodeS 0x7C220802 = some (.vld 1 2 0 0 0 1 2) ∧
    decodeS 0xC0820C01 = some (.vlds 4 2 0 3 0 0 0 0 1) ∧ decodeS 0xC0000048 = some (.mwait 1) ∧
    decodeS 0xC4050040 = some (.qbind 5 0 1) ∧ decodeS 0xC44000C5 = some (.vqpop 2 0 3) :=
  ⟨rfl, rfl, rfl, rfl, rfl, rfl, rfl, rfl, rfl⟩

theorem test_words_sync : decodeS 0xCA104400 = some (.ttag 16 16 0 17 0) ∧ decodeS 0xC8A10081 = some (.tfld 5 1 0 2) ∧
    decodeS 0xC8105402 = some (.tins 16 0 21 0) ∧ decodeS 0xCA000004 = some (.tgen 16) ∧
    decodeS 0xCCE4140B = some (.amoInclt 7 4 0 5 0 0 0 0) ∧ decodeS 0xCD0325C9 = some (.amoCas 8 3 0 9 0 1 1 2) ∧
    decodeS 0xD0031001 = some (.joinArrive 3 0 4 0) ∧ decodeS 0xD0C31014 = some (.swait 6 3 0 4 0 2) ∧
    decodeS 0xD4004403 = some (.barrSync 1 3) ∧ decodeS 0xD4094A05 = some (.barrSyncCmb 9 0 2 5) :=
  ⟨rfl, rfl, rfl, rfl, rfl, rfl, rfl, rfl, rfl, rfl⟩

theorem test_words_vector : decodeV 0x4421C012 = some (.vredadd 2 7 0 0x12) ∧ decodeV 0x54514103 = some (.vsrl 5 5 0 2 3) ∧
    decodeV 0x68918582 = some (.vext 9 6 0 0x0B 2) ∧ decodeV 0x704240A4 = some (.vunpack 4 9 0 1 0x24) ∧
    decodeV 0xA4320012 = some (.rsqrt 3 8 0 0x12) ∧ decodeV 0x8010D224 = some (.vcvt 0 1 3 0 0x24 0x12 0) :=
  ⟨rfl, rfl, rfl, rfl, rfl, rfl⟩

/-- `ewma w2, k5, 3`: op 0x15, a 2, N 5, sub 3; `sel w1, w4, w2, w3`: op 0x0F, d 1, a 2, b 3, x 4. -/
theorem test_words_filter : decodeFilter 0x54201403 = some (.quinudEwma 2 5 3) ∧
    decodeFilter 0x3CA70000 = some (.quinudSel 1 2 3 4) ∧ decodeFilter 0 = some .quinudEnd := ⟨rfl, rfl, rfl⟩

/-- 05 R161, R163: an unused field that is not zero, and majors that are not listed. -/
theorem test_words_refused : decodeS 0x0C000403 = none ∧ decodeS 0xFFFFFFFF = none ∧ decodeV 0xFFFFFFFF = none ∧
    decodeFilter 0xFFFFFFFF = none := ⟨rfl, rfl, rfl, rfl⟩

/-! ### Terms that the static checks refuse (05 R156-R173, 07 R240, 22 R541) -/

theorem test_ill_formed_control : (Instr.repart 3).wf = false ∧ (Instr.spawn 25 4 0 0 0 1).wf = false ∧
    (Instr.tfld 1 2 0 5).wf = false := by decide

theorem test_ill_formed_memory : (Instr.ldAcq32 1 2 0 5 0).wf = false ∧ (Instr.ldAcq64 1 2 0 5 0).wf = false ∧
    (Instr.stRel32 1 2 0 5 0).wf = false ∧ (Instr.stRel64 1 2 0 5 0).wf = false := by decide

theorem test_ill_formed_sync : (Instr.swait 1 2 0 3 0 4).wf = false ∧ (Instr.barrArr 0 4).wf = false ∧
    (Instr.barrWait 1 16).wf = false ∧ (Instr.barrSync 5 0).wf = false ∧ (Instr.barrSyncCmb 1 0 4 16).wf = false := by decide

theorem test_ill_formed_lanes : (Instr.vadd 1 2 0 3 0 0).wf = false ∧ (Instr.vsub 1 2 0 3 0 5).wf = false ∧
    (Instr.vmul 1 2 0 3 0 0x13).wf = false ∧ (Instr.vmin 1 2 0 3 0 0x14).wf = false ∧ (Instr.vmax 1 2 0 3 0 8).wf = false ∧
    (Instr.vclamp 1 2 0 3 0 0x15).wf = false ∧ (Instr.vceq 1 2 0 3 0 0x16).wf = false ∧
    (Instr.vcne 1 2 0 3 0 0x20).wf = false ∧ (Instr.vclt 1 2 0 3 0 13).wf = false ∧ (Instr.vcle 1 2 0 3 0 0x1F).wf = false ∧
    (Instr.vfma 1 2 0 3 0 1).wf = false ∧ (Instr.vfms 1 2 0 3 0 0x13).wf = false ∧ (Instr.vabs 1 2 0 1).wf = false ∧
    (Instr.vneg 1 2 0 0x14).wf = false := by decide

theorem test_ill_formed_shapes : (Instr.vredadd 1 2 0 0).wf = false ∧ (Instr.vredmin 1 2 0 0x14).wf = false ∧
    (Instr.vredmax 1 2 0 0x14).wf = false ∧ (Instr.vsll 1 2 0 1 8).wf = false ∧ (Instr.vsrl 1 2 0 2 16).wf = false ∧
    (Instr.vsra 1 2 0 0x12 0).wf = false ∧ (Instr.vscale 1 2 0 9 0).wf = false ∧ (Instr.vsplat 1 2 0 0x14).wf = false ∧
    (Instr.vins 1 2 0 3 4).wf = false ∧ (Instr.vext 1 2 0 4 2).wf = false ∧ (Instr.vpack 1 2 0 1).wf = false ∧
    (Instr.vunpack 1 2 0 0 0x12).wf = false ∧ (Instr.vcvt 0 1 2 0 9 0x12 1).wf = false ∧
    (Instr.vcvtScaled 0 0 1 2 0 5 0x12 0).wf = false := by decide

theorem test_ill_formed_special : (Instr.rcp 1 2 0 9).wf = false ∧ (Instr.rsqrt 1 2 0 9).wf = false ∧
    (Instr.sqrt 1 2 0 9).wf = false ∧ (Instr.exp2 1 2 0 9).wf = false ∧ (Instr.log2 1 2 0 9).wf = false ∧
    (Instr.tanh 1 2 0 9).wf = false := by decide

theorem test_ill_formed_filter : (Instr.quinudCmp 1 2 3 6).wf = false ∧ (Instr.quinudHlin 1 2 1000 24 3).wf = false ∧
    (Instr.quinudHlog 2 1000 24).wf = false ∧ (Instr.quinudCms 2 0 9).wf = false ∧ (Instr.quinudCmq 1 2 0 0).wf = false ∧
    (Instr.quinudBz 1 0).wf = false ∧ (Instr.quinudBnz 1 0).wf = false := by decide

/-! ### Scalar instructions (06) -/

/-- Registers 1 and 2 are the least integer and -1, 3 is zero, 4 is a small number. -/
def scalars : State := withRegs [(1, 0x8000000000000000), (2, 0xFFFFFFFFFFFFFFFF), (4, 40), (5, 0x283)]

theorem witness_register_arithmetic : AllIssue scalars [
    .add 6 1 0 2 0, .sub 6 1 0 2 0, .and 6 1 0 2 0, .or 6 1 0 2 0, .xor 6 1 0 2 0, .andn 6 1 0 2 0, .sll 6 1 0 2 0,
    .srl 6 1 0 2 0, .sra 6 1 0 2 0, .slt 6 1 0 2 0, .sltn 6 1 0 2 0, .min 6 1 0 2 0, .max 6 1 0 2 0, .minn 6 1 0 2 0,
    .maxn 6 1 0 2 0, .lea 6 1 0 2 0 7, .add 0 1 0 2 0] ∧ scalars.pushHolds 6 0 = false := by decide +kernel

theorem witness_multiply_divide : AllIssue scalars [
    .mul 6 1 0 2 0, .mulh 6 1 0 2 0, .mulhn 6 1 0 2 0, .mulhsn 6 1 0 2 0, .div 6 1 0 2 0, .div 6 1 0 3 0, .divn 6 1 0 3 0,
    .divn 6 1 0 2 0, .rem 6 1 0 2 0, .rem 6 1 0 3 0, .remn 6 1 0 3 0, .remn 6 1 0 2 0] := by decide +kernel

theorem witness_bit_operations : AllIssue scalars [
    .clz 6 3 0, .ctz 6 3 0, .popc 6 2 0, .sel 6 1 0 2 0, .bext 6 1 0 5 0, .bexts 6 2 0 3 0, .bexts 6 2 0 5 0, .bins 6 1 0 5 0] ∧
    scalars.S 3 = 0 ∧ 2 ^ 63 ≤ (scalars.S 1).toNat ∧ (scalars.S 1).toNat < 2 ^ 64 ∧
    (scalars.S 4).toNat % 2 ^ (3 + 1) = 2 ^ 3 ∧ (scalars.S 3).toNat / 64 % 128 = 0 ∧ (scalars.S 5).toNat / 64 % 128 = 9 + 1 := by
  decide +kernel

theorem witness_immediate_forms : AllIssue scalars [
    .addi 6 1 0 0x7FFF, .andi 6 1 0 0x4000, .ori 6 1 0 1, .xori 6 1 0 1, .slti 6 1 0 1, .sltni 6 1 0 1, .slli 6 1 0 63,
    .srli 6 1 0 63, .srai 6 1 0 63, .lim 6 0x800000000000, .cadr 6 0 0 7 15 15 3] := by decide +kernel

/-- Window `q0` is bound to engine 0, whose result queue for the thread is full: the last word of a command waits
(03 R101, 10 R335). -/
def pushFull : State := atMonitor fun c => { c with
  win := put none c.win 0 (some { word := 0x8000000000000000 }), resq := put {} c.resq 0 { entries := List.replicate 8 0 } }

theorem witness_push_waits : AllIssue pushFull [.add 28 1 0 1 0] ∧ pushFull.pushHolds 28 0 = true := by decide +kernel

/-- 06 R180: sums wrap, and a source may be the destination. -/
theorem test_add_wraps : regAfter scalars (.add 1 1 0 2 0) 1 = some 0x7FFFFFFFFFFFFFFF ∧
    pcAfter scalars (.add 1 1 0 2 0) = some 8 := by decide +kernel

/-- 06 R181: the quotient that overflows, and its remainder. -/
theorem test_div_overflow : regAfter scalars (.div 6 1 0 2 0) 6 = some 0x8000000000000000 ∧
    regAfter scalars (.rem 6 1 0 2 0) 6 = some 0 := by decide +kernel

/-- 06 R181: a zero divisor. -/
theorem test_div_zero : regAfter scalars (.div 6 1 0 3 0) 6 = some 0xFFFFFFFFFFFFFFFF ∧
    regAfter scalars (.remn 6 1 0 3 0) 6 = some 0x8000000000000000 := by decide +kernel

/-- 06 R182: a field of 10 bits from bit 3 (operand 0x283). -/
theorem test_bext : regAfter scalars (.bext 6 2 0 5 0) 6 = some 0x3FF ∧
    regAfter scalars (.bexts 6 2 0 5 0) 6 = some 0xFFFFFFFFFFFFFFFF := by decide +kernel

/-- 06 R186: `lim s7, 0x1234_5678_9ABC` sets `s7` to 0x0000_1234_5678_9ABC (05, the second worked encoding). -/
theorem test_lim : regAfter scalars (.lim 7 0x123456789ABC) 7 = some 0x123456789ABC ∧
    regAfter scalars (.lim 7 0x800000000000) 7 = some 0xFFFF800000000000 := by decide +kernel

/-- `s0` reads zero and discards writes (03 R98). -/
theorem test_s0 : regAfter scalars (.add 0 1 0 2 0) 0 = some 0 ∧ pcAfter scalars (.add 0 1 0 2 0) = some 8 := by
  decide +kernel

/-! ### Control, tasks and the system (06) -/

/-- A running launch with barriers 0 and 1 of the core, one member each. -/
def launch1 : Launch :=
  { queue := 0, handle := 1, state := .running, part := 0, xctx := 0, prio := 0, rsv := false, order := 0
    barriers := [(0, 0, 1), (0, 1, 1)] }

/-- The monitor's context as a thread of that launch, at level `l`, changed by `f`. -/
def launched (l : Nat) (f : Ctx → Ctx) : State :=
  { atMonitor fun c => f { c with lid := some 1, level := l } with launches := put none [] 1 (some launch1) }

theorem witness_branches : AllIssue scalars [
    .beq 3 3 0 0 0x1FFF, .beq 1 2 0 0 0x2000, .bne 1 2 0 0 0x2000, .bne 3 3 0 0 1, .blt 1 2 0 0 1, .blt 2 1 0 0 1, .bge 2 1 0 0 1,
    .bge 1 2 0 0 1, .bltn 1 2 0 0 1, .bltn 2 1 0 0 1, .bgen 2 1 0 0 1, .bgen 1 2 0 0 1] := by decide +kernel

/-- 06 R190: back by two bundles, where the addresses wrap. -/
theorem test_branch_back : pcAfter scalars (.beq 3 3 0 0 0x3FFE) = some 0xFFFFFFFFFFFFFFF0 ∧
    pcAfter scalars (.bne 3 3 0 0 0x3FFE) = some 8 := by decide +kernel

/-- `s15` holds the address of the retire stub. -/
def atStub : State := atMonitor fun c => { c with s := [(15, 0x48)], stub := some 0x48 }

theorem witness_calls_and_returns : AllIssue scalars [.call 15 0x80000000, .jr 4 0, .callr 15 4 0, .callr 4 4 0, .ret, .retire] ∧
    (scalars.S 4).toNat % 8 = 0 ∧ AllIssue atStub [.ret] ∧ (atStub.ctx atStub.cur).stub = some (atStub.S 15) := by
  decide +kernel

/-- 06 R191: the target is read before the link is written. -/
theorem test_callr : pcAfter scalars (.callr 4 4 0) = some 40 ∧ regAfter scalars (.callr 4 4 0) 4 = some 8 := by
  decide +kernel

/-- 06 R200: a misaligned target traps; the monitor takes no trap itself, so that its context is halted. -/
theorem test_jr_misaligned :
    shows (exec (.jr 2 0) scalars) (fun t => ((t.ctx 48).status, (t.ctx 48).cause, (t.ctx 48).tval)) =
      some (.halted, 0x03, 0xFFFFFFFFFFFFFFFF) := by decide +kernel

/-- Register 1 holds an address in the own scratchpad, and level 3 of the loop nest stands before its last trip. -/
def inLoop : State := atMonitor fun c => { c with
  s := [(1, windowAddr 3 0 0x3FFB8)], lpIdx := [(0, 1), (3, 1)], lpTrip := [(0, 1), (3, 2)], lpStride := [(3, 0x10)] }

theorem witness_loop_nest : AllIssue inLoop [.lpset 1 0, .lpidx 6 3, .lpaddr 6 0, .lpaddr 6 3, .lpnext 0 0x3FFE, .lpnext 3 0x3FFE] ∧
    ¬ (get 0 (inLoop.ctx inLoop.cur).lpIdx 0).toNat < (get 0 (inLoop.ctx inLoop.cur).lpTrip 0).toNat ∧
    (get 0 (inLoop.ctx inLoop.cur).lpIdx 3).toNat < (get 0 (inLoop.ctx inLoop.cur).lpTrip 3).toNat := by decide +kernel

theorem test_lpnext : pcAfter inLoop (.lpnext 3 0x3FFE) = some 0xFFFFFFFFFFFFFFF0 ∧
    pcAfter inLoop (.lpnext 0 0x3FFE) = some 8 := by decide +kernel

theorem witness_control_registers : AllIssue scalars [.ctlr 6 0x010, .ctlw 1 0 0x01A] ∧ ctlWriteLevel 0xFFF = none ∧
    (launched 0 id).latch = none ∧ (∃ l, ctlWriteLevel 0x070 = some l ∧ ((launched 0 id).ctx (launched 0 id).cur).level < l) ∧
    ctlWriteLevel 0 = some 4 ∧ ((launched 0 id).ctx (launched 0 id).cur).winOf 1 = none ∧ (scalars.ctx 48).status ≠ .free := by
  refine ⟨by decide +kernel, by decide +kernel, by decide +kernel, ⟨2, by decide +kernel, by decide +kernel⟩, ?_⟩
  decide +kernel

/-- A handler takes SOFT, at 0x1000. -/
def handled : State := launched 0 fun c => { c with hmask := 0xFC0, hbase := 0x1000, pc := 0x40 }

/-- The same in its handler. -/
def inHandler : State := launched 0 fun c => { c with hmask := 0xFC0, tstate := 0x8000, epc := 0x40 }

theorem witness_traps_and_returns : handled.latch = none ∧ (handled.ctx 48).hmask.getLsbD 6 = true ∧
    (handled.ctx 48).hmask.getLsbD 11 = true ∧ (handled.ctx 48).tstate.getLsbD 15 = false ∧
    (inHandler.ctx 48).tstate.getLsbD 15 = true ∧ AllIssue inHandler [.eret] ∧ AllIssue scalars [.eret] ∧
    (handled.ctx handled.cur).level = 0 ∧ (scalars.ctx scalars.cur).level ≠ 0 := by decide +kernel

/-- 06 R202, 03 R115: `trap 7` goes on at the handler; R203: `eret` returns. -/
theorem test_trap_eret : pcAfter handled (.trap 7) = some 0x1000 ∧
    shows (exec (.trap 7) handled) (fun t => ((t.ctx 48).cause, (t.ctx 48).epc, (t.ctx 48).tval)) = some (0x0B, 0x40, 7) ∧
    pcAfter inHandler .eret = some 0x40 := by decide +kernel

/-- Register 1 names core 7, 2 a slot table in the own scratchpad, 3 zero, 4 context 1 of the own core, 5 a record address. -/
def systemRegs : State :=
  { atMonitor (fun c => { c with s := [(1, windowAddr 7 0 0), (2, windowAddr 3 0 0x100), (4, windowAddr 3 0 1), (5, 0x800)] }) with
    hub := { own := [(0, 0xC000)] } }

/-- The same with context 1 halted. -/
def otherHalted : State := systemRegs.modCtx 49 fun c => { c with status := .halted }

theorem witness_system_instructions :
    systemRegs.wakeTarget (systemRegs.ctx systemRegs.cur).lid (systemRegs.ctx systemRegs.cur).level (systemRegs.S 1) = some 7 ∧
    AllIssue systemRegs [.spawn 24 1 0 1 3 5, .repart 2, .sleep 3 0, .sleep 1 0, .iflush, .xlinv 3 0 3 0, .telEv 1 0 2 0] ∧
    (systemRegs.S 3).toNat = 0 ∧ (systemRegs.S 1).toNat ≠ 0 ∧
    otherHalted.ctxTarget (otherHalted.S 4) = some 49 ∧ AllIssue otherHalted [.ctxsv 4 0 5 0, .ctxld 4 0 5 0] ∧
    (otherHalted.advance (.ctxsv 4 0 5 0)).recordOwned (otherHalted.S 5).toNat = true ∧
    (otherHalted.advance (.ctxld 4 0 5 0)).recordOwned (otherHalted.S 5).toNat = true ∧
    (launched 1 id).latch = none ∧ ((launched 1 id).ctx (launched 1 id).cur).level < 2 := by decide +kernel

/-- A line is pinned in the quad of `systemRegs`. -/
def pinnedLine : State := systemRegs.modQuad 0 fun q => { q with icache := [{ xctx := 0, line := 0, bytes := [], pins := [1] }] }

/-- 06 R213: `iflush` waits for the pinned lines, and goes on once they are there. -/
theorem witness_iflush : pinnedLine.verdict [.iflush] = .hold ∧ pinnedLine.latch = none ∧
    AllIssue (pinnedLine.modCtx 48 fun c => { c with synced := some c.pc }) [.iflush] := by decide +kernel

/-- The monitor alone on its core, and a table of its own at 0x100, where it owns every fourth entry. -/
def slotTable : State := (List.range 32).foldl (fun s e => s.wr (.scratch 3 (0x100 + e)) 1 (if e % 4 = 0 then 0x40 else 0)) systemRegs

theorem witness_slotw : AllIssue slotTable [.slotw 2 0] := by decide +kernel

/-- 06 R211: `sleep` of zero cycles goes on. -/
theorem test_sleep : shows (exec (.sleep 3 0) systemRegs) (fun t => (t.ctx 48).status) = some .ready ∧
    shows (exec (.sleep 1 0) systemRegs) (fun t => (t.ctx 48).status) = some .sleeping := by decide +kernel

/-! ### Memory, queues, records and synchronisation as a thread issues them (08, 09) -/

/-- Register 1 is a place in the own scratchpad, 2 one of core 7, 3 zero, 4 a sync word, 5 a global address, 6 a stride of
four cores. -/
def places : State := withRegs [(1, windowAddr 3 0 0x20000), (2, windowAddr 7 0 0x20000), (4, 0x8000000000000040), (5, 0x1000),
  (6, 0x2000000), (7, 4)]

theorem witness_loads : AllIssue places [
    .ldN8 8 1 0 0 0 0x800, .ldN16 8 1 0 1 1 0x7FF, .ldN32 8 1 0 2 0 0x800, .ld64 8 1 0 3 0 0x7FF, .ldS8 8 1 0 0 0 0, .ldS16 8 1 0 0 0 0,
    .ldS32 8 1 0 0 0 0, .ldAcq32 8 1 0 0 0, .ldAcq64 8 1 0 4 0, .ldN8 8 2 0 0 0 0x800, .ldN16 8 2 0 0 1 0x7FF, .ldN32 8 5 0 0 0 0,
    .ld64 8 4 0 0 0 0, .ldS8 8 2 0 0 0 0, .ldS16 8 2 0 0 0 0, .ldS32 8 2 0 0 0 0, .ldAcq32 8 2 0 2 0, .ldAcq64 8 5 0 3 0,
    .vld 8 1 0 0 0 0 0x400, .vld 8 2 0 0 1 0 0x3FF] ∧ isLocal places.cur (places.S 1) = true ∧
    isLocal places.cur (places.S 2) = false ∧ isLocal places.cur (places.S 5) = false := by decide +kernel

theorem witness_gathers : AllIssue places [
    .vlds 8 1 0 7 0 0 0 0 0, .vlds 8 1 0 7 0 0 0 0 2, .vlds 8 2 0 3 0 0 0 1 3, .vlds 8 1 0 6 0 0 0 0 2, .vldx 8 1 0 9 0 0 0 0,
    .vldx 8 2 0 9 0 0 0 1] ∧
    ((List.range 4).map fun (k : Nat) => isLocal places.cur (places.S 1 + BitVec.ofInt 64 ((k : Int) * (places.S 6).toInt))) =
      [true, false, false, false] := by decide +kernel

theorem witness_stores : AllIssue places [
    .st8 7 1 0 0 0 0x800, .st16 7 1 0 0 1 0x7FF, .st32 7 1 0 0 0 0, .st64 7 1 0 0 0 0, .stRel32 7 1 0 0 0, .stRel64 7 1 0 0 0,
    .vst 7 1 0 0 0 0 0, .st8 7 2 0 0 0 0x800, .st16 7 2 0 0 1 0x7FF, .st32 7 5 0 0 0 0, .st64 7 4 0 0 0 0, .stRel32 7 2 0 2 0,
    .stRel64 7 5 0 4 0, .vst 7 2 0 0 1 0 0] ∧ isLocal places.cur (places.S 1) = true ∧
    isLocal places.cur (places.S 2) = false := by decide +kernel

/-- The thread stands at a presence form whose answer is there. -/
def answered : State := places.modCtx 48 fun c => { c with
  held := [{ pc := 0, start := 0, answer := some 5, req := places.request .ldfe (places.S 1) 4 0 .none 0 none false }] }

theorem witness_waiting_forms : AllIssue answered [.ldfe 8 1 0 0 0 0, .ldPw 8 1 0 0 0 0, .stef 7 1 0 0 0 0, .swait 8 4 0 7 0 3] ∧
    ((answered.ctx answered.cur).heldHere.bind (·.answer)) = some 5 ∧ places.latch = none ∧
    (∀ i ∈ [Instr.ldfe 8 1 0 0 0 0, .ldPw 8 1 0 0 0 0x7FF, .stef 7 1 0 0 0 0x800, .swait 8 4 0 7 0 0],
      places.verdict [i] = .hold) := by decide +kernel

theorem witness_atomics : AllIssue places [
    .amoAdd 8 2 0 7 0 0 0 0, .amoAnd 8 2 0 7 0 1 0 0, .amoOr 8 2 0 7 0 0 1 0, .amoXor 8 2 0 7 0 0 0 1, .amoMin 8 2 0 7 0 0 0 0,
    .amoMax 8 2 0 7 0 0 0 0, .amoMinu 8 5 0 7 0 0 0 0, .amoMaxu 8 4 0 7 0 1 0 0, .amoSwap 8 1 0 7 0 0 0 0,
    .amoCas 8 1 0 7 0 1 0 3, .amoFaddF32 8 2 0 7 0 0 0, .amoInclt 8 2 0 7 0 0 0 0] := by decide +kernel

/-- Window 0 reads a buffer of the core with an entry, 1 writes to core 7, 2 is the command queue of engine 1, 3 is not bound;
buffer 5 is set up for this thread. -/
def windows : State := (atMonitor fun c => { c with
  s := [(1, 0x8000000000000000 + 0x200), (2, 0x4000000000000000 + 0x3800000), (3, 0x1800005), (5, 5),
    (6, 0x8000000000000000 + 0x3800000)]
  win := [(0, some { word := 0x1800000 }), (1, some { word := 0x4000000003800000, credits := 1 }),
    (2, some { word := 0x8000000000000200 })] }).modCore 3 fun k => { k with
  chans := [(0, { conf := 0x8000000003800000, entries := [7] }), (5, { conf := 0x8000000003800000 })] }

theorem witness_queue_forms : AllIssue windows [.mwait 0, .mwait 3, .qbind 1 0 3, .qbind 2 0 3, .qbind 3 0 3, .qunbind 3, .qstat 8 3, .qunbind 2, .qunbind 1,
    .qunbind 0, .qstat 8 0, .qstat 8 1, .qstat 8 2, .qpeek 8 0, .vqpush 4 0 0 1, .vqpop 4 0 0, .qcfgr 8 5 0, .qcfgw 5 0 6 0] := by
  decide +kernel

/-- A kind homed by its first key. -/
def byKey : Kind := { td := 0, page := false, f1 := 0, h1 := 0, f2 := 3, h2 := 0, cls := 0 }

/-- A thread of a launch of that kind; registers 1 and 2 are a record. -/
def records : State := (launched 0 fun c => { c with s := [(1, 0x0100000500000000), (2, 0)] }).modLaunch 1 fun l =>
  { l with kinds := [(1, byKey)], gx := 2, map := [0, 0] }

theorem witness_tags_and_records :
    AllIssue scalars [.ttag 8 1 0 2 0, .tfld 8 1 0 0, .tfld 8 1 0 4, .tgen 8, .covQ 8 1 0, .covRd 8 7, .poolCnt 8] ∧
    scalars.lidOf scalars.cur = none ∧
    AllIssue records [.tgen 8, .covQ 8 1 0, .covRd 8 0, .tins 1 0 2 0, .tinsd 1 0 2 0] ∧ records.lidOf records.cur = some 1 ∧
    (records.launch 1).any (fun l => l.kind 1 = some byKey && !byKey.page &&
      (⟨records.S 1, records.S 2⟩ : Rec).key byKey.f1 / 2 ^ byKey.h1 % l.gx = 1) = true ∧ records.sourceWaits (dieOfTh 48) 7 = false ∧
    (records.modDie 0 fun d => { d with walks := [.insert 3 48 1 0 ⟨0, 0⟩ none] }).sourceWaits (dieOfTh 48) 7 = true := by
  decide +kernel

/-- A thread of a launch with barriers: the lead is 0 at barrier 0 and 1 at barrier 1. -/
def barriers : State :=
  { launched 0 (fun c => { c with s := [(1, 0x8000000000000040), (2, 0x1FFFFFFFF)], leads := [(1, 1)] }) with
    hub := { part := [(0, 0x80000000000000FF)] } }

theorem witness_sync_forms :
    AllIssue (atMonitor fun c => { c with s := [(1, 0x8000000000000040), (2, 0x1FFFFFFFF)] }) [.joinInit 1 0 2 0, .joinArrive 1 0 2 0,
      .ssigSet 1 0 2 0, .ssigAdd 1 0 2 0] ∧
    AllIssue barriers [.barrArr 0 0, .barrArr 0 1, .barrWait 0 0] ∧
    AllIssue (barriers.modCtx 48 fun c => { c with synced := some 0 }) [.barrSync 0 0, .barrSyncCmb 1 0 0 0] ∧
    barriers.latch = none ∧ barriers.verdict [.barrSync 0 0] = .hold ∧ barriers.verdict [.barrSyncCmb 1 0 0 1] = .hold := by
  decide +kernel

/-- 09 R296: the parts of a tag. -/
theorem test_ttag : regAfter records (.ttag 8 1 0 2 0) 8 = some 0 ∧ regAfter records (.tfld 8 1 0 0) 8 = some 1 ∧
    regAfter records (.tfld 8 1 0 2) 8 = some 5 := by decide +kernel

/-! ### Vector instructions (07) -/

/-- The state of a V-syllable that follows its S-syllable. -/
def following : State := { State.reset with latch := some (State.reset.ctx 48) }

theorem witness_follows : Follows following := rfl

theorem witness_vector_moves : AllIssue State.reset [.vand 1 2 0 3 0, .vor 1 2 0 3 0, .vxor 1 2 0 3 0, .vandn 1 2 0 3 0,
    .vsel 1 2 0 3 0, .vmov 1 2 0, .vshuf 1 2 0 3 0, .vcrc 1 2 0, .vsplat 1 31 0 4, .vins 1 31 0 9 15, .vext 31 1 0 0x24 15] ∧
    moveLane 4 = true ∧ moveLane 9 = true ∧ moveLane 0x24 = true := by decide +kernel

theorem witness_integer_lanes : intLane 1 = true ∧ intLane 4 = true ∧ intLane 9 = true ∧ intLane 12 = true ∧
    AllIssue State.reset [.vadd 1 2 0 3 0 1, .vsub 1 2 0 3 0 9, .vmul 1 2 0 3 0 2, .vmin 1 2 0 3 0 10, .vmax 1 2 0 3 0 3,
      .vabs 1 2 0 11, .vneg 1 2 0 12, .vclamp 1 2 0 3 0 4, .vceq 1 2 0 3 0 1, .vcne 1 2 0 3 0 1, .vclt 1 2 0 3 0 9,
      .vcle 1 2 0 3 0 9, .vsll 1 2 0 1 7, .vsrl 1 2 0 4 63, .vsra 1 2 0 12 63, .vredadd 1 2 0 9, .vredmin 1 2 0 4,
      .vredmax 1 2 0 12] := by decide +kernel

theorem witness_float_lanes : laneFloat 0x10 = some (f16, 0) ∧ laneFloat 0x12 = some (f32, 0) ∧ laneFloat 0x1D = some (bf16, 3) ∧
    AllIssue State.reset [.vadd 1 2 0 3 0 0x1D, .vsub 1 2 0 3 0 0x10, .vmul 1 2 0 3 0 0x1E, .vfma 1 2 0 3 0 0x12,
      .vfms 1 2 0 3 0 0x14, .vmin 1 2 0 3 0 0x10, .vmax 1 2 0 3 0 0x11, .vclamp 1 2 0 3 0 0x12, .vabs 1 2 0 0x10,
      .vneg 1 2 0 0x12, .vceq 1 2 0 3 0 0x10, .vcne 1 2 0 3 0 0x11, .vclt 1 2 0 3 0 0x12, .vcle 1 2 0 3 0 0x12,
      .vscale 1 2 0 0x11 0x40, .vredadd 1 2 0 0x1E, .vredmin 1 2 0 0x12, .vredmax 1 2 0 0x10] := by decide +kernel

theorem witness_rounding_is_exact : 0xFFFFFFFF < 2 ^ f32.bits ∧ 0x7C00 < 2 ^ f16.bits ∧ 0x8000 < 2 ^ bf16.bits := by decide

theorem witness_dots_and_conversions : fmtCode 0x24 = true ∧ fmtCode 0x12 = true ∧ fmtCode 0 = true ∧ packCode 0 = true ∧
    packCode 8 = true ∧ packCode 0x3C = true ∧
    AllIssue State.reset [.vdot2F16 1 2 0 3 0 3, .vdot4S8 1 2 0 3 0, .vcvt 3 1 2 0 0x24 0x12 1, .vcvtScaled 0x200 0 1 2 0 0 0x12 0,
      .vpack 1 2 0 0, .vpack 1 2 0 0x3C, .vunpack 1 2 0 1 8] := by decide +kernel

theorem witness_special_functions : AllIssue State.reset [.rcp 1 2 0 0x10, .rsqrt 1 2 0 0x11, .sqrt 1 2 0 0x12, .exp2 1 2 0 0x1E,
    .log2 1 2 0 0x14, .tanh 1 2 0 0x18] ∧ laneFloat 0x1E = some (f32, 3) := by decide +kernel

/-- The monitor's context with vector registers 2, 3 and 1. -/
def vectors (a b d : VWord) : State := atMonitor fun c => { c with v := [(1, d), (2, a), (3, b)] }

/-- Lane 0 of vector register 1 after the instruction, and the conditions counted. -/
def laneAfter (w : Nat) (s : State) (i : Instr) : Option (Nat × List (Nat × BitVec 32)) :=
  shows (exec i s) fun t => (lane w ((t.ctx 48).vreg 1) 0, (t.core 3).ex)

/-- 07, the table of single lanes: `vadd.f16` of 65,504 and 32, to nearest and toward zero. -/
theorem test_vadd_f16 : (laneAfter 16 (vectors 0x7BFF 0x5000 0) (.vadd 1 2 0 3 0 0x10)).map Prod.fst = some 0x7C00 ∧
    (laneAfter 16 (vectors 0x7BFF 0x5000 0) (.vadd 1 2 0 3 0 0x14)).map Prod.fst = some 0x7BFF := by decide +kernel

/-- `vdot2.f16` of (4,096, 1) and (4,096, 1) with −2^24. -/
theorem test_vdot2 : laneAfter 32 (vectors 0x3C006C00 0x3C006C00 0xCB800000) (.vdot2F16 1 2 0 3 0 0) =
    some (0x3F800000, []) := by decide +kernel

/-- `vdot4.s8` with every lane 127 and 2^31 − 101. -/
theorem test_vdot4 : (laneAfter 32 (vectors 0x7F7F7F7F 0x7F7F7F7F 0x7FFFFF9B) (.vdot4S8 1 2 0 3 0)).map Prod.fst =
    some 0x7FFFFFFF := by decide +kernel

/-- `vcvt.s8.f32` of −130.5, and `vcvt.b8p4.f32` of 26.0 with k = −3. -/
theorem test_vcvt : (laneAfter 8 (vectors 0xC3028000 0 0) (.vcvt 0 1 2 0 9 0x12 0)).map Prod.fst = some 0x80 ∧
    laneAfter 8 (vectors 0x41D00000 0 0) (.vcvtScaled 0x3FD 0 1 2 0 0x24 0x12 0) = some (0x4D, []) := by decide +kernel

/-- `vscale.bf16` of 3.0 with k = −1. -/
theorem test_vscale : laneAfter 16 (vectors 0x4040 0 0) (.vscale 1 2 0 0x11 0x7F) = some (0x3FC0, []) := by decide +kernel

/-- `vredmin.f32` of 1.0, −0, +0, 2.0. -/
theorem test_vredmin : laneAfter 32 (vectors 0x4000000000000000800000003F800000 0 0) (.vredmin 1 2 0 0x12) =
    some (0x80000000, []) := by decide +kernel

/-! ### Engine commands (10, 11 R388) -/

/-- A command of the monitor's thread, at engine `unit` of quad or die 0, of operation `op`. -/
def cmdOf (unit op spec : Nat) (ws : List Word) : Cmd :=
  { unit := unit, place := 0, th := 48, lid := none, level := 3, xctx := 0
    words := BitVec.ofNat 64 (op * 2 ^ 58 + ws.length * 2 ^ 54 + spec) :: ws, seq := 0 }

/-- A command that stopped for a translation after its third element. -/
def goneOn (c : Cmd) : State := State.reset.setRun { cmd := c, progress := 3 }

/-- Not started at reset, and started in `goneOn`. -/
abbrev BothWays (c : Cmd) : Prop :=
  State.reset.started c = none ∧ (goneOn c).started c = some { cmd := c, progress := 3 }

/-- Matrix engine 0 has the formats of two 8-bit integers, and tile 0 is at scale 1. -/
def intMatrix (c : Cmd) : State := State.reset.modMx c fun m => { m with afmt := some 9, sfmt := some 9, scales := [(0, 1)] }

theorem witness_matrix_commands :
    BothWays (cmdOf 0 0x01 (0x10 + 0x24 * 64) []) ∧ BothWays (cmdOf 0 0x02 0 [0]) ∧ BothWays (cmdOf 0 0x03 0 []) ∧
    BothWays (cmdOf 0 0x05 0xF []) ∧ State.reset.mxCols none = (0, 64) ∧
    (matrixFormat 0x10 && matrixFormat 0x24 && intCode 0x10 = intCode 0x24) = true ∧
    (matrixFormat 0x10 && matrixFormat 9 && intCode 0x10 = intCode 9) = false ∧ (State.reset.mx (cmdOf 0 0x02 0 [0])).sfmt = none ∧
    ((intMatrix (cmdOf 0 0x02 0 [0])).mx (cmdOf 0 0x02 0 [0])).sfmt ≠ none := by decide +kernel

theorem witness_matrix_stream :
    BothWays (cmdOf 0 0x04 0xFF [0]) ∧ (State.reset.mx (cmdOf 0 0x04 0xFF [0])).afmt = none ∧
    ((intMatrix (cmdOf 0 0x04 0 [0])).mx (cmdOf 0 0x04 0 [0])).afmt = some 9 ∧ streamTiles (cmdOf 0 0x04 0xFF [0]) = [0, 1, 2, 3] ∧
    intFmt 9 = some ⟨8, true⟩ ∧ intFmt 1 = some ⟨8, false⟩ := by decide +kernel

/-- 04 R137: sixty-four products of 127 and 127, added to an accumulator close to its end, saturate. -/
theorem test_mac_saturates : macInt 9 9 (List.replicate 64 127) (List.replicate 64 127) (some 0x7FFFFFFF) =
    (0x7FFFFFFF, [kOVF]) ∧ (macInt 9 9 (List.replicate 64 127) (List.replicate 64 127) none).1 = 1032256 := by decide +kernel

theorem witness_matrix_drain :
    BothWays (cmdOf 0 0x06 (0x12 * 2 ^ 14) [0, 0]) ∧ BothWays (cmdOf 0 0x06 (2 ^ 25 + 2 ^ 27) [0, 0, 0, 0, 0, 0, 0, 0]) ∧
    State.reset.wakeTarget none 3 0 = none ∧ State.reset.wakeTarget none 3 (windowAddr 7 0 0) = some 7 ∧
    bits (cmdOf 0 0x06 (2 ^ 25) []).spec 26 25 = 1 ∧ bits (cmdOf 0 0x06 (2 ^ 26) []).spec 26 25 = 2 ∧
    bits (cmdOf 0 0x06 0 []).spec 26 25 = 0 ∧ records.recordFault (some 1) ⟨records.S 1, records.S 2⟩ = none ∧
    records.recordFault (some 1) ⟨0, 0⟩ ≠ none := by decide +kernel

/-- A multicast whose destination 1 has failed at element 2. -/
def mcastFailed (c : Cmd) : State := State.reset.setRun { cmd := c, progress := 3, fails := [(1, 4, 2)] }

theorem witness_copy_commands :
    BothWays (cmdOf 2 0x10 0 [0, 0, 0]) ∧ BothWays (cmdOf 2 0x11 0 [0, 0, 0, 0]) ∧ BothWays (cmdOf 2 0x12 0 [0, 0, 0, 0, 0]) ∧
    BothWays (cmdOf 2 0x13 0 [0, 0, 0, 0, 0]) ∧ BothWays (cmdOf 2 0x14 0 [0, 0]) ∧
    ((mcastFailed (cmdOf 2 0x11 0 [0, 0, 0, 0])).started (cmdOf 2 0x11 0 [0, 0, 0, 0])).map (·.fails) = some [(1, 4, 2)] ∧
    mcastResult 2 [(1, 4, 2)] = ⟨1, eDEST_FAULT, 1⟩ := by decide +kernel

/-- Egress queue 0 is enabled, and port 0 is not down. -/
def egressOn : State := State.reset.modHub fun h => { h with egress := put {} h.egress 0 { conf := 0x8000000000000000 } }

theorem witness_crc_and_send : BothWays (cmdOf 2 0x15 0 [0, 0x400000000]) ∧ BothWays (cmdOf 2 0x16 0 [0, 64]) ∧
    (get {} egressOn.hub.ports 0).losses = 0 ∧ (get {} (egressOn.modPort 0 Port.train).hub.ports 0).losses = 0 ∧
    (get {} ((egressOn.modPort 0 fun p => { p with up := true }).modPort 0 Port.train).hub.ports 0).losses = 1 ∧
    egressOn.egressOk (cmdOf 2 0x16 0 [0, 64]) none = true ∧ State.reset.egressOk (cmdOf 2 0x16 0 [0, 64]) none = false := by
  decide +kernel

theorem witness_recon_commands : BothWays (cmdOf 2 0x30 0xF0000 [0, 0, 0, 0, 0, 0]) ∧ BothWays (cmdOf 2 0x31 0 [0, 0, 0]) ∧
    kernelLegal 5 ⟨0x12, 2, 0, [], []⟩ false = true ∧ kernelLegal 6 ⟨0x12, 2, 0, [], []⟩ false = false := by decide +kernel

/-- An allreduce of a launch's group 0, of which die 0 is a member and die 1 another. -/
def reduce : Cmd := { cmdOf 4 0x20 (0x0B * 4) [0, 0, 0] with lid := some 1 }

/-- The launch with that group. -/
def grouped : State :=
  { State.reset with launches := put none [] 1 (some { launch1 with groups := [[0, 256]] }) }

theorem witness_collectives : grouped.started reduce = none ∧ grouped.collRank reduce (grouped.memberOf 0) = some 0 ∧
    State.reset.collRank reduce (State.reset.memberOf 0) = none ∧ (grouped.collStart reduce).started reduce ≠ none ∧
    (State.reset.collStart reduce).started reduce = none ∧
    (∀ p ∈ [0, 1, 2, 3], (grouped.setRun { cmd := reduce, progress := 0, phase := p }).started reduce =
      some { cmd := reduce, progress := 0, phase := p }) ∧ reduce.unit = 4 ∧
    treeParent 6 = some (1, 4) ∧ treeChildren 6 4 = [(0, 5)] ∧ floatFmt (BitVec.ofNat 6 0x0B) = none ∧
    floatFmt 0x12 = some f32 := by decide +kernel

/-! ### Filters (22) -/

/-- A filter of physical function 0 for every packet event, with one trigger slot of each action. -/
def filter1 : Filter :=
  { tenant := 0, fn := 1024, cls := 8, prog := [0x04000000, 0], period := 0, clear := false, host := 0
    trigs := [0x8000000000000000, 0x9000000000000000, 0xA000000000000000, 0xB000000000000000, 0xC000000000000001] }

/-- The event it runs, at its first instruction. -/
def run1 : FilterRun := { slot := 0, ip := 0, w := [(1, 5), (2, 0xFFFFFFFF)], e := [1, 2, 3, 4, 5, 6, 7, 8], skip := 0, ended := false }

/-- Coprocessor 0 runs `r` of the filter `f`. -/
def filtering (r : FilterRun) (f : Filter) : State :=
  State.reset.modTel 0 fun t => { t with run := some r, filters := [(0, some f)] }

theorem witness_filter_point : FilterPoint (filtering run1 filter1) run1 filter1 :=
  ⟨by decide +kernel, by decide +kernel, rfl, rfl⟩

theorem witness_filter_flow : get 0 run1.w 0 = 0 ∧ get 0 run1.w 1 ≠ 0 ∧ ((State.reset).tel 0).run = none ∧
    ((filtering { run1 with ended := true } filter1).tel 0).run = some { run1 with ended := true } ∧
    ((filtering { run1 with skip := 31 } filter1).tel 0).run = some { run1 with skip := 31 } ∧
    run1.ip + 1 < filter1.prog.length ∧ filter1.prog.length ≤ 1 + 1 ∧
    isFilter (.quinudEnd) = true ∧ ((filtering run1 filter1).tel 0).run ≠ none ∧
    (((filtering run1 { filter1 with exportDue := true }).modTel 0 fun t => { t with run := none }).tel 0).filters =
      [(0, some { filter1 with exportDue := true })] := by decide +kernel

/-- A trigger slot whose last trigger was at cycle 0, and that waits for 1,024 cycles. -/
def earlyFilter : Filter := { filter1 with trigs := [0x8000010000000000], lastTrig := some 0 }

theorem witness_filter_triggers :
    earlyFilter.lastTrig = some 0 ∧
      (filtering run1 earlyFilter).cycles - 0 < 1024 * bits (earlyFilter.trigs.getD 0 0).toNat 59 40 ∧
    filter1.lastTrig = none ∧ (List.range 5).map (fun k => bits (filter1.trigs.getD k 0).toNat 62 60) = [0, 1, 2, 3, 4] ∧
    (filtering run1 filter1).trigInsert 0 0 (filter1.trigs.getD 3 0) 5 run1.e = none := by decide +kernel

/-- 22 R539: `fx w3, e1, 1, 1` of 2 reads bit 1. -/
theorem test_fx : shows (exec (.quinudFx 3 1 1 0) (filtering run1 filter1)) (fun t => (t.tel 0).run.map fun r => get 0 r.w 3) =
    some (some 1) := by decide +kernel

/-- 22 R539: a sum past the end of a state word stops there. -/
theorem test_kadd : shows (exec (.quinudKadd 2 1023) (filtering run1 { filter1 with k := [(1023, 1)] }))
    (fun t => ((t.tel 0).filter 0).map fun f => get 0 f.k 1023) = some (some 0xFFFFFFFF) := by decide +kernel

/-! ### What reaches the homes of addresses (03, 08, 09) -/

/-- A request of the monitor's thread. -/
def reqOf (op : ReqOp) (a : Word) (n : Nat) (x : VWord) : Req :=
  { op := op, th := 48, lid := none, level := 3, xctx := 0, addr := a, size := n, data := x, cmp := 0, dst := .s 8, seq := 0
    lane := none, cls := some 0, adaptive := false }

/-- A store in the store buffer. -/
def buffered : State := State.reset.modCore 3 fun k => { k with stbuf := [{ th := 48, off := 0xFFFFF, size := 1, data := 7 }] }

/-- The thread waits for register 8, for a lane of vector register 2 and for two lanes of vector register 3. -/
def waiting : State := atMonitor fun c => { c with
  sEmpty := 0x100, vEmpty := 0xC, nextSeq := 3
  prods := [{ seq := 0, dst := .s 8, left := 1, acc := 0, acquire := false }, { seq := 1, dst := .v 2, left := 1, acc := 0, acquire := false },
    { seq := 2, dst := .v 3, left := 2, acc := 0, acquire := false }] }

/-- The stack pointer register 2 of context 0 of core 3, whose producer is outstanding, as a place (08 R244). -/
def ownRegister8 : Word := windowAddr 3 2 64

theorem witness_accesses_at_home :
    (State.reset.core 3).stbuf = [] ∧ (buffered.core 3).stbuf ≠ [] ∧ (State.reset.ctx 48).status ≠ .free ∧
    (∀ p ∈ (State.reset.ctx 48).prods, p.seq ≠ 0) ∧
    ((waiting.ctx 48).prods.find? fun p => p.seq = 0).map (·.left) = some 1 ∧
    ((waiting.ctx 48).prods.find? fun p => p.seq = 2).map (·.left) = some 2 ∧
    (((waiting.accessEnds 48 none).addConds 3 []).ctx 48).sEmpty.getLsbD 8 = true ∧
    ([windowAddr 7 0 0xFFFF8, 0x8000000000000000, 0x1000].all fun a => [ReqOp.load true, .store, .amo 11].all fun op =>
      !State.reset.mayNotPass (reqOf op a 8 1) && !State.reset.homeLocked (reqOf op a 8 1)) = true ∧
    waiting.regPending ownRegister8 = true ∧ waiting.regPending (windowAddr 3 0 0) = false ∧
    decodeAddr (hubAddr 0x401000) = .hub 0x401000 := by decide +kernel

/-- A thread of launch 1 asks for a place outside its partition; and one of another quad for a locked range. -/
theorem witness_turned_away :
    (launched 0 id).mayNotPass { reqOf .store (windowAddr 7 0 0) 8 1 with lid := some 1, level := 0 } = true ∧
    (State.reset.modQuad 1 fun q => { q with locks := [{ th := 0, seq := 0, lo := (windowAddr 7 0 0).toNat, hi := (windowAddr 7 0 0).toNat + 64, dst := true, xctx := none }] }).homeLocked
      (reqOf .store (windowAddr 7 0 0) 8 1) = true := by decide +kernel

/-- Word 0 of core 7's scratchpad is empty. -/
def emptyWord : State := State.reset.setFull 7 0 false

/-- The monitor's thread is held by a request, refused where `r` says so. -/
def heldAt (r : Bool) : State := atMonitor fun c => { c with
  held := [{ pc := 0, start := 0, refused := r, req := reqOf .ldfe (windowAddr 7 0 0) 4 0 }] }

theorem witness_presence_at_home :
    (∀ op ∈ [ReqOp.ldfe, .ldpw, .stef], State.reset.mayNotPass (reqOf op (windowAddr 7 0 0) 4 0) = false ∧
      State.reset.homeLocked (reqOf op (windowAddr 7 0 0) 4 0) = false) ∧
    State.reset.full 7 0 = true ∧ emptyWord.full 7 0 = false ∧
    ((emptyWord.core 7).waits.filter fun q => isPresence q.op).length < 32 ∧
    32 ≤ (((emptyWord.modCore 7 fun k => { k with waits := List.replicate 32 (reqOf .ldfe (windowAddr 7 0 0) 4 0) }).core 7).waits.filter
      fun q => isPresence q.op).length ∧
    (∀ h ∈ (State.reset.ctx 48).held, h.req.seq = 0 → h.answer ≠ none ∨ h.dropped = true) ∧
    (((heldAt true).ctx 48).held.find? fun h => h.req.seq = 0 && h.answer.isNone && !h.dropped).isSome = true ∧
    State.reset.takeBack (reqOf .ldfe (windowAddr 7 0 0) 4 0) = none ∧
    ((heldAt true).takeBack (reqOf .ldfe (windowAddr 7 0 0) 4 0)).isSome = true ∧ (State.reset.ctx 0).fewait ≠ 0 ∧
    ((State.reset.modCtx 48 fun c => { c with fewait := 0 }).ctx 48).fewait = 0 ∧
    ((((heldAt false).modCore 3 fun k => { k with cycle := 0x10001 }).ctx 48).held.find? fun h =>
      (State.reset.ctx 48).fewait ≠ 0 && h.answer.isNone && !h.withdrawn && !h.dropped &&
        (State.reset.ctx 48).fewait.toNat < (((heldAt false).modCore 3 fun k => { k with cycle := 0x10001 }).core 3).cycle - h.start).isSome = true ∧
    (∀ h ∈ ((heldAt false).ctx 48).held, h.refused = false) ∧ (((heldAt true).ctx 48).held.filter (·.refused)).length = 1 := by
  decide +kernel

/-- Sync word 0x40 of die 0 counts 2. -/
def joinTwo : State := State.reset.syncWrite 0x8000000000000040 8 2

theorem witness_sync_at_home :
    (∀ op ∈ [ReqOp.ssigSet, .ssigAdd, .joinInit, .joinArrive, .swait 0, .swait 3],
      joinTwo.mayNotPass (reqOf op 0x8000000000000040 8 2) = false ∧ joinTwo.homeLocked (reqOf op 0x8000000000000040 8 2) = false) ∧
    decodeAddr 0x8000000000000040 = .sync 0 0x40 ∧ joinTwo.syncRead 0x8000000000000040 8 = 2 ∧
    State.reset.syncRead 0x8000000000000040 8 = 0 ∧ (joinTwo.die 0).waiters.length < 4096 ∧
    barriers.launch 1 = some launch1 ∧ barriers.barrierPer (some 1) 0 0 = some 1 ∧ barriers.dieInPart 0 (barrierDie 0 128) = true ∧
    (launched 0 id).dieInPart 0 (barrierDie 0 128) = false ∧ (barriers.barrierNode 1 0 0 128).phases = 0 ∧
    0 < ((barriers.modBarrier 1 0 0 128 fun b => { b with phases := 1 }).barrierNode 1 0 0 128).phases := by decide +kernel

/-- Die 0 has no place for another waiter. -/
theorem witness_waiters_full : 4096 ≤ ((joinTwo.modDie 0 fun d => { d with
    waiters := List.replicate 4096 (reqOf (.swait 0) 0x8000000000000040 8 3) }).die 0).waiters.length := by
  show 4096 ≤ (List.replicate 4096 (reqOf (.swait 0) 0x8000000000000040 8 3)).length
  exact Nat.le_of_eq List.length_replicate.symm

/-- An arrival of context 0 of core 128 at barrier 0 of its core. -/
def arrived : State := barriers.modBarrier 1 0 0 128 fun b => { b with
  arrivals := [{ level := 0, id := 0, inst := 128, th := 2048, lid := some 1, phase := 0, comb := none }] }

theorem witness_phases : arrived.phaseHere launch1 (arrived.barrierNode 1 0 0 128) 0 128 1 0 = true ∧
    barriers.phaseHere launch1 (barriers.barrierNode 1 0 0 128) 0 128 1 0 = false := by
  constructor
  · refine List.all_eq_true.2 fun c h => ?_
    have h4 : c = 128 := by simpa using (List.mem_filter.1 h).2
    subst h4
    decide +kernel
  · refine List.all_eq_false.2 ⟨128, ?_, by decide +kernel⟩
    refine List.mem_filter.2 ⟨List.mem_flatMap.2 ⟨32, ?_, by decide +kernel⟩, by decide⟩
    exact List.mem_flatMap.2 ⟨0, by decide, List.mem_filter.2 ⟨List.mem_map.2 ⟨0, by decide, by decide +kernel⟩, by decide +kernel⟩⟩

/-- Buffer 0 of core 7 takes entries of context 0 of core 3. -/
def channel : State := windows.modCore 7 fun k => { k with chans := [(0, { conf := 0x8000000001800000 })] }

/-- The thread has asked for credits of that buffer under number 5. -/
def asking (k : Nat) : State := channel.modCtx 48 fun c => { c with
  binds := [5], win := put none c.win 1 (some { word := 0x4000000003800000, bind := k, answered := false }) }

theorem witness_binds :
    channel.strays (channel.writerLid 7 0) (quadOf 7) = false ∧ 5 ∉ (channel.ctx 48).binds ∧ 5 ∈ ((asking 5).ctx 48).binds ∧
    (((asking 5).ctx 48).window 1).any (fun w => w.bind = 5 && !w.answered) = true ∧
    (((asking 6).ctx 48).window 1).all (fun w => w.bind ≠ 5) = true := by decide +kernel

/-- Window 0 of the thread is bound to its empty buffer 0, and its next bundle is `i`; it has waited on a window for `n` cycles. -/
def stuck (i : Instr) (n : Nat) : State := ((atMonitor fun c => { c with
  s := [(1, windowAddr 3 0 4)], win := [(0, some { word := 0x1800000 })], winWait := some 0 }).modCore 3 fun k => { k with
    cycle := n, chans := [(0, { conf := 0x8000000003800000 })] }).withFetchWord 32 ((encodeS i).getD 0).toNat

theorem witness_window_waits :
    (stuck (.qpeek 8 0) 0).instrsAt 48 = some [.qpeek 8 0, .vnop] ∧ ((stuck (.qpeek 8 0) 0).ctx 48).winWait ≠ none ∧
    [Instr.qpeek 8 0, .vnop].any (stuck (.qpeek 8 0) 0).windowWait = true ∧
    (stuck (.qpeek 8 0) 0).verdict [.qpeek 8 0, .vnop] = .block onWindow ∧
    (stuck (.st64 28 1 0 0 0 0) 0x200000).instrsAt 48 = some [.st64 28 1 0 0 0 0, .vnop] ∧
    [Instr.st64 28 1 0 0 0 0, .vnop].any (stuck (.st64 28 1 0 0 0 0) 0x200000).windowWait = true ∧
    (stuck (.st64 28 1 0 0 0 0) 0x200000).verdict [.st64 28 1 0 0 0 0, .vnop] = .trap { cause := 0x03, tval := windowAddr 3 0 4 } := by
  decide +kernel

theorem witness_channel_messages :
    (State.reset.ctx 48).outWindow 7 0 = none ∧ ((channel.ctx 48).outWindow 7 0).map Prod.fst = some 1 ∧
    (State.reset.ctx 48).window 1 = none ∧ ((channel.ctx 48).window 1).isSome = true ∧
    (get {} (channel.core 7).chans 0).conf.getLsbD 63 = true ∧ (get {} (channel.core 7).chans 0).conf.toNat / 2 ^ 23 % 8192 = coreOf 48 ∧
    (get {} (channel.core 7).chans 0).conf.toNat % 16 = ctxOf 48 ∧ (get {} (windows.core 7).chans 0).conf.getLsbD 63 = false ∧
    (get {} (channel.core 7).chans 0).entries.length < 16 ∧ (State.reset.ctx 48).winWait = none := by decide +kernel

/-- 08 R248: the entry leaves the store buffer and its byte is written. -/
theorem test_store_buffer : shows (exec (.storeBufferWrite 3) buffered) (fun t =>
    ((t.core 3).stbuf, Memory.byte t.mem (Place.scratch 3 0xFFFFF).key)) = some ([], 7) := by decide +kernel

/-- 09 R308: a join that counts two down to one. -/
theorem test_join : shows (exec (.joinArrival (reqOf .joinArrive 0x8000000000000040 8 1)) joinTwo) (fun t =>
    t.syncRead 0x8000000000000040 8) = some 1 := by decide +kernel

/-! ### Commands, tasks, fretboards, launches (02, 10, 11, 18, 19) -/

/-- A copy command with number 0, with a trap for a failure and a chained successor in slot 1 of engine 2. -/
def chained : Cmd := { cmdOf 2 0x10 0 [0, 0, 0] with
  words := [BitVec.ofNat 64 (0x10 * 2 ^ 58 + 3 * 2 ^ 54 + 2 ^ 53 + 2 ^ 46 + 2 * 2 ^ 42 + 1 * 2 ^ 38), 0, 0, 0] }

/-- The thread knows of it. -/
def noted : State := atMonitor fun c => { c with notes := [{ th := 48, seq := 0, status := none, ok := false }] }

/-- Its successor stands parked. -/
def parked : State := State.reset.modEngine 2 0 fun e => e.setSlot none 1 (some (.parked (cmdOf 2 0x10 0 [0, 0, 0])))

/-- A key of the combining node that waits for two requests since cycle 0; it is cycle `n`. -/
def combining (n : Nat) : State := (State.reset.modQuad 0 fun q => { q with
  cmbwait := 0x400, comb := [{ key := 3, expected := 2, since := 0, reqs := [chained] }] }).modHub fun h => { h with cycle := n }

theorem witness_command_events :
    (∃ n ∈ (noted.ctx chained.th).notes, n.th = chained.th ∧ n.seq = chained.seq ∧ n.own = true) ∧ chained.trap = true ∧ chained.chain = true ∧
    (cmdOf 2 0x10 0 [0, 0, 0]).trap = false ∧ (cmdOf 2 0x10 0 [0, 0, 0]).chain = false ∧ (State.reset.ctx chained.th).notes = [] ∧
    (parked.engine chained.nsel (placeOfUnit chained.th chained.nsel)).slot chained.lid chained.nslot = some (.parked (cmdOf 2 0x10 0 [0, 0, 0])) ∧
    (State.reset.engine chained.nsel (placeOfUnit chained.th chained.nsel)).slot chained.lid chained.nslot = none ∧
    (State.reset.quad 0).comb = [] ∧ (((combining 0x400).quad 0).comb.find? fun k => k.key = 3 && k.expected ≠ 0 &&
      k.since + ((combining 0x400).quad 0).cmbwait ≤ (combining 0x400).hub.cycle).isSome = true ∧
    (∀ k ∈ ((combining 0x3FF).quad 0).comb, k.key = 3 → k.expected = 0 ∨
      (combining 0x3FF).hub.cycle < k.since + ((combining 0x3FF).quad 0).cmbwait) ∧
    (cmdOf 2 0x10 0x8000 [0, 0, 0]).combines = true ∧ (cmdOf 2 0x10 0 [0, 0, 0]).combines = false := by decide +kernel

/-- A wake message of firmware, and one of a launch that is not there. -/
def wakeOf (lid : Option Nat) : Start :=
  .wake { core := 3, entry := 0x100, args := [1, 2, 3, 4], level := 2, h := false, lid := lid, sender := .join 0 }

/-- Every context of core 3 is in use. -/
def fullCore : State := (List.range 16).foldl (fun s k => s.modCtx (48 + k) fun c => { c with status := .ready }) State.reset

/-- Launch 1 is `l`. -/
def withLaunch (l : Launch) : State := { State.reset with launches := put none [] 1 (some l) }

/-- Context 1 of core 3 is held for the message of launch `l`, which has come where `b` says so. -/
def heldForWake (s : State) (l : Option Nat) (b : Bool) : State := s.modCore 3 fun k => { k with heldFor := [(49, wakeOf l, b)] }

/-- A rule of one pattern of kind 1. -/
def rule0 (recon : Bool) : Rule :=
  { index := 0, prio := 0, recon := recon, kernel := 0, byKey := false, keyField := 0, entry := 0
    pats := [{ kind := 1, cat := false, gen := 0, conds := [.any, .any, .any] }] }

theorem witness_tasks_at_cores :
    State.reset.startGone (wakeOf (some 1)) = true ∧ State.reset.startGone (wakeOf none) = false ∧
    State.reset.startable (wakeOf none) = true ∧ (State.reset.core 3).refusal = [] ∧ (State.reset.core 3).round = none ∧
    (State.reset.core 3).repart = none ∧ State.reset.freeCtx 3 = some 49 ∧ fullCore.freeCtx 3 = none ∧
    (withLaunch { launch1 with ladder := .drain }).startGone (wakeOf (some 1)) = false ∧
    (withLaunch { launch1 with ladder := .drain }).startable (wakeOf (some 1)) = false ∧
    State.reset.reconOf (wakeOf none) = none ∧ (∀ p ∈ (State.reset.core 3).heldFor, p.2 ≠ (wakeOf none, false)) ∧
    (∃ p ∈ ((heldForWake State.reset none false).core 3).heldFor, p.2 = (wakeOf none, false)) ∧
    ((heldForWake State.reset none true).core 3).heldFor = [(49, wakeOf none, true)] ∧
    (heldForWake State.reset none true).startGone (wakeOf none) = false ∧
    (heldForWake State.reset (some 1) true).startGone (wakeOf (some 1)) = true ∧
    (heldForWake (withLaunch { launch1 with ladder := .drain }) (some 1) true).startGone (wakeOf (some 1)) = false ∧
    (heldForWake (withLaunch { launch1 with ladder := .drain }) (some 1) true).startable (wakeOf (some 1)) = false ∧ State.reset.strays (startLid (wakeOf none)) 0 = false ∧
    (withLaunch launch1).strays (startLid (wakeOf (some 1))) 32 = true ∧
    ((withLaunch { launch1 with rules := [rule0 true] }).reconOf (.firing { lid := 1, quad := 0, lq := 0, rule := 0, members := [], arrs := [], number := 0, marks := none })).isSome = true := by
  decide +kernel

/-- The monitor's context is Retiring, the last of its core, whose mode is to change. -/
def retiring : State := (atMonitor fun c => { c with status := .retiring }).modCore 3 fun k => { k with repart := some (48, 1) }

/-- A deferred trap waits for the thread's slot. -/
def deferred : State := atMonitor fun c => { c with deferred := [{ cause := 0x0A, tval := 1 }] }

/-- The thread sleeps until cycle 5. -/
def sleeping : State := atMonitor fun c => { c with status := .sleeping, sleepUntil := 5 }

theorem witness_slots_and_sleep :
    (State.reset.ctx 48).status ≠ .retiring ∧ (retiring.ctx 48).status = .retiring ∧ (retiring.ctx 48).counterZero = true ∧
    (retiring.ctx 48).prods = [] ∧ (retiring.core 3).repart = some (48, 1) ∧ firstTrap (State.reset.ctx 48).due = none ∧
    (firstTrap (deferred.ctx 48).due).isSome = true ∧ (sleeping.ctx 48).status = .sleeping ∧ (sleeping.core 3).cycle < (sleeping.ctx 48).sleepUntil ∧
    ((sleeping.modCore 3 fun k => { k with cycle := 5 }).ctx 48).sleepUntil ≤ ((sleeping.modCore 3 fun k => { k with cycle := 5 }).core 3).cycle ∧
    (State.reset.core 3).nextSlots = none ∧ (State.reset.core 3).cycle % 32 = 0 := by decide +kernel

/-- A record of kind 1 in entry 0 of the fretboard of quad 32, pending or processed. -/
def frec (pending : Bool) (entry : Option Nat) : FRec :=
  { record := ⟨0x0100000000000000, 0⟩, lid := 1, lq := 0, arr := 0, entry := entry, processed := !pending, since := none
    pending := pending, reserved := false, marks := none }

/-- Launch `l` holds the records of the list at quad 32. -/
def board (l : Launch) (m : List FRec) : State := (withLaunch l).modFret 32 fun f => { f with recs := m }

/-- Launch 1 with its rule. -/
def ruled : Launch := { launch1 with rules := [rule0 false] }

/-- The arrival of a record of kind 1. -/
def arrival : Arrival := { lid := 1, quad := 32, lq := 0, record := ⟨0x0100000000000000, 0⟩, marks := none }

/-- The same in partition 0, which has the ports of die 0. -/
def housed (l : Launch) (m : List FRec) : State := { board l m with hub := { part := [(0, 0x80000000000000FF)] } }

theorem witness_record_arrival :
    (housed launch1 []).launch 1 = some launch1 ∧ (housed launch1 []).strays (some 1) 32 = false ∧
    (withLaunch launch1).strays (some 1) 32 = true ∧ State.reset.launch 1 = none ∧ launch1.ladder = .none ∧ launch1.state = .running ∧
    launch1.ordered = false ∧
    (((housed { launch1 with ordered := true } [frec false (some 0)]).fret 32).of 1 0).any (fun x =>
      x.processed && decide (x.record.tag = arrival.record.tag)) = true := by decide +kernel

theorem witness_processing :
    (State.reset.fret 32).recs = [] ∧ (board ruled [frec true (some 0)]).multiplexed ruled 32 = false ∧
    ((board ruled [frec true (some 0)]).fret 32).recs.find? ((board ruled [frec true (some 0)]).mayProcess 32) = some (frec true (some 0)) ∧
    (((board ruled [frec true (some 0)]).fret 32).recs.find? fun r => r.lid = 1 && r.arr = 0 && !r.reserved).map
      ((board ruled [frec true (some 0)]).examined 32) = some (frec true (some 0)) ∧
    (((board ruled [frec true (some 0)]).findGroup 32 ruled (frec true (some 0))).1.map fun p => p.1.index) = some 0 ∧
    ((board launch1 [frec true (some 0)]).findGroup 32 launch1 (frec true (some 0))).1 = none := by decide +kernel

/-- A spilled record waits for an entry, below the mark. -/
def spilled : State := board launch1 [frec false none]

/-- Every entry of the fretboard is in use, by records reserved where `b` says so; the launch `l` has one record spilled. -/
def fullBoard (l : Launch) (b : Bool) : State :=
  board l (frec false none :: (List.range 4096).map fun k => { frec false (some k) with arr := k, reserved := b })

theorem witness_spill :
    (board launch1 []).freeEntry 32 1 = some 0 ∧
    (spilled.fret 32).recs.find? (fun r => r.entry.isNone && spilled.belowMark 32 r.lid) = some (frec false none) := by decide +kernel

theorem witness_full :
    (fullBoard launch1 false).freeEntry 32 1 = none ∧ (fullBoard launch1 false).spilledCount 32 1 < launch1.spill ∧
    ((fullBoard launch1 false).spillable 32 1).isSome = true ∧ (fullBoard launch1 true).freeEntry 32 1 = none ∧
    (fullBoard launch1 true).spillable 32 1 = none ∧ (fullBoard { launch1 with spill := 1 } false).spilledCount 32 1 = 1 ∧
    (fullBoard launch1 false).belowMark 32 1 = false := by decide +kernel

/-- The turn of logical quad 0 at quad 32, where the records `m` are. -/
def turned (m : List FRec) : State := (board ruled m).modQuad 32 fun q => { q with turn := put none q.turn 0 (some (trigKey 1 0)) }

theorem witness_turns : get none (State.reset.quad 32).turn 0 = none ∧ get none ((turned []).quad 32).turn 0 = some (trigKey 1 0) ∧
    trigKey 1 0 / 32768 = 1 ∧ trigKey 1 0 % 32768 = 0 ∧ (turned []).launch 1 = some ruled ∧
    (turned [frec true (some 0)]).quiescent 32 1 0 = false ∧ (turned []).nextTurn ruled 32 1 0 = none := by decide +kernel


/-- A partition without ports has no quads. -/
theorem no_part_quads (s : State) (h : s.hub.part = []) (n : Nat) : s.partQuads n = [] := by
  unfold State.partQuads
  rw [List.flatMap_eq_nil_iff]
  intro d _
  rw [List.filter_eq_nil_iff]
  intro q _ e
  unfold State.quadInPart at e
  rw [h, show get (0 : Word) ([] : FMap Word) n = 0 from rfl] at e
  simp [partReq] at e

/-- A launch with one explicit seed, then a walk of two points. -/
def walked : Launch := { launch1 with
  state := .seeding, kinds := [(1, byKey)], seeds := [⟨0x0100000000000000, 0⟩], walkDone := false
  walk := some { work := 1, out := 1, scale := 0, window := 1, nx := 2, ny := 1, nz := 1, base := 0, space := 2, sx := 0, sy := 0, sz := 0 } }

/-- A hole record of kind 1 at quad 32, of a launch with coverage that holds the requester ports of die 0. -/
def covered : Launch := { launch1 with
  holesDue := true
  cover := some { hole := 1, nk := 2, rate := 0, ladder := [], start := 0, floor := 0, ceil := 0, holdN := 0, upd := 0, fallK0 := false
                  axisY := false, near := 0, mask := false, hi := 0, lo := 0 } }

/-- The state of that, for the launch `l`. -/
def holding (l : Launch) : State := housed l [frec false (some 0)]

theorem quad32_in_part (s : State) (h : s.hub.part = [(0, 0x80000000000000FF)]) (h2 : s.hub.spare = []) : 32 ∈ s.partQuads 0 := by
  refine List.mem_flatMap.2 ⟨0, by decide, List.mem_filter.2 ⟨List.mem_map.2 ⟨0, by decide, ?_⟩, ?_⟩⟩
  · unfold physicalOf
    rw [h2]
    decide +kernel
  · unfold State.quadInPart logicalOf
    rw [h, h2]
    decide +kernel

/-- Without quads there is no hole left. -/
theorem no_holes (s : State) (h : s.hub.part = []) (l : Launch) : s.holesLeft 1 l = [] := by
  unfold State.holesLeft
  rw [no_part_quads _ h]
  rfl

theorem witness_walker :
    State.reset.launch 1 = none ∧ (withLaunch walked).launch 1 = some walked ∧ walked.matching = true ∧
    walked.seedList[walked.seedPos]?.isSome = true ∧ ({ walked with seedPos := 1 } : Launch).seedList[1]? = none ∧
    walked.walkDone = false ∧ launch1.walkDone = true ∧ ({ launch1 with ladder := .drain } : Launch).matching = false ∧
    walked.walk.any (fun w => decide (w.window ≤ [0].length ∧ walked.unfinished.length < w.window)) = true ∧
    walked.cover = none := by decide +kernel

/-- The launch's last wave found it quiet. -/
def quiet (l : Launch) : Launch := { l with lastWave := some (0, 0, false) }

theorem witness_waves :
    (quiet launch1).sent = (quiet launch1).received ∧ (withLaunch (quiet launch1)).activeLaunch 1 (quiet launch1) = false ∧
    (quiet launch1).lastWave = some ((quiet launch1).sent, (quiet launch1).received,
      (withLaunch (quiet launch1)).activeLaunch 1 (quiet launch1)) ∧ (quiet launch1).state = .running ∧ walked.state = .seeding ∧
    (withLaunch walked).activeLaunch 1 walked = true ∧ launch1.holesDue = false ∧ covered.holesDue = true := by decide +kernel

theorem witness_holes : (withLaunch (quiet launch1)).holesLeft 1 (quiet launch1) = [] ∧
    (holding (quiet covered)).holesLeft 1 (quiet covered) ≠ [] := by
  refine ⟨no_holes _ rfl _, List.ne_nil_of_mem (a := (32, frec false (some 0))) ?_⟩
  exact List.mem_flatMap.2 ⟨32, quad32_in_part _ rfl rfl, by decide +kernel⟩

theorem witness_holes_quiet : (holding (quiet covered)).activeLaunch 1 (quiet covered) = false := by decide +kernel

/-- A firing of rule 0 that no launch waits for. -/
def firing0 : Firing := { lid := 2, quad := 0, lq := 0, rule := 0, members := [], arrs := [], number := 0, marks := none }

/-- The reconstruction unit of quad 0 holds a firing, and in `e` its commands. -/
def reconHolds (e : Engine) : State := State.reset.modQuad 0 fun q => { q with eng := [(3, e)], recon := { held := [firing0] } }

theorem witness_recon_firing :
    (State.reset.quad 0).recon.held = [] ∧ ((reconHolds {}).quad 0).recon.held = [firing0] ∧ (reconHolds {}).firingNext 0 = true ∧
    (reconHolds { loose := [cmdOf 3 0x30 0xF0000 [0, 0, 0, 0, 0, 0]] }).firingNext 0 = false := by decide +kernel

/-- A launch that waits for its quads, and one that holds them. -/
def pending : Launch := { launch1 with state := .pending }

theorem witness_launch_start : (withLaunch pending).firstInLine 1 pending = true ∧
    ((withLaunch pending).makeRoom 1 pending).2 = true ∧ (withLaunch pending).hub.fw.running = true ∧
    (({ withLaunch pending with launches := [(1, some pending), (2, some { launch1 with holding := true })] } : State).makeRoom 1 pending).2 =
      false := by decide +kernel

/-- A line of that launch's pinned code is still being read. -/
def loading : State := (housed pending []).modQuad 32 fun q => { q with
  icache := [{ xctx := 0, line := 0, bytes := [], pins := [1], stale := true }] }

theorem witness_code_loading : (withLaunch pending).codeLoading 1 pending = false ∧ loading.codeLoading 1 pending = true := by
  refine ⟨?_, List.any_eq_true.2 ⟨32, quad32_in_part _ rfl rfl, by decide +kernel⟩⟩
  unfold State.codeLoading
  rw [no_part_quads _ rfl]
  rfl

/-- Context 1 has a level 3 table at 0x10_0000 and a level 2 table at 0x20_0000, which maps the first 2^30 bytes at 2^30. -/
def mapped : State :=
  (({ State.reset with hub := {
      xctxs := [(0, { valid := true, root := 0x10 }), (1, { valid := true, root := 0x10 })]
      own := [(0x10, 0xC000), (0x20, 0xC000), (0x4000, 0x8000)] } } : State).wr (.tier 0x100000) 8 0x8000000000200000).wr
    (.tier 0x200000) 8 0xE000000040000000

/-- Die 0 has an access at 0 to translate, whose page at that address is parked where `b` says so. -/
def walking (b : Bool) : State := mapped.modDie 0 fun d => { d with
  walks := [.access (reqOf .store 0 8 1)]
  parked := if b then [{ item := .access (reqOf .store 0 8 1), va := 0, xctx := 0, kind := 0, access := 1, requester := 3 }] else [] }

theorem witness_walks :
    (State.reset.die 0).walks.take 64 = [] ∧ ((walking false).die 0).walks[0]? = some (.access (reqOf .store 0 8 1)) ∧
    (walking false).walkReady 0 (.access (reqOf .store 0 8 1)) = true ∧
    (∀ x ∈ ((walking true).die 0).walks.take 64, (walking true).walkReady 0 x = false) ∧
    ((walking false).die 0).parked[0]? = none ∧ (((walking true).die 0).parked[0]?).isSome = true ∧
    (walking true).hub.fw.running = true := by decide +kernel

theorem witness_translation_events :
    mapped.lookUp 0 1 0 0xFFFF true = .page 0 (2 ^ 30) (2 ^ 30) true ∧ mapped.lookUp 0 1 0 (2 ^ 39) false = .fault .absent ∧
    mapped.lookUp 0 1 0 0x10000 false = .denied (2 ^ 30 + 0x10000) ∧
    ((none : Option Nat).bind State.reset.launch).isSome = false ∧ mapped.portAllowed 0 0 = true ∧
    ((some 1).bind (withLaunch launch1).launch).isSome = true ∧ (withLaunch launch1).portAllowed 32 0 = false ∧
    (0x400 : Word).getLsbD 10 = true ∧ (0 : Word).getLsbD 10 = false ∧
    (0x4080 : BitVec 16).toNat = (0x580 : Word).toNat / 2 ^ 9 % 2 * 2 ^ 15 + (0x580 : Word).toNat / 2 ^ 8 % 2 * 2 ^ 14 + (0x580 : Word).toNat % 256 ∧
    get 0 mapped.hub.own 0x10 &&& 0x40FF = (0xC000 : BitVec 16) &&& 0x40FF ∧
    get 0 mapped.hub.own 0x10 &&& 0x40FF ≠ (0x8001 : BitVec 16) &&& 0x40FF := by decide +kernel

/-- Context 1's page is among the translations of quad 0. -/
def cachedPage : State := mapped.cacheFill 0 { xctx := 1, va := 0, size := 2 ^ 30, pa := 2 ^ 30, write := true }

theorem witness_lines :
    mapped.cached 0 1 0 false = none ∧ cachedPage.cached 0 1 0 false ≠ none ∧
    mapped.lookUp 0 1 (fetchLevel 1) 0 false = .page 0 (2 ^ 30) (2 ^ 30) true ∧
    State.reset.lookUp 0 1 (fetchLevel 1) 0 false = .fault .absent := by decide +kernel

/-- 20 R487: the translation reads the tables and adds the offset. -/
theorem test_walk : mapped.walk 1 0 0x1234 false = .page 0 (2 ^ 30) (2 ^ 30) true := by decide +kernel

/-! ### Queues, packets, links, the hub (19 to 23) -/

/-- Queue 0 is enabled with 16 records and service core 0, its producer one ahead, with that doorbell. -/
def queued : State := State.reset.modHub fun h => { h with
  queues := [(0, { cfg := 0x8000000000000000, base := 0, prod := 1 })], bells := [(0, 1)] }

/-- The same in a partition with the ports of die 0, where service core 1 is idle. -/
def stealable : State := queued.modHub fun h => { h with part := [(0, 0x80000000000000FF)] }

theorem witness_doorbells :
    qSize (queued.queueOf 0).cfg = 16 ∧ 16 < (17#32 - (queued.queueOf 0).cons).toNat ∧
    (0#32 - (queued.queueOf 0).cons).toNat < (0#32 - (queued.queueOf 0).prod).toNat ∧
    (0#32 - (queued.queueOf 0).cons).toNat ≤ 16 ∧ (16#32 - (queued.queueOf 0).cons).toNat ≤ 16 ∧
    (16#32 - (queued.queueOf 0).prod).toNat ≤ (16#32 - (queued.queueOf 0).cons).toNat ∧ (16#32) ≠ (queued.queueOf 0).prod ∧
    qEn (queued.queueOf 0).cfg = true ∧ qEn (State.reset.queueOf 0).cfg = false ∧ (0x7FFFFFFFFFFFFFFF : Word).getLsbD 63 = false := by
  decide +kernel

/-- A launch request whose fields are all zero but its handle, as 64 bytes. -/
def launchBytes : Nat := 1 + 5 * 256 ^ 4

/-- A request to close the sources of handle 5. -/
def closeBytes : Nat := 3 + 5 * 256 ^ 4

theorem witness_request_accept :
    queued.hub.fw.running = true ∧ queued.hub.fw.busy = false ∧ queued.nextBell 0 = some 0 ∧ State.reset.nextBell 0 = none ∧
    (readRequest 0 launchBytes).2 = true ∧ (readRequest 0 0).2 = false ∧ (readRequest 0 launchBytes).1.handle = 5 ∧
    (readRequest 0 launchBytes).1.kind ≠ 3 ∧ (readRequest 0 closeBytes).2 = true ∧ (readRequest 0 closeBytes).1.kind = 3 := by
  decide +kernel

/-- The request of kind `k` with handle 1. -/
def requestOf (k : Nat) : Request := { (readRequest 0 launchBytes).1 with kind := k, handle := 1 }

theorem witness_requests :
    (get {} State.reset.hub.xctxs (qXctx (queued.queueOf 0).cfg)).valid = false ∧
    (get {} mapped.hub.xctxs (qXctx (mapped.queueOf 0).cfg)).valid = true ∧
    (get {} mapped.hub.xctxs (qXctx (mapped.queueOf 0).cfg)).part = qPart (mapped.queueOf 0).cfg ∧
    (requestOf 1).queue * 2 ^ 32 + (requestOf 1).handle = 1 ∧ mapped.launch 1 = none ∧ (requestOf 1).take = false ∧
    (withLaunch launch1).launch 1 = some launch1 ∧ reqAccepted launch1 2 = false ∧ launch1.state ≠ .failed ∧
    reqAccepted { launch1 with state := .failed } 2 = false ∧ reqAccepted { launch1 with state := .complete } 2 = true ∧
    reqAccepted launch1 3 = true ∧ reqAccepted { launch1 with state := .complete } 4 = true ∧
    reqAccepted { launch1 with state := .failed } 5 = true ∧ reqAccepted { launch1 with isOpen := true } 6 = true := by
  decide +kernel

theorem witness_queue_steal :
    1 < 16 ∧ stealable.hub.fw.running = true ∧ (stealable.queueOf 0).full = true ∧ (∀ k ∈ stealable.queuesOf 1, (stealable.queueOf k).full = false) ∧
    stealable.victim 1 = some (stealable.queueOf 0).server ∧ stealable.dieInPart (qPart (stealable.queueOf 0).cfg) (1 / 4) = true ∧
    (State.reset.queueOf 0).full = false := by decide +kernel

/-- A ring word of one slot of 64 bytes at core 128, in a partition with the ports of die 0. -/
def ringWord : Word := BitVec.ofNat 64 (6 * 2 ^ 36 + 128 * 2 ^ 23)

/-- A classifier group in effect of one entry that matches every frame of port 0, with the action `x`. -/
def classified (x : Word) : State := State.reset.modHub fun h => { h with
  groups := [{ first := 0, entries := [{ control := 0x8400000000000000, action := x }] }] }

/-- Egress queue 0 holds a frame for port 0. -/
def frameOut : State := State.reset.modHub fun h => { h with egress := [(0, { conf := 0x8200000000000000, frames := [(0, [1, 2])] })] }

theorem witness_packet_events :
    stealable.ringOk ringWord = true ∧ State.reset.ringOk ringWord = false ∧ ringEn (get {} State.reset.hub.rings 0).word = false ∧
    (0x8000000000000000 : Word).getLsbD 62 = (State.reset.clsEntry 0).control.getLsbD 62 ∧
    (0xC000000000000000 : Word).getLsbD 62 = ((State.reset.modCls 0 fun c => { c with control := 0x4000000000000000 }).clsEntry 0).control.getLsbD 62 ∧
    (State.reset.port 0).galsol = false ∧ ((State.reset.port 0).galsol = true ∨ [(1 : Byte), 2].length ≤ 9216) ∧ (∀ g ∈ State.reset.hub.groups, ∃ c ∈ g.entries, c.matches 0 [] = false) ∧
    ([0, 1].map fun x => ((classified x).hub.groups.find? (fun g => g.entries.all (ClsEntry.matches 0 []))).map fun g =>
      (g.entries.getLastD {}).action.getLsbD 0) = [some false, some true] ∧
    (State.reset.port 0).down = false ∧ State.reset.nextEgress 0 = none ∧ frameOut.nextEgress 0 = some 0 ∧
    (get {} frameOut.hub.egress 0).frames = [(0, [1, 2])] := by decide +kernel

/-- Port 0 is a Galsol port, locked, and up where `b` says so, with a message in channel 1. -/
def linkPort (b : Bool) : State := State.reset.modPort 0 fun p => { p with
  moded := true, galsol := true, locked := true, up := b, nakking := b, credits := [(0, 1), (1, 1), (2, 1), (3, 1)]
  txq := [(1, [{ head := [], rest := List.replicate 117 7 }])] }

/-- A flit of kind `k` with sequence number 0. -/
def flitOf (k : Nat) : List Byte := mkFlit (k * 2 ^ 60) []

theorem witness_link_events :
    ((linkPort true).port 0).up = true ∧ ((linkPort true).port 0).replay.length < 1024 ∧ ((linkPort true).port 0).nextVc = some 1 ∧
    (get [] ((linkPort true).port 0).txq 1).length = 1 ∧ ((linkPort false).port 0).up = false ∧
    ((linkPort true).port 0).galsol = true ∧ ((linkPort true).port 0).locked = true ∧ ((linkPort true).port 0).nextVc ≠ some 2 ∧
    ((linkPort false).port 0).galsol = true ∧ ((linkPort false).port 0).locked = true ∧ (State.reset.port 0).galsol = false ∧
    (State.reset.port 0).locked = false ∧
    ((linkPort true).port 0).nakking = true ∧ (State.reset.port 0).nakking = false ∧
    ((List.range 4).all fun k => decide ((flitOf k).length = 128) && decide (leAt (flitOf k) 124 4 = crc32c ((flitOf k).take 124)) &&
      decide (bits (leAt (flitOf k) 0 8) 63 60 = k)) = true ∧ bits (leAt (flitOf 2) 0 8) 57 46 = ((linkPort true).port 0).rxSeq ∧
    bits (leAt (mkFlit (2 * 2 ^ 60 + 4095 * 2 ^ 46) []) 0 8) 57 46 ≠ ((linkPort true).port 0).rxSeq ∧ ([] : List Byte).length ≠ 128 := by
  decide +kernel

/-- Partition 3 is enabled with ports 0 and 1. -/
def partition3 : State := State.reset.modHub fun h => { h with part := put 0 h.part 3 0x8000000000000003 }

theorem witness_clock_and_partitions :
    (1 : Word).getLsbD 0 = true ∧ (0 : Word).getLsbD 0 = false ∧ 0 ≤ (State.reset.hub.time : Int) + (0 : Word).toInt * (11 * 2 ^ 40) ∧
    partEn (get 0 partition3.hub.part 3) = true ∧ partEn (get 0 State.reset.hub.part 31) = false ∧
    State.reset.partCause 3 0x8000000000000003 = none ∧ partEn 0x8000000000000001 = true ∧
    State.reset.partCause 3 0x8000000000000001 = some 0 ∧ partition3.partOfPort 1 = some 3 ∧ State.reset.partOfPort 31 = none ∧
    (128 : Word).toNat % 256 ≤ 128 ∧ (∀ n < 32, State.reset.dieInPart n 3 = true → State.reset.partHolds n = false) ∧
    128 < (129 : Word).toNat % 256 := by decide +kernel

/-- Launch 1 holds the quads, and launch 2 of a higher priority waits. -/
def rivals (l : Launch) : State :=
  { State.reset with launches := [(1, some l), (2, some { launch1 with state := .pending, prio := 5 })] }

/-- A saved launch that waits for its quads. -/
def saved : Launch := { launch1 with ladder := .saved }

/-- Launch `l` is in partition 0, which has the ports of die 0 and no save area. -/
def partitioned (l : Launch) : State := housed l []

theorem slot_of_no_quads (s : State) (h : s.hub.part = []) (n : Nat) : s.badSlot n = none := by
  unfold State.badSlot
  rw [no_part_quads s h]
  rfl

theorem slot_of_nobody (s : State) (h : s.hub.own = []) (pa : Nat) : s.slotOwned pa = false := by
  unfold State.slotOwned
  rw [List.all_eq_false, h]
  have own : get 0#16 ([] : FMap (BitVec 16)) (pa / 65536) = 0#16 := rfl
  exact ⟨0, by decide, by simp [own]⟩

theorem slot_of_partition (l : Launch) : (partitioned l).badSlot 0 ≠ none := by
  intro h
  unfold State.badSlot at h
  rw [List.find?_eq_none] at h
  have h1 := h _ (List.mem_map_of_mem (quad32_in_part (partitioned l) rfl rfl))
  rw [slot_of_nobody (partitioned l) rfl] at h1
  exact h1 rfl

/-- The same at cycle `n`, where the queue gives T1 and T2 as `pre` has them. -/
def timed (l : Launch) (pre : Word) (n : Nat) : State := (rivals l).modHub fun h => { h with queues := [(0, { pre := pre })], cycle := n }

/-- Luthier is down. -/
def down : State := State.reset.modHub fun h => { h with fw := { running := false } }

theorem witness_ladder :
    State.reset.launch 1 = none ∧ launch1.preemptible = true ∧ (rivals launch1).outranked 1 launch1 = true ∧
    (withLaunch launch1).outranked 1 launch1 = false ∧ (rivals launch1).t1Of launch1 = 0 ∧ (timed launch1 5 0).t1Of launch1 = 5 ∧
    (rivals launch1).t2Of launch1 = 4 ∧ (rivals launch1).hub.fw.running = true ∧ down.hub.fw.running = false ∧
    saved.waiting = true ∧ (withLaunch saved).firstInLine 1 saved = true ∧ (partitioned saved).firstInLine 1 saved = true := by
  decide +kernel

theorem witness_captures : (rivals { launch1 with ladder := .drain }).drained 1 = true ∧ (launched 0 id).drained 1 = false ∧
    (rivals { launch1 with ladder := .save }).capturable 1 = true ∧ (launched 0 id).capturable 1 = false := by
  refine ⟨by decide +kernel, by decide +kernel, ?_, by decide +kernel⟩
  have found : (rivals { launch1 with ladder := .save }).launch 1 = some { launch1 with ladder := .save } := by rfl
  unfold State.capturable
  rw [found, Option.any_some, no_part_quads _ rfl]
  decide +kernel

/-- T1 and T2 of 5 µs end at cycle 5,500. -/
theorem witness_ladder_times : launch1.since + 1100 * (timed launch1 0x50005 5500).t1Of launch1 ≤ (timed launch1 0x50005 5500).hub.cycle ∧
    (timed launch1 0x50005 5499).hub.cycle < launch1.since + 1100 * (timed launch1 0x50005 5499).t1Of launch1 ∧
    launch1.since + 1100 * (timed launch1 0x50005 5500).t2Of launch1 ≤ (timed launch1 0x50005 5500).hub.cycle ∧
    (timed launch1 0x50005 5499).hub.cycle < launch1.since + 1100 * (timed launch1 0x50005 5499).t2Of launch1 := by decide +kernel

theorem witness_slots : (withLaunch launch1).badSlot 0 = none ∧ (partitioned launch1).badSlot 0 ≠ none ∧
    (∃ t, (withLaunch saved).makeRoom 1 saved = (t, true) ∧ t.badSlot 0 = none) ∧
    (∃ t, (partitioned saved).makeRoom 1 saved = (t, true) ∧ t.badSlot 0 ≠ none) :=
  ⟨slot_of_no_quads _ rfl 0, slot_of_partition _, ⟨withLaunch saved, rfl, slot_of_no_quads _ rfl 0⟩,
    ⟨partitioned saved, rfl, slot_of_partition _⟩⟩

/-- Every granule below 30,720 is luthier's. -/
def luthiers : FMap (BitVec 16) := (List.range 30720).map fun k => (k, 0xC000)

theorem get_of_list {α : Type} (d x : α) (l : List Nat) (k : Nat) (h : k ∈ l) :
    Machine.get d (l.map fun n => (n, x)) k = x := by
  induction l with
  | nil => cases h
  | cons a l ih =>
    rw [List.map_cons, Machine.get]
    split
    · rfl
    · exact ih ((List.mem_cons.1 h).resolve_left ‹_›)

/-- Then every slot of a partition whose save area begins at 0 is luthier's. -/
theorem slots_of_luthier (s : State) (h : s.hub.own = luthiers) (h2 : s.hub.psave = []) : s.badSlot 0 = none := by
  have quads : (s.partQuads 0).length ≤ 960 := by
    have of_dies : ∀ l : List Nat, (l.flatMap fun d =>
        ((List.range 240).map (physicalOf s d)).filter (s.quadInPart 0)).length ≤ 240 * l.length := by
      intro l
      induction l with
      | nil => exact Nat.le_refl 0
      | cons d l ih =>
        rw [List.flatMap_cons, List.length_append, List.length_cons]
        have one := List.length_filter_le (s.quadInPart 0) ((List.range 240).map (physicalOf s d))
        rw [List.length_map, List.length_range] at one
        omega
    exact of_dies (List.range 4)
  unfold State.badSlot
  refine List.find?_eq_none.2 fun pa hpa => ?_
  obtain ⟨q, -, rfl⟩ := List.mem_map.1 hpa
  have small : (s.partQuadNo 0 q).getD 0 < 960 := by
    cases hn : s.partQuadNo 0 q with
    | none => decide
    | some n => exact Nat.lt_of_lt_of_le (List.findIdx?_eq_some_iff_findIdx_eq.1 hn).1 quads
  have place : s.slotPa 0 q = 2 ^ 21 * (s.partQuadNo 0 q).getD 0 := by
    unfold State.slotPa
    rw [h2]
    exact Nat.zero_add _
  unfold State.slotOwned
  rw [place, h]
  generalize (s.partQuadNo 0 q).getD 0 = n at small
  rw [Bool.not_eq_true', Bool.not_eq_false]
  refine List.all_eq_true.2 fun k hk => ?_
  have hk := List.mem_range.1 hk
  have own : Machine.get (0 : BitVec 16) luthiers (2 ^ 21 * n / 65536 + k) = 0xC000 := get_of_list _ _ _ _ (List.mem_range.2 (by omega))
  rw [own]
  simp only [paExists, Bool.and_eq_true, Bool.or_eq_true, decide_eq_true_eq]
  exact ⟨⟨⟨by omega, .inr (by omega)⟩, by decide⟩, by decide⟩

/-- Luthier keeps a context of quad 32 for launch 1, and another task runs in its place; the owners of granules are `m`. -/
def occupied (m : FMap (BitVec 16)) (no : Nat) : State := { withLaunch saved with
  ctxs := [(2048, { status := .ready })]
  hub := { part := [(0, 0x80000000000000FF)], own := m, saved := [{
    lid := 1, quad := 32, no := no, ctxs := [(0, {})], cores := [], fret := {}, agelimit := 0, cmbwait := 0, matrix := ⟨[], [], [], []⟩
    eng := [], locks := [], recon := {}, turn := none, turnSaves := [], inbox := [], pend := [] }] } }

theorem own_of_occupied (m : FMap (BitVec 16)) (no : Nat) : (occupied m no).hub.own = m := rfl

theorem places_of_occupied (m : FMap (BitVec 16)) : ∃ no, (occupied m no).placesFree 1 saved = false := by
  have quad : 32 ∈ (occupied m 0).partQuads 0 := quad32_in_part _ rfl rfl
  obtain ⟨no, hno⟩ : ∃ no, (occupied m 0).partQuadNo 0 32 = some no := Option.isSome_iff_exists.1
    (List.findIdx?_isSome ▸ List.any_eq_true.2 ⟨32, quad, by decide⟩)
  have one : some no = (occupied m no).partQuadNo saved.part 32 := hno.symm
  refine ⟨no, List.all_eq_false.2 ⟨32, quad, fun all => ?_⟩⟩
  rw [← one] at all
  simp [occupied, State.ctx, Machine.get] at all

theorem witness_places : ∃ no, (occupied luthiers no).launch 1 = some saved ∧
    (occupied luthiers no).makeRoom 1 saved = (occupied luthiers no, true) ∧ (occupied luthiers no).badSlot 0 = none ∧
    (occupied luthiers no).placesFree 1 saved = false ∧ ∀ x ∈ (occupied luthiers no).hub.saved, x.left = 0 :=
  (places_of_occupied luthiers).imp fun no h => ⟨rfl, rfl, slots_of_luthier _ (own_of_occupied _ no) rfl, h, by
    intro x hx
    obtain rfl := List.mem_singleton.1 hx
    rfl⟩

/-- A saved launch whose slots are being written, or read where `r` says so, with `n` lines of the slot of quad 32 left to move. -/
def moving (r : Bool) : Launch := { saved with holding := true, reading := r }
def linesOf (r : Bool) (n : Nat) (own : FMap (BitVec 16)) : State := { withLaunch (moving r) with hub := { own := own, saved := [{
    lid := 1, quad := 32, no := 0, ctxs := [], cores := [], fret := {}, agelimit := 0, cmbwait := 0, matrix := ⟨[], [], [], []⟩
    eng := [], locks := [], recon := {}, turn := none, turnSaves := [], inbox := [], pend := [], left := n }] } }

/-- The granules of the first slot of luthier's. -/
def slotOwn : FMap (BitVec 16) := (List.range 32).map fun k => (k, 0xC000)

theorem slot_of_lines (r : Bool) (n : Nat) (own : FMap (BitVec 16)) : (linesOf r n own).slotPa 0 32 = 0 := by
  unfold State.slotPa State.partQuadNo
  rw [no_part_quads _ rfl]
  simp [linesOf, Machine.get]

theorem witness_slot_lines : (linesOf false 1 []).launch 1 = some (moving false) ∧ (linesOf false 1 []).hub.fw.running = true ∧
    ((linesOf false 1 []).hub.saved.find? fun x => x.lid = 1 && x.left ≠ 0).any (fun x => (linesOf false 1 []).lineHeld 0 32 x
      (64 * (2 ^ 15 - x.left))) = true ∧
    ((linesOf false 15872 []).hub.saved.find? fun x => x.lid = 1 && x.left ≠ 0).any (fun x => !(linesOf false 15872 []).lineHeld 0 32 x
      (64 * (2 ^ 15 - x.left))) = true ∧
    (linesOf false 1 []).slotOwned 0 = false ∧ (linesOf false 1 slotOwn).slotOwned 0 = true ∧
    (linesOf true 1 slotOwn).portAdmits (memPort 0x1FFFC0) = true := by decide +kernel

/-- Die 0 has a trap record of cause `c`. -/
def trapRecord (c : Nat) : State := State.reset.modDie 0 fun d => { d with
  trapq := [{ th := 2048, lid := some 1, lq := 0, trap := { cause := c, tval := 0 } }] }

theorem witness_trap_records :
    State.reset.hub.fw.running = true ∧ (trapRecord 0x0D).hub.fw.running = true ∧ down.hub.fw.running = false ∧ (∀ r ∈ ((trapRecord 0x0C).die 0).trapq, r.trap.cause = 0x0C) ∧
    (((trapRecord 0x0D).die 0).trapq.find? fun r => r.trap.cause ≠ 0x0C).map (·.trap.cause) = some 0x0D ∧
    (((trapRecord 0x04).die 0).trapq.find? fun r => r.trap.cause ≠ 0x0C).map (·.trap.cause) = some 0x04 := by decide +kernel

/-- A store of launch 1 waits at a memory port that has admitted 16 requests in cycle 0. -/
def throttled : State := { (launched 0 id).send none (.remoteAccess { reqOf .store 0 8 1 with lid := some 1, pa := some 0 }) with
  hub := { admits := [(0, List.replicate 16 (0, none))] } }

theorem witness_watchdog :
    State.reset.runningOf 0 = none ∧ (launched 0 id).runningOf 0 = some 1 ∧ (withLaunch launch1).busyLaunch 1 = false ∧
    (launched 0 id).busyLaunch 1 = true ∧ (launched 0 id).ownsLive 1 = true ∧ (launched 0 id).wdogLimitOf 0 ≠ 0 ∧
    (launched 0 id).hub.fw.busy = false ∧ (launched 0 id).hub.fw.running = true ∧ (launched 0 id).limited 1 = false ∧
    throttled.runningOf 0 = some 1 ∧ throttled.limited 1 = true ∧
    1024 * (launched 0 id).wdogLimitOf 0 ≤ get 0 (launched 0 id).hub.wdogCount 0 + 0x40000000 ∧
    get 0 (launched 0 id).hub.wdogCount 0 + 1 < 1024 * (launched 0 id).wdogLimitOf 0 := by decide +kernel

/-- Firmware whose other slot holds an image that is valid where `v` says so, in state `k` of a live update. -/
def updating (v : Bool) (k : Nat) : Firmware := { busy := true, state := k, slots := [(1, { version := 2, secver := 0, valid := v })] }

/-- It is cycle `n`, and luthier's firmware is `f`. -/
def firmware (f : Firmware) (n : Nat) : State := State.reset.modHub fun h => { h with fw := f, cycle := n }

theorem witness_firmware :
    (get {} (updating true 2).slots (1 - (updating true 2).slot)).valid = true ∧ (updating true 2).state = 2 ∧ (updating true 2).busy = true ∧
    (updating true 2).minSec ≤ (get {} (updating true 2).slots (1 - (updating true 2).slot)).secver ∧
    (get {} (updating false 2).slots 1).valid = false ∧ (updating true 4).state ∉ [1, 2, 3] ∧ State.reset.hub.fw.busy = false ∧
    ((firmware (updating true 4) 55000011).hub.cycle - (updating true 4).since) * 10 / 11 > 50000000 ∧
    ((firmware (updating true 4) 55000000).hub.cycle - (updating true 4).since) * 10 / 11 ≤ 50000000 ∧
    (firmware { heard := true } 110000011).hub.fw.heard = true ∧ (firmware { heard := true } 110000011).hub.fw.busy = false ∧
    ((firmware { heard := true } 110000011).hub.cycle - 0) * 10 / 11 > 100000000 ∧
    ((firmware { heard := true } 110000000).hub.cycle - 0) * 10 / 11 ≤ 100000000 ∧ State.reset.hub.fw.heard = false := by decide +kernel

/-- A message that a hop has failed to carry `n` times, and a command of which the same holds. -/
def carrying (n : Nat) : State := { State.reset with net := [{ pair := none, ev := .storeAck 48 ⟨0, none⟩, hop := some (0, 1, n) }] }
def working (n : Nat) : State := State.reset.modQuad 0 fun q => { q with
  eng := [(2, { running := [{ cmd := cmdOf 2 0x14 0 [0, 0], progress := 0, hop := some (0, 1, n) }] })] }

theorem witness_hops :
    State.reset.net[0]? = none ∧ State.reset.runningAll[0 - State.reset.net.length]? = none ∧
    ((carrying 15).net[0]?.map fun f => triesAt 0 1 f.hop) = some 15 ∧ ((carrying 16).net[0]?.map fun f => triesAt 0 1 f.hop) = some 16 ∧
    (working 15).net[0]? = none ∧ ((working 15).runningAll[0]?.map fun r => triesAt 0 1 r.hop) = some 15 ∧
    ((working 16).runningAll[0]?.map fun r => triesAt 0 1 r.hop) = some 16 ∧ triesAt 1 1 (some (0, 1, 16)) = 0 := by decide +kernel

/-- An error of a thread, of a command, of a quad, of none of them, and one of ECC that was corrected. -/
def error0 : HwError := { die := 0, code := 1, loc := 0, lid := none, detail := 0, unit := 0, th := none, cmd := none }

theorem witness_errors :
    error0.th = none ∧ error0.cmd = none ∧ error0.tile = none ∧
    ({ error0 with tile := some (32, 1, 0, false) } : HwError).tile = some (32, 1, 0, false) ∧ error0.code ≠ errFretParity ∧ error0.unit = 0 ∧ error0.code ≠ 4 ∧ error0.code ≠ 5 ∧
    ({ error0 with code := 4 } : HwError).code = 4 ∧ ({ error0 with th := some 48 } : HwError).th = some 48 ∧
    ({ error0 with cmd := some (48, 0) } : HwError).cmd = some (48, 0) ∧ ({ error0 with unit := 5 } : HwError).unit = 4 + 1 ∧
    granuleIn 31 0 = false ∧ 31 < 32 := by decide +kernel

/-- Filter 1 in slot 0 of coprocessor 0 with an event waiting, at rest. -/
def attached (f : Filter) : State := State.reset.modTel 0 fun t => { t with filters := [(0, some f)], limit := [(0, 100)] }

/-- A filter with an export period, and one that leaves. -/
def exporter : Filter := { filter1 with period := 100 }
def leaver : Filter := { filter1 with leaving := true }

/-- A filter with an event. -/
def filterQueued : Filter := { filter1 with queue := [[1, 2, 3, 4, 5, 6, 7, 8]] }

theorem witness_telemetry :
    ((attached filter1).tel 0).filter 0 = some filter1 ∧ filter1.leaving = false ∧ filter1.tenant = 0 ∧ filter1.queue.length < 64 ∧
    filter1.cost ≤ ((attached filter1).tel 0).left filter1.tenant ∧ ((filtering run1 filter1).tel 0).left filter1.tenant < filter1.cost ∧
    (State.reset.tel 0).run = none ∧ (State.reset.tel 0).nextSlot = none ∧ ((attached filterQueued).tel 0).nextSlot = some 0 ∧
    ((attached filterQueued).tel 0).filter 0 = some filterQueued ∧ filterQueued.queue = [[1, 2, 3, 4, 5, 6, 7, 8]] ∧
    (State.reset.tel 0).filter 0 = none ∧ (attached filter1).mayUse 1024 filter1 = true ∧
    (attached { filter1 with tenant := 1 }).mayUse 0 { filter1 with tenant := 1 } = false ∧
    ((put 0 (State.reset.tel 0).limit 255 ((0xDBBA0 : Word).toNat % 2 ^ 20)).map Prod.snd).foldl (· + ·) 0 ≤ 900000 ∧
    (State.reset.coreCtxs 3).filterMap State.reset.lidOf = [] ∧ ((launched 0 id).coreCtxs 3).filterMap (launched 0 id).lidOf = [1] := by
  decide +kernel

theorem witness_exports :
    ((attached exporter).tel 0).filter 0 = some exporter ∧ exporter.period ≠ 0 ∧ exporter.leaving = false ∧ filter1.period = 0 ∧
    ((attached leaver).tel 0).filter 0 = some leaver ∧ leaver.leaving = true ∧ ((attached exporter).tel 0).run = none ∧
    ((filtering run1 exporter).tel 0).filter 0 = some exporter ∧ ((filtering run1 exporter).tel 0).run = some run1 ∧ run1.slot = 0 := by
  decide +kernel

theorem no_run (t : Tel) (h : t.run = none) (k : Nat) : ∀ r, t.run = some r → r.slot ≠ k := by
  intro r e
  rw [h] at e
  cases e

theorem witness_slot_at_rest : ∀ r, ((attached exporter).tel 0).run = some r → r.slot ≠ 0 := no_run _ (by decide +kernel) 0

/-- The checkpoint's stream of the near tier stands as `y` says. -/
def streaming (y : Stream) : State := State.reset.modHub fun h => { h with streams := [y] }

theorem witness_checkpoint :
    State.reset.hub.streams = [] ∧ State.reset.hub.fw.busy = false ∧ (1 : Word).getLsbD 0 = true ∧ (2 : Word).getLsbD 0 = false ∧
    (streaming { bulk := false, list := 0, count := 1 }).hub.streams ≠ [] ∧
    ((streaming { bulk := false, list := 0, count := 1, len := 64, off := 64, done := some (5, 0) }).hub.streams.find?
      fun z => z.bulk = false).map (·.done) = some (some (5, 0)) ∧
    (streaming { bulk := false, list := 0, count := 1, done := some (5, 1) }).portAdmits (memPort 24) = true ∧
    ([(0, 64), (0, 0), (1, 0)].map fun p => ((streaming { bulk := false, list := 0, count := 1, next := p.1, len := p.2 }).hub.streams.find?
      fun z => z.bulk = false).map fun y => (decide (y.len ≠ 0), decide (y.next < y.count))) =
        [some (true, true), some (false, true), some (false, false)] := by decide +kernel

theorem witness_descriptors : (State.reset.descriptor 1024 0).2 = none ∧ (mapped.descriptor 1024 0x1000).2.isSome = true ∧
    classSeen 8 4 0 = true ∧ classSeen 8 0 0 = false ∧ (State.reset.tel 4).freeSlot = some 0 ∧
    descriptorOk (filterOf 1024 0 (List.replicate 208 0)) (List.replicate 208 0) = true ∧
    descriptorOk (filterOf 1024 0 (List.replicate 208 0)) (List.replicate 208 255) = false ∧
    State.reset.trigWordOk 1024 0 4 0 = true ∧ State.reset.trigWordOk 1024 0 4 0xF000000000000000 = false := by decide +kernel

theorem witness_hub_registers :
    2 ^ 33 ≤ 2 ^ 33 + 0x800 ∧ (0xFFFFFFFFFFFFFFFF : Word) &&& 0xFE00000000000000 ≠ 0 ∧ tableSorted State.reset.hub.egress = true ∧
    tableSorted State.reset.hub.groute = true ∧ tableSorted State.reset.hub.psave = true ∧ 4 % 8 ≠ 0 ∧
    (State.reset.modHub fun h => { h with fns := put {} h.fns 1024 { apbase := hubAddr 0x401000 } }).apertureFault 1024 (hubAddr 0x401000) 8 false = false ∧
    State.reset.apertureFault 1024 (hubAddr 0x401001) 8 false = true ∧ decodeAddr (hubAddr 0x401000) = .hub 0x401000 ∧
    State.reset.apertureFault 1024 (windowAddr 7 0 0) 8 true = false ∧ State.reset.apertureFault 1024 0x1000 8 true = false ∧
    State.reset.apertureFault 1024 0x8000000000000000 8 false = false ∧ decodeAddr 0x8000000000000000 = .sync 0 0 ∧
    decodeAddr (windowAddr 7 0 0) = .win 7 0 0 ∧ decodeAddr 0x1000 = .global 0x1000 ∧
    (0x1000 ≤ 0x401000 ∧ 0x1C0000 ≤ 0x401000) ∧ 2 ≠ 5 := by decide +kernel

/-- 19 R459: a written register reads back with its reserved bits zero. -/
theorem test_register : ((State.reset.hubWrite 0x401000 3 0xFFFFFFFFFFFFFFFF).hubRead 0x401000 3).2 = 0xFF := by decide +kernel

/-! ### The machine as a whole (03, 05, 08) -/

/-- The state after reset in which the monitor finds the bundle of S-syllable `w` and an empty V-syllable at its next slot. -/
def placed (w : Nat) (f : Ctx → Ctx) : State := (State.reset.modCtx 48 f).withFetchWord 32 w

/-- That bundle at its slot. -/
def atSlot (s : State) : State :=
  { (((({ s with turns := s.turns.tail, focus := 3, taken := [] } : State).coreTick 3).slotTableSwitch 3).drainHead 3) with cur := 48 }

/-- What has to hold for the monitor's context to issue there. -/
abbrev MayIssue (s u : State) : Prop :=
  (s.hub.trip = false ∧ s.inbox = [] ∧ s.hub.due = [] ∧ s.turns.head? = some (.slot 3)) ∧ (u.ctx 48).status = .ready ∧ (u.ctx 48).due = [] ∧
    u.fetchFault 48 = false ∧ u.lostBanks = [] ∧ (u.core 3).quiet = 0 ∧ u.gated ((u.core 3).cycle % 32) = false ∧
    (u.core 3).slots.getD ((u.core 3).cycle % 32) 0 = BitVec.ofNat 8 (64 + ctxOf 48)

theorem issue_point {s : State} (h : MayIssue s (atSlot s)) : IssuePoint s 3 48 (atSlot s) := by
  obtain ⟨⟨trip, inbox, clock, turn⟩, ready, due, fetch, banks, quiet, power, slot⟩ := h
  exact { trip, inbox, clock, turn, quiet, power, slot, due, fetch, banks, start := rfl, own := rfl, runs := .inl ready }

/-- `mwait c1` with a store out, and `ldfe s7, [s10+4]`. -/
def waits : State := placed 0xC0000048 fun c => { c with c1 := 1 }
def asks : State := placed 0xB0EA0001 fun c => { c with s := [(10, windowAddr 3 0 0)] }

/-- `addi s4, s4, -1` issues; `trap 7` traps; `mwait` waits; `ldfe` starts its wait. -/
theorem witness_step_runs_instruction :
    IssuePoint (placed 0x10847FFF id) 3 48 (atSlot (placed 0x10847FFF id)) ∧ IssuePoint (placed 0x30000007 id) 3 48 (atSlot (placed 0x30000007 id)) ∧
    IssuePoint waits 3 48 (atSlot waits) ∧ IssuePoint asks 3 48 (atSlot asks) :=
  ⟨issue_point (by decide +kernel), issue_point (by decide +kernel), issue_point (by decide +kernel), issue_point (by decide +kernel)⟩

theorem witness_bundles :
    (atSlot (placed 0x10847FFF id)).bundleAt 48 = some (0x10847FFF, 0) ∧
    ((atSlot (placed 0x10847FFF id)).ctx 48).stub ≠ some ((atSlot (placed 0x10847FFF id)).ctx 48).pc ∧
    ((atSlot (placed 0x10847FFF id)).lineOf 0 ((atSlot (placed 0x10847FFF id)).xctxOf 48)
      (((atSlot (placed 0x10847FFF id)).ctx 48).pc.toNat / 128)).isSome = true ∧
    (atSlot (placed 0x10847FFF id)).verdict [.addi 4 4 0 0x7FFF, .vnop] = .go ∧
    (atSlot (placed 0x30000007 id)).verdict [.trap 7, .vnop] = .trap { cause := 0x0B, tval := 7 } ∧
    (atSlot waits).verdict [.mwait 1, .vnop] = .block onWait ∧ (atSlot asks).verdict [.ldfe 7 10 0 0 0 1, .vnop] = .hold := by decide +kernel

theorem witness_bundles_decode : decodeBundle ((0x10847FFF : BitVec 32) ++ (0 : BitVec 32)) = .ok (.pair (.addi 4 4 0 0x7FFF) .vnop) ∧
    decodeBundle 0xE5E0000000000005 = .ok (.long (.call 15 5)) := ⟨rfl, rfl⟩

/-- The thread's count of issued bundles says whether the S-syllable has issued; the V-syllable follows then. -/
theorem witness_bundle_parts :
    shows (exec (.addi 4 4 0 0x7FFF) (atSlot (placed 0x10847FFF id))) (fun t => ((t.ctx 48).issued,
      (shows (exec .vnop { t with latch := some ((atSlot (placed 0x10847FFF id)).ctx 48) }) id).isSome)) = some (1, true) ∧
    shows (exec (.trap 7) (atSlot (placed 0x30000007 id))) (fun t => (t.ctx 48).issued) = some 0 ∧
    ((atSlot (placed 0x10847FFF id)).ctx 48).issued = 0 ∧ ((atSlot (placed 0x30000007 id)).ctx 48).issued = 0 := by decide +kernel

/-- A step runs the bundle: `addi s4, s4, -1` leaves −1 in `s4` and the pc at the next bundle. -/
theorem test_step : shows (step (placed 0x10847FFF id)) (fun t => ((t.ctx 48).sreg 4, (t.ctx 48).pc - ((placed 0x10847FFF id).ctx 48).pc)) =
    some (0xFFFFFFFFFFFFFFFF, 8) := by decide +kernel

/-- A message between `p`, which arrives in cycle `due`. -/
def flight (p : Option (Nat × Nat)) (due : Nat) : Flight := { pair := p, ev := .storeAck 48 ⟨0, none⟩, due := due }

/-- The messages `l` are in flight, and the turns `t` are said. -/
def flying (l : List Flight) (t : List Turn) : State := { State.reset with net := l, turns := t }

/-- A store for memory port 0. -/
def toMemory : Flight := { pair := some (1, 9), ev := .remoteAccess { reqOf .store 0 8 1 with pa := some 0 } }

theorem witness_messages :
    (State.reset.modHub fun h => { h with trip := true }).hub.trip = true ∧ State.reset.hub.trip = false ∧ State.reset.inbox = [] ∧
    ({ State.reset with inbox := [flight none 0] } : State).inbox = [flight none 0] ∧ (State.reset.modHub fun h => { h with due := [.window 0] }).hub.due = [.window 0] ∧ State.reset.hub.due = [] ∧
    isEvent (.qstall 48) = true ∧ isTimed (.qstall 48) = false ∧ isEvent .vnop = false ∧
    (flying [flight none 0] []).mayDeliver (flight none 0) = true ∧ (flying [flight none 5] []).mayDeliver (flight none 5) = false ∧
    State.reset.portsFor (flight none 0).ev = [] ∧ State.reset.portsFor toMemory.ev = [0] ∧ (flying [toMemory] []).mayDeliver toMemory = true ∧
    throttled.mayAdmit toMemory.ev = false := by decide +kernel

/-- Three messages to home 7, of which two are of source 3: the oldest of a pair goes first, and a source after the last. -/
def crowd : State := flying [flight (some (3, 7)) 0, flight (some (5, 7)) 0, flight (some (3, 7)) 0] []

theorem witness_round_robin :
    crowd.net.findIdx? crowd.mayDeliver = some 0 ∧ crowd.turns = [] ∧ crowd.beat = 0 ∧ (crowd.net[0]?.bind (·.pair)) = some (3, 7) ∧
    (crowd.net[2]?.bind (·.pair)) = some (3, 7) ∧ nextSource (get 0 crowd.served 7) (sourcesFor crowd.net 7) = 3 ∧
    nextSource 3 (sourcesFor crowd.net 7) = 5 := by decide +kernel

theorem witness_first_of_its_pair : ∀ m < 1, ∀ h, crowd.net[m]? = some h → h.pair ≠ some (5, 7) := by
  intro m hm h e
  obtain rfl : m = 0 := Nat.lt_one_iff.1 hm
  obtain rfl : flight (some (3, 7)) 0 = h := Option.some.inj e
  decide

/-- Engine 2 of quad 0 has a fill command in its queue, and one that it has begun, which rests where `b` says so. -/
def engines (b : Bool) : State := State.reset.modEngine 2 0 fun _ => {
  queues := [(48, [cmdOf 2 0x14 0 [0, 0]])], running := [{ cmd := cmdOf 2 0x14 0 [0, 0], progress := 0, paused := b }] }

theorem witness_engine_turns :
    ((filtering run1 filter1).tel 0).nextInstr.isSome = true ∧ State.reset.nextCmd 2 0 = none ∧
    (engines true).nextCmd 2 0 = some (48, cmdOf 2 0x14 0 [0, 0]) ∧ (((engines true).engine 2 0).running[0]?.map (·.paused)) = some true ∧
    (((engines false).engine 2 0).running[0]?.map (·.paused)) = some false ∧ ((engines true).engine 2 0).running[1]? = none ∧
    (engines true).mayRun (cmdOf 2 0x14 0 [0, 0]) = true ∧ isCommand (.cpFill (cmdOf 2 0x14 0 [0, 0])) = true ∧
    (withLaunch { launch1 with ladder := .save }).mayRun { cmdOf 2 0x14 0 [0, 0] with lid := some 1 } = false ∧
    commandOp (.cpFill (cmdOf 2 0x14 0 [0, 0])) = (cmdOf 2 0x14 0 [0, 0]).op ∧
    commandOf (.cpFill (cmdOf 2 0x14 0 [0, 0])) = some (cmdOf 2 0x14 0 [0, 0]) := by decide +kernel

/-- `ld64 s4, [s10]` of the own scratchpad, in a cycle in which others take every bank. -/
def banked : State := { atSlot (placed 0x6C8A0000 fun c => { c with s := [(10, windowAddr 3 0 0)] }) with taken := List.range 64 }

theorem witness_lost_banks : banked.fetchFault banked.cur = false ∧ (banked.bundleAt banked.cur).isSome = true ∧ banked.lostBanks ≠ [] := by
  decide +kernel

theorem witness_thermal_trip : step (State.reset.modHub fun h => { h with trip := true }) = .fault .clocksStopped := by rfl

theorem witness_every_instruction_answers :
    isSyllable (.mwait 0) = true ∧ State.reset.latch = none ∧ (Instr.repart 3).wf = false ∧ Instr.iflush.wf = true ∧
    ((launched 0 id).ctx 48).level < levelOf .iflush ∧ State.reset.hub.trip = false := by decide +kernel

theorem witness_register_instructions_issue :
    registerOnly (.add 4 1 0 2 0) = true ∧ registerOnly (.vadd 15 1 0 2 0 0x12) = true ∧
    noWindow (scalars.ctx scalars.cur) (.add 4 1 0 2 0) = true ∧ scalars.latch = none ∧
    registersFull scalars (.add 4 1 0 2 0) = true ∧ registersFull waiting (.add 8 1 0 2 0) = false := by decide +kernel

theorem witness_frames :
    plainRegister (.add 4 1 0 2 0) = true ∧ plainRegister (.vadd 1 2 0 3 0 0x12) = true ∧ noWindow (scalars.ctx scalars.cur) (.add 4 1 0 2 0) = true ∧
    isLocal places.cur (places.S 1) = true ∧ noWindow (places.ctx places.cur) (.st8 7 1 0 0 0 0) = true ∧ (buffered.core 3).stbuf.length = 1 ∧
    (State.reset.placeOf (windowAddr 7 0 0xFFFF8) none).isSome = true ∧ State.reset.mayNotPass (reqOf .store (windowAddr 7 0 0xFFFF8) 8 1) = false ∧
    State.reset.homeLocked (reqOf .store (windowAddr 7 0 0xFFFF8) 8 1) = false := by decide +kernel

theorem witness_frames_issue : Issues scalars (.add 4 1 0 2 0) ∧ Issues places (.st8 7 1 0 0 0 0) ∧ Issues places (.vst 7 1 0 0 0 0 0) :=
  ⟨⟨rfl, by decide +kernel⟩, ⟨rfl, by decide +kernel⟩, ⟨rfl, by decide +kernel⟩⟩

theorem witness_canonical : Canonical State.reset := ⟨rfl, rfl, rfl, rfl, rfl⟩

theorem witness_step_answers : ∃ t, step State.reset = .next t := ⟨_, rfl⟩

theorem witness_decode_encode : (Instr.vadd 1 2 0 3 0 0x12).wf = true ∧ encodeS (.addi 4 4 0 0x7FFF) = some 0x10847FFF ∧
    encodeV (.vredadd 2 7 0 0x12) = some 0x4421C012 ∧ encodeFilter (.quinudEwma 2 5 3) = some 0x54201403 ∧
    encodeLong (.call 15 5) = some (0xE5E00000, 5) ∧ isFilter (.quinudEwma 2 5 3) = true ∧ isSyllable (.call 15 5) = true :=
  ⟨rfl, rfl, rfl, rfl, rfl, rfl, rfl⟩

/-! ### Where the clauses of statements meet -/

/-- An access to an address whose page is mapped, and one whose page is not. -/
def wanted : XItem := .access (reqOf .store 0 8 1)
def missing : XItem := .access (reqOf .store (2 ^ 39) 8 1)

/-- Die 0 has parked as many faults as there may be. -/
def parkedFull : State := mapped.modDie 0 fun d => { d with
  parked := List.replicate 256 { item := missing, va := 2 ^ 39, xctx := 0, kind := 0, access := 1, requester := 3 } }

/-- Memory port 0 has admitted in this cycle what it may. -/
def throttledMapped : State := mapped.modHub fun h => { h with admits := [(0, List.replicate 16 (0, none))] }

theorem witness_walk_reads :
    itemSource wanted = some 6 ∧ mapped.itemFaults wanted = false ∧ mapped.itemFaults missing = true ∧ (mapped.die 0).parked = [] ∧
    mapped.walkReady 0 missing = true ∧ mapped.walkAsks 0 wanted = [0, 0] ∧ (mapped.die 0).gotOf wanted = 0 ∧
    mapped.portAdmits 0 = true ∧ throttledMapped.portAdmits 0 = false ∧ throttledMapped.walkReady 0 wanted = false ∧
    (mapped.ask [0, 0] 0).2 = 2 ∧ (throttledMapped.ask [0, 0] 0).2 = 0 := by decide +kernel

theorem witness_parked_faults : 256 ≤ (parkedFull.die 0).parked.length := by
  show 256 ≤ (List.replicate 256 _).length
  exact Nat.le_of_eq List.length_replicate.symm

/-- A request to launch in the place of handle 1, and one of service core 0 held before another. -/
def takeOver (ok : Bool) : Request := { requestOf 1 with handle := 2, take := true, takeHandle := 1, takeOk := ok }
def heldRequest : Launch := { launch1 with requests := [{ requestOf 2 with svc := 0 }] }

/-- Launch 1 is Complete, and a request for its release is on its way where `b` says so. -/
def completed (b : Bool) : State := { withLaunch { launch1 with state := .complete } with
  net := if b then [{ pair := none, ev := .release (requestOf 4) }] else [] }

/-- The image of a launch request at 0 has been read. -/
def imageRead : State := mapped.modHub fun h => { h with ownDone := [(0, 0, 64), (0, 0, imageEnd fun o n => mapped.virtRead 0 o n)] }

theorem witness_pages_of_requests :
    ((mapped.reachBytes 0 0 64).die 4).walks = [.ownRead 0 0 64] ∧ mapped.reached 0 0 64 = false ∧ (mapped.ownReads 0 0 64).reached 0 0 64 = true ∧
    (mapped.ownReads 0 (2 ^ 39) 64).reached 0 (2 ^ 39) 64 = false ∧ mapped.imageNext (requestOf 1) = some (0, 0x40) ∧
    (imageRead.imageNext (requestOf 1)) = none ∧ mapped.ownPorts 0 0 0x1C true = [0] ∧ (mapped.ask [0] 0).2 = 1 ∧
    (throttledMapped.ask [0] 0).2 = 0 ∧
    (get {} (queued.modHub fun h => { h with xctxs := [(0, { valid := true, part := 1 })] }).hub.xctxs 0).part ≠ qPart (queued.queueOf 0).cfg := by
  decide +kernel

theorem witness_take_over :
    (takeOver true).take = true ∧ (takeOver true).takeOk = true ∧ (takeOver false).takeOk = false ∧
    (takeOver true).queue * 2 ^ 32 + (takeOver true).takeHandle = 1 ∧ (completed false).takesOver (takeOver true) = true ∧
    (completed true).takesOver (takeOver true) = false ∧ (completed false).launch 2 = none ∧
    (stealable.queueOf 0).stolenBy = none ∧ (∀ q ∈ heldRequest.requests, q.svc ≠ 1) ∧ ¬ (∀ q ∈ heldRequest.requests, q.svc ≠ 0) ∧ reqAccepted heldRequest 3 = true := by
  decide +kernel

theorem witness_classifier_groups :
    (0xC000000000000000 : Word).getLsbD 62 ≠ (State.reset.clsEntry 0).control.getLsbD 62 ∧
    (State.reset.modCls 0 fun c => { c with control := 0x8400000000000000 }).groupOk 0 = true ∧
    (State.reset.modCls 0 fun c => { c with control := 0x8400000000000000, action := 4 }).groupOk 0 = false ∧
    State.reset.hub.clsErr = false ∧ (State.reset.modHub fun h => { h with clsErr := true }).hub.clsErr = true := by decide +kernel

theorem witness_idle_cycles :
    get none State.reset.hub.moved 0 = none ∧
    get none (State.reset.modHub fun h => { h with moved := put none [] 0 (some 3), cycle := 10 }).hub.moved 0 = some 3 ∧
    min 1 (10 - 1 - 3) = 1 ∧ min 0 (10 - 1 - 3) = 0 := by decide +kernel

/-- The image that runs an update was last heard in cycle 0; it is cycle `n`. -/
def replacing (n : Nat) : State := firmware { updating true 2 with heard := true } n

theorem witness_heartbeats :
    (replacing 110000011).hub.fw.busy = true ∧ (replacing 110000011).hub.fw.state < 4 ∧ (replacing 110000011).hub.fw.heard = true ∧
    ((replacing 110000011).hub.cycle - (replacing 110000011).hub.fw.since) * 10 / 11 > 100000000 ∧
    ((firmware (updating true 4) 0).hub.fw.busy = true ∧ 4 ≤ (firmware (updating true 4) 0).hub.fw.state) := by decide +kernel

/-- Granule 5 is luthier's. -/
def ownGranule : State := State.reset.modHub fun h => { h with own := [(5, 0xC000)] }

theorem witness_hand_over : State.reset.handGranule = none ∧ ownGranule.handGranule = some 5 := by
  refine ⟨by decide +kernel, ?_⟩
  show [5][Config.handPlace % 1]? = some 5
  rw [Nat.mod_one]
  rfl

/-- An error in the tag of entry 0 of quad 32's fretboard. -/
theorem witness_fret_parity : State.reset.fretEntry (windowAddr 128 6 0) = none ∧
    ((board launch1 [frec false (some 0)]).fretEntry (windowAddr 128 6 0)).map (·.lid) = some 1 := by decide +kernel

/-- Die 0 walks for an access. -/
theorem witness_transfers : State.reset.transfers[0]? = none ∧ (walking false).net[0]? = none ∧ (walking false).runningAll[0]? = none ∧
    (walking false).transfers[0]? = some (.walk 0 (.access (reqOf .store 0 8 1))) ∧
    (walking false).transferTries 0 1 (.walk 0 (.access (reqOf .store 0 8 1))) = 0 ∧
    ((walking false).modHub fun h => { h with hops := [(.walk 0 (.access (reqOf .store 0 8 1)), 0, 1, 16)] }).transferTries 0 1
      (.walk 0 (.access (reqOf .store 0 8 1))) = 16 ∧ tableSorted State.reset.hub.xconn = true := by decide +kernel

/-- Core 3 has a free context held for a wake message that has come; a round of `slotw` is open, or its mode is to change. -/
def heldNow : State := heldForWake State.reset none true

theorem witness_held_starts :
    (heldNow.core 3).round = none ∧ (heldNow.core 3).repart = none ∧ heldNow.nextHeld 3 = some (49, wakeOf none, true) ∧
    heldNow.heldPlace 3 49 = some 49 ∧ State.reset.nextHeld 3 = none ∧
    (heldForWake State.reset none false).nextHeld 3 = some (49, wakeOf none, false) ∧
    (heldForWake fullCore none true).heldPlace 3 49 = none ∧ (heldForWake State.reset none true).startGone (wakeOf none) = false ∧
    (heldForWake State.reset (some 1) true).nextHeld 3 = some (49, wakeOf (some 1), true) ∧
    (heldForWake State.reset (some 1) true).startGone (wakeOf (some 1)) = true ∧
    ((heldNow.modCore 3 fun k => { k with round := some { members := [48], arrived := [] } }).core 3).round ≠ none ∧
    ((heldNow.modCore 3 fun k => { k with repart := some (48, 1) }).core 3).repart ≠ none := by decide +kernel

theorem witness_refusals_served :
    (State.reset.core 3).refusal = [] ∧ State.reset.heldPlaced 3 = true ∧ State.reset.freeCtx 3 = some 49 ∧
    ((State.reset.modCore 3 fun k => { k with refusal := [wakeOf none] }).core 3).refusal = [wakeOf none] := by decide +kernel

/-- Every memory port has admitted in this cycle what it may. -/
def fullPorts (s : State) : State := s.modHub fun h => { h with admits := (List.range 32).map fun p => (p, List.replicate 16 (0, none)) }

/-- The port of an overflow area, wherever it is, has room, or has none. -/
theorem witness_spill_port : (∀ p < 32, spilled.portAdmits p = true ∧ (fullPorts spilled).portAdmits p = false) ∧
    spilled.overflowPort 32 1 < 32 := by
  refine ⟨by decide +kernel, ?_⟩
  simp only [State.overflowPort, State.overflowPlace, memPort]
  split <;> omega

/-- A multicast to two destinations that has written `n` of its four steps at destination 0, which waits for a page where `b`
says so; destination 1 has failed. -/
def ways (n : Nat) (b : Bool) : Running := {
  cmd := cmdOf 2 0x11 0 [0, 0, 0, 0], progress := 0, ways := [{ next := n, waits := b }, {}], fails := [(1, 4, 0)] }

theorem witness_ways :
    (ways 0 false).wayNext none 4 = some 0 ∧ (ways 4 false).wayNext none 4 = none ∧ (ways 0 true).wayNext none 4 = none ∧
    (ways 1 false).wayNext (some 0) 4 = some 0 ∧ (ways 0 false).wayNext (some 1) 4 = none ∧ ((ways 4 false).ways.length = 2) := by
  decide +kernel

/-- The commands of two members of group 0 differ: die 1 has asked for another operation. -/
theorem witness_collective_mismatch :
    (grouped.collControls reduce 0).2 = false ∧
    ((grouped.modDie 0 fun d => { d with collIn := [{ lid := some 1, op := some 0x21, cls := 0, group := 0, number := 0, step := 0, src := 256, body := [] }] }).collControls reduce 0).2 =
      true := by decide +kernel

/-- A message of die 1 is on its way to die 0. -/
def onTheWay : CollMsg := { lid := some 1, op := some 0x20, cls := 0, group := 0, number := 0, step := 0, src := 256, body := [] }

theorem witness_collective_messages :
    (((grouped.modDie 0 fun d => { d with collWay := [onTheWay] }).die 0).collWay[0]?.bind fun x =>
      ((grouped.modDie 0 fun d => { d with collWay := [onTheWay] }).die 0).collWay.find? fun y => y.src = x.src) = some onTheWay ∧
    grouped.collOver 0 onTheWay = false := by decide +kernel

theorem witness_source_ports :
    (sourcesFor crowd.net 7).length ≤ 8 ∧ (crowd.net[0]?.map (·.pair)) = some (some (3, 7)) ∧
    ({ crowd with beat := 1, taken := [] } : State).deliverable 0 = true ∧
    nextSource (get 0 crowd.served 7) (({ crowd with beat := 1, taken := [] } : State).readySources 7) = 3 ∧
    ({ crowd with beat := 1, served := put 0 crowd.served 7 3 } : State).mayDeliver (flight (some (3, 7)) 0) = true := by decide +kernel

/-- A register of function 1's queues at level 4, and one of function 0's at level 5. -/
theorem witness_registers_of_blocks :
    tableSorted State.reset.hub.xconn = true ∧ (4 = 4 ∧ (0x140000 ≤ 0x140000 ∧ 0x140000 < 0x180000)) ∧
    (5 = 5 ∧ 0x1000 ≤ 0x1000 ∧ (0x1000 < 0x140000 ∨ (0x180000 ≤ 0x1000 ∧ 0x1000 < 0x1A0000) ∨ 0x1C0000 ≤ 0x1000)) := by decide

/-- A multicast in context 1 from `src`; and how the read of its first element ends at destination 0. -/
def castOf (src : Word) : Cmd := { cmdOf 2 0x11 0 [src.toNat, 0, 0, 0] with xctx := 1 }
def readEnds (s : State) (src : Word) : Option Stop := match s.srcAt (s.destCmd (castOf src) 0) 0 with
  | .ok _ => none
  | .error e => some e

theorem witness_way_steps :
    readEnds mapped (windowAddr 3 0 0) = none ∧ readEnds mapped (windowAddr 3 2 0) = some (.err 6) ∧
    readEnds mapped (2 ^ 39) = some (.page (2 ^ 39) false) ∧ readEnds mapped 0x10000 = some (.denied (2 ^ 30 + 0x10000)) ∧
    readEnds (throttledMapped.cacheFill 0 { xctx := 1, va := 0, size := 2 ^ 30, pa := 2 ^ 30, write := true }) 0 = some .busy := by
  decide +kernel

/-- That allreduce has `n` elements at `a`, and its turn has `k` steps. -/
def reducing (a : Word) (n k : Nat) : State :=
  let c := { reduce with words := [BitVec.ofNat 64 (0x20 * 2 ^ 58 + 3 * 2 ^ 54 + 0x2C), a, 0, BitVec.ofNat 64 n] }
  { grouped.setRun { cmd := c, progress := 0 } with grant := some k, hub := { part := [(0, 0x80000000000000FF)] } }

/-- How many elements its first turn reads, and how it ends. -/
def reads (a : Word) (n k : Nat) : Nat × Option Stop :=
  let c := { reduce with words := [BitVec.ofNat 64 (0x20 * 2 ^ 58 + 3 * 2 ^ 54 + 0x2C), a, 0, BitVec.ofNat 64 n] }
  (steps (fun k t => (t.rdElem c inCopy (BitVec.ofNat 64 (c.word 1)) (k * 32) 32).map Prod.fst)
    ((reducing a n k).stepsOf ((reducing a n k).collReads c)) 0 (reducing a n k)).2

theorem witness_collective_reads :
    reads (windowAddr 128 0 0) 2 2 = (2, none) ∧ reads (windowAddr 128 0 0) 2 1 = (1, none) ∧
    reads (windowAddr 3 2 0) 2 2 = (0, some (.err 6)) := by decide +kernel

/-- A pod barrier of one arrival a core, of a launch whose group 0 reaches into package 1 where `b` says so. -/
def podLaunch (b : Bool) : Launch := { launch1 with barriers := [(4, 0, 1)], groups := [[0, if b then 1 else 256]] }
def podBarriers (b : Bool) : State := { barriers with launches := put none [] 1 (some (podLaunch b)) }

/-- The arrival of a core there, and the node when all cores have arrived, that of core 128 last. -/
def podArrival (c : Nat) : BarrierMsg := { level := 4, id := 0, inst := 0, th := 16 * c, lid := some 1, phase := 0, comb := none }
def podNode (b : Bool) : Barrier := {
  arrivals := (((podBarriers b).barrierCores (podLaunch b) 4 0).filter (· ≠ 128)).map podArrival ++ [podArrival 128], remote := [(0, 1, 1)] }

theorem witness_pod_phase (b : Bool) : (podNode b).ofCore 0 128 = 1 ∧
    (podBarriers b).phaseHere (podLaunch b) (podNode b) 4 0 1 0 = true ∧
    (podBarriers b).barrierPer (some 1) 4 0 = some 1 ∧ (podBarriers b).arrivalStrays (podArrival 128) = false ∧
    (podBarriers b).otherPackages ((podLaunch b).groups.getD 0 []) = (if b then [1] else []) ∧
    (∃ x ∈ (podNode b).remote, x.1 = 0 ∧ x.2.1 = 1) := by
  have core : ∀ c, coreOf (16 * c) = c := fun c => by simp [coreOf]
  refine ⟨?_, List.all_eq_true.2 fun c h => decide_eq_true ?_, by cases b <;> decide +kernel, by cases b <;> decide +kernel,
    by cases b <;> decide +kernel, ⟨(0, 1, 1), by simp [podNode], rfl, rfl⟩⟩
  · unfold Barrier.ofCore podNode
    rw [List.filter_append, List.length_append, List.filter_eq_nil_iff.2 ?_]
    · decide
    · intro x hx
      obtain ⟨c, hc, rfl⟩ := List.mem_map.1 hx
      have h4 := (List.mem_filter.1 hc).2
      simpa [podArrival, core] using h4
  · have here : podArrival c ∈ (podNode b).arrivals := by
      by_cases e : c = 128
      · exact List.mem_append_right _ (by simp [e])
      · exact List.mem_append_left _ (List.mem_map_of_mem (List.mem_filter.2 ⟨h, by simpa using e⟩))
    exact List.length_pos_of_mem (List.mem_filter.2 ⟨here, by simp [podArrival, core]⟩)

end Sys2Proof.Tests
end

/-! SUPPORT. Traps and returns: what a trap leaves of its context in each of its two outcomes, what becomes of an instruction
without operands at its slot, and the statement about `trap` and `eret` (03 R110-R115, 06 R202-R203). -/

namespace Sys2Proof.Machine

/-! ### Whose trap it is (03 R113, R115) -/

theorem handles_iff (c : Ctx) (t : TrapInfo) : c.handles t = true ↔
    6 ≤ t.cause ∧ t.cause ≤ 11 ∧ c.hmask.getLsbD t.cause = true ∧ c.tstate.getLsbD 15 = false := by
  simp [Ctx.handles, Ctx.inh, and_assoc]

theorem handles_eq_false_iff (c : Ctx) (t : TrapInfo) : c.handles t = false ↔
    t.cause < 6 ∨ 11 < t.cause ∨ c.hmask.getLsbD t.cause = false ∨ c.tstate.getLsbD 15 = true := by
  simp only [Ctx.handles, Ctx.inh, Bool.and_eq_false_iff, decide_eq_false_iff_not, Nat.not_le, Bool.not_eq_eq_eq_not,
    Bool.not_false, or_assoc]

/-! ### The context that took a trap -/

/-- The context whose handler takes `t`: it goes on at `ctl.hbase`, inside the handler. -/
def Ctx.handledBy (c : Ctx) (t : TrapInfo) : Ctx := { c with
  held := if t.cause = cFETIMEOUT then c.held.filter fun h => h.pc ≠ c.pc else c.held
  cause := BitVec.ofNat 64 (t.cause % 256), epc := c.pc &&& ~~~7#64, tval := t.tval, winWait := none, lostAt := none
  tstate := tstateOf t ||| 0x8000#64, pc := c.hbase &&& ~~~7#64, status := .ready }

/-- The context that `t` halts; the trap registers that PREEMPT overwrites are in `outer` (log 95). -/
def Ctx.haltedBy (c : Ctx) (t : TrapInfo) : Ctx := { c with
  held := if t.cause = cFETIMEOUT then c.held.filter fun h => h.pc ≠ c.pc else c.held
  cause := BitVec.ofNat 64 (t.cause % 256), epc := c.pc &&& ~~~7#64, tval := t.tval, winWait := none, lostAt := none
  outer := if t.cause = cPREEMPT then some (c.cause, c.epc, c.tval, c.tstate) else c.outer
  tstate := tstateOf t ||| (c.tstate &&& 0x8000#64), before := c.status, status := .halted }

/-- A trap that halts its context; its record joins the die's queue. -/
theorem takeTrap_halted (s : State) (th : Nat) (t : TrapInfo) (h : (s.ctx th).handles t = false) :
    s.takeTrap th t = ((s.modCtx th fun _ => (s.ctx th).haltedBy t).modCore (coreOf th)
      (leaveCore th (t.cause = cPREEMPT || t.cause = cMACHINE))).modDie (dieOfTh th) fun d => { d with
        trapq := d.trapq ++ [{ th := th, lid := (s.ctx th).lid, lq := (s.ctx th).lq.toNat, trap := t }] } := by
  simp [State.takeTrap, h, Ctx.haltedBy]

theorem takeTrap_ctx_handled (s : State) (th : Nat) (t : TrapInfo) (h : (s.ctx th).handles t = true) :
    (s.takeTrap th t).ctx th = (s.ctx th).handledBy t := by
  rw [takeTrap_handled s th t h, modCore_ctx]
  exact modCtx_ctx_ne s th _ (ctx_ne_of_status (by simp))

theorem takeTrap_ctx_halted (s : State) (th : Nat) (t : TrapInfo) (h : (s.ctx th).handles t = false) :
    (s.takeTrap th t).ctx th = (s.ctx th).haltedBy t := by
  rw [takeTrap_halted s th t h, modDie_ctx, modCore_ctx]
  exact modCtx_ctx_ne s th _ (ctx_ne_of_status (by simp [Ctx.haltedBy]))

/-! ### The rest of the machine after a trap -/

theorem takeTrap_ctx_other (s : State) (th : Nat) (t : TrapInfo) (u : Nat) (hu : u ≠ th) :
    (s.takeTrap th t).ctx u = s.ctx u := by
  cases h : (s.ctx th).handles t with
  | true => rw [takeTrap_handled s th t h, modCore_ctx, modCtx_ctx_other _ _ _ _ hu]
  | false => rw [takeTrap_halted s th t h, modDie_ctx, modCore_ctx, modCtx_ctx_other _ _ _ _ hu]

@[simp] theorem takeTrap_mem (s : State) (th : Nat) (t : TrapInfo) : (s.takeTrap th t).mem = s.mem := by
  cases h : (s.ctx th).handles t with
  | true => rw [takeTrap_handled s th t h]; rfl
  | false => rw [takeTrap_halted s th t h]; rfl

theorem takeTrap_dies_handled (s : State) (th : Nat) (t : TrapInfo) (h : (s.ctx th).handles t = true) :
    (s.takeTrap th t).dies = s.dies := by
  rw [takeTrap_handled s th t h]; rfl

/-- A member of an open `slotw` round has not arrived any more (log 104); nothing else of a core changes. -/
theorem takeTrap_cores_handled (s : State) (th : Nat) (t : TrapInfo) (h : (s.ctx th).handles t = true) :
    (s.takeTrap th t).cores = (s.modCore (coreOf th) (unarrive th)).cores := by
  rw [takeTrap_handled s th t h]; rfl

theorem modDie_die_ne (s : State) (d : Nat) (f : Die → Die) (h : f (s.die d) ≠ {}) : (s.modDie d f).die d = f (s.die d) :=
  get_put_ne _ _ _ _ h

/-- The die scheduler gets the record of a halting trap behind all the earlier ones (log 20). -/
theorem takeTrap_trapq_halted (s : State) (th : Nat) (t : TrapInfo) (h : (s.ctx th).handles t = false) :
    ((s.takeTrap th t).die (dieOfTh th)).trapq = (s.die (dieOfTh th)).trapq ++
      [{ th := th, lid := (s.ctx th).lid, lq := (s.ctx th).lq.toNat, trap := t }] := by
  rw [takeTrap_halted s th t h, modDie_die_ne]
  · simp
  · exact fun e => List.append_ne_nil_of_right_ne_nil _ (List.cons_ne_nil _ _) (congrArg Die.trapq e)

theorem unarrive_round (th : Nat) (k : Core) (r : SlotwRound) (h : k.round = some r) :
    unarrive th k = { k with round := some { r with arrived := r.arrived.filter fun p => p.1 ≠ th } } := by
  simp [unarrive, h]

/-! ### Instructions without operands at their slot -/

/-- An instruction of every level that names no register and no window, and accesses, awaits and counts nothing. -/
structure Bare (s : State) (i : Instr) : Prop where
  wf : i.wf = true
  level : levelOf i = 0
  srcs : srcsOf i = []
  dsts : dstsOf i = []
  window : windowOpOf i = none
  answer : waitsForAnswer i = false
  memory : s.isMemAccess i = false
  wait : waitOf i = 0
  release : releases i = false
  accesses : s.accesses i = []
  store : isStore i = false
  counts : s.counts i = none

theorem bare_trap (s : State) (n : BitVec 15) : Bare s (.trap n) := by constructor <;> rfl

theorem bare_eret (s : State) : Bare s .eret := by constructor <;> rfl

theorem Bare.windowMisuse {s : State} {i : Instr} (h : Bare s i) (c : Ctx) : windowMisuse c i = false := by
  simp [Machine.windowMisuse, windowUses, h.srcs, h.dsts, h.window]

theorem go_and (v : Verdict) : Verdict.go.and v = v := rfl

theorem and_go (v : Verdict) : v.and .go = v := by cases v <;> rfl

/-- Of the waits and checks after the registers only its own are left to it. -/
theorem Bare.opChecks {s : State} {i : Instr} (h : Bare s i) : s.opChecks i = s.ownChecks i := by
  simp [State.opChecks, h.answer, h.memory, h.wait, h.release, h.accesses, h.counts, State.bufferFull, h.store,
    State.storesBefore, State.checkAccesses, blockIf, trapIf, go_and, and_go]

/-- Where it is not ILLEGAL, its own checks decide. -/
theorem Bare.verdict {s : State} {i : Instr} (h : Bare s i) (hi : s.illegal i = none) : s.verdict [i] = s.ownChecks i := by
  simp [State.verdict, State.illegalAll, hi, State.vregFault, State.emptyTrap, State.windowWait, State.registerWait, h.srcs,
    h.dsts, h.window, h.opChecks, blockIf, trapIf, go_and]

/-! ### `trap` and `eret` (06 R202-R203) -/

theorem illegal_trap (s : State) (n : BitVec 15) : s.illegal (.trap n) = none := by
  have h := bare_trap s n
  unfold State.illegal
  simp [h.wf, h.level, h.windowMisuse]

theorem verdict_trap (s : State) (n : BitVec 15) :
    s.verdict [.trap n] = .trap { cause := cSOFT, tval := n.setWidth 64 } :=
  (bare_trap s n).verdict (illegal_trap s n)

theorem exec_trap_soft {s : State} (n : BitVec 15) (hl : s.latch = none) :
    exec (.trap n) s = .next (s.takeTrap s.cur { cause := cSOFT, tval := n.setWidth 64 }) := by
  rw [exec_trap, execTrap, issue_trap hl (verdict_trap s n)]

/-- Outside a handler a thread of level 0 may not return. -/
theorem illegal_eret (s : State) : s.illegal .eret =
    if (s.ctx s.cur).tstate.getLsbD 15 = false ∧ (s.ctx s.cur).level = 0 then some 0 else none := by
  have h := bare_eret s
  unfold State.illegal
  simp [h.wf, h.level, h.windowMisuse, Ctx.inh]

theorem issues_eret {s : State} (hl : s.latch = none)
    (h : (s.ctx s.cur).tstate.getLsbD 15 = true ∨ (s.ctx s.cur).level ≠ 0) : Issues s .eret := by
  refine ⟨hl, (bare_eret s).verdict ?_⟩
  rw [illegal_eret, if_neg]
  rintro ⟨hinh, hlevel⟩
  exact h.elim (fun hset => Bool.false_ne_true (hinh.symm.trans hset)) fun hne => hne hlevel

theorem does_eret (s : State) : Does s .eret fun r => r.returnTrap s.cur :=
  issue_spec (exec_eret s) (by rw [advance_cur])

theorem exec_eret_illegal {s : State} (hl : s.latch = none) (hinh : (s.ctx s.cur).tstate.getLsbD 15 = false)
    (hlevel : (s.ctx s.cur).level = 0) : exec .eret s = .next (s.takeTrap s.cur { cause := cILLEGAL, tval := 0 }) := by
  have hi : s.illegal .eret = some 0 := by rw [illegal_eret, if_pos ⟨hinh, hlevel⟩]
  rw [exec_eret, execEret, issue_trap hl (verdict_illegal hi)]
  rfl

/-! ### The obligation -/

/-- Settles O9: the handled and the halting trap by what each makes of its context, `trap` and `eret` by their verdicts. -/
theorem trapsAndReturns : Obligations.TrapsAndReturns := by
  refine ⟨⟨fun s n hl => exec_trap_soft n hl, fun s th t h6 h11 hmask hinh => ?_, fun s th t hcase => ?_⟩,
    fun s => ⟨does_eret s, exec_eret_illegal, issues_eret⟩⟩
  · have h : (s.ctx th).handles t = true := (handles_iff _ _).2 ⟨h6, h11, hmask, hinh⟩
    have hcause : t.cause % 256 = t.cause := Nat.mod_eq_of_lt (by omega)
    rw [takeTrap_ctx_handled s th t h]
    exact ⟨congrArg (BitVec.ofNat 64) hcause, rfl, rfl, rfl, rfl, rfl, rfl, rfl, takeTrap_ctx_other s th t,
      takeTrap_mem s th t, takeTrap_dies_handled s th t h, takeTrap_cores_handled s th t h, unarrive_round th⟩
  · have h : (s.ctx th).handles t = false := (handles_eq_false_iff _ _).2 hcase
    rw [takeTrap_ctx_halted s th t h]
    exact ⟨rfl, rfl, rfl, rfl, rfl, rfl, rfl, rfl, takeTrap_ctx_other s th t, takeTrap_mem s th t,
      fun hpreempt => if_pos hpreempt, takeTrap_trapq_halted s th t h⟩

end Sys2Proof.Machine

/-! SUPPORT. Integer and address instructions: the words of SR and SI format field by field, what each value function of
the model computes on naturals and integers, and the statements about register arithmetic, multiplication and division, bit
operations and immediate forms (06 R180-R187). -/

namespace Sys2Proof.Machine

/-! ### Words of SR and SI format (05 R154) -/

/-- A number written as a high and a low part. -/
theorem toNat_append_eq_add {v w : Nat} (x : BitVec v) (y : BitVec w) : (x ++ y).toNat = x.toNat * 2 ^ w + y.toNat := by
  rw [BitVec.toNat_append, ← Nat.shiftLeft_add_eq_or_of_lt y.isLt, Nat.shiftLeft_eq]

/-- The word of SR format with these fields. -/
def srWord (m : BitVec 6) (d a : BitVec 5) (t : BitVec 1) (b : BitVec 5) (u : BitVec 1) (n : BitVec 9) : BitVec 32 :=
  m ++ d ++ a ++ t ++ b ++ u ++ n

/-- A field by its place in the number. -/
theorem extractLsb'_eq_of_toNat {w k len : Nat} {x : BitVec w} {f : BitVec len} (h : x.toNat / 2 ^ k % 2 ^ len = f.toNat) :
    x.extractLsb' k len = f :=
  BitVec.eq_of_toNat_eq (by rw [BitVec.extractLsb'_toNat, Nat.shiftRight_eq_div_pow, h])

section
variable (m : BitVec 6) (d a : BitVec 5) (t : BitVec 1) (b : BitVec 5) (u : BitVec 1) (n : BitVec 9)

theorem srWord_toNat : (srWord m d a t b u n).toNat = m.toNat * 2 ^ 26 + d.toNat * 2 ^ 21 + a.toNat * 2 ^ 16 +
    t.toNat * 2 ^ 15 + b.toNat * 2 ^ 10 + u.toNat * 2 ^ 9 + n.toNat := by
  simp only [srWord, toNat_append_eq_add]; omega

@[simp] theorem srWord_major : (srWord m d a t b u n).extractLsb' 26 6 = m :=
  extractLsb'_eq_of_toNat (by rw [srWord_toNat]; omega)
@[simp] theorem srWord_d : (srWord m d a t b u n).extractLsb' 21 5 = d :=
  extractLsb'_eq_of_toNat (by rw [srWord_toNat]; omega)
@[simp] theorem srWord_a : (srWord m d a t b u n).extractLsb' 16 5 = a :=
  extractLsb'_eq_of_toNat (by rw [srWord_toNat]; omega)
@[simp] theorem srWord_t : (srWord m d a t b u n).extractLsb' 15 1 = t :=
  extractLsb'_eq_of_toNat (by rw [srWord_toNat]; omega)
@[simp] theorem srWord_b : (srWord m d a t b u n).extractLsb' 10 5 = b :=
  extractLsb'_eq_of_toNat (by rw [srWord_toNat]; omega)
@[simp] theorem srWord_u : (srWord m d a t b u n).extractLsb' 9 1 = u :=
  extractLsb'_eq_of_toNat (by rw [srWord_toNat]; omega)
@[simp] theorem srWord_funct : (srWord m d a t b u n).extractLsb' 0 9 = n :=
  extractLsb'_eq_of_toNat (by rw [srWord_toNat]; omega)
@[simp] theorem srWord_imm : (srWord m d a t b u n).extractLsb' 0 15 = b ++ u ++ n :=
  extractLsb'_eq_of_toNat (by rw [srWord_toNat, toNat_append_eq_add, toNat_append_eq_add]; omega)

/-- The bits above the funct code make no difference to which code it is. -/
theorem append_funct_ne {k : BitVec 15} (h : n ≠ k.extractLsb' 0 9) : b ++ u ++ n ≠ k := fun e =>
  h (e ▸ BitVec.extractLsb'_append_eq_right.symm)

/-- A word of SI format has its immediate where one of SR format has its second operand and its funct code. -/
theorem siWord_eq_srWord (i : BitVec 15) : (m ++ d ++ a ++ t ++ i : BitVec 32) =
    srWord m d a t (i.extractLsb' 10 5) (i.extractLsb' 9 1) (i.extractLsb' 0 9) := by
  apply BitVec.eq_of_toNat_eq
  simp only [srWord_toNat, toNat_append_eq_add, BitVec.extractLsb'_toNat, Nat.shiftRight_eq_div_pow]
  omega

theorem append_fields (i : BitVec 15) : i.extractLsb' 10 5 ++ i.extractLsb' 9 1 ++ i.extractLsb' 0 9 = i := by
  apply BitVec.eq_of_toNat_eq
  simp only [toNat_append_eq_add, BitVec.extractLsb'_toNat, Nat.shiftRight_eq_div_pow]
  omega

/-! ### What the words decode to (05 R162, R163) -/

theorem decodeS_multiplyDivide (i : Instr) (h : (n, i) ∈ [
      (0, Instr.mul d a t b u), (1, .mulh d a t b u), (2, .mulhn d a t b u), (3, .mulhsn d a t b u), (4, .div d a t b u),
      (5, .divn d a t b u), (6, .rem d a t b u), (7, .remn d a t b u)]) : decodeS (srWord 1 d a t b u n) = some i := by
  simp only [List.mem_cons, List.not_mem_nil, or_false] at h
  rcases h with h | h | h | h | h | h | h | h <;> cases h <;> simp [decodeS, decodeRawS, checked, Instr.wf]

theorem decodeS_bitOperands (i : Instr) (h : (n, i) ∈ [
      (3, Instr.sel d a t b u), (4, .bext d a t b u), (5, .bexts d a t b u), (6, .bins d a t b u)]) :
    decodeS (srWord 2 d a t b u n) = some i := by
  simp only [List.mem_cons, List.not_mem_nil, or_false] at h
  rcases h with h | h | h | h <;> cases h <;> simp [decodeS, decodeRawS, append_funct_ne, checked, Instr.wf]

theorem decodeS_bitCounts (i : Instr) (h : (n, i) ∈ [(0, Instr.clz d a t), (1, .ctz d a t), (2, .popc d a t)]) :
    decodeS (srWord 2 d a t 0 0 n) = some i := by
  simp only [List.mem_cons, List.not_mem_nil, or_false] at h
  rcases h with h | h | h <;> cases h <;> simp [decodeS, decodeRawS, checked, Instr.wf]

theorem decodeS_immediate (i : BitVec 15) (j : Instr) (h : (m, j) ∈ [
      (4, Instr.addi d a t i), (5, .andi d a t i), (6, .ori d a t i), (7, .xori d a t i), (8, .slti d a t i),
      (9, .sltni d a t i)]) : decodeS (m ++ d ++ a ++ t ++ i) = some j := by
  rw [siWord_eq_srWord]
  simp only [List.mem_cons, List.not_mem_nil, or_false] at h
  rcases h with h | h | h | h | h | h <;> cases h <;> simp [decodeS, decodeRawS, append_fields, checked, Instr.wf]

end

/-! ### The model's values on naturals and integers (06 R180, R181) -/

theorem add_eq_ofNat (x y : Word) : x + y = BitVec.ofNat 64 (x.toNat + y.toNat) := by
  rw [BitVec.ofNat_add, BitVec.ofNat_toNat, BitVec.ofNat_toNat, BitVec.setWidth_eq, BitVec.setWidth_eq]

theorem sub_eq_ofInt (x y : Word) : x - y = BitVec.ofInt 64 (x.toNat - y.toNat) := by
  rw [Int.sub_eq_add_neg, BitVec.ofInt_add, BitVec.ofInt_neg, BitVec.ofInt_natCast, BitVec.ofInt_natCast, BitVec.ofNat_toNat,
    BitVec.ofNat_toNat, BitVec.setWidth_eq, BitVec.setWidth_eq, BitVec.sub_eq_add_neg]

theorem mul_eq_ofNat (x y : Word) : x * y = BitVec.ofNat 64 (x.toNat * y.toNat) := by
  rw [BitVec.ofNat_mul, BitVec.ofNat_toNat, BitVec.ofNat_toNat, BitVec.setWidth_eq, BitVec.setWidth_eq]

theorem shiftLeft_eq_ofNat (x : Word) (n : Nat) : x <<< n = BitVec.ofNat 64 (x.toNat * 2 ^ n) :=
  BitVec.eq_of_toNat_eq (by rw [BitVec.toNat_shiftLeft, BitVec.toNat_ofNat, Nat.shiftLeft_eq])

theorem ushiftRight_eq_ofNat (x : Word) (n : Nat) : x >>> n = BitVec.ofNat 64 (x.toNat / 2 ^ n) := by
  rw [← Nat.shiftRight_eq_div_pow, ← BitVec.toNat_ushiftRight, BitVec.ofNat_toNat, BitVec.setWidth_eq]

theorem sshiftRight_eq_ofInt (x : Word) (n : Nat) : x.sshiftRight n = BitVec.ofInt 64 (x.toInt / 2 ^ n) := by
  rw [← BitVec.ofInt_toInt (x := x.sshiftRight n), BitVec.toInt_sshiftRight, Int.shiftRight_eq_div_pow, Int.natCast_pow,
    Int.cast_ofNat_Int]

theorem shiftLeft_add_eq_ofNat (x y : Word) (n : Nat) : x <<< n + y = BitVec.ofNat 64 (x.toNat * 2 ^ n + y.toNat) := by
  rw [shiftLeft_eq_ofNat, BitVec.ofNat_add, BitVec.ofNat_toNat, BitVec.setWidth_eq]

theorem ofBool_decide (p : Prop) [Decidable p] : ofBool (decide p) = if p then 1 else 0 := by
  by_cases h : p <;> simp [ofBool, h]

theorem minS_eq_ofInt (x y : Word) : minS x y = BitVec.ofInt 64 (min x.toInt y.toInt) := by
  have h : min x.toInt y.toInt = if y.toInt < x.toInt then y.toInt else x.toInt := by split <;> omega
  rw [minS, h, apply_ite (BitVec.ofInt 64), BitVec.ofInt_toInt, BitVec.ofInt_toInt]

theorem maxS_eq_ofInt (x y : Word) : maxS x y = BitVec.ofInt 64 (max x.toInt y.toInt) := by
  have h : max x.toInt y.toInt = if x.toInt < y.toInt then y.toInt else x.toInt := by split <;> omega
  rw [maxS, h, apply_ite (BitVec.ofInt 64), BitVec.ofInt_toInt, BitVec.ofInt_toInt]

theorem minU_eq_ofNat (x y : Word) : minU x y = BitVec.ofNat 64 (min x.toNat y.toNat) := by
  have h : min x.toNat y.toNat = if y.toNat < x.toNat then y.toNat else x.toNat := by split <;> omega
  rw [minU, h, apply_ite (BitVec.ofNat 64), BitVec.ofNat_toNat, BitVec.ofNat_toNat, BitVec.setWidth_eq, BitVec.setWidth_eq]

theorem maxU_eq_ofNat (x y : Word) : maxU x y = BitVec.ofNat 64 (max x.toNat y.toNat) := by
  have h : max x.toNat y.toNat = if x.toNat < y.toNat then y.toNat else x.toNat := by split <;> omega
  rw [maxU, h, apply_ite (BitVec.ofNat 64), BitVec.ofNat_toNat, BitVec.ofNat_toNat, BitVec.setWidth_eq, BitVec.setWidth_eq]

theorem highOf_eq_ofInt (z : Int) : highOf z = BitVec.ofInt 64 (z / 2 ^ 64) := by
  apply BitVec.eq_of_toNat_eq
  simp only [highOf, BitVec.extractLsb'_toNat, BitVec.toNat_ofInt, Nat.shiftRight_eq_div_pow]
  omega

theorem highOf_natCast (z : Nat) : highOf z = BitVec.ofNat 64 (z / 2 ^ 64) := by
  rw [highOf_eq_ofInt, ← BitVec.ofInt_natCast, Int.natCast_ediv, Int.natCast_pow, Int.cast_ofNat_Int]

/-- The one quotient that overflows wraps to the value of its column. -/
theorem divS_eq (x y : Word) : divS x y =
    if y = 0 then 0xFFFFFFFFFFFFFFFF
    else if x.toInt = -2 ^ 63 ∧ y.toInt = -1 then 0x8000000000000000
    else BitVec.ofInt 64 (x.toInt.tdiv y.toInt) := by
  rw [divS]
  refine ite_congr rfl (fun _ => rfl) fun _ => ?_
  split
  next h =>
    obtain ⟨hx, hy⟩ := h
    rw [hx, hy]; decide
  next => rfl

theorem remS_eq (x y : Word) : remS x y =
    if y = 0 then x
    else if x.toInt = -2 ^ 63 ∧ y.toInt = -1 then 0
    else BitVec.ofInt 64 (x.toInt.tmod y.toInt) := by
  rw [remS, ← Int.tmod_def]
  refine ite_congr rfl (fun _ => rfl) fun _ => ?_
  split
  next h =>
    obtain ⟨hx, hy⟩ := h
    rw [hx, hy]; decide
  next => rfl

/-! ### Counts and fields (06 R182) -/

theorem leadingZeros_zero : leadingZeros 0 = 64 := rfl

theorem leadingZeros_eq {x : Word} {k : Nat} (hlow : 2 ^ k ≤ x.toNat) (hhigh : x.toNat < 2 ^ (k + 1)) :
    leadingZeros x = BitVec.ofNat 64 (63 - k) := by
  have hpos : x.toNat ≠ 0 := Nat.ne_of_gt (Nat.lt_of_lt_of_le (Nat.two_pow_pos k) hlow)
  have hx : x ≠ 0 := fun e => hpos (by rw [e]; rfl)
  rw [leadingZeros, if_neg hx, (Nat.log2_eq_iff hpos).2 ⟨hlow, hhigh⟩]

theorem trailingZeros_zero : trailingZeros 0 = 64 := rfl

/-- Of the bits up to `k` of a number that is 2 ^ k modulo 2 ^ (k + 1), bit `k` alone is one. -/
theorem testBit_of_mod_eq {x k j : Nat} (h : x % 2 ^ (k + 1) = 2 ^ k) (hj : j ≤ k) : x.testBit j = decide (k = j) := by
  have hbit := Nat.testBit_mod_two_pow x (k + 1) j
  rw [h, Nat.testBit_two_pow, decide_eq_true (Nat.lt_succ_of_le hj), Bool.true_and] at hbit
  exact hbit.symm

theorem trailingZeros_eq {x : Word} {k : Nat} (hk : k < 64) (h : x.toNat % 2 ^ (k + 1) = 2 ^ k) :
    trailingZeros x = BitVec.ofNat 64 k := by
  have hfind : (List.range 64).find? x.getLsbD = some k := by
    rw [List.find?_range_eq_some]
    refine ⟨(testBit_of_mod_eq h (Nat.le_refl k)).trans (decide_eq_true rfl), List.mem_range.2 hk, fun j hj => ?_⟩
    have hlow : x.getLsbD j = false := (testBit_of_mod_eq h (Nat.le_of_lt hj)).trans (decide_eq_false (Nat.ne_of_gt hj))
    rw [hlow]; rfl
  rw [trailingZeros, hfind]; rfl

/-- How many entries pass a test is the sum of the results of the test. -/
theorem length_filter_eq_sum {α : Type} (p : α → Bool) (l : List α) :
    (l.filter p).length = (l.map fun x => (p x).toNat).sum := by
  induction l with
  | nil => rfl
  | cons x l ih => cases h : p x <;> simp [h, ih, Nat.add_comm]

theorem onesCount_eq (x : Word) :
    onesCount x = BitVec.ofNat 64 (((List.range 64).map fun k => x.toNat / 2 ^ k % 2).sum) := by
  simp only [onesCount, length_filter_eq_sum, BitVec.getLsbD, Nat.toNat_testBit]

theorem bitFieldS_of_fieldLen_zero {x y : Word} (h : fieldLen y = 0) : bitFieldS x y = 0 := by simp [bitFieldS, h]

theorem bitFieldS_of_fieldLen_succ {x y : Word} {n : Nat} (h : fieldLen y = n + 1) :
    bitFieldS x y = BitVec.ofInt 64 (BitVec.ofNat (n + 1) (x.toNat / 2 ^ fieldLo y)).toInt := by
  rw [BitVec.toInt_eq_toNat_cond, BitVec.toNat_ofNat]
  simp only [bitFieldS, h]
  generalize x.toNat / 2 ^ fieldLo y % 2 ^ (n + 1) = v
  have hhalf : 2 ^ n ≤ v ↔ ¬2 * v < 2 ^ (n + 1) := by rw [Nat.pow_succ]; omega
  rw [if_neg (Nat.succ_ne_zero n), Nat.add_sub_cancel]
  simp only [hhalf, ite_not, Int.natCast_pow, Int.cast_ofNat_Int]

theorem insertField_eq (old x y : Word) : insertField old x y =
    (old &&& ~~~BitVec.ofNat 64 ((2 ^ fieldLen y - 1) * 2 ^ fieldLo y)) |||
      (BitVec.ofNat 64 (x.toNat * 2 ^ fieldLo y) &&& BitVec.ofNat 64 ((2 ^ fieldLen y - 1) * 2 ^ fieldLo y)) := by
  rw [insertField, shiftLeft_eq_ofNat]

/-! ### Immediates and addresses (06 R184-R187) -/

theorem signExtend_eq_ofInt {w : Nat} (z : BitVec w) (h : w ≤ 64) : z.signExtend 64 = BitVec.ofInt 64 z.toInt := by
  rw [← BitVec.toInt_signExtend_of_le h, BitVec.ofInt_toInt]

theorem add_signExtend_eq_ofInt (x : Word) (i : BitVec 15) :
    x + i.signExtend 64 = BitVec.ofInt 64 (x.toNat + i.toInt) := by
  rw [signExtend_eq_ofInt i (by decide), BitVec.ofInt_add, BitVec.ofInt_natCast, BitVec.ofNat_toNat, BitVec.setWidth_eq]

theorem composeAddr_eq_append (g : BitVec 3) (x y : BitVec 4) (c : BitVec 2) (low : BitVec 23) :
    composeAddr g x y c low = (1 : BitVec 2) ++ (0 : BitVec 26) ++ g ++ x ++ y ++ c ++ low := by
  apply BitVec.eq_of_toNat_eq
  rw [composeAddr, BitVec.toNat_ofNat, Nat.mod_eq_of_lt (by omega)]
  simp only [toNat_append_eq_add, BitVec.ofNat_eq_ofNat, BitVec.toNat_ofNat]
  omega

/-! ### What an instruction writes -/

section
variable {s : State} {i : Instr} {d a b : BitVec 5} {x : Word}

/-- A result that one register gives. -/
theorem writes_of_operand (f : Word → Word) (he : exec i s = issueS i d (fun r => f (r.S a)) s) (hx : f (s.S a) = x) :
    Writes s i d x :=
  issueS_spec he (by rw [advance_S, hx])

/-- A result that two registers give. -/
theorem writes_of_operands (f : Word → Word → Word) (he : exec i s = issueS i d (fun r => f (r.S a) (r.S b)) s)
    (hx : f (s.S a) (s.S b) = x) : Writes s i d x :=
  issueS_spec he (by rw [advance_S, advance_S, hx])

/-- A result that the old value of the destination gives as well (06 R183). -/
theorem writes_of_destination (f : Word → Word → Word → Word)
    (he : exec i s = issueS i d (fun r => f (r.S d) (r.S a) (r.S b)) s) (hx : f (s.S d) (s.S a) (s.S b) = x) :
    Writes s i d x :=
  issueS_spec he (by rw [advance_S, advance_S, advance_S, hx])

end

/-! ### The obligations -/

/-- Settles O1: each row of the table by the value of its function on the two operands. -/
theorem registerArithmetic : Obligations.RegisterArithmetic := fun s d a b t u k =>
  ⟨writes_of_operands (fun x y => x + y) (exec_add d a t b u s) (add_eq_ofNat _ _),
    writes_of_operands (fun x y => x - y) (exec_sub d a t b u s) (sub_eq_ofInt _ _),
    writes_of_operands (fun x y => x &&& y) (exec_and d a t b u s) rfl,
    writes_of_operands (fun x y => x ||| y) (exec_or d a t b u s) rfl,
    writes_of_operands (fun x y => x ^^^ y) (exec_xor d a t b u s) rfl,
    writes_of_operands (fun x y => x &&& ~~~y) (exec_andn d a t b u s) rfl,
    writes_of_operands (fun x y => x <<< (y.toNat % 64)) (exec_sll d a t b u s) (shiftLeft_eq_ofNat _ _),
    writes_of_operands (fun x y => x >>> (y.toNat % 64)) (exec_srl d a t b u s) (ushiftRight_eq_ofNat _ _),
    writes_of_operands (fun x y => x.sshiftRight (y.toNat % 64)) (exec_sra d a t b u s) (sshiftRight_eq_ofInt _ _),
    writes_of_operands (fun x y => ofBool (decide (x.toInt < y.toInt))) (exec_slt d a t b u s) (ofBool_decide _),
    writes_of_operands (fun x y => ofBool (decide (x.toNat < y.toNat))) (exec_sltn d a t b u s) (ofBool_decide _),
    writes_of_operands minS (exec_min d a t b u s) (minS_eq_ofInt _ _),
    writes_of_operands maxS (exec_max d a t b u s) (maxS_eq_ofInt _ _),
    writes_of_operands minU (exec_minn d a t b u s) (minU_eq_ofNat _ _),
    writes_of_operands maxU (exec_maxn d a t b u s) (maxU_eq_ofNat _ _),
    writes_of_operands (fun x y => x <<< k.toNat + y) (exec_lea d a t b u k s) (shiftLeft_add_eq_ofNat _ _ _)⟩

/-- Settles O2: the words by the fields of SR format, each value by that of its function on the two operands. -/
theorem multiplyDivide : Obligations.MultiplyDivide := fun s d a b t u =>
  ⟨decodeS_multiplyDivide d a t b u,
    writes_of_operands (fun x y => x * y) (exec_mul d a t b u s) (mul_eq_ofNat _ _),
    writes_of_operands (fun x y => highOf (x.toInt * y.toInt)) (exec_mulh d a t b u s) (highOf_eq_ofInt _),
    writes_of_operands (fun x y => highOf (x.toNat * y.toNat : Nat)) (exec_mulhn d a t b u s) (highOf_natCast _),
    writes_of_operands (fun x y => highOf (x.toInt * y.toNat)) (exec_mulhsn d a t b u s) (highOf_eq_ofInt _),
    writes_of_operands divS (exec_div d a t b u s) (divS_eq _ _),
    writes_of_operands divU (exec_divn d a t b u s) rfl,
    writes_of_operands remS (exec_rem d a t b u s) (remS_eq _ _),
    writes_of_operands remU (exec_remn d a t b u s) rfl⟩

/-- Settles O3: a count by the bits that it counts, a field by its bits. -/
theorem bitOperations : Obligations.BitOperations := fun s d a b t u =>
  ⟨decodeS_bitOperands d a t b u, decodeS_bitCounts d a t,
    fun h => ⟨writes_of_operand leadingZeros (exec_clz d a t s) (h ▸ leadingZeros_zero),
      writes_of_operand trailingZeros (exec_ctz d a t s) (h ▸ trailingZeros_zero)⟩,
    fun _ _ hlow hhigh => writes_of_operand leadingZeros (exec_clz d a t s) (leadingZeros_eq hlow hhigh),
    fun _ hk h => writes_of_operand trailingZeros (exec_ctz d a t s) (trailingZeros_eq hk h),
    writes_of_operand onesCount (exec_popc d a t s) (onesCount_eq _),
    writes_of_destination (fun old x y => if old ≠ 0 then x else y) (exec_sel d a t b u s) rfl,
    writes_of_operands bitField (exec_bext d a t b u s) rfl,
    fun h => writes_of_operands bitFieldS (exec_bexts d a t b u s) (bitFieldS_of_fieldLen_zero h),
    fun _ h => writes_of_operands bitFieldS (exec_bexts d a t b u s) (bitFieldS_of_fieldLen_succ h),
    fun _ hm => writes_of_destination insertField (exec_bins d a t b u s) (hm ▸ insertField_eq _ _ _)⟩

/-- Settles O4: the register forms with the immediate in the place of the second operand. -/
theorem immediateForms : Obligations.ImmediateForms := fun s d a t i n z g x y c =>
  have himm : i.signExtend 64 = BitVec.ofInt 64 i.toInt := signExtend_eq_ofInt i (by decide)
  ⟨fun m j => decodeS_immediate m d a t i j,
    writes_of_operand (fun x => x + i.signExtend 64) (exec_addi d a t i s) (add_signExtend_eq_ofInt _ i),
    writes_of_operand (fun x => x &&& i.signExtend 64) (exec_andi d a t i s) (by rw [himm]),
    writes_of_operand (fun x => x ||| i.signExtend 64) (exec_ori d a t i s) (by rw [himm]),
    writes_of_operand (fun x => x ^^^ i.signExtend 64) (exec_xori d a t i s) (by rw [himm]),
    writes_of_operand (fun x => ofBool (decide (x.toInt < i.toInt))) (exec_slti d a t i s) (ofBool_decide _),
    writes_of_operand (fun x => ofBool (decide (x.toNat < (i.signExtend 64).toNat))) (exec_sltni d a t i s)
      (by rw [ofBool_decide, himm]),
    writes_of_operand (fun x => x <<< n.toNat) (exec_slli d a t n s) (shiftLeft_eq_ofNat _ _),
    writes_of_operand (fun x => x >>> n.toNat) (exec_srli d a t n s) (ushiftRight_eq_ofNat _ _),
    writes_of_operand (fun x => x.sshiftRight n.toNat) (exec_srai d a t n s) (sshiftRight_eq_ofInt _ _),
    issueS_spec (exec_lim d z s) (signExtend_eq_ofInt z (by decide)),
    writes_of_operand (fun r => composeAddr g x y c (r.extractLsb' 0 23)) (exec_cadr d a t g x y c s)
      (composeAddr_eq_append g x y c _)⟩

end Sys2Proof.Machine

/-! SUPPORT. Decoding and encoding: what a field of a word put together from fields is, the two directions for the three kinds
of words, then bundles, and the statement that decoding and encoding are each other's inverse (05 R150-R173, 22 R538). -/

namespace Sys2Proof.Machine

/-! ### Fields of words -/

/-- A field that lies across a seam, compared part by part. -/
theorem extract_append_beq {v w k len : Nat} (x : BitVec v) (y : BitVec w) (c : BitVec len) (h : k + 1 ≤ w) (h' : w + 1 ≤ k + len) :
    ((x ++ y).extractLsb' k len == c) = (x.extractLsb' 0 (k + len - w) == c.extractLsb' (w - k) (k + len - w) &&
      y.extractLsb' k (w - k) == c.extractLsb' 0 (w - k)) := by
  rw [Bool.eq_iff_iff, Bool.and_eq_true, beq_iff_eq, beq_iff_eq, beq_iff_eq]
  constructor
  · rintro rfl
    constructor
    · ext i hi
      simp only [BitVec.getElem_extractLsb', BitVec.getLsbD_extractLsb', BitVec.getLsbD_append]
      grind
    · ext i hi
      simp only [BitVec.getElem_extractLsb', BitVec.getLsbD_extractLsb', BitVec.getLsbD_append]
      grind
  · rintro ⟨hx, hy⟩
    ext i hi
    have hx := congrArg (fun z => z.getLsbD (i - (w - k))) hx
    have hy := congrArg (fun z => z.getLsbD i) hy
    simp only [BitVec.getElem_extractLsb', BitVec.getLsbD_extractLsb', BitVec.getLsbD_append] at hx hy ⊢
    grind

theorem append_eq_extract {v n k l : Nat} {x : BitVec v} {y : BitVec n} {w : BitVec l} (hx : x = w.extractLsb' (k + n) v)
    (hy : y = w.extractLsb' k n) : x ++ y = w.extractLsb' k (v + n) := by
  rw [hx, hy, BitVec.extractLsb'_append_extractLsb'_eq_extractLsb' rfl]

theorem ofNat_eq_extract_iff {l k n c : Nat} {w : BitVec l} :
    BitVec.ofNat n c = w.extractLsb' k n ↔ w.toNat / 2 ^ k % 2 ^ n = c % 2 ^ n := by
  rw [← BitVec.toNat_inj, BitVec.extractLsb'_toNat, Nat.shiftRight_eq_div_pow, BitVec.toNat_ofNat, eq_comm]

theorem extract_beq_iff {l k n : Nat} {w : BitVec l} {c : BitVec n} :
    (w.extractLsb' k n == c) = true ↔ w.toNat / 2 ^ k % 2 ^ n = c.toNat := by
  rw [beq_iff_eq, ← BitVec.toNat_inj, BitVec.extractLsb'_toNat, Nat.shiftRight_eq_div_pow]

/-- One test of a decoder: it answers here, or further on. -/
theorem ite_some_eq_some_iff {α : Type} {c : Bool} {x y : α} {o : Option α} :
    (if c then some x else o) = some y ↔ (c = true ∧ x = y) ∨ (c = false ∧ o = some y) := by
  cases c <;> simp

theorem checked_eq_some_iff {o : Option Instr} {i : Instr} : checked o = some i ↔ o = some i ∧ i.wf = true :=
  Option.filter_eq_some_iff

/-- Two codes of nine bits that differ above their lowest three. -/
theorem funct_beq_eq_false {w : BitVec 32} {c : BitVec 9} (h : (w.extractLsb' 3 6 == c.extractLsb' 3 6) = false) :
    (w.extractLsb' 0 9 == c) = false := by
  rw [beq_eq_false_iff_ne] at h ⊢
  rintro rfl
  exact h (BitVec.extractLsb'_extractLsb'_of_le (by decide)).symm

/-! ### The word of an instruction decodes to it -/

/-- Loads, stores and atomics: the S-syllables that access memory by address (08, 09 R302). -/
def isAccess : Instr → Bool
  | .ldN8 .. | .ldN16 .. | .ldN32 .. | .ld64 .. | .ldS8 .. | .ldS16 .. | .ldS32 .. | .vld .. | .st8 .. | .st16 .. | .st32 ..
  | .st64 .. | .vst .. | .ldAcq32 .. | .ldAcq64 .. | .stRel32 .. | .stRel64 .. | .ldfe .. | .stef .. | .ldPw .. | .vlds ..
  | .vldx .. | .amoAdd .. | .amoAnd .. | .amoOr .. | .amoXor .. | .amoMin .. | .amoMax .. | .amoMinu .. | .amoMaxu ..
  | .amoSwap .. | .amoCas .. | .amoFaddF32 .. | .amoInclt .. => true
  | _ => false

theorem decodeRawS_lea (d a : BitVec 5) (t : BitVec 1) (b : BitVec 5) (u : BitVec 1) (k : BitVec 3) :
    decodeRawS (0#6 ++ d ++ a ++ t ++ b ++ u ++ 2#6 ++ k) = some (.lea d a t b u k) := by
  simp only [funct_beq_eq_false, decodeRawS, BitVec.extractLsb'_append_eq_of_add_le, BitVec.extractLsb'_append_eq_of_le,
    Nat.reduceLeDiff, Nat.reduceSub, BitVec.extractLsb'_eq_self, BitVec.reduceToNat, BitVec.reduceExtractLsb',
    BitVec.reduceBEq, ↓reduceIte, Bool.false_eq_true]

theorem decodeRawS_of_encodeS_register {i : Instr} {w : BitVec 32} (hi : registerOnly i = true) (h : encodeS i = some w) :
    decodeRawS w = some i := by
  cases i <;> cases h <;> cases hi
  case lea.refl.refl d a t b u k => exact decodeRawS_lea d a t b u k
  all_goals
    simp only [decodeRawS, BitVec.extractLsb'_append_eq_of_add_le, BitVec.extractLsb'_append_eq_of_le, extract_append_beq,
      Nat.reduceLeDiff, Nat.reduceSub, BitVec.extractLsb'_eq_self, BitVec.reduceToNat, BitVec.reduceExtractLsb',
      BitVec.reduceBEq, ↓reduceIte, Bool.false_eq_true, Bool.and_false]

theorem decodeRawS_of_encodeS_access {i : Instr} {w : BitVec 32} (hi : isAccess i = true) (h : encodeS i = some w) :
    decodeRawS w = some i := by
  cases i <;> cases h <;> cases hi <;>
    simp only [decodeRawS, BitVec.extractLsb'_append_eq_of_add_le, BitVec.extractLsb'_append_eq_of_le,
      Nat.reduceLeDiff, Nat.reduceSub, BitVec.extractLsb'_eq_self, BitVec.reduceToNat,
      BitVec.reduceBEq, ↓reduceIte, Bool.false_eq_true, Bool.false_and, Bool.and_self]

theorem decodeRawS_of_encodeS_other {i : Instr} {w : BitVec 32} (hr : registerOnly i = false) (ha : isAccess i = false)
    (h : encodeS i = some w) : decodeRawS w = some i := by
  cases i <;> cases h <;> cases hr <;> cases ha <;>
    simp only [decodeRawS, BitVec.extractLsb'_append_eq_of_add_le, BitVec.extractLsb'_append_eq_of_le, extract_append_beq,
      Nat.reduceLeDiff, Nat.reduceSub, BitVec.extractLsb'_eq_self, BitVec.reduceToNat, BitVec.reduceExtractLsb',
      BitVec.reduceBEq, ↓reduceIte, Bool.false_eq_true, Bool.and_false, Bool.false_and, Bool.and_self, beq_self_eq_true]

theorem decodeRawS_of_encodeS {i : Instr} {w : BitVec 32} (h : encodeS i = some w) : decodeRawS w = some i := by
  cases hr : registerOnly i
  · cases ha : isAccess i
    · exact decodeRawS_of_encodeS_other hr ha h
    · exact decodeRawS_of_encodeS_access ha h
  · exact decodeRawS_of_encodeS_register hr h

theorem decodeRawV_of_encodeV {i : Instr} {w : BitVec 32} (h : encodeV i = some w) : decodeRawV w = some i := by
  cases i <;> cases h
  case vcvt.refl r d a t g s o =>
    have hr : r = 0#2 ∨ r = 1#2 ∨ r = 2#2 ∨ r = 3#2 := by revert r; decide
    rcases hr with rfl | rfl | rfl | rfl <;>
      simp only [BitVec.reduceAppend, decodeRawV, BitVec.extractLsb'_append_eq_of_add_le,
        BitVec.extractLsb'_append_eq_of_le, Nat.reduceLeDiff, Nat.reduceSub, BitVec.extractLsb'_eq_self,
        BitVec.reduceToNat, BitVec.reduceExtractLsb']
  all_goals
    simp only [decodeRawV, BitVec.extractLsb'_append_eq_of_add_le, BitVec.extractLsb'_append_eq_of_le, extract_append_beq,
      Nat.reduceLeDiff, Nat.reduceSub, BitVec.extractLsb'_eq_self, BitVec.reduceToNat, BitVec.reduceExtractLsb',
      BitVec.reduceBEq, ↓reduceIte, Bool.false_eq_true, Bool.and_false, Bool.and_self]

theorem decodeRawQ_of_encodeFilter {i : Instr} {w : BitVec 32} (h : encodeFilter i = some w) : decodeRawQ w = some i := by
  cases i <;> cases h <;>
    simp only [decodeRawQ, BitVec.extractLsb'_append_eq_of_add_le, BitVec.extractLsb'_append_eq_of_le,
      Nat.reduceLeDiff, Nat.reduceSub, BitVec.extractLsb'_eq_self, BitVec.reduceToNat, BitVec.reduceExtractLsb',
      BitVec.reduceBEq, ↓reduceIte, Bool.and_self]

/-! ### A word that decodes is the word of its instruction

Every test on the way to an instruction fixes one field of the word; the others are the instruction's operands. So the word is
put together field by field, and its constant fields are the values of the tests. -/

theorem encodeS_of_decodeRawS {i : Instr} {w : BitVec 32} (h : decodeRawS w = some i) : encodeS i = some w := by
  unfold decodeRawS at h
  split at h
  all_goals
    rename_i hmajor
    repeat' (rw [ite_some_eq_some_iff] at h; obtain ⟨hfields, rfl⟩ | ⟨-, h⟩ := h)
  all_goals try cases h
  all_goals
    refine congrArg some (Eq.trans ?_ w.extractLsb'_eq_self)
    repeat' apply append_eq_extract
  all_goals try rfl
  all_goals
    rw [ofNat_eq_extract_iff]
    simp only [BitVec.extractLsb'_toNat, Nat.shiftRight_eq_div_pow, Bool.and_eq_true, extract_beq_iff, BitVec.toNat_ofNat,
      BitVec.ofNat_eq_ofNat, Nat.pow_zero, Nat.div_one] at *
    omega

theorem encodeV_of_decodeRawV {i : Instr} {w : BitVec 32} (h : decodeRawV w = some i) : encodeV i = some w := by
  unfold decodeRawV at h
  split at h
  all_goals
    rename_i hmajor
    repeat' (rw [ite_some_eq_some_iff] at h; obtain ⟨hfields, rfl⟩ | ⟨-, h⟩ := h)
  all_goals try cases h
  all_goals
    refine congrArg some (Eq.trans ?_ w.extractLsb'_eq_self)
    repeat' apply append_eq_extract
  all_goals try rfl
  all_goals
    rw [ofNat_eq_extract_iff]
    simp only [BitVec.extractLsb'_toNat, Nat.shiftRight_eq_div_pow, Bool.and_eq_true, extract_beq_iff, BitVec.toNat_ofNat,
      BitVec.ofNat_eq_ofNat, Nat.pow_zero, Nat.div_one] at *
    omega

theorem encodeFilter_of_decodeRawQ {i : Instr} {w : BitVec 32} (h : decodeRawQ w = some i) : encodeFilter i = some w := by
  unfold decodeRawQ at h
  split at h
  all_goals
    rename_i hmajor
    repeat' (rw [ite_some_eq_some_iff] at h; obtain ⟨hfields, rfl⟩ | ⟨-, h⟩ := h)
  all_goals try cases h
  all_goals
    refine congrArg some (Eq.trans ?_ w.extractLsb'_eq_self)
    repeat' apply append_eq_extract
  all_goals try rfl
  all_goals
    rw [ofNat_eq_extract_iff]
    simp only [BitVec.extractLsb'_toNat, Nat.shiftRight_eq_div_pow, Bool.and_eq_true, extract_beq_iff, BitVec.toNat_ofNat,
      BitVec.ofNat_eq_ofNat, Nat.pow_zero, Nat.div_one] at *
    omega

/-! ### Bundles -/

theorem major_lt_of_decodeRawS {i : Instr} {w : BitVec 32} (h : decodeRawS w = some i) :
    (w.extractLsb' 26 6).toNat < 0x38 := by
  unfold decodeRawS at h
  split at h
  case h_50 => cases h
  all_goals omega

theorem decodeS_of_encodeS {i : Instr} {w : BitVec 32} (hi : i.wf = true) (h : encodeS i = some w) : decodeS w = some i :=
  checked_eq_some_iff.2 ⟨decodeRawS_of_encodeS h, hi⟩

theorem decodeV_of_encodeV {i : Instr} {w : BitVec 32} (hi : i.wf = true) (h : encodeV i = some w) : decodeV w = some i :=
  checked_eq_some_iff.2 ⟨decodeRawV_of_encodeV h, hi⟩

theorem decodeFilter_of_encodeFilter {i : Instr} {w : BitVec 32} (hi : i.wf = true) (h : encodeFilter i = some w) :
    decodeFilter w = some i :=
  checked_eq_some_iff.2 ⟨decodeRawQ_of_encodeFilter h, hi⟩

theorem encodeS_of_decodeS {i : Instr} {w : BitVec 32} (h : decodeS w = some i) : i.wf = true ∧ encodeS i = some w :=
  ⟨(checked_eq_some_iff.1 h).2, encodeS_of_decodeRawS (checked_eq_some_iff.1 h).1⟩

theorem encodeV_of_decodeV {i : Instr} {w : BitVec 32} (h : decodeV w = some i) : i.wf = true ∧ encodeV i = some w :=
  ⟨(checked_eq_some_iff.1 h).2, encodeV_of_decodeRawV (checked_eq_some_iff.1 h).1⟩

theorem encodeFilter_of_decodeFilter {i : Instr} {w : BitVec 32} (h : decodeFilter w = some i) :
    i.wf = true ∧ encodeFilter i = some w :=
  ⟨(checked_eq_some_iff.1 h).2, encodeFilter_of_decodeRawQ (checked_eq_some_iff.1 h).1⟩

theorem decodeBundle_pair {i j : Instr} {v w : BitVec 32} (hi : decodeS v = some i) (hj : decodeV w = some j) :
    decodeBundle (v ++ w) = .ok (.pair i j) := by
  have hmajor := Nat.not_le.2 (major_lt_of_decodeRawS (checked_eq_some_iff.1 hi).1)
  simp only [decodeBundle, BitVec.extractLsb'_append_eq_left, BitVec.extractLsb'_append_eq_right, hmajor, if_false, hi,
    hj]

theorem decodeBundle_long {i : Instr} {v w : BitVec 32} (hmajor : 0x38 ≤ (v.extractLsb' 26 6).toNat)
    (h : decodeLong v w = .ok i) : decodeBundle (v ++ w) = .ok (.long i) := by
  simp only [decodeBundle, BitVec.extractLsb'_append_eq_left, BitVec.extractLsb'_append_eq_right, hmajor, if_true, h]

theorem decodeBundle_eq_long {b : BitVec 64} {i : Instr} (h : decodeBundle b = .ok (.long i)) :
    decodeLong (b.extractLsb' 32 32) (b.extractLsb' 0 32) = .ok i := by
  unfold decodeBundle at h
  dsimp only at h
  split at h
  · split at h
    next hl => cases h; exact hl
    next => cases h
  · split at h
    · cases h
    · split at h <;> cases h

theorem decodeBundle_of_encodeLong {i : Instr} {p : BitVec 32 × BitVec 32} (hi : i.wf = true) (h : encodeLong i = some p) :
    decodeBundle (p.1 ++ p.2) = .ok (.long i) := by
  cases i <;> cases h
  case lim.refl d z =>
    refine decodeBundle_long ?_ ?_
    · simp only [BitVec.extractLsb'_append_eq_of_le, Nat.reduceLeDiff, Nat.reduceSub]; decide
    · simp only [decodeLong, BitVec.extractLsb'_append_eq_of_add_le, BitVec.extractLsb'_append_eq_of_le, Nat.reduceLeDiff,
      Nat.reduceSub, BitVec.extractLsb'_eq_self, BitVec.reduceToNat]
      exact congrArg (fun x => Except.ok (Instr.lim d x)) (BitVec.extractLsb'_append_extractLsb' (w := 16) (len := 32))
  case call.refl d o =>
    refine decodeBundle_long ?_ ?_
    · simp only [BitVec.extractLsb'_append_eq_of_le, Nat.reduceLeDiff, Nat.reduceSub]; decide
    · simp only [decodeLong, BitVec.extractLsb'_append_eq_of_add_le, BitVec.extractLsb'_append_eq_of_le, Nat.reduceLeDiff,
      Nat.reduceSub, BitVec.extractLsb'_eq_self, BitVec.reduceToNat]
      rfl
  case vcvtScaled.refl k r d a t g s o =>
    have hv : decodeV (8#4 ++ r ++ d ++ a ++ t ++ g ++ s ++ o) = some (.vcvt r d a t g s o) := decodeV_of_encodeV hi rfl
    refine decodeBundle_long ?_ ?_
    · simp only [BitVec.extractLsb'_append_eq_of_le, Nat.reduceLeDiff, Nat.reduceSub]; decide
    · simp only [decodeLong, BitVec.extractLsb'_append_eq_of_add_le, BitVec.extractLsb'_append_eq_of_le, Nat.reduceLeDiff,
      Nat.reduceSub, BitVec.extractLsb'_eq_self, BitVec.reduceToNat, hv]
      rfl
  case spawn.refl b a t h l o =>
    refine decodeBundle_long ?_ ?_
    · simp only [BitVec.extractLsb'_append_eq_of_le, Nat.reduceLeDiff, Nat.reduceSub]; decide
    · simp only [decodeLong, BitVec.extractLsb'_append_eq_of_add_le, BitVec.extractLsb'_append_eq_of_le, Nat.reduceLeDiff,
      Nat.reduceSub, BitVec.extractLsb'_eq_self, BitVec.reduceToNat]
      exact if_pos ((Bool.true_and _).trans hi)

/-- A field with a known value is that constant. -/
theorem const_eq_extract {k n : Nat} {w : BitVec 32} {c : BitVec n} (h : (w.extractLsb' k n).toNat = c.toNat) :
    c = w.extractLsb' k n := (BitVec.eq_of_toNat_eq h).symm

theorem encodeLong_of_decodeLong {i : Instr} {v w : BitVec 32} (h : decodeLong v w = .ok i) :
    i.wf = true ∧ encodeLong i = some (v, w) := by
  unfold decodeLong at h
  split at h
  next hmajor =>
    split at h <;> cases h
    next hzero =>
      refine ⟨rfl, congrArg some (Prod.ext (Eq.trans ?_ v.extractLsb'_eq_self) BitVec.extractLsb'_append_eq_right)⟩
      apply append_eq_extract
      · repeat' apply append_eq_extract
        · exact const_eq_extract hmajor
        · rfl
        · exact (eq_of_beq hzero).symm
      · exact BitVec.extractLsb'_append_eq_left
  next hmajor =>
    split at h <;> cases h
    next hzero =>
      refine ⟨rfl, congrArg some (Prod.ext (Eq.trans ?_ v.extractLsb'_eq_self) rfl)⟩
      repeat' apply append_eq_extract
      · exact const_eq_extract hmajor
      · rfl
      · exact (eq_of_beq hzero).symm
  next hmajor =>
    split at h
    next hzero =>
      split at h <;> cases h
      next r d a t g y o hv =>
        obtain ⟨hi, he⟩ := encodeV_of_decodeV hv
        refine ⟨hi, congrArg some (Prod.ext (Eq.trans ?_ v.extractLsb'_eq_self) (Option.some.inj he))⟩
        repeat' apply append_eq_extract
        · exact const_eq_extract hmajor
        · rfl
        · exact (eq_of_beq hzero).symm
    next => cases h
  next hmajor =>
    split at h <;> cases h
    next hfields =>
      obtain ⟨hzero, htarget⟩ := (Bool.and_eq_true _ _).mp hfields
      refine ⟨htarget, congrArg some (Prod.ext (Eq.trans ?_ v.extractLsb'_eq_self) rfl)⟩
      repeat' apply append_eq_extract
      · exact const_eq_extract hmajor
      any_goals rfl
      exact (eq_of_beq hzero).symm
  next => cases h

theorem encode_isSome {i : Instr} (h : isSyllable i = true) : encode i ≠ none := by
  cases i <;> cases h <;> exact Option.some_ne_none _

theorem encodeFilter_isSome {i : Instr} (h : isFilter i = true) : encodeFilter i ≠ none := by
  cases i <;> cases h <;> exact Option.some_ne_none _

/-- Settles O58: the two directions for the words of each kind, and bundles by their two syllables. -/
theorem decodeEncode : Obligations.DecodeEncode :=
  ⟨fun _ => ⟨encode_isSome, encodeFilter_isSome⟩,
    fun _ hi => ⟨fun _ => decodeS_of_encodeS hi, fun _ => decodeV_of_encodeV hi, fun _ => decodeFilter_of_encodeFilter hi,
      fun _ => decodeBundle_of_encodeLong hi,
      fun _ _ _ hj hv hw => decodeBundle_pair (decodeS_of_encodeS hi hv) (decodeV_of_encodeV hj hw)⟩,
    fun _ _ => ⟨encodeS_of_decodeS, encodeV_of_decodeV, encodeFilter_of_decodeFilter⟩,
    fun b i h => by
      obtain ⟨hi, he⟩ := encodeLong_of_decodeLong (decodeBundle_eq_long h)
      exact ⟨hi, _, he, (BitVec.extractLsb'_append_extractLsb' (w := 32) (len := 32)).symm⟩⟩
end Sys2Proof.Machine

section
open Sys2Proof Sys2Proof.Machine
namespace Sys2Proof.Machine

/-! ### O59: a saved slot whose cells do not rise -/

/-- What is kept aside of a saved launch's slot, two cells of falling keys: nothing in `Canonical` speaks of it. -/
def fallingShadow : Shadow :=
  { lid := 0, quad := 32, no := 0, ctxs := [], cores := [], fret := {}, agelimit := 0, cmbwait := 0,
    matrix := ⟨[], [], [], []⟩, eng := [], locks := [], recon := {}, turn := none, turnSaves := [], inbox := [],
    pend := [], slot := some [(1, 1), (0, 1)] }

/-- A saved launch that has work to do. -/
def savedLaunch : Launch :=
  { queue := 0, handle := 0, state := .running, part := 0, xctx := 0, prio := 0, rsv := false, order := 0,
    ladder := .saved }

/-- The granules below `n` are luthier's. -/
def luthierGranules (n : Nat) : FMap (BitVec 16) := (List.range n).map fun k => (k, 0xC000)

/-- A package with a partition, its save area, and one saved launch, about to be restored. -/
noncomputable def fallingState (n : Nat) (m : List Host.Cell) : State :=
  { launches := [(0, some savedLaunch)], mem := m
    hub := { part := [(0, 1)], own := luthierGranules n, saved := [fallingShadow] } }

theorem get_map_key {α : Type} (d x : α) {l : List Nat} {k : Nat} (h : k ∈ l) :
    get d (l.map fun j => (j, x)) k = x := by
  induction l with
  | nil => exact absurd h List.not_mem_nil
  | cons j l ih =>
    by_cases hj : k = j
    · simp [get, hj]
    · simpa [get, hj] using ih ((List.mem_cons.1 h).resolve_left hj)

theorem fallingState_slotPa (n : Nat) (m : List Host.Cell) (q : Nat) :
    (fallingState n m).slotPa 0 q = 2 ^ 21 * (((fallingState n m).partQuadNo 0 q).getD 0) := by
  have h : (get 0 (fallingState n m).hub.psave 0).toNat / 2 ^ 21 % 2 ^ 20 * 2 ^ 21 = 0 := by
    simp [fallingState, get]
  rw [State.slotPa, h, Nat.zero_add]

theorem length_partQuads_le (s : State) (n : Nat) : (s.partQuads n).length ≤ 960 := by
  have h (d : Nat) : (((List.range 240).map (physicalOf s d)).filter (s.quadInPart n)).length ≤ 240 := by
    refine Nat.le_trans (List.length_filter_le ..) (Nat.le_of_eq ?_)
    rw [List.length_map, List.length_range]
  have h4 : List.range 4 = [0, 1, 2, 3] := rfl
  rw [State.partQuads, h4]
  simp only [List.flatMap_cons, List.flatMap_nil, List.length_append, List.length_nil]
  have := h 0; have := h 1; have := h 2; have := h 3
  omega

theorem partQuadNo_getD_lt (s : State) (n q : Nat) : (s.partQuadNo n q).getD 0 < 960 := by
  cases h : s.partQuadNo n q with
  | none => exact (by decide : (0 : Nat) < 960)
  | some k => exact Nat.lt_of_lt_of_le (List.findIdx?_eq_some_iff_findIdx_eq.1 h).1 (length_partQuads_le s n)

theorem get_luthierGranules {n k : Nat} (h : k < n) : get 0 (luthierGranules n) k = 0xC000 :=
  get_map_key _ _ (List.mem_range.2 h)

theorem fallingState_slotOwned {n i : Nat} (m : List Host.Cell) (hi : 32 * i + 32 ≤ n) (hi' : i < 960) :
    (fallingState n m).slotOwned (2 ^ 21 * i) = true := by
  rw [State.slotOwned, List.all_eq_true]
  intro k hk
  have hk : k < 32 := List.mem_range.1 hk
  have hg : get (0 : BitVec 16) (fallingState n m).hub.own (2 ^ 21 * i / 65536 + k) = 0xC000 :=
    get_luthierGranules (by omega)
  have hp : paExists (2 ^ 21 * i + 65536 * k) = true := by
    unfold paExists
    simp only [Bool.and_eq_true, Bool.or_eq_true, decide_eq_true_eq]
    omega
  rw [hg, hp]
  decide

theorem fallingState_badSlot {n : Nat} (hn : 30720 ≤ n) (m : List Host.Cell) : (fallingState n m).badSlot 0 = none := by
  rw [State.badSlot, List.find?_eq_none]
  intro pa hpa
  obtain ⟨q, -, rfl⟩ := List.mem_map.1 hpa
  have hlt := partQuadNo_getD_lt (fallingState n m) 0 q
  rw [fallingState_slotPa, fallingState_slotOwned m (by omega) hlt]
  decide

theorem fallingState_keepSlot (n : Nat) (m : List Host.Cell) (q : Nat) : (fallingState n m).keepSlot 0 0 q = fallingState n m := rfl

theorem fallingState_slotBack (n : Nat) (m : List Host.Cell) {q : Nat} (hq : (fallingState n m).partQuadNo 0 q = some 0) :
    (fallingState n m).slotBack 0 q fallingShadow = fallingState n (Memory.splice m 0 (2 ^ 21) [(1, 1), (0, 1)]) := by
  have h : (fallingState n m).slotPa 0 q = 0 := by rw [fallingState_slotPa, hq]; rfl
  simp only [State.slotBack, h]
  rfl

theorem fallingState_bringSlot_first (n : Nat) (m : List Host.Cell) {q : Nat} (hq : (fallingState n m).partQuadNo 0 q = some 0) :
    (fallingState n m).bringSlot 0 0 q = fallingState n (Memory.splice m 0 (2 ^ 21) [(1, 1), (0, 1)]) := by
  have hf : ((fallingState n m).hub.saved.find? fun x => x.lid = 0 && some x.no = (fallingState n m).partQuadNo 0 q) =
      some fallingShadow := by
    rw [hq]; rfl
  rw [State.bringSlot, hf]
  exact (congrArg (·.slotBack 0 q fallingShadow) (fallingState_keepSlot n m q)).trans (fallingState_slotBack n m hq)

theorem fallingState_bringSlot_other (n : Nat) (m : List Host.Cell) {q : Nat} (hq : (fallingState n m).partQuadNo 0 q ≠ some 0) :
    (fallingState n m).bringSlot 0 0 q = fallingState n m := by
  have hf : ((fallingState n m).hub.saved.find? fun x => x.lid = 0 && some x.no = (fallingState n m).partQuadNo 0 q) =
      none := by
    refine List.find?_eq_none.2 fun x hx => ?_
    obtain rfl := List.mem_singleton.1 hx
    intro h
    exact hq (of_decide_eq_true (Bool.and_eq_true_iff.1 h).2).symm
  rw [State.bringSlot, hf]

/-- The cells of the shadow, as they stand in memory once they are back. -/
def fallingCells : List Host.Cell := [(1, 1), (0, 1)]

theorem fallingCells_not_wf : Memory.wf fallingCells = false := by decide

theorem bringSlots_fallingCells (n : Nat) (l : List Nat) :
    l.foldl (fun s q => s.bringSlot 0 0 q) (fallingState n fallingCells) = fallingState n fallingCells := by
  induction l with
  | nil => rfl
  | cons q l ih =>
    have hq : (fallingState n fallingCells).bringSlot 0 0 q = fallingState n fallingCells := by
      by_cases hq : (fallingState n fallingCells).partQuadNo 0 q = some 0
      · exact fallingState_bringSlot_first _ _ hq
      · exact fallingState_bringSlot_other _ _ hq
    rw [List.foldl_cons, hq, ih]

/-- The partition holds quad 32, the first of die C0 at its port. -/
theorem mem_partQuads_fallingState (n : Nat) : 32 ∈ (fallingState n []).partQuads 0 := by
  have hp : physicalOf (fallingState n []) 0 0 = 32 := rfl
  have hin : (fallingState n []).quadInPart 0 32 = true := by
    have hl : (logicalOf (fallingState n []) 32).isSome = true := rfl
    have hr : get 0 (fallingState n []).hub.part 0 = 1 := rfl
    rw [State.quadInPart, hl, hr]
    decide
  refine List.mem_flatMap.2 ⟨0, by decide, List.mem_filter.2 ⟨List.mem_map.2 ⟨0, by decide, hp⟩, hin⟩⟩

theorem bringSlots_fallingState (n : Nat) : ((fallingState n []).partQuads 0).foldl (fun s q => s.bringSlot 0 0 q) (fallingState n []) =
    fallingState n fallingCells := by
  cases h : (fallingState n []).partQuads 0 with
  | nil => exact absurd (h ▸ mem_partQuads_fallingState n) List.not_mem_nil
  | cons q l =>
    have hq : (fallingState n []).partQuadNo 0 q = some 0 := by simp [State.partQuadNo, h, List.findIdx?_cons]
    rw [List.foldl_cons, fallingState_bringSlot_first n [] hq]
    exact bringSlots_fallingCells n l

/-- The restore that begins puts the cells into memory as they stand. -/
theorem preemptRestore_fallingState {n : Nat} (hn : 30720 ≤ n) : (fallingState n []).preemptRestore 0 =
    (((fallingState n fallingCells).modHub fun h => { h with
      saved := [{ fallingShadow with slot := none, left := slotLines }] }).modLaunch 0 fun l =>
        { l with holding := true, reading := true }) := by
  have hr : (fallingState n []).makeRoom 0 savedLaunch = (fallingState n [], true) := rfl
  have hl : (fallingState n []).launch 0 = some savedLaunch := rfl
  have hc : ((fallingState n []).hub.fw.running && savedLaunch.ladder = .saved && savedLaunch.waiting &&
    (fallingState n []).firstInLine 0 savedLaunch) = true := rfl
  rw [State.preemptRestore]
  simp only [hl, hc, hr, if_true]
  rw [show savedLaunch.part = 0 from rfl, fallingState_badSlot hn]
  simp only [State.beginRestore]
  rw [show savedLaunch.part = 0 from rfl, bringSlots_fallingState]
  rfl

theorem mem_watched (s t : State) : (s.watched t).mem = t.mem := by
  rw [State.watched]
  refine List.foldlRecOn (motive := fun u : State => u.mem = t.mem) _ _ rfl fun u hu n _ => ?_
  split
  · exact hu
  · exact hu

theorem step_fallingState (n : Nat) : step { fallingState n [] with turns := [.event (.preemptRestore 0)] } =
    .next (({ fallingState n [] with turns := [.event (.preemptRestore 0)] } : State).watched
      ((fallingState n []).preemptRestore 0).settled) := rfl

/-- Refutes O59: the saved cells of a launch's slot are put into memory as they stand, and `Canonical` says nothing of
them; where their keys do not rise, memory is no longer canonical. -/
theorem not_stepKeepsCanonical : ¬ Obligations.StepKeepsCanonical := by
  unfold Obligations.StepKeepsCanonical
  intro h
  have hm := (h _ _ ⟨rfl, rfl, rfl, rfl, rfl⟩ (step_fallingState 30720)).mem
  rw [mem_watched, preemptRestore_fallingState (Nat.le_refl _)] at hm
  exact absurd (fallingCells_not_wf.symm.trans hm) (by decide)

end Sys2Proof.Machine
end

/-! SUPPORT. Branches, calls and returns, the loop-nest sequencer and control registers (06 R190-R205). -/

namespace Sys2Proof.Machine

/-! ### Branches (06 R190) -/

section
variable {s : State} {i : Instr} {cond : Word → Word → Bool} {a b : BitVec 5} {o : BitVec 14} {p : Prop} [Decidable p]

theorem branchIf_advance (s : State) (i : Instr) (cond : Word → Word → Bool) (a b : BitVec 5) (o : BitVec 14) :
    branchIf cond a b o (s.advance i) = if cond (s.S a) (s.S b) then
      (s.advance i).goto ((s.ctx s.cur).pc + BitVec.ofInt 64 (8 * o.toInt)) else s.advance i := by
  rw [branchIf, advance_S, advance_S, advance_target]

/-- A branch whose condition is `p`. -/
theorem does_branch (he : exec i s = issue i (branchIf cond a b o) s) (hp : cond (s.S a) (s.S b) = decide p) :
    Does s i fun r => if p then r.goto ((s.ctx s.cur).pc + BitVec.ofInt 64 (8 * o.toInt)) else r :=
  issue_spec he (by rw [branchIf_advance, hp]; simp only [decide_eq_true_eq])

/-- A branch whose condition is that `p` does not hold. -/
theorem does_branch_not (he : exec i s = issue i (branchIf cond a b o) s) (hp : cond (s.S a) (s.S b) = !decide p) :
    Does s i fun r => if p then r else r.goto ((s.ctx s.cur).pc + BitVec.ofInt 64 (8 * o.toInt)) :=
  issue_spec he (by rw [branchIf_advance, hp]; by_cases h : p <;> simp [h])

end

/-- Settles O5: each branch by its condition. -/
theorem branches : Obligations.Branches := by
  rintro s a b t u o _ rfl
  exact ⟨does_branch (exec_beq a t b u o s) rfl, does_branch (exec_bne a t b u o s) rfl,
    does_branch (exec_blt a t b u o s) rfl, does_branch_not (exec_bge a t b u o s)
      (by rw [← decide_not]; exact decide_eq_decide.2 Int.not_lt.symm),
    does_branch (exec_bltn a t b u o s) rfl, does_branch_not (exec_bgen a t b u o s)
      (by rw [← decide_not]; exact decide_eq_decide.2 Nat.not_lt.symm)⟩

/-! ### Calls and returns (06 R191, R200) -/

theorem misaligned_eq_go {x : Word} {t : Word} (h : (if x.toNat % 8 ≠ 0 then trapS cMISALIGN t else .go) = Verdict.go) :
    x.toNat % 8 = 0 := by
  refine Decidable.byContradiction fun hx => ?_
  rw [if_pos hx] at h
  exact Verdict.noConfusion h

theorem issues_jr_aligned {s : State} {a : BitVec 5} {t : BitVec 1} (h : Issues s (.jr a t)) : (s.S a).toNat % 8 = 0 :=
  misaligned_eq_go (own_go (i := .jr a t) rfl h.2)

theorem issues_callr_aligned {s : State} {d a : BitVec 5} {t : BitVec 1} (h : Issues s (.callr d a t)) :
    (s.S a).toNat % 8 = 0 :=
  misaligned_eq_go (own_go (i := .callr d a t) rfl h.2)

theorem noteRetire_cur (s : State) (lid : Option Nat) : (s.noteRetire lid).cur = s.cur := by
  unfold State.noteRetire
  split
  · cases lid <;> simp
  · rfl

theorem retireNow_status (s : State) : (s.retireNow.ctx s.cur).status = .retiring := by
  have h : s.retireNow.ctx s.cur = ((s.noteRetire (s.ctx s.cur).lid).modCtx s.cur fun c => { c with
      status := .retiring }).ctx s.cur := rfl
  rw [h, modCtx_ctx_ne _ _ _ (ctx_ne_of_status (by simp))]

theorem S_fifteen {s : State} (h : s.latch = none) : s.S 15 = (s.ctx s.cur).sreg 15 := by
  simp [State.S, Ctx.winOf, State.atIssue, h]

theorem does_ret (s : State) :
    Does s .ret fun r => if (s.ctx s.cur).stub = some (s.S 15) then r.retireNow else r.goto (s.S 15) := fun h =>
  issue_spec (exec_ret s) (by
    have hstub : ((s.advance .ret).ctx s.cur).stub = (s.ctx s.cur).stub := by rw [advance_ctx]
    simp only [advance_cur, advance_S, hstub, advance_sreg, S_fifteen h.1]) h

/-- Settles O6: calls and jumps by what each links and where it goes, the alignment by their own checks. -/
theorem callsAndReturns : Obligations.CallsAndReturns := fun s d a t o =>
  ⟨issueD_spec (exec_call d o s) (by rw [advance_PC]) (by simp only [advance_PC, advance_target]),
    issue_spec (exec_jr a t s) (by rw [advance_S]),
    issueD_spec (exec_callr d a t s) (by rw [advance_PC]) (by simp only [advance_PC, advance_S]),
    fun h => h.elim issues_jr_aligned issues_callr_aligned, does_ret s,
    issue_spec (exec_retire s) rfl, retireNow_status s⟩

/-! ### The loop-nest sequencer (06 R195) -/

theorem advance_lpIdx (s : State) (i : Instr) : ((s.advance i).ctx s.cur).lpIdx = (s.ctx s.cur).lpIdx := by rw [advance_ctx]

theorem advance_lpTrip (s : State) (i : Instr) : ((s.advance i).ctx s.cur).lpTrip = (s.ctx s.cur).lpTrip := by rw [advance_ctx]

theorem advance_lpAddr (s : State) (i : Instr) (l : Nat) : ((s.advance i).ctx s.cur).lpAddr l = (s.ctx s.cur).lpAddr l := by
  rw [advance_ctx]; rfl

/-- The levels inside level `l` add nothing. -/
theorem lpAddr_eq (c : Ctx) (l : Nat) (step : Nat → Word)
    (h : ∀ j, step j = if j < l then 0 else get 0 c.lpIdx j * get 0 c.lpStride j) :
    c.lpAddr l = c.lpBase + step 0 + step 1 + step 2 + step 3 := by
  have hstep (a : Word) (j : Nat) :
      (if decide (l ≤ j) = true then a + get 0 c.lpIdx j * get 0 c.lpStride j else a) = a + step j := by
    rw [h j]
    by_cases hj : j < l
    · simp [hj, Nat.not_le.2 hj]
    · simp [hj, Nat.not_lt.1 hj]
  have hlevels : List.range 4 = [0, 1, 2, 3] := rfl
  simp only [Ctx.lpAddr, List.foldl_filter, hstep, hlevels, List.foldl_cons, List.foldl_nil]

theorem does_lpset (s : State) (a : BitVec 5) (t : BitVec 1) (word : Nat → Word)
    (h : ∀ k, word k = BitVec.ofNat 64 (s.localRead (coreOf s.cur) ((s.S a).toNat % 2 ^ 20 + k) 8)) :
    Does s (.lpset a t) fun r => (r.modCtx s.cur fun c => { c with
      lpBase := word 0
      lpTrip := put 0 (put 0 (put 0 (put 0 [] 0 (word 8)) 1 (word 24)) 2 (word 40)) 3 (word 56)
      lpStride := put 0 (put 0 (put 0 (put 0 [] 0 (word 16)) 1 (word 32)) 2 (word 48)) 3 (word 64)
      lpIdx := [] }).evc (coreOf s.cur) 11 := by
  have hlevels : List.range 4 = [0, 1, 2, 3] := rfl
  refine issue_spec (exec_lpset a t s) ?_
  simp only [advance_cur, advance_S, advance_localRead, ← h, hlevels, List.foldl_cons, List.foldl_nil]

theorem does_lpnext (s : State) (l : BitVec 2) (o : BitVec 14) : Does s (.lpnext l o) fun r =>
    if (get 0 (s.ctx s.cur).lpIdx l.toNat).toNat < (get 0 (s.ctx s.cur).lpTrip l.toNat).toNat then
      (r.modCtx s.cur fun c => { c with
        lpIdx := put 0 c.lpIdx l.toNat (get 0 (s.ctx s.cur).lpIdx l.toNat + 1) }).goto
          ((s.ctx s.cur).pc + BitVec.ofInt 64 (8 * o.toInt))
    else r.modCtx s.cur fun c => { c with lpIdx := put 0 c.lpIdx l.toNat 0 } :=
  issue_spec (exec_lpnext l o s) (by simp only [advance_cur, advance_lpIdx, advance_lpTrip, advance_target])

/-- Settles O7: the record's words by what `lpset` reads, the address level by level, `lpnext` by its comparison. -/
theorem loopNest : Obligations.LoopNest := fun s d a t l o word step hword hstep =>
  ⟨does_lpset s a t word hword,
    issueS_spec (exec_lpidx d l s) (by rw [advance_cur, advance_lpIdx]),
    issueS_spec (exec_lpaddr d l s) (by rw [advance_cur, advance_lpAddr, lpAddr_eq _ _ step hstep]),
    fun hlt => by simpa only [if_pos hlt] using does_lpnext s l o,
    fun hge => by simpa only [if_neg hge] using does_lpnext s l o⟩

/-! ### Control registers (06 R204, R205) -/

theorem illegal_ctlr {s : State} {d : BitVec 5} {i : BitVec 12} (h : ctlWriteLevel i.toNat = none) :
    s.illegal (.ctlr d i) = some 0 := by
  have hwf : (Instr.ctlr d i).wf = true := rfl
  have hlevel : levelOf (.ctlr d i) = 0 := rfl
  unfold State.illegal
  simp [hwf, hlevel, h]

theorem illegal_ctlw (s : State) (a : BitVec 5) (t : BitVec 1) (i : BitVec 12) : s.illegal (.ctlw a t i) =
    if windowMisuse (s.ctx s.cur) (.ctlw a t i) then some 0 else match ctlWriteLevel i.toNat with
      | none => some 0
      | some l => if l = 4 ∨ (s.ctx s.cur).level < l then some 1 else none := by
  have hwf : (Instr.ctlw a t i).wf = true := rfl
  have hlevel : levelOf (.ctlw a t i) = 0 := rfl
  unfold State.illegal
  simp [hwf, hlevel] <;> rfl

/-- An instruction that is ILLEGAL takes that trap at its slot. -/
theorem issue_illegal {s : State} {i : Instr} {v : Nat} {eff : State → State} (hl : s.latch = none)
    (h : s.illegal i = some v) : issue i eff s = .next (s.takeTrap s.cur (ill v i)) :=
  issue_trap hl (verdict_illegal h) eff

theorem issueS_illegal {s : State} {i : Instr} {v : Nat} {d : BitVec 5} {val : State → Word} (hl : s.latch = none)
    (h : s.illegal i = some v) : issueS i d val s = .next (s.takeTrap s.cur (ill v i)) := by
  rw [issueS, issueD, verdict_illegal h, if_neg (by simp), issue_illegal hl h]

/-- A control register that shows `g` of its context and is written by `f` reads as written. -/
theorem ctlRead_ctlWrite {s : State} {th i : Nat} {x : Word} (f : Ctx → Ctx) (g : Ctx → Word)
    (hr : (s.modCtx th f).ctlRead th i = g ((s.modCtx th f).ctx th)) (hw : s.ctlWrite th i x = s.modCtx th f)
    (hf : (f (s.ctx th)).status ≠ .free) : (s.ctlWrite th i x).ctlRead th i = g (f (s.ctx th)) := by
  rw [hw, hr, modCtx_ctx_ne _ _ _ (ctx_ne_of_status hf)]

/-- Settles O8: reads and writes by their instructions, the two causes of ILLEGAL by the level of the register. -/
theorem controlRegisters : Obligations.ControlRegisters := by
  refine ⟨fun s d a t i => ⟨issueS_spec (exec_ctlr d i s) (by rw [advance_cur]),
    issue_spec (exec_ctlw a t i s) (by rw [advance_cur, advance_S]), fun hl h => ?_, fun hl h => ?_,
    fun hl l h hcase => ?_⟩, fun s th x h => ?_⟩
  · rw [exec_ctlr, execCtlr, issueS_illegal hl (illegal_ctlr h)]; rfl
  · have hi : s.illegal (.ctlw a t i) = some 0 := by rw [illegal_ctlw, h]; split <;> rfl
    rw [exec_ctlw, execCtlw, issue_illegal hl hi]; rfl
  · have hi : s.illegal (.ctlw a t i) = some (if windowMisuse (s.ctx s.cur) (.ctlw a t i) then 0 else 1) := by
      rw [illegal_ctlw, h]; split <;> simp [hcase]
    rw [exec_ctlw, execCtlw, issue_illegal hl hi]
    split <;> rfl
  · exact ⟨ctlRead_ctlWrite (fun c => { c with qstall := x &&& 0xFFFFFF }) Ctx.qstall rfl rfl h,
      ctlRead_ctlWrite (fun c => { c with fewait := x &&& 0xFFFFFF }) Ctx.fewait rfl rfl h,
      ctlRead_ctlWrite (fun c => { c with stack := x &&& ~~~15#64 }) Ctx.stack rfl rfl h,
      ctlRead_ctlWrite (fun c => { c with cause := x &&& 0xFF }) Ctx.cause rfl rfl h,
      ctlRead_ctlWrite (fun c => { c with epc := x &&& ~~~7#64 }) Ctx.epc rfl rfl h,
      ctlRead_ctlWrite (fun c => { c with tval := x }) Ctx.tval rfl rfl h,
      ctlRead_ctlWrite (fun c => { c with tstate := x &&& 0xFFF8 }) Ctx.tstate rfl rfl h,
      ctlRead_ctlWrite (fun c => { c with hbase := x &&& ~~~7#64 }) Ctx.hbase rfl rfl h,
      ctlRead_ctlWrite (fun c => { c with hmask := x &&& hmaskBits }) Ctx.hmask rfl rfl h,
      ctlRead_ctlWrite (fun c => { c with lpBase := x }) Ctx.lpBase rfl rfl h⟩

end Sys2Proof.Machine

/-! SUPPORT. Loads, stores and presence forms as a thread issues them (08 R248-R268, 09 R313). -/

namespace Sys2Proof.Machine

/-! ### What a request is made of -/

/-- A thread asks the same in `u` as in `s`: it, its launch and the time are the same. -/
structure AsksAs (s u : State) : Prop where
  cur : u.cur = s.cur
  lid : (u.ctx s.cur).lid = (s.ctx s.cur).lid
  level : (u.ctx s.cur).level = (s.ctx s.cur).level
  launches : u.launches = s.launches
  cycle : (u.core (coreOf s.cur)).cycle = (s.core (coreOf s.cur)).cycle

theorem AsksAs.request {s u : State} (h : AsksAs s u) (op : ReqOp) (a : Word) (n : Nat) (x : VWord) (d : Dest) (q : Nat)
    (k : Option Nat) (b : Bool) : u.request op a n x d q k b = s.request op a n x d q k b := by
  have hl : u.launch = s.launch := funext fun l => by rw [State.launch, State.launch, h.launches]
  simp only [State.request, State.lidOf, State.xctxOf, State.launchOf, State.now, h.cur, h.lid, h.level, h.cycle, hl]

theorem AsksAs.trans {s u v : State} (h : AsksAs s u) (h' : AsksAs u v) : AsksAs s v :=
  ⟨h'.cur.trans h.cur, by rw [← h.lid, ← h.cur, h'.lid], by rw [← h.level, ← h.cur, h'.level],
    h'.launches.trans h.launches, by rw [← h.cycle, ← h.cur, h'.cycle]⟩

theorem asksAs_evc (s : State) (c k : Nat) : AsksAs s (s.evc c k) := by
  refine ⟨rfl, rfl, rfl, rfl, ?_⟩
  by_cases hc : coreOf s.cur = c
  · rw [hc, evc_core]
  · rw [evc_core_other _ _ _ _ hc]

theorem asksAs_sendAccess (s : State) (r : Req) : AsksAs s (s.sendAccess r) := by
  have h := asksAs_evc s (coreOf r.th) 12
  unfold State.sendAccess
  split
  · dsimp only
    split
    · exact h.trans ⟨rfl, rfl, rfl, rfl, rfl⟩
    · split
      · exact h.trans ⟨rfl, rfl, rfl, rfl, rfl⟩
      · exact (h.trans (asksAs_evc _ _ _)).trans ⟨rfl, rfl, rfl, rfl, rfl⟩
  · exact h.trans ⟨rfl, rfl, rfl, rfl, rfl⟩

theorem asksAs_advance (s : State) (i : Instr) : AsksAs s (s.advance i) :=
  ⟨advance_cur s i, by rw [advance_ctx], by rw [advance_ctx], advance_launches s i,
    advance_core_of Core.cycle (fun _ => rfl) s i _⟩

theorem markEmpty_who (c : Ctx) (d : Dest) : (c.markEmpty d).lid = c.lid ∧ (c.markEmpty d).level = c.level := by
  cases d with
  | s n =>
    unfold Ctx.markEmpty
    dsimp only
    split <;> exact ⟨rfl, rfl⟩
  | v n => exact ⟨rfl, rfl⟩
  | none => exact ⟨rfl, rfl⟩

theorem asksAs_addProd (s : State) (d : Dest) (n : Nat) (x : VWord) (q : Bool) : AsksAs s (s.addProd d n x q) := by
  have h : (s.addProd d n x q).ctx s.cur = { (s.ctx s.cur).markEmpty d with
      prods := (s.ctx s.cur).prods ++ [{ seq := (s.ctx s.cur).nextSeq, dst := d, left := n, acc := x, acquire := q }]
      nextSeq := (s.ctx s.cur).nextSeq + 1 } :=
    modCtx_ctx_ne _ _ _ fun e => List.append_ne_nil_of_right_ne_nil _ (List.cons_ne_nil _ _) (congrArg Ctx.prods e)
  exact ⟨rfl, by rw [h]; exact (markEmpty_who _ d).1, by rw [h]; exact (markEmpty_who _ d).2, rfl, rfl⟩

/-! ### Scalar and vector loads (08 R257, R258) -/

theorem loads_scalar (s : State) (d b : BitVec 5) (t : BitVec 1) (w : BitVec 2) (r : BitVec 1) (p : BitVec 12) (sc : BitVec 3)
    (i : Instr) (n : Nat) (sx ad acq : Bool) (h : (i, n, sx, ad, acq) ∈ [
       (Instr.ldN8 d b t w r p, 1, false, decide (r = 1), false), (.ldN16 d b t w r p, 2, false, decide (r = 1), false),
       (.ldN32 d b t w r p, 4, false, decide (r = 1), false), (.ld64 d b t w r p, 8, false, decide (r = 1), false),
       (.ldS8 d b t w r p, 1, true, decide (r = 1), false), (.ldS16 d b t w r p, 2, true, decide (r = 1), false),
       (.ldS32 d b t w r p, 4, true, decide (r = 1), false), (.ldAcq32 d b t sc p, 4, false, false, true),
       (.ldAcq64 d b t sc p, 8, false, false, true)]) :
    exec i s = loadScalar i d (fun s => s.ea b p.toInt n) n sx ad acq s ∧ 8 * n ≤ 64 ∧ 0 < n := by
  simp only [List.mem_cons, List.not_mem_nil, or_false] at h
  rcases h with h | h | h | h | h | h | h | h | h <;> cases h <;> exact ⟨rfl, by decide, by decide⟩

theorem vld_value (s : State) (a : Word) : s.localValue a 16 false =
    BitVec.ofNat 128 (s.localRead (coreOf s.cur) (a.toNat % 2 ^ 20) 16) :=
  BitVec.eq_of_toNat_eq (by
    have hlt := localRead_lt s (coreOf s.cur) (a.toNat % 2 ^ 20) 16
    rw [localValue_toNat s a 16 (by decide), BitVec.toNat_ofNat, Nat.mod_eq_of_lt hlt])

section
variable (s : State) (v b : BitVec 5) (t : BitVec 1) (w : BitVec 2) (r x : BitVec 1) (p : BitVec 11)

theorem does_vld_local (h : isLocal s.cur (s.ea b p.toInt 16) = true) : Does s (.vld v b t w r x p) fun q =>
    (q.setV (vreg v x) (BitVec.ofNat 128 (s.localRead (coreOf s.cur) ((s.ea b p.toInt 16).toNat % 2 ^ 20) 16))).evc
      (coreOf s.cur) 11 :=
  issue_spec (exec_vld v b t w r x p s)
    (by simp only [advance_cur, advance_ea, h, if_true, vld_value, advance_localRead])

theorem does_vld_remote (h : isLocal s.cur (s.ea b p.toInt 16) = false) : Does s (.vld v b t w r x p) fun q =>
    (q.addProd (.v (vreg v x)) 1 0 false).sendAccess
      (s.request (.load false) (s.ea b p.toInt 16) 16 0 (.v (vreg v x)) (s.ctx s.cur).nextSeq none (decide (r = 1))) :=
  issue_spec (exec_vld v b t w r x p s) (by
    simp only [advance_cur, advance_ea, h, State.remoteLoad, advance_request, advance_seqNow]; rfl)

end

/-! ### Gathers (08 R259, R260) -/

/-- The bytes that a gather reads at once, as a number. -/
def State.gatherNear (s : State) (n : Nat) (l : List (Nat × Word)) : Nat :=
  (l.map fun q => if isLocal s.cur q.2 then
    s.localRead (coreOf s.cur) (q.2.toNat % 2 ^ 20) n * 2 ^ (8 * n * q.1) else 0).sum

theorem foldl_add_eq {α : Type} (f : α → Nat) (p : α → Bool) (l : List α) (z : Nat) :
    l.foldl (fun z a => if p a then z + f a else z) z = z + (l.map fun a => if p a then f a else 0).sum := by
  induction l generalizing z with
  | nil => simp
  | cons a l ih =>
    rw [List.foldl_cons, ih, List.map_cons, List.sum_cons]
    split <;> omega

theorem gather_acc (s : State) {n : Nat} (hn : n ≤ 16) (l : List (Nat × Word)) : (l.foldl (fun z p =>
    if isLocal s.cur p.2 then z + (s.localValue p.2 n false).toNat * 2 ^ (8 * n * p.1) else z) 0) = s.gatherNear n l := by
  rw [foldl_add_eq, Nat.zero_add, State.gatherNear]
  simp only [localValue_toNat s _ n hn]

/-- The far lanes of a gather are asked one by one, all as the thread asks where it stands. -/
theorem gather_far (s u : State) (h : AsksAs s u) (n : Nat) (v q : Nat) (ad : Bool) (l : List (Nat × Word)) :
    l.foldl (fun u p => u.sendAccess { u.request (.load false) p.2 n 0 (.v v) q none ad with lane := some p.1 }) u =
      l.foldl (fun u p => u.sendAccess { s.request (.load false) p.2 n 0 (.v v) q none ad with lane := some p.1 }) u := by
  induction l generalizing u with
  | nil => rfl
  | cons p l ih =>
    rw [List.foldl_cons, List.foldl_cons, h.request]
    exact ih _ (h.trans (asksAs_sendAccess _ _))

/-- What a gather over the lanes `l` of `n` bytes does. -/
theorem does_gather {s : State} {i : Instr} {v : BitVec 5} {x : BitVec 1} {ad : Bool} {n : Nat} {l : List (Nat × Word)}
    (he : exec i s = gather i v x ad s) (hn : n ≤ 16) (hl : l ≠ [])
    (hlanes : (s.advance i).gatherLanes i = l.map fun p => (p.2, n)) (hidx : (List.range l.length).zip (l.map Prod.snd) = l) :
    (l.filter (fun q => !isLocal s.cur q.2) = [] → Does s i fun q =>
      (q.evc (coreOf s.cur) 11).setV (vreg v x) (BitVec.ofNat 128 (s.gatherNear n l))) ∧
    (l.filter (fun q => !isLocal s.cur q.2) ≠ [] → Does s i fun q =>
      (l.filter fun q => !isLocal s.cur q.2).foldl (fun q k => q.sendAccess { s.request (.load false) k.2 n 0 (.v (vreg v x))
          (s.ctx s.cur).nextSeq none ad with lane := some k.1 })
        ((if (l.filter fun q => !isLocal s.cur q.2).length < l.length then q.evc (coreOf s.cur) 11 else q).addProd
          (.v (vreg v x)) (l.filter fun q => !isLocal s.cur q.2).length (BitVec.ofNat 128 (s.gatherNear n l)) false)) := by
  have hfst : (l.map fun p => ((p.2, n) : Word × Nat)).map Prod.fst = l.map Prod.snd := by simp
  have hhead : (((l.map fun p => ((p.2, n) : Word × Nat))).map Prod.snd).headD 4 = n := by
    cases l with
    | nil => exact absurd rfl hl
    | cons p l => rfl
  have hnear := gather_acc s hn l
  refine ⟨fun hfar => issue_spec he ?_, fun hfar => issue_spec he ?_⟩
  · have hlen : 0 < l.length := List.length_pos_iff.2 hl
    simp only [hlanes, hfst, hhead, List.length_map, hidx, advance_cur, advance_localValue, hnear, hfar, List.length_nil,
      hlen, if_true]
  · simp only [hlanes, hfst, hhead, List.length_map, hidx, advance_cur, advance_localValue, hnear]
    obtain ⟨q, far, hq⟩ := List.exists_cons_of_ne_nil hfar
    rw [hq]
    generalize hu : (if (q :: far).length < l.length then (s.advance i).evc (coreOf s.cur) 11 else s.advance i) = u
    have hasks : AsksAs s u ∧ u.seqNow = (s.ctx s.cur).nextSeq := by
      rw [← hu, ← advance_seqNow s i]
      split
      · exact ⟨(asksAs_advance s i).trans (asksAs_evc _ _ _), rfl⟩
      · exact ⟨asksAs_advance s i, rfl⟩
    rw [← hasks.2]
    exact gather_far s _ (hasks.1.trans (asksAs_addProd ..)) n (vreg v x) u.seqNow ad (q :: far)

section
variable (s : State) (v a b : BitVec 5) (t u x : BitVec 1) (w : BitVec 2) (r : BitVec 1) (z : BitVec 2)

/-- The lanes of a strided gather, with their addresses. -/
def State.stridedLanes (s : State) (a b : BitVec 5) (z : BitVec 2) : List (Nat × Word) :=
  (List.range (16 / 2 ^ z.toNat)).map fun (k : Nat) => (k, s.S a + BitVec.ofInt 64 ((k : Int) * (s.S b).toInt))

/-- The lanes of an indexed gather, with their addresses. -/
def State.indexedLanes (s : State) (a b : BitVec 5) : List (Nat × Word) :=
  (List.range 4).map fun (k : Nat) => (k, s.S a + BitVec.ofInt 64 ((s.V b.toNat).extractLsb' (32 * k) 32).toInt)

theorem zip_range_map {α : Type} (f : Nat → α) (n : Nat) :
    (List.range ((List.range n).map fun k => (k, f k)).length).zip (((List.range n).map fun k => (k, f k)).map Prod.snd) =
      (List.range n).map fun k => (k, f k) := by
  rw [List.length_map, List.length_range, List.map_map]
  have h := List.zip_map' (f := id) (g := f) (l := List.range n)
  rwa [List.map_id] at h

theorem lane32_eq (y : VWord) (k : Nat) : lane32 y k = (y.extractLsb' (32 * k) 32).toInt := rfl

theorem stridedLanes_bound (z : BitVec 2) : 2 ^ z.toNat ≤ 16 ∧ 16 / 2 ^ z.toNat ≠ 0 := by
  revert z; decide

theorem gather_of_mem (i : Instr) (n : Nat) (l : List (Nat × Word)) (h : (i, n, l) ∈ [
      (Instr.vlds v a t b u x w r z, 2 ^ z.toNat, s.stridedLanes a b z), (.vldx v a t b u x w r, 4, s.indexedLanes a b)]) :
    exec i s = gather i v x (decide (r = 1)) s ∧ n ≤ 16 ∧ l ≠ [] ∧
      (s.advance i).gatherLanes i = (l.map fun p => (p.2, n)) ∧ (List.range l.length).zip (l.map Prod.snd) = l := by
  simp only [List.mem_cons, List.not_mem_nil, or_false] at h
  rcases h with h | h <;> cases h
  · refine ⟨exec_vlds .., (stridedLanes_bound z).1, ?_, ?_, zip_range_map _ _⟩
    · simp only [State.stridedLanes, ne_eq, List.map_eq_nil_iff, List.range_eq_nil]
      exact (stridedLanes_bound z).2
    · simp only [State.gatherLanes, State.stridedLanes, List.map_map, advance_S]; rfl
  · refine ⟨exec_vldx .., by decide, List.cons_ne_nil _ _, ?_, zip_range_map _ _⟩
    simp only [State.gatherLanes, State.indexedLanes, List.map_map, advance_S, advance_V, lane32_eq]; rfl

end

/-- Settles O11: scalar and vector loads by where their address is, gathers by their lanes. -/
theorem loads : Obligations.Loads := by
  refine ⟨fun s d b t w r p sc i n sx ad acq h a y ha hy => ?_, fun s v a b t u x w r p z =>
    ⟨fun e he => ?_, fun i n l h far acc hfar hacc => ?_⟩⟩
  · obtain ⟨he, hn, hpos⟩ := loads_scalar s d b t w r p sc i n sx ad acq h
    exact loadScalar_spec he ha.symm (by rw [advance_ea]; exact ha.symm) hn hpos hy
  · subst he
    exact ⟨does_vld_local s v b t w r x p, does_vld_remote s v b t w r x p⟩
  · obtain ⟨he, hn, hl, hlanes, hidx⟩ := gather_of_mem s v a b t u x w r z i n l h
    subst hfar hacc
    exact does_gather he hn hl hlanes hidx

/-! ### Stores (08 R257, R258, R261) -/

theorem stores_of_mem (s : State) (d b : BitVec 5) (t : BitVec 1) (w : BitVec 2) (r x : BitVec 1) (p : BitVec 12)
    (p1 : BitVec 11) (sc : BitVec 3) (i : Instr) (n : Nat) (disp : Int) (data : VWord) (ad : Bool)
    (h : (i, n, disp, data, ad) ∈ [
      (Instr.st8 d b t w r p, 1, p.toInt, (s.S d).setWidth 128, decide (r = 1)),
      (.st16 d b t w r p, 2, p.toInt, (s.S d).setWidth 128, decide (r = 1)),
      (.st32 d b t w r p, 4, p.toInt, (s.S d).setWidth 128, decide (r = 1)),
      (.st64 d b t w r p, 8, p.toInt, (s.S d).setWidth 128, decide (r = 1)),
      (.stRel32 d b t sc p, 4, p.toInt, (s.S d).setWidth 128, false),
      (.stRel64 d b t sc p, 8, p.toInt, (s.S d).setWidth 128, false),
      (.vst d b t w r x p1, 16, p1.toInt, s.V (vreg d x), decide (r = 1))]) :
    ∃ eff, exec i s = issue i eff s ∧ eff (s.advance i) = (s.advance i).storeValue (s.ea b disp n) n data ad := by
  simp only [List.mem_cons, List.not_mem_nil, or_false] at h
  rcases h with h | h | h | h | h | h | h <;> cases h
  · exact ⟨_, exec_st8 .., by simp only [advance_ea, advance_S]⟩
  · exact ⟨_, exec_st16 .., by simp only [advance_ea, advance_S]⟩
  · exact ⟨_, exec_st32 .., by simp only [advance_ea, advance_S]⟩
  · exact ⟨_, exec_st64 .., by simp only [advance_ea, advance_S]⟩
  · exact ⟨_, exec_stRel32 .., by simp only [advance_ea, advance_S]⟩
  · exact ⟨_, exec_stRel64 .., by simp only [advance_ea, advance_S]⟩
  · exact ⟨_, exec_vst .., by simp only [advance_ea, advance_V]⟩

/-- Settles O12: every store by what `storeValue` does at its address. -/
theorem stores : Obligations.Stores := by
  rintro s d b t w r x p p1 sc i n disp data ad h a rfl
  obtain ⟨eff, he, hf⟩ := stores_of_mem s d b t w r x p p1 sc i n disp data ad h
  exact storeValue_spec he hf

/-! ### Presence forms and `swait` (08 R266-R268, 09 R313) -/

theorem answerHere_eq {s : State} {h : Held} {x : Word} (hh : (s.ctx s.cur).heldHere = some h) (hx : h.answer = some x) :
    s.answerHere = x := by
  rw [State.answerHere, hh]
  simp [hx]

/-- A form whose answer is there writes it. -/
theorem issueAnswer_spec {s : State} {i : Instr} {d : BitVec 5} {x : Word} (he : exec i s = issueAnswer i d s)
    (hx : s.answerHere = x) : Writes s i d x :=
  issueD_spec (val := fun _ => s.answerHere) (eff := fun r => r.setS d s.answerHere) he hx (by rw [hx]; rfl)

theorem issueAnswer_hold {s : State} {i : Instr} {d : BitVec 5} (hl : s.latch = none) (hv : s.verdict [i] = .hold) :
    issueAnswer i d s = .next (s.startWait i) := by
  rw [issueAnswer, issueD, hv, if_neg (by simp), issue_hold hl hv]

/-- Settles O13: a form with its answer by what it writes, one without by the request that it sends. -/
theorem waitingForms : Obligations.WaitingForms := by
  refine fun s d a b t u w r p c => ⟨fun h x hh hx => ?_, fun i q ev h hl hv => ?_⟩
  · have hans := answerHere_eq hh hx
    exact ⟨issueAnswer_spec (exec_ldfe d b t w r p s) hans, issueAnswer_spec (exec_ldPw d b t w r p s) hans,
      issue_spec (exec_stef d b t w r p s) rfl, issueAnswer_spec (exec_swait d a t b u c s) hans⟩
  · simp only [List.mem_cons, List.not_mem_nil, or_false] at h
    rcases h with h | h | h | h <;> cases h
    · rw [exec_ldfe, execLdfe, issueAnswer_hold hl hv]; rfl
    · rw [exec_ldPw, execLdPw, issueAnswer_hold hl hv]; rfl
    · rw [exec_stef, execStef, issue_hold hl hv]; rfl
    · rw [exec_swait, execSwait, issueAnswer_hold hl hv]; rfl

end Sys2Proof.Machine

/-! SUPPORT. Atomics, queue windows, tags and records, sync words and barriers as a thread uses them (08 R265, R280-R285,
09). -/

namespace Sys2Proof.Machine

/-! ### Atomics (09 R302-R305) -/

theorem atomics_of_mem (s : State) (d a b : BitVec 5) (t u l r : BitVec 1) (w : BitVec 2) (i : Instr) (op n : Nat) (cmp : Word)
    (h : (i, op, n, cmp) ∈ [
      (Instr.amoAdd d a t b u l r w, 0, if l = 1 then 8 else 4, 0), (.amoAnd d a t b u l r w, 1, if l = 1 then 8 else 4, 0),
      (.amoOr d a t b u l r w, 2, if l = 1 then 8 else 4, 0), (.amoXor d a t b u l r w, 3, if l = 1 then 8 else 4, 0),
      (.amoMin d a t b u l r w, 4, if l = 1 then 8 else 4, 0), (.amoMax d a t b u l r w, 5, if l = 1 then 8 else 4, 0),
      (.amoMinu d a t b u l r w, 6, if l = 1 then 8 else 4, 0), (.amoMaxu d a t b u l r w, 7, if l = 1 then 8 else 4, 0),
      (.amoSwap d a t b u l r w, 8, if l = 1 then 8 else 4, 0), (.amoCas d a t b u l r w, 9, if l = 1 then 8 else 4, s.S d),
      (.amoFaddF32 d a t b u r w, 10, 4, 0), (.amoInclt d a t b u l r w, 11, if l = 1 then 8 else 4, 0)]) :
    exec i s = atomic i op d a b n (decide (r = 1)) s ∧ (if op = 9 then s.S d else 0) = cmp := by
  simp only [List.mem_cons, List.not_mem_nil, or_false] at h
  rcases h with h | h | h | h | h | h | h | h | h | h | h | h <;> cases h <;> exact ⟨rfl, rfl⟩

/-- Settles O14: every atomic by what an atomic does. -/
theorem atomics : Obligations.Atomics := by
  intro s d a b t u l r w i op n cmp h r0 hr
  obtain ⟨he, hc⟩ := atomics_of_mem s d a b t u l r w i op n cmp h
  exact atomic_spec he hc hr

/-! ### Queue windows (08 R280-R285) -/

theorem advance_unbind (s : State) (i : Instr) (k : Nat) : (s.advance i).unbind k =
    match (s.ctx s.cur).window k with
    | none => s.advance i
    | some w => if w.kind = 2 then ((s.advance i).setWin k none).modCtx s.cur fun c => { c with
        partialCmd := put [] c.partialCmd w.sel [] } else (s.advance i).setWin k none := by
  rw [State.unbind, advance_cur, advance_window] <;> rfl

theorem advance_winStatus (s : State) (i : Instr) (k : Nat) : (s.advance i).winStatus k =
    match (s.ctx s.cur).window k with
    | some w => BitVec.ofNat 64 (2 ^ 63 + w.kind * 2 ^ 61 + s.winCount s.cur w % 32)
    | none => 0 := by
  simp only [State.winStatus, advance_cur, advance_window, advance_winCount] <;> rfl

theorem advance_winHead (s : State) (i : Instr) (k : Nat) : (s.advance i).winHead k =
    match (s.ctx s.cur).window k with
    | some w => (s.winEntries s.cur w).headD 0
    | none => 0 := by
  simp only [State.winHead, advance_cur, advance_window, advance_winEntries] <;> rfl

theorem mwait_counter {s : State} {k : BitVec 2} (h : Issues s (.mwait k)) : (s.ctx s.cur).counter k.toNat = 0 := by
  have hown : blockIf ((s.ctx s.cur).counter k.toNat ≠ 0) onWait = .go := own_go (i := .mwait k) rfl h.2
  simpa using blockIf_eq_go.1 hown

section
variable {s : State} {a : BitVec 5} {t : BitVec 1} {k : BitVec 2}

theorem does_qbind_inbound (h : (s.S a).toNat / 2 ^ 62 ≠ 1) :
    Does s (.qbind a t k) fun r => r.setWin k.toNat (some { word := s.S a }) :=
  issue_spec (exec_qbind a t k s) (by simp only [advance_S, Window.kind, if_neg h])

theorem does_qbind_outbound (h : (s.S a).toNat / 2 ^ 62 = 1) : Does s (.qbind a t k) fun r =>
    ((r.takeSeq.setWin k.toNat (some { word := s.S a, answered := false, bind := (s.ctx s.cur).nextSeq })).modCtx s.cur
      fun c => { c with binds := c.binds ++ [(s.ctx s.cur).nextSeq] }).send
        (some (coreOf s.cur, (s.S a).toNat / 2 ^ 23 % 8192))
        (.bindAnswer s.cur k.toNat (s.ctx s.cur).nextSeq (s.S a)) :=
  issue_spec (exec_qbind a t k s)
    (by simp only [advance_S, advance_cur, advance_seqNow, Window.kind, Window.target, h, if_true])

end

theorem does_qunbind (s : State) (k : BitVec 2) : Does s (.qunbind k) fun r => match (s.ctx s.cur).window k.toNat with
    | none => r
    | some w => if w.kind = 2 then (r.setWin k.toNat none).modCtx s.cur fun c => { c with
        partialCmd := put [] c.partialCmd w.sel [] } else r.setWin k.toNat none :=
  issue_spec (exec_qunbind k s) (by rw [advance_unbind])

/-- Settles O15: every form by its effect, the window taken as the thread has it before. -/
theorem queueForms : Obligations.QueueForms := by
  refine fun s d a b v t u x k w => ⟨issue_spec (exec_mwait k s) rfl, mwait_counter, does_qbind_inbound,
    does_qbind_outbound, fun hw => ⟨?_, ?_⟩, fun hw => ⟨fun hk => ?_, fun hk => ?_, ?_, ?_, ?_, ?_⟩, ?_, ?_⟩
  · have h := does_qunbind s k
    simp only [hw] at h
    exact h
  · exact issueS_spec (exec_qstat d k s) (by rw [advance_winStatus, hw])
  · simpa only [hw, if_pos hk] using does_qunbind s k
  · simpa only [hw, if_neg hk] using does_qunbind s k
  · exact issueS_spec (exec_qstat d k s) (by rw [advance_winStatus, hw])
  · exact issueS_spec (exec_qpeek d k s) (by rw [advance_winHead, hw])
  · exact issue_spec (exec_vqpush v t x k s) (by simp only [advance_cur, advance_window, hw, advance_V]; rfl)
  · exact issue_spec (exec_vqpop v x k s) (by simp only [advance_cur, advance_window, hw, advance_winHead]; rfl)
  · exact issueS_spec (exec_qcfgr d a t s) (by simp only [advance_cur, State.bufOf, advance_S, advance_core_chans])
  · exact issue_spec (exec_qcfgw a t b u s) (by simp only [advance_cur, State.bufOf, advance_S]; rfl)

/-! ### Tags and records (09 R295-R301) -/

theorem tag_eq_ofNat (x y : Word) : x.extractLsb' 0 16 ++ y.extractLsb' 0 48 =
    BitVec.ofNat 64 (x.toNat % 2 ^ 16 * 2 ^ 48 + y.toNat % 2 ^ 48) := by
  apply BitVec.eq_of_toNat_eq
  rw [toNat_append_eq_add]
  simp only [BitVec.extractLsb'_toNat, BitVec.toNat_ofNat, Nat.shiftRight_zero]
  omega

theorem tagField_eq (x : Word) (f : BitVec 3) : tagField x f.toNat =
    BitVec.ofNat 64 (if f = 0 then x.toNat / 2 ^ 56 else if f = 1 then x.toNat / 2 ^ 48 % 256
      else x.toNat / 2 ^ (16 * (4 - f.toNat)) % 65536) := by
  have h0 : f.toNat = 0 ↔ f = 0 := by rw [← BitVec.toNat_inj]; rfl
  have h1 : f.toNat = 1 ↔ f = 1 := by rw [← BitVec.toNat_inj]; rfl
  have hkey : 2 - (f.toNat - 2) = 4 - f.toNat ∨ f.toNat < 2 := by omega
  simp only [tagField, h0, h1, Rec.kind, Rec.gen, Rec.key]
  refine congrArg _ (ite_congr rfl (fun _ => rfl) fun hf0 => ite_congr rfl (fun _ => rfl) fun hf1 => ?_)
  rw [hkey.resolve_right (by have := mt h0.1 hf0; have := mt h1.1 hf1; omega)]

theorem launchOf_none {s : State} (h : s.lidOf s.cur = none) : s.launchOf s.cur = none := by rw [State.launchOf, h]; rfl

theorem launchOf_some {s : State} {lid : Nat} {l : Launch} (h : s.lidOf s.cur = some lid) (hl : s.launch lid = some l) :
    s.launchOf s.cur = some l := by
  rw [State.launchOf, h]; exact hl

theorem advance_insertOwn {s : State} {i : Instr} {a b : BitVec 5} {lid : Nat} (h : s.lidOf s.cur = some lid) :
    (s.advance i).insertOwn a b = (s.advance i).insertRecord (coreOf s.cur) (dieOfTh s.cur) s.cur (s.who s.cur) lid
      ⟨s.S a, s.S b⟩ none := by
  simp only [State.insertOwn, advance_cur, advance_lidOf, h, advance_who, advance_S]

/-- A record of a by-keys kind leaves for the quad of its home when nothing of its core waits for a walk. -/
theorem insertRecord_byKeys {s : State} {src die th lid : Nat} {w : Who} {l : Launch} {k : Kind} {x : Rec} {m : Option Marks}
    (hl : s.launch lid = some l) (hk : l.kind x.kind = some k) (hp : k.page = false)
    (hw : s.sourceWaits die (2 * src + 1) = false) : s.insertRecord src die th w lid x m =
      s.sendRecord src lid (s.quadOfLq l (l.keyHome k x)) (l.keyHome k x) x m := by
  simp [State.insertRecord, hl, hk, hw, State.homeOfRec, hp]

/-- A record whose source waits for a walk goes behind what waits. -/
theorem insertRecord_waits {s : State} {src die th lid : Nat} {w : Who} {l : Launch} {k : Kind} {x : Rec} {m : Option Marks}
    (hl : s.launch lid = some l) (hk : l.kind x.kind = some k) (hw : s.sourceWaits die (2 * src + 1) = true) :
    s.insertRecord src die th w lid x m = s.modDie die fun d => { d with
      walks := d.walks ++ [.insert src th lid w.level x m] } := by
  simp [State.insertRecord, hl, hk, hw]

theorem keyHome_eq (l : Launch) (k : Kind) (x : Rec) : l.keyHome k x =
    x.key k.f1 / 2 ^ k.h1 % l.gx + l.gx * (if k.f2 = 3 then 0 else x.key k.f2 / 2 ^ k.h2 % l.gy) := by
  simp only [Launch.keyHome, Nat.shiftRight_eq_div_pow]

/-- Settles O16: tags by their fields, what is read of the launch by whether there is one, an insert by where its record
goes. -/
theorem tagsAndRecords : Obligations.TagsAndRecords := by
  refine fun s d a b t u f i lid l => ⟨?_, ?_, fun h => ⟨?_, ?_, ?_⟩, ?_, fun h hl => ⟨?_, ?_, ?_, ?_, ?_, ?_, ?_⟩⟩
  · exact issueS_spec (exec_ttag d a t b u s) (by simp only [advance_S]; exact tag_eq_ofNat _ _)
  · exact issueS_spec (exec_tfld d a t f s) (by simp only [advance_S]; exact tagField_eq _ _)
  · exact issueS_spec (exec_tgen d s) (by rw [advance_cur, advance_launchOf, launchOf_none h]; rfl)
  · exact issueS_spec (exec_covQ d a t s) (by rw [advance_cur, advance_launchOf, launchOf_none h]; rfl)
  · exact issueS_spec (exec_covRd d i s) (by rw [advance_cur, advance_launchOf, launchOf_none h]; rfl)
  · exact issueS_spec (exec_poolCnt d s) (by rw [advance_cur, advance_poolWord])
  · exact issueS_spec (exec_tgen d s) (by rw [advance_cur, advance_launchOf, launchOf_some h hl]; rfl)
  · exact issueS_spec (exec_covQ d a t s) (by rw [advance_cur, advance_launchOf, launchOf_some h hl, advance_S]; rfl)
  · exact issueS_spec (exec_covRd d i s) (by rw [advance_cur, advance_launchOf, launchOf_some h hl]; rfl)
  · exact issue_spec (exec_tins a t b u s) (advance_insertOwn h)
  · exact issue_spec (exec_tinsd a t b u s) (advance_insertOwn h)
  · rintro k x q hk hp rfl hw
    rw [insertRecord_byKeys hl hk hp hw, keyHome_eq]; rfl
  · exact fun k x hk hw => insertRecord_waits hl hk hw

/-! ### Sync words and barriers (09 R307-R320) -/

/-- A posted sync operation leaves counted by the class of its word. -/
theorem postSync_spec {s : State} {i : Instr} {eff : State → State} {op : ReqOp} {a : BitVec 5} {x : Word} {ev : Req → Instr}
    (he : exec i s = issue i eff s) (hf : eff (s.advance i) = (s.advance i).postSync op (s.S a) x ev) : Does s i fun r =>
      ((r.takeSeq.count s.cur (classOf s.cur (s.S a))).evc (coreOf s.cur) 12).send
        (some (coreOf s.cur, homeOf (s.S a) none))
        (ev (s.request op (s.S a) 8 (x.setWidth 128) .none (s.ctx s.cur).nextSeq (some (classOf s.cur (s.S a))) false)) :=
  issue_spec he (by rw [hf]; simp only [State.postSync, advance_cur, advance_request, advance_seqNow]; rfl)

theorem lead_of_barrier {s : State} {l k : Nat} (h : (if (s.barrierPer (s.ctx s.cur).lid l k).isNone then trapS cACCESS 0
    else blockIf ((s.ctx s.cur).lead l k ≠ 0) onWait) = .go) : (s.ctx s.cur).lead l k = 0 := by
  split at h
  · exact Verdict.noConfusion h
  · simpa using blockIf_eq_go.1 h

theorem barrWait_lead {s : State} {l : BitVec 3} {k : BitVec 6} (h : Issues s (.barrWait l k)) :
    (s.ctx s.cur).lead l.toNat k.toNat = 0 :=
  lead_of_barrier (own_go (i := .barrWait l k) rfl h.2)

/-- The own checks of a form that arrives and waits, of `b` and `b'` before its arrival. -/
theorem lead_of_syncForm {s : State} {l k : Nat} {b b' : Bool} (h : (if (s.barrierPer (s.ctx s.cur).lid l k).isNone
    then trapS cACCESS 0 else if (s.ctx s.cur).synced = some (s.ctx s.cur).pc
      then blockIf ((s.ctx s.cur).lead l k ≠ 0) onWait else ((blockIf b onWait).and (blockIf b' onWait)).and .hold) =
        .go) : (s.ctx s.cur).lead l k = 0 := by
  split at h
  · exact Verdict.noConfusion h
  · split at h
    · simpa using blockIf_eq_go.1 h
    · exact Verdict.noConfusion (and_eq_go.1 h).2

theorem barrSync_lead {s : State} {l : BitVec 3} {k : BitVec 6} (h : Issues s (.barrSync l k)) :
    (s.ctx s.cur).lead l.toNat k.toNat = 0 :=
  lead_of_syncForm (own_go (i := .barrSync l k) rfl h.2)

theorem barrSyncCmb_lead {s : State} {a : BitVec 5} {t : BitVec 1} {l : BitVec 3} {k : BitVec 6}
    (h : Issues s (.barrSyncCmb a t l k)) : (s.ctx s.cur).lead l.toNat k.toNat = 0 :=
  lead_of_syncForm (own_go (i := .barrSyncCmb a t l k) rfl h.2)

/-- Settles O17: the posted forms by what they send, the barrier forms by their waits. -/
theorem syncForms : Obligations.SyncForms := by
  refine fun s a b t u l n => ⟨fun i op x ev h => ?_, ?_, ?_, ?_, ?_, ?_, ?_, ?_⟩
  · simp only [List.mem_cons, List.not_mem_nil, or_false] at h
    rcases h with h | h | h | h <;> cases h
    · exact postSync_spec (exec_joinInit a t b u s) (by simp only [advance_S])
    · exact postSync_spec (exec_joinArrive a t b u s) (by simp only [advance_S])
    · exact postSync_spec (exec_ssigSet a t b u s) (by simp only [advance_S])
    · exact postSync_spec (exec_ssigAdd a t b u s) (by simp only [advance_S])
  · exact issue_spec (exec_barrArr l n s) rfl
  · exact issue_spec (exec_barrWait l n s) rfl
  · exact issue_spec (exec_barrSync l n s) rfl
  · exact issue_spec (exec_barrSyncCmb a t l n s) rfl
  · exact fun h => h.elim barrWait_lead fun h => h.elim barrSync_lead barrSyncCmb_lead
  · exact fun hl hv => by rw [exec_barrSync, execBarrSync, issue_hold hl hv]; rfl
  · exact fun hl hv => by rw [exec_barrSyncCmb, execBarrSyncCmb, issue_hold hl hv]; rfl

end Sys2Proof.Machine

/-! SUPPORT. Lanes of a vector, what a vector operation writes, and the statements about moves and integer lanes (07 R219-R232). -/

namespace Sys2Proof.Machine

/-! ### Lanes (04 R118) -/

theorem lane_lt (w : Nat) (x : VWord) (k : Nat) : lane w x k < 2 ^ w := Nat.mod_lt _ (Nat.two_pow_pos w)

/-- The number whose digits of `w` bits are those of a list. -/
def digits (w : Nat) (l : List Nat) : Nat := l.foldr (fun x a => x % 2 ^ w + 2 ^ w * a) 0

theorem digits_at (w : Nat) (l : List Nat) (k : Nat) : digits w l / 2 ^ (w * k) % 2 ^ w = l.getD k 0 % 2 ^ w := by
  induction l generalizing k with
  | nil => simp [digits]
  | cons x l ih =>
    have hcons : digits w (x :: l) = x % 2 ^ w + 2 ^ w * digits w l := rfl
    cases k with
    | zero => rw [hcons]; simp
    | succ k =>
      have hpow : 2 ^ (w * (k + 1)) = 2 ^ w * 2 ^ (w * k) := by
        rw [← Nat.pow_add, Nat.mul_succ, Nat.add_comm w]
      rw [hcons, hpow, ← Nat.div_div_eq_div_mul, Nat.add_mul_div_left _ _ (Nat.two_pow_pos w),
        Nat.div_eq_of_lt (Nat.mod_lt _ (Nat.two_pow_pos w)), Nat.zero_add, ih]
      rfl

/-- What stands in a field below the width is not cut off by it. -/
theorem mod_div_mod_two_pow {n a b c : Nat} (h : a + b ≤ c) : n % 2 ^ c / 2 ^ a % 2 ^ b = n / 2 ^ a % 2 ^ b := by
  obtain ⟨r, rfl⟩ := Nat.exists_eq_add_of_le h
  rw [Nat.add_assoc, Nat.pow_add, Nat.mod_mul_right_div_self, Nat.pow_add, Nat.mod_mul_right_mod]

theorem lane_ofNat {w k n : Nat} (h : w * k + w ≤ 128) : lane w (BitVec.ofNat 128 n) k = n / 2 ^ (w * k) % 2 ^ w := by
  rw [lane, BitVec.toNat_ofNat, mod_div_mod_two_pow h]

theorem lane_bound {w k : Nat} (h : k < 128 / w) : w * k + w ≤ 128 := by
  have := Nat.mul_le_of_le_div w (k + 1) 128 h
  rw [Nat.mul_comm, Nat.mul_add, Nat.mul_one] at this
  exact this

theorem lane_ofLanes {w k : Nat} (l : List Nat) (h : k < 128 / w) : lane w (ofLanes w l) k = l.getD k 0 % 2 ^ w :=
  (lane_ofNat (lane_bound h)).trans (digits_at w l k)

theorem getD_map_range {α : Type} (f : Nat → α) (x : α) {n k : Nat} (h : k < n) : ((List.range n).map f).getD k x = f k := by
  simp [List.getD_eq_getElem?_getD, h]

/-- Lane by lane what a list of results holds. -/
theorem lane_ofLanes_map {w k : Nat} (f : Nat → Nat) (h : k < 128 / w) :
    lane w (ofLanes w ((List.range (128 / w)).map f)) k = f k % 2 ^ w := by
  rw [lane_ofLanes _ h, getD_map_range _ _ h]

/-! ### What a vector operation writes -/

theorem doesV_spec {s : State} {i : Instr} {eff e : State → State} (he : exec i s = issue i eff s)
    (hadvance : eff (s.advance i) = e (s.advance i)) (hfollows : eff s = e s) : DoesV s i e :=
  ⟨issue_spec he hadvance, fun h => by rw [he, issue_follows h, hfollows]⟩

theorem issueV_spec {s : State} {i : Instr} {d : Nat} {val : State → VWord} {x : VWord} (he : exec i s = issueV i d val s)
    (hadvance : val (s.advance i) = x) (hs : val s = x) : WritesV s i d x [] :=
  doesV_spec he (by rw [hadvance]; rfl) (by rw [hs]; rfl)

theorem issueVC_spec {s : State} {i : Instr} {d : BitVec 6} {val : State → VWord × List Nat} {x : VWord} {l : List Nat}
    (he : exec i s = issueVC i d val s) (hadvance : val (s.advance i) = (x, l)) (hs : val s = (x, l)) :
    WritesV s i d.toNat x l :=
  doesV_spec he (by rw [hadvance, advance_cur]) (by rw [hs])

theorem writesLanes_quiet {s : State} {i : Instr} {d w : Nat} {x : VWord} {f : Nat → Nat} (h : WritesV s i d x [])
    (hx : ∀ k < 128 / w, lane w x k = f k) : WritesLanes s i d w fun k => (f k, []) :=
  ⟨x, by rw [List.flatMap_eq_nil_iff.2 fun _ _ => rfl]; exact h, hx⟩

section
variable {s : State} {i : Instr} {d y : BitVec 6} {op : LaneOp} {vs : State → List VWord}

theorem eachLane_lane (y : BitVec 6) (op : LaneOp) (vs : List VWord) {k : Nat} (h : k < 128 / fmtWidth y) :
    lane (fmtWidth y) (eachLane y op vs).1 k = (op (vs.map fun v => lane (fmtWidth y) v k)).1 % 2 ^ fmtWidth y := by
  simp only [eachLane, List.map_map]
  exact lane_ofLanes_map _ h

theorem eachLane_conds (y : BitVec 6) (op : LaneOp) (vs : List VWord) : (eachLane y op vs).2 =
    (List.range (128 / fmtWidth y)).flatMap fun k => (op (vs.map fun v => lane (fmtWidth y) v k)).2 := by
  simp only [eachLane, List.flatMap_map]

/-- An operation on every lane, by what it makes of each. -/
theorem writesLanes_eachLane {w : Nat} {f : Nat → Nat × List Nat}
    (he : exec i s = issueVC i d (fun s => eachLane y op (vs s)) s) (hvs : vs (s.advance i) = vs s) (hw : w = fmtWidth y)
    (hop : ∀ k, op ((vs s).map fun v => lane w v k) = f k) (hlt : ∀ k, (f k).1 < 2 ^ w) : WritesLanes s i d.toNat w f := by
  subst hw
  refine ⟨(eachLane y op (vs s)).1, ?_, fun k hk => ?_⟩
  · have hconds : (eachLane y op (vs s)).2 = (List.range (128 / fmtWidth y)).flatMap fun k => (f k).2 := by
      simp only [eachLane_conds, hop]
    rw [← hconds]
    exact issueVC_spec he (by rw [hvs]) rfl
  · rw [eachLane_lane y op _ hk, hop, Nat.mod_eq_of_lt (hlt k)]

end

/-! ### Moves (07 R224, R230-R232) -/

theorem lane_mod (w : Nat) (x : VWord) (k : Nat) : lane w x k % 2 ^ w = lane w x k := Nat.mod_eq_of_lt (lane_lt w x k)

theorem lane_shuffle (x y : VWord) {k : Nat} (h : k < 128 / 8) :
    lane 8 (shuffle x y) k = if 128 ≤ lane 8 y k then 0 else lane 8 x (lane 8 y k % 16) := by
  rw [shuffle, lanes, List.map_map, lane_ofLanes_map _ h, Function.comp]
  split
  · rfl
  · exact lane_mod 8 x _

theorem getD_set_map_range (f : Nat → Nat) (x i : Nat) {n k : Nat} (h : k < n) :
    (((List.range n).map f).set i x).getD k 0 = if k = i then x else f k := by
  rw [List.getD_eq_getElem?_getD, List.getElem?_set]
  by_cases hi : i = k
  · subst hi; simp [h]
  · simp [hi, h, Ne.symm hi]

theorem lane_setLane {w : Nat} (x : VWord) (i z : Nat) {k : Nat} (h : k < 128 / w) :
    lane w (setLane w x i z) k = if k = i then z % 2 ^ w else lane w x k := by
  rw [setLane, lanes, lane_ofLanes _ h, getD_set_map_range _ _ _ h]
  split
  · rfl
  · exact lane_mod w x k

theorem lane_splat {w : Nat} (z : Nat) {k : Nat} (h : k < 128 / w) :
    lane w (ofLanes w (List.replicate (128 / w) z)) k = z % 2 ^ w := by
  rw [lane_ofLanes _ h, List.getD_eq_getElem?_getD, List.getElem?_replicate, if_pos h, Option.getD_some]

/-! ### The CRC of sixteen bytes (07 R232) -/

/-- One bit of the CRC. -/
def crcBit (c : BitVec 32) : BitVec 32 := if c.getLsbD 0 then c >>> 1 ^^^ 0x82F63B78 else c >>> 1

theorem crcBit_toNat (c : BitVec 32) :
    (crcBit c).toNat = if c.toNat % 2 = 1 then c.toNat / 2 ^^^ 0x82F63B78 else c.toNat / 2 := by
  have hbit : c.getLsbD 0 = decide (c.toNat % 2 = 1) := by rw [BitVec.getLsbD, Nat.testBit_zero]
  rw [crcBit, hbit, apply_ite BitVec.toNat, BitVec.toNat_xor, BitVec.toNat_ushiftRight,
    Nat.shiftRight_eq_div_pow, Nat.pow_one]
  simp

theorem crcStep_toNat (c : BitVec 32) {b : Nat} (hb : b < 2 ^ 8) : crcStep c.toNat b =
    ((List.range 8).foldl (fun c _ => crcBit c) (c ^^^ BitVec.ofNat 32 b)).toNat := by
  have hfold (l : List Nat) (x : BitVec 32) : l.foldl
      (fun c _ => if c % 2 = 1 then c / 2 ^^^ 0x82F63B78 else c / 2) x.toNat = (l.foldl (fun c _ => crcBit c) x).toNat := by
    induction l generalizing x with
    | nil => rfl
    | cons _ l ih => rw [List.foldl_cons, List.foldl_cons, ← crcBit_toNat, ih]
  have hx : c.toNat ^^^ b = (c ^^^ BitVec.ofNat 32 b).toNat := by
    rw [BitVec.toNat_xor, BitVec.toNat_ofNat, Nat.mod_eq_of_lt (by omega)]
  rw [crcStep, hx, hfold]

/-- Bit by bit and byte by byte give the same. -/
theorem crc_bits_eq_bytes (f : Nat → Nat) (hf : ∀ k, f k < 2 ^ 8) (c : BitVec 32) (n : Nat) :
    ((List.range (8 * n)).foldl (fun (c : BitVec 32) k =>
      crcBit (if k % 8 = 0 then c ^^^ BitVec.ofNat 32 (f (k / 8)) else c)) c).toNat =
      ((List.range n).map f).foldl crcStep c.toNat := by
  induction n with
  | zero => rfl
  | succ n ih =>
    rw [Nat.mul_add, Nat.mul_one, List.range_add, List.foldl_append, List.range_succ (n := n), List.map_append, List.foldl_append,
      ← ih, List.map_singleton, List.foldl_cons, List.foldl_nil, crcStep_toNat _ (hf n)]
    have h8 : List.range 8 = [0, 1, 2, 3, 4, 5, 6, 7] := rfl
    have hdiv : 8 * n / 8 = n := by omega
    simp [h8, hdiv]

theorem vcrc_eq (x y : VWord) : BitVec.ofNat 128 ((lanes 8 x).foldl crcStep (lane 32 y 0)) =
    BitVec.ofNat 128 ((List.range 128).foldl (fun (c : BitVec 32) k =>
      crcBit (if k % 8 = 0 then c ^^^ BitVec.ofNat 32 (lane 8 x (k / 8)) else c)) (BitVec.ofNat 32 y.toNat)).toNat := by
  have hstart : lane 32 y 0 = (BitVec.ofNat 32 y.toNat).toNat := by simp [lane]
  rw [hstart, lanes, ← crc_bits_eq_bytes _ (lane_lt 8 x)]

/-! ### The scalar that is taken out (07 R230) -/

theorem valInt_signed {w : Nat} (hw : 0 < w) (c : Nat) : valInt ⟨w, true⟩ c = (BitVec.ofNat w c).toInt := by
  have hpow : 2 ^ w = 2 * 2 ^ (w - 1) := by rw [← Nat.pow_succ']; congr 1; omega
  simp only [valInt, Bool.true_and, decide_eq_true_eq, BitVec.toInt_eq_toNat_cond, BitVec.toNat_ofNat]
  split <;> split
  · omega
  · rfl
  · rfl
  · omega

theorem valInt_unsigned (w c : Nat) : valInt ⟨w, false⟩ c = ((c % 2 ^ w : Nat) : Int) := rfl

/-- The integer format of a code that a lane move accepts. -/
theorem intFmt_of_moveLane (y : BitVec 6) (h : moveLane y = true) : intFmt y =
    if 1 ≤ y.toNat ∧ y.toNat ≤ 4 ∨ 9 ≤ y.toNat ∧ y.toNat ≤ 12 then some ⟨fmtWidth y, decide (9 ≤ y.toNat)⟩ else none := by
  revert y; decide

theorem fmtWidth_pos (y : BitVec 6) : 0 < fmtWidth y := by revert y; decide

theorem extracted_eq (y : BitVec 6) (h : moveLane y = true) (x : VWord) (i : Nat) : extracted y x i =
    if 9 ≤ y.toNat ∧ y.toNat ≤ 12 then BitVec.ofInt 64 (BitVec.ofNat (fmtWidth y) (lane (fmtWidth y) x i)).toInt
    else BitVec.ofNat 64 (lane (fmtWidth y) x i) := by
  rw [extracted, intFmt_of_moveLane y h]
  by_cases hs : 9 ≤ y.toNat ∧ y.toNat ≤ 12
  · rw [if_pos (.inr hs), if_pos hs, decide_eq_true hs.1, ← valInt_signed (fmtWidth_pos y)]
  · rw [if_neg hs]
    by_cases hu : 1 ≤ y.toNat ∧ y.toNat ≤ 4
    · rw [if_pos (.inl hu), decide_eq_false (by omega)]
      simp only [valInt_unsigned, lane_mod, BitVec.ofInt_natCast]
    · rw [if_neg (by omega)]

/-- Settles O18: bitwise forms on whole registers, the others lane by lane, the CRC bit by bit. -/
theorem vectorMoves : Obligations.VectorMoves := by
  refine fun s d a b t u r y i => ⟨?_, ?_, ?_, ?_, ?_, ?_, ?_, ?_, fun hy => ⟨?_, ?_, ?_⟩⟩
  · exact issueV_spec (exec_vand d a t b u s) (by simp only [advance_V]) rfl
  · exact issueV_spec (exec_vor d a t b u s) (by simp only [advance_V]) rfl
  · exact issueV_spec (exec_vxor d a t b u s) (by simp only [advance_V]) rfl
  · exact issueV_spec (exec_vandn d a t b u s) (by simp only [advance_V]) rfl
  · exact issueV_spec (exec_vsel d a t b u s) (by simp only [advance_V]) rfl
  · exact issueV_spec (exec_vmov d a t s) (by simp only [advance_V]) rfl
  · exact writesLanes_quiet (issueV_spec (exec_vshuf d a t b u s) (by simp only [advance_V]) rfl)
      fun k hk => lane_shuffle _ _ hk
  · exact issueV_spec (exec_vcrc d a t s) (by simp only [advance_V]; exact vcrc_eq _ _) (vcrc_eq _ _)
  · exact writesLanes_quiet (issueV_spec (exec_vsplat d r t y s) (by simp only [advance_SV]) rfl)
      fun k hk => lane_splat _ hk
  · exact writesLanes_quiet (issueV_spec (exec_vins d r t y i s) (by simp only [advance_SV, advance_V]) rfl)
      fun k hk => lane_setLane _ _ _ hk
  · exact doesV_spec (exec_vext r a t y i s) (by simp only [advance_V, extracted_eq y hy]) (by rw [extracted_eq y hy])

end Sys2Proof.Machine

/-! SUPPORT. Integer lanes: what each operation makes of the numbers in the lanes, and the reductions (07 R222-R228). -/

namespace Sys2Proof.Machine

/-! ### The lane operation of an integer type -/

theorem intLane_format (y : BitVec 6) (h : intLane y = true) :
    laneFloat y = none ∧ intFmt y = some ⟨fmtWidth y, decide (9 ≤ y.toNat)⟩ := by
  revert y; decide

theorem laneOp_intLane {y : BitVec 6} (h : intLane y = true) (int : IntFmt → List Nat → Nat) (flt : FloatFmt → Nat → LaneOp) :
    laneOp y int flt = fun l => (int ⟨fmtWidth y, decide (9 ≤ y.toNat)⟩ l, []) := by
  rw [laneOp, (intLane_format y h).1, (intLane_format y h).2]

section
variable {s : State} {i : Instr} {d y : BitVec 6} {vs : State → List VWord} {int : IntFmt → List Nat → Nat}
  {flt : FloatFmt → Nat → LaneOp} {w : Nat} {f : Nat → Nat}

/-- An operation on every integer lane counts no condition. -/
theorem writesLanes_int (hy : intLane y = true)
    (he : exec i s = issueVC i d (fun s => eachLane y (laneOp y int flt) (vs s)) s) (hvs : vs (s.advance i) = vs s)
    (hw : w = fmtWidth y) (hop : ∀ k, int ⟨w, decide (9 ≤ y.toNat)⟩ ((vs s).map fun v => lane w v k) = f k)
    (hlt : ∀ k, f k < 2 ^ w) : WritesLanes s i d.toNat w fun k => (f k, []) :=
  writesLanes_eachLane he hvs hw (fun k => by rw [laneOp_intLane hy, ← hw]; exact congrArg (·, []) (hop k)) hlt

end

/-! ### Numbers in lanes (04 R119, R120) -/

theorem wrapInt_natCast (w n : Nat) : wrapInt w (n : Int) = n % 2 ^ w := by
  rw [wrapInt]
  have h : ((2 : Int) ^ w) = ((2 ^ w : Nat) : Int) := by push_cast; rfl
  rw [h, ← Int.natCast_emod, Int.toNat_natCast]

theorem wrapInt_lt (w : Nat) (x : Int) : wrapInt w x < 2 ^ w := by
  have h : ((2 : Int) ^ w) = ((2 ^ w : Nat) : Int) := by push_cast; rfl
  have hpos : (0 : Int) < ((2 ^ w : Nat) : Int) := by exact_mod_cast Nat.two_pow_pos w
  have := Int.emod_lt_of_pos x hpos
  have := Int.emod_nonneg x (Int.ne_of_gt hpos)
  rw [wrapInt, h]; omega

theorem wrapInt_add_mul (w : Nat) (x k : Int) : wrapInt w (x + 2 ^ w * k) = wrapInt w x := by
  rw [wrapInt, Int.add_mul_emod_self_left]; rfl

theorem wrapInt_sub {w a b : Nat} (hb : b ≤ 2 ^ w) : wrapInt w ((a : Int) - b) = (a + 2 ^ w - b) % 2 ^ w := by
  have hcast : ((a + 2 ^ w - b : Nat) : Int) = (a : Int) - b + 2 ^ w * 1 := by
    have hpow : ((2 ^ w : Nat) : Int) = 2 ^ w := by push_cast; rfl
    rw [Int.natCast_sub (by omega), Int.natCast_add, hpow]
    omega
  rw [← wrapInt_natCast, hcast, wrapInt_add_mul]

/-- The value of a code is the code, or 2 ^ w below it. -/
theorem laneS_cases (w c : Nat) (b : Bool) (hc : c < 2 ^ w) :
    laneS ⟨w, b⟩ c = c ∨ laneS ⟨w, b⟩ c = (c : Int) - 2 ^ w ∧ 2 ^ (w - 1) ≤ c := by
  simp only [laneS, valInt, Nat.mod_eq_of_lt hc]
  split
  next h => exact .inr ⟨rfl, of_decide_eq_true (Bool.and_eq_true_iff.1 h).2⟩
  next => exact .inl rfl

/-- The code of a value is the code. -/
theorem wrapInt_laneS {w c : Nat} (b : Bool) (hc : c < 2 ^ w) : wrapInt w (laneS ⟨w, b⟩ c) = c := by
  have hcode : wrapInt w (c : Int) = c := (wrapInt_natCast w c).trans (Nat.mod_eq_of_lt hc)
  rcases laneS_cases w c b hc with h | ⟨h, -⟩
  · rw [h, hcode]
  · rw [h, ← wrapInt_add_mul w _ 1, Int.mul_one, Int.sub_add_cancel, hcode]

theorem laneS_inj {w p q : Nat} (b : Bool) (hp : p < 2 ^ w) (hq : q < 2 ^ w) : laneS ⟨w, b⟩ p = laneS ⟨w, b⟩ q ↔ p = q :=
  ⟨fun h => by rw [← wrapInt_laneS b hp, h, wrapInt_laneS b hq], fun h => by rw [h]⟩

theorem iNeg_eq {w c : Nat} (b : Bool) (hc : c < 2 ^ w) : iNeg ⟨w, b⟩ c = (2 ^ w - c) % 2 ^ w := by
  have h0 : wrapInt w (-(c : Int)) = (2 ^ w - c) % 2 ^ w := by
    have h := wrapInt_sub (w := w) (a := 0) (b := c) (Nat.le_of_lt hc)
    simpa using h
  rcases laneS_cases w c b hc with h | ⟨h, -⟩
  · rw [iNeg, h, h0]
  · rw [iNeg, h, ← h0, ← wrapInt_add_mul w (-(c : Int)) 1]
    congr 1; omega

theorem iAbs_eq {w c : Nat} (b : Bool) (hc : c < 2 ^ w) :
    iAbs ⟨w, b⟩ c = if laneS ⟨w, b⟩ c < 0 then 2 ^ w - c else c := by
  have hcast : ((2 ^ w : Nat) : Int) = 2 ^ w := by push_cast; rfl
  rcases laneS_cases w c b hc with h | ⟨h, hhalf⟩
  · rw [iAbs, h, if_neg (by omega), wrapInt_natCast, Int.natAbs_natCast, Nat.mod_eq_of_lt hc]
  · have hpos : 0 < c := Nat.lt_of_lt_of_le (Nat.two_pow_pos _) hhalf
    have habs : ((c : Int) - 2 ^ w).natAbs = 2 ^ w - c := by omega
    have hneg : (c : Int) - 2 ^ w < 0 := by omega
    have hlt : 2 ^ w - c < 2 ^ w := by omega
    simp only [iAbs, h, habs, wrapInt_natCast, Nat.mod_eq_of_lt hlt, if_pos hneg]

theorem wrapInt_toInt {w : Nat} (x : BitVec w) : wrapInt w x.toInt = x.toNat := by
  have h : x.toNat = (BitVec.ofInt w x.toInt).toNat := by rw [BitVec.ofInt_toInt]
  rw [h, BitVec.toNat_ofInt, wrapInt, Int.natCast_pow, Int.cast_ofNat_Int]

theorem wrapInt_sshiftRight {w : Nat} (hw : 0 < w) (c n : Nat) :
    wrapInt w (valInt ⟨w, true⟩ c / 2 ^ n) = ((BitVec.ofNat w c).sshiftRight n).toNat := by
  rw [← wrapInt_toInt, BitVec.toInt_sshiftRight, Int.shiftRight_eq_div_pow, valInt_signed hw, Int.natCast_pow,
    Int.cast_ofNat_Int]

/-! ### Reductions of integer lanes (07 R227) -/

theorem length_pairUp (op : LaneOp) : ∀ l : List Nat, (pairUp op l).1.length = (l.length + 1) / 2
  | [] => rfl
  | [_] => by simp [pairUp]
  | a :: b :: l => by
    have ih := length_pairUp op l
    simp only [pairUp, List.length_cons]
    omega

/-- A reduction keeps what every level keeps, down to one lane. -/
theorem tree_spec {op : LaneOp} {P : List Nat → Prop} (hP : ∀ l, P l → P (pairUp op l).1) (n : Nat) (l : List Nat)
    (hl : 0 < l.length) (hn : l.length ≤ 2 ^ n) (h : P l) : P [(tree op n l).1] := by
  induction n generalizing l with
  | zero =>
    match l, hl, hn with
    | [a], _, _ => exact h
  | succ n ih =>
    have hlen := length_pairUp op l
    exact ih _ (by omega) (by rw [Nat.pow_succ] at hn; omega) (hP l h)

theorem pairUp_quiet {op : LaneOp} (h : ∀ l, (op l).2 = []) : ∀ l : List Nat, (pairUp op l).2 = []
  | [] => rfl
  | [_] => by simp [pairUp]
  | a :: b :: l => by simp [pairUp, h, pairUp_quiet h l]

theorem tree_quiet {op : LaneOp} (h : ∀ l, (op l).2 = []) (n : Nat) (l : List Nat) : (tree op n l).2 = [] := by
  induction n generalizing l with
  | zero => rfl
  | succ n ih => simp [tree, pairUp_quiet h, ih]

theorem sum_pairUp {op : LaneOp} {M : Nat} (h : ∀ a b, (op [a, b]).1 % M = (a + b) % M) :
    ∀ l : List Nat, (pairUp op l).1.sum % M = l.sum % M
  | [] => rfl
  | [_] => by simp [pairUp]
  | a :: b :: l => by
    have ih := sum_pairUp h l
    simp only [pairUp, List.sum_cons]
    rw [Nat.add_mod, h a b, ih, ← Nat.add_mod, Nat.add_assoc]

/-- The lanes that are left are some of the first ones, one of them not above each. -/
def Least (v : Nat → Int) (first l : List Nat) : Prop := (∀ x ∈ l, x ∈ first) ∧ ∀ m ∈ first, ∃ x ∈ l, v x ≤ v m

theorem mem_pairUp {op : LaneOp} (h : ∀ a b, (op [a, b]).1 = a ∨ (op [a, b]).1 = b) :
    ∀ l : List Nat, ∀ x ∈ (pairUp op l).1, x ∈ l
  | [], x, hx => hx
  | [_], x, hx => by simpa [pairUp] using hx
  | a :: b :: l, x, hx => by
    simp only [pairUp, List.mem_cons] at hx ⊢
    rcases hx with hx | hx
    · exact (h a b).elim (fun e => .inl (hx.trans e)) fun e => .inr (.inl (hx.trans e))
    · exact .inr (.inr (mem_pairUp h l x hx))

theorem exists_le_pairUp {op : LaneOp} {v : Nat → Int} (h : ∀ a b, v (op [a, b]).1 ≤ v a ∧ v (op [a, b]).1 ≤ v b) :
    ∀ l : List Nat, ∀ x ∈ l, ∃ z ∈ (pairUp op l).1, v z ≤ v x
  | [], x, hx => absurd hx List.not_mem_nil
  | [_], x, hx => ⟨x, by simpa [pairUp] using hx, Int.le_refl _⟩
  | a :: b :: l, x, hx => by
    simp only [pairUp, List.mem_cons] at hx ⊢
    rcases hx with rfl | rfl | hx
    · exact ⟨_, .inl rfl, (h x b).1⟩
    · exact ⟨_, .inl rfl, (h a x).2⟩
    · obtain ⟨z, hz, hle⟩ := exists_le_pairUp h l x hx
      exact ⟨z, .inr hz, hle⟩

theorem least_pairUp {op : LaneOp} {v : Nat → Int} (hmem : ∀ a b, (op [a, b]).1 = a ∨ (op [a, b]).1 = b)
    (hle : ∀ a b, v (op [a, b]).1 ≤ v a ∧ v (op [a, b]).1 ≤ v b) {first : List Nat} (l : List Nat) (h : Least v first l) :
    Least v first (pairUp op l).1 := by
  refine ⟨fun x hx => h.1 x (mem_pairUp hmem l x hx), fun m hm => ?_⟩
  obtain ⟨x, hx, hxm⟩ := h.2 m hm
  obtain ⟨z, hz, hzx⟩ := exists_le_pairUp hle l x hx
  exact ⟨z, hz, Int.le_trans hzx hxm⟩

theorem lanes_length (w : Nat) (x : VWord) : (lanes w x).length = 128 / w := by simp [lanes]

theorem intLane_lanes (y : BitVec 6) (h : intLane y = true) : 0 < 128 / fmtWidth y ∧ 128 / fmtWidth y ≤ 2 ^ 4 := by
  revert y; decide

/-- The result of a reduction is in lane 0, zero in the others. -/
theorem lane_single {w z k : Nat} (hz : z < 2 ^ w) (hk : k < 128 / w) : lane w (ofLanes w [z]) k = if k = 0 then z else 0 := by
  rw [lane_ofLanes _ hk]
  cases k with
  | zero => exact Nat.mod_eq_of_lt hz
  | succ k => exact Nat.zero_mod _

section
variable {s : State} {i : Instr} {d a y : BitVec 6} {int : IntFmt → List Nat → Nat} {flt : FloatFmt → Nat → LaneOp}

theorem writesV_reduce_int (hy : intLane y = true)
    (he : exec i s = issueVC i d (fun s => reduce y (laneOp y int flt) (s.V a.toNat)) s) : WritesV s i d.toNat
      (ofLanes (fmtWidth y) [(tree (laneOp y int flt) 4 (lanes (fmtWidth y) (s.V a.toNat))).1]) [] := by
  have hquiet : (tree (laneOp y int flt) 4 (lanes (fmtWidth y) (s.V a.toNat))).2 = [] :=
    tree_quiet (fun l => by rw [laneOp_intLane hy]) _ _
  have h := issueVC_spec (x := (reduce y (laneOp y int flt) (s.V a.toNat)).1)
    (l := (reduce y (laneOp y int flt) (s.V a.toNat)).2) he (by rw [advance_V]) rfl
  simpa only [reduce, hquiet] using h

/-- The least of the lanes by `v`, at a lane that holds it. -/
theorem reduce_least {v : Nat → Int} (hy : intLane y = true)
    (he : exec i s = issueVC i d (fun s => reduce y (laneOp y int flt) (s.V a.toNat)) s)
    (hmem : ∀ p q, int ⟨fmtWidth y, decide (9 ≤ y.toNat)⟩ [p, q] = p ∨ int ⟨fmtWidth y, decide (9 ≤ y.toNat)⟩ [p, q] = q)
    (hle : ∀ p q, v (int ⟨fmtWidth y, decide (9 ≤ y.toNat)⟩ [p, q]) ≤ v p ∧
      v (int ⟨fmtWidth y, decide (9 ≤ y.toNat)⟩ [p, q]) ≤ v q) :
    ∃ j < 128 / fmtWidth y, (∀ m < 128 / fmtWidth y, v (lane (fmtWidth y) (s.V a.toNat) j) ≤
      v (lane (fmtWidth y) (s.V a.toNat) m)) ∧ WritesLanes s i d.toNat (fmtWidth y) fun k =>
        (if k = 0 then lane (fmtWidth y) (s.V a.toNat) j else 0, []) := by
  obtain ⟨hpos, hlen⟩ := intLane_lanes y hy
  have hop : laneOp y int flt = fun l => (int ⟨fmtWidth y, decide (9 ≤ y.toNat)⟩ l, []) := laneOp_intLane hy int flt
  obtain ⟨hin, hleast⟩ := tree_spec (op := laneOp y int flt) (P := Least v (lanes (fmtWidth y) (s.V a.toNat)))
    (least_pairUp (by rw [hop]; exact hmem) (by rw [hop]; exact hle)) 4 (lanes (fmtWidth y) (s.V a.toNat))
    (by rw [lanes_length]; exact hpos) (by rw [lanes_length]; exact hlen)
    ⟨fun _ h => h, fun m hm => ⟨m, hm, Int.le_refl _⟩⟩
  obtain ⟨j, hj, hjeq⟩ := List.mem_map.1 (hin _ (List.mem_singleton.2 rfl))
  have hj : j < 128 / fmtWidth y := List.mem_range.1 hj
  refine ⟨j, hj, fun m hm => ?_, writesLanes_quiet (writesV_reduce_int hy he) fun k hk => ?_⟩
  · obtain ⟨z, hz, hzm⟩ := hleast _ (List.mem_map.2 ⟨m, List.mem_range.2 hm, rfl⟩)
    rw [hjeq, ← List.mem_singleton.1 hz]
    exact hzm
  · rw [← hjeq]
    exact lane_single (lane_lt _ _ _) hk

/-- The sum of the lanes, wrapped. -/
theorem reduce_sum (hy : intLane y = true)
    (he : exec i s = issueVC i d (fun s => reduce y (laneOp y (int2 iAdd) flt) (s.V a.toNat)) s) :
    WritesLanes s i d.toNat (fmtWidth y) fun k => (if k = 0 then
      ((List.range (128 / fmtWidth y)).map (lane (fmtWidth y) (s.V a.toNat))).sum % 2 ^ fmtWidth y else 0, []) := by
  obtain ⟨hpos, hlen⟩ := intLane_lanes y hy
  have hop : laneOp y (int2 iAdd) flt = fun l => (int2 iAdd ⟨fmtWidth y, decide (9 ≤ y.toNat)⟩ l, []) :=
    laneOp_intLane hy _ flt
  have hsum : (tree (laneOp y (int2 iAdd) flt) 4 (lanes (fmtWidth y) (s.V a.toNat))).1 % 2 ^ fmtWidth y =
      (lanes (fmtWidth y) (s.V a.toNat)).sum % 2 ^ fmtWidth y := by
    have h := tree_spec (op := laneOp y (int2 iAdd) flt) (P := fun l => l.sum % 2 ^ fmtWidth y =
      (lanes (fmtWidth y) (s.V a.toNat)).sum % 2 ^ fmtWidth y)
      (fun l hl => (sum_pairUp (fun p q => by
        rw [hop]
        exact (congrArg (· % 2 ^ fmtWidth y) (wrapInt_natCast _ (p + q))).trans (Nat.mod_mod _ _)) l).trans hl)
      4 (lanes (fmtWidth y) (s.V a.toNat)) (by rw [lanes_length]; exact hpos) (by rw [lanes_length]; exact hlen) rfl
    simpa using h
  refine writesLanes_quiet (writesV_reduce_int hy he) fun k hk => ?_
  rw [lane_ofLanes _ hk]
  cases k with
  | zero => exact hsum
  | succ k => exact Nat.zero_mod _

end

/-! ### The obligation -/

theorem lt_two_pow_of_ite {w p q : Nat} {c : Prop} [Decidable c] (hp : p < 2 ^ w) (hq : q < 2 ^ w) :
    (if c then p else q) < 2 ^ w := by
  split
  · exact hp
  · exact hq

theorem mask_lt (w : Nat) : 2 ^ w - 1 < 2 ^ w := Nat.sub_lt (Nat.two_pow_pos w) Nat.one_pos

theorem iMin_mem (f : IntFmt) (p q : Nat) : iMin f p q = p ∨ iMin f p q = q := by
  unfold iMin; split
  · exact .inr rfl
  · exact .inl rfl

theorem iMax_mem (f : IntFmt) (p q : Nat) : iMax f p q = p ∨ iMax f p q = q := by
  unfold iMax; split
  · exact .inr rfl
  · exact .inl rfl

theorem laneS_iMin_le (f : IntFmt) (p q : Nat) : laneS f (iMin f p q) ≤ laneS f p ∧ laneS f (iMin f p q) ≤ laneS f q := by
  unfold iMin; split <;> omega

theorem laneS_le_iMax (f : IntFmt) (p q : Nat) : laneS f p ≤ laneS f (iMax f p q) ∧ laneS f q ≤ laneS f (iMax f p q) := by
  unfold iMax; split <;> omega

/-- The lesser of the greater of `x` and `p`, and `q`. -/
theorem iMin_iMax (f : IntFmt) (x p q : Nat) : iMin f (iMax f x p) q =
    if laneS f x < laneS f p then (if laneS f q < laneS f p then q else p)
    else if laneS f q < laneS f x then q else x := by
  unfold iMin iMax; split <;> rfl

/-- The value of a lane as the type of its code reads it. -/
theorem laneS_eq {w : Nat} (hw : 0 < w) (y : BitVec 6) (c : Nat) : laneS ⟨w, decide (9 ≤ y.toNat)⟩ c =
    if 9 ≤ y.toNat then (BitVec.ofNat w c).toInt else ((c % 2 ^ w : Nat) : Int) := by
  split
  next h => rw [laneS, decide_eq_true h, valInt_signed hw]
  next h => rw [laneS, decide_eq_false h, valInt_unsigned]

/-- Settles O19: every elementwise form by its operation on one lane, the reductions by their tree. -/
theorem integerLanes : Obligations.IntegerLanes := by
  intro s d a b t u y n w v A B D hy hw hv hA hB hD
  obtain rfl : v = laneS ⟨w, decide (9 ≤ y.toNat)⟩ :=
    funext fun c => (hv c).trans (laneS_eq (hw ▸ fmtWidth_pos y) y c).symm
  have hAlt (k : Nat) : A k < 2 ^ w := hA ▸ lane_lt w _ k
  have hBlt (k : Nat) : B k < 2 ^ w := hB ▸ lane_lt w _ k
  have hDlt (k : Nat) : D k < 2 ^ w := hD ▸ lane_lt w _ k
  have hmod (z : Nat) : z % 2 ^ w < 2 ^ w := Nat.mod_lt _ (Nat.two_pow_pos w)
  have hmask (c : Bool) : mask y c = if c then 2 ^ w - 1 else 0 := by rw [mask, hw]
  have hzero : 0 < 2 ^ w := Nat.two_pow_pos w
  subst hA hB hD
  refine ⟨?_, ?_, ?_, ?_, ?_, ?_, ?_, ?_, ?_, ?_, ?_, ?_, ?_, ?_, ?_, ?_, ?_, ?_⟩
  · exact writesLanes_int hy (exec_vadd d a t b u y s) (by simp only [advance_V]) hw
      (fun k => wrapInt_natCast w (_ + _)) fun k => hmod _
  · exact writesLanes_int hy (exec_vsub d a t b u y s) (by simp only [advance_V]) hw
      (fun k => wrapInt_sub (Nat.le_of_lt (hBlt k))) fun k => hmod _
  · exact writesLanes_int hy (exec_vmul d a t b u y s) (by simp only [advance_V]) hw
      (fun k => wrapInt_natCast w (_ * _)) fun k => hmod _
  · exact writesLanes_int hy (exec_vmin d a t b u y s) (by simp only [advance_V]) hw
      (fun k => rfl) fun k => lt_two_pow_of_ite (hBlt k) (hAlt k)
  · exact writesLanes_int hy (exec_vmax d a t b u y s) (by simp only [advance_V]) hw
      (fun k => rfl) fun k => lt_two_pow_of_ite (hBlt k) (hAlt k)
  · refine writesLanes_int hy (exec_vabs d a t y s) (by simp only [advance_V]) hw (fun k => iAbs_eq _ (hAlt k)) fun k => ?_
    rw [← iAbs_eq _ (hAlt k)]
    exact wrapInt_lt w _
  · exact writesLanes_int hy (exec_vneg d a t y s) (by simp only [advance_V]) hw (fun k => iNeg_eq _ (hAlt k))
      fun k => hmod _
  · exact writesLanes_int hy (exec_vclamp d a t b u y s) (by simp only [advance_V]) hw
      (fun k => iMin_iMax _ _ _ _) fun k => lt_two_pow_of_ite (lt_two_pow_of_ite (hBlt k) (hAlt k))
        (lt_two_pow_of_ite (hBlt k) (hDlt k))
  · exact writesLanes_int hy (exec_vceq d a t b u y s) (by simp only [advance_V]) hw
      (fun k => (hmask _).trans (by simp only [List.map, List.getD_cons_zero, List.getD_cons_succ, decide_eq_true_eq,
        laneS_inj _ (hAlt k) (hBlt k)])) fun k => lt_two_pow_of_ite (mask_lt w) hzero
  · exact writesLanes_int hy (exec_vcne d a t b u y s) (by simp only [advance_V]) hw
      (fun k => (hmask _).trans (by simp only [List.map, List.getD_cons_zero, List.getD_cons_succ, decide_eq_true_eq,
        ne_eq, laneS_inj _ (hAlt k) (hBlt k), ite_not])) fun k => lt_two_pow_of_ite hzero (mask_lt w)
  · exact writesLanes_int hy (exec_vclt d a t b u y s) (by simp only [advance_V]) hw
      (fun k => (hmask _).trans (ite_congr (propext decide_eq_true_iff) (fun _ => rfl) fun _ => rfl)) fun k => lt_two_pow_of_ite (mask_lt w) hzero
  · exact writesLanes_int hy (exec_vcle d a t b u y s) (by simp only [advance_V]) hw
      (fun k => (hmask _).trans (ite_congr (propext decide_eq_true_iff) (fun _ => rfl) fun _ => rfl)) fun k => lt_two_pow_of_ite (mask_lt w) hzero
  · exact writesLanes_int hy (exec_vsll d a t y n s) (by simp only [advance_V]) hw (fun k => rfl) fun k => hmod _
  · exact writesLanes_int hy (exec_vsrl d a t y n s) (by simp only [advance_V]) hw (fun k => rfl)
      fun k => Nat.lt_of_le_of_lt (Nat.div_le_self _ _) (hAlt k)
  · exact writesLanes_int hy (exec_vsra d a t y n s) (by simp only [advance_V]) hw
      (fun k => wrapInt_sshiftRight (hw ▸ fmtWidth_pos y) _ _) fun k => BitVec.isLt _
  · subst hw
    exact reduce_sum hy (exec_vredadd d a t y s)
  · subst hw
    exact reduce_least hy (exec_vredmin d a t y s) (iMin_mem _) (laneS_iMin_le _)
  · subst hw
    obtain ⟨j, hj, hmax, hwrites⟩ := reduce_least (v := fun c => -laneS ⟨fmtWidth y, decide (9 ≤ y.toNat)⟩ c) hy
      (exec_vredmax d a t y s) (iMax_mem _) fun p q => by
        have h := laneS_le_iMax ⟨fmtWidth y, decide (9 ≤ y.toNat)⟩ p q
        exact ⟨Int.neg_le_neg h.1, Int.neg_le_neg h.2⟩
    exact ⟨j, hj, fun m hm => Int.le_of_neg_le_neg (hmax m hm), hwrites⟩

end Sys2Proof.Machine

/-! SUPPORT. Float lanes: rounding a value that has a code, codes that fit their width, and the statements about float lanes,
dot products, conversions, reductions and special functions (04 R121-R145, 07 R222-R238). -/

namespace Sys2Proof.Machine

/-! ### Codes that fit (04 R121-R126) -/

/-- The bits of a magnitude code. -/
def FloatFmt.magBits (f : FloatFmt) : Nat := if f.signed then f.bits - 1 else f.bits

/-- The codes of a format fit its width. -/
def FloatFmt.fits (f : FloatFmt) : Bool :=
  0 < f.bits && f.maxCode < 2 ^ f.magBits && f.infCode.all (· < 2 ^ f.magBits) && f.nanCode < 2 ^ f.bits

theorem floatFmt_fits (y : BitVec 6) : (floatFmt y).all (fun f => f.fits && f.bits = fmtWidth y) = true := by
  revert y; decide

/-- The formats of a float lane type, and the width of its lanes. -/
theorem laneFloat_format (y : BitVec 6) : (laneFloat y).all (fun p =>
    (p.1 = f16 || p.1 = bf16 || p.1 = f32) && p.1.fits && p.1.bits = fmtWidth y) = true := by
  revert y; decide

section
variable {f : FloatFmt} (hf : f.fits = true)
include hf

theorem fits_parts : 0 < f.bits ∧ f.maxCode < 2 ^ f.magBits ∧ f.infCode.getD f.maxCode < 2 ^ f.magBits ∧
    f.nanCode < 2 ^ f.bits := by
  simp only [FloatFmt.fits, Bool.and_eq_true, decide_eq_true_eq] at hf
  obtain ⟨⟨⟨hbits, hmax⟩, hinf⟩, hnan⟩ := hf
  refine ⟨hbits, hmax, ?_, hnan⟩
  cases h : f.infCode with
  | none => exact hmax
  | some c => simpa [h] using hinf

/-- A magnitude code with its sign fits. -/
theorem encMag_lt {c : Nat} (hc : c < 2 ^ f.magBits) (n : Bool) : encMag f n c < 2 ^ f.bits := by
  obtain ⟨hbits, -⟩ := fits_parts hf
  have hpow : 2 ^ f.bits = 2 ^ (f.bits - 1) + 2 ^ (f.bits - 1) := by rw [← Nat.two_mul, ← Nat.pow_succ']; congr 1; omega
  unfold FloatFmt.magBits at hc
  unfold encMag
  cases hs : f.signed with
  | true =>
    rw [hs, if_pos rfl] at hc
    split <;> omega
  | false =>
    rw [hs] at hc
    simpa using hc

theorem roundIeee_lt (mode : Nat) (v : Val) : (roundIeee f mode v).1 < 2 ^ f.bits := by
  obtain ⟨-, hmax, hinf, hnan⟩ := fits_parts hf
  cases v with
  | nan => exact hnan
  | inf n => exact encMag_lt hf hinf n
  | fin n m e b =>
    simp only [roundIeee]
    split
    · split
      · exact encMag_lt hf hmax n
      · exact encMag_lt hf hinf n
    · exact encMag_lt hf (by omega) n

theorem roundOp_lt (mode : Nat) (r : Val × Bool) (b : Bool) : (roundOp f mode r b).1 < 2 ^ f.bits := roundIeee_lt hf mode r.1

theorem convertFloat_lt (mode : Nat) (ovf : Bool) (v : Val) : (convertFloat f mode ovf v).1 < 2 ^ f.bits := by
  obtain ⟨-, hmax, hinf, hnan⟩ := fits_parts hf
  have hzero : 0 < 2 ^ f.bits := Nat.two_pow_pos _
  have hcode {c : Nat} (h : f.infCode = some c) : c < 2 ^ f.magBits := by simpa [h] using hinf
  cases v with
  | nan => exact hnan
  | inf n =>
    simp only [convertFloat]
    split
    · split
      · exact hnan
      · exact hzero
    · split
      next c h => exact encMag_lt hf (hcode h) n
      next =>
        split
        · exact hnan
        · exact encMag_lt hf hmax n
  | fin n m e b =>
    simp only [convertFloat]
    split
    · exact hzero
    · split
      · split
        · exact encMag_lt hf hmax n
        · split
          · exact encMag_lt hf hmax n
          · split
            next c h => exact encMag_lt hf (hcode h) n
            next => exact hnan
      · exact encMag_lt hf (by omega) _

end

/-! ### A value that has a code rounds to it (04 R131, R135) -/

/-- A magnitude of a subnormal value is its code. -/
theorem roundMag_subnormal {t m : Nat} (bias : Int) (mode : Nat) (neg : Bool) (hm : m < 2 ^ t) :
    roundMag t bias mode neg m (1 - bias - t) false = (m, false) := by
  by_cases hzero : m = 0
  · simp [roundMag, hzero]
  · have hlog : Nat.log2 m < t := (Nat.log2_lt hzero).2 hm
    have hsub : (1 - bias - t : Int) + Nat.log2 m < 1 - bias := by omega
    simp [roundMag, hzero, hsub]

/-- A magnitude of a normal value is its exponent field above its significand field. -/
theorem roundMag_normal {t m x : Nat} (bias : Int) (mode : Nat) (neg : Bool) (hm : m < 2 ^ t) (hx : 0 < x) :
    roundMag t bias mode neg (2 ^ t + m) (x - bias - t) false = (x * 2 ^ t + m, false) := by
  have hpos : 0 < 2 ^ t := Nat.two_pow_pos t
  have hzero : 2 ^ t + m ≠ 0 := by omega
  have hlog : Nat.log2 (2 ^ t + m) = t := (Nat.log2_eq_iff hzero).2 ⟨by omega, by rw [Nat.pow_succ]; omega⟩
  have hcode : (x - 1) * 2 ^ t + (2 ^ t + m) = x * 2 ^ t + m := by
    obtain ⟨k, rfl⟩ := Nat.exists_eq_succ_of_ne_zero (Nat.ne_of_gt hx)
    rw [Nat.succ_sub_one, Nat.succ_mul]; omega
  have htop : (x - bias - t : Int) + t = x - bias := Int.sub_add_cancel ..
  have hlow : ¬ (x - bias : Int) < 1 - bias := by omega
  simp only [roundMag, hlog, htop, hlow, hzero, hcode, decide_false, Bool.false_and, Bool.or_self, Bool.false_eq_true, if_false,
    Int.sub_self, Int.le_refl, if_true, Int.neg_zero, Int.toNat_zero, Nat.pow_zero, Nat.mul_one, Int.sub_add_cancel,
    Int.toNat_natCast, ne_eq, not_true_eq_false, Bool.and_false, ite_self]

theorem roundIeee_exact {f : FloatFmt} (mode : Nat) {n : Bool} {m : Nat} {e : Int} {c : Nat}
    (h : roundMag f.t f.bias mode n m e false = (c, false)) (hc : c ≤ f.maxCode) :
    roundIeee f mode (.fin n m e false) = (encMag f n c, []) := by
  rw [roundIeee, h]
  simp [Nat.not_lt.2 hc]

/-- A code put together of its sign and its magnitude. -/
theorem encMag_sign {f : FloatFmt} (hs : f.signed = true) (h8 : f.bits ≠ 8) (hbits : 0 < f.bits) {c : Nat}
    (hc : c < 2 ^ f.bits) :
    encMag f (decide (c / 2 ^ (f.bits - 1) % 2 = 1)) (c % 2 ^ (f.bits - 1)) = c := by
  have hpow : 2 ^ f.bits = 2 ^ (f.bits - 1) * 2 := by rw [← Nat.pow_succ]; congr 1; omega
  have hdiv : c / 2 ^ (f.bits - 1) < 2 := Nat.div_lt_of_lt_mul (by omega)
  have hsplit := Nat.div_add_mod c (2 ^ (f.bits - 1))
  rcases Nat.lt_succ_iff_lt_or_eq.1 hdiv with h | h
  · have h0 : c / 2 ^ (f.bits - 1) = 0 := Nat.lt_one_iff.1 h
    rw [h0, Nat.mul_zero, Nat.zero_add] at hsplit
    simp [encMag, h0, hsplit]
  · rw [h, Nat.mul_one, Nat.add_comm] at hsplit
    simp [encMag, h, hs, h8, hsplit]

/-- A value of a signed format that is not binary8 rounds to its code. -/
theorem roundIeee_valFloat {f : FloatFmt} (hs : f.signed = true) (h8 : f.bits ≠ 8) (hbits : 0 < f.bits) (mode : Nat) {c : Nat}
    (hc : c < 2 ^ f.bits) :
    roundIeee f mode (valFloat f c) = (if (valFloat f c).isNan then f.nanCode else c, []) := by
  have hcode := encMag_sign hs h8 hbits hc
  have hmag : c % 2 ^ (f.bits - 1) / 2 ^ f.t * 2 ^ f.t + c % 2 ^ (f.bits - 1) % 2 ^ f.t = c % 2 ^ (f.bits - 1) :=
    Nat.div_add_mod' _ _
  have hm : c % 2 ^ (f.bits - 1) % 2 ^ f.t < 2 ^ f.t := Nat.mod_lt _ (Nat.two_pow_pos _)
  simp only [valFloat, hs, Bool.true_and, if_true, h8, decide_false, Bool.false_and, Bool.false_eq_true, if_false]
  generalize c % 2 ^ (f.bits - 1) = x at *
  split
  next hinf => simp [roundIeee, Val.isNan, hinf, hcode]
  next hinf =>
    split
    next hnan => simp [roundIeee, Val.isNan]
    next hmax =>
      have hle : x ≤ f.maxCode := by simpa [h8] using hmax
      split
      next hsub =>
        have hx : x % 2 ^ f.t = x := by rw [hsub] at hmag; omega
        rw [roundIeee_exact mode (roundMag_subnormal _ _ _ hm) (by omega), hx, hcode]; rfl
      next hnormal =>
        rw [roundIeee_exact mode (roundMag_normal _ _ _ hm (Nat.pos_of_ne_zero hnormal)) (by omega), hmag, hcode]; rfl

/-- Settles O21: a code's value by its class, a finite one by its exponent field. -/
theorem roundingIsExact : Obligations.RoundingIsExact := by
  rintro f m c (rfl | rfl | rfl) hc
  · exact roundIeee_valFloat rfl (by decide) (by decide) m hc
  · exact roundIeee_valFloat rfl (by decide) (by decide) m hc
  · exact roundIeee_valFloat rfl (by decide) (by decide) m hc

end Sys2Proof.Machine

/-! SUPPORT. The statements about float lanes, dot products and conversions, float reductions and special functions (07
R222-R238). -/

namespace Sys2Proof.Machine

/-! ### The lane operation of a float type -/

section
variable {y : BitVec 6} {f : FloatFmt} {m : Nat}

theorem laneFloat_parts (h : laneFloat y = some (f, m)) : f.fits = true ∧ f.bits = fmtWidth y ∧
    (f = f16 ∨ f = bf16 ∨ f = f32) := by
  have hy := laneFloat_format y
  simp only [h, Option.all_some, Bool.and_eq_true, Bool.or_eq_true, decide_eq_true_eq] at hy
  obtain ⟨⟨hf, hfits⟩, hbits⟩ := hy
  exact ⟨hfits, hbits, by simpa only [or_assoc] using hf⟩

theorem laneOp_float (h : laneFloat y = some (f, m)) (int : IntFmt → List Nat → Nat) (flt : FloatFmt → Nat → LaneOp) :
    laneOp y int flt = flt f m := by
  rw [laneOp, h]

/-- An operation on every float lane. -/
theorem writesLanes_float {s : State} {i : Instr} {d : BitVec 6} {vs : State → List VWord} {int : IntFmt → List Nat → Nat}
    {flt : FloatFmt → Nat → LaneOp} {g : Nat → Nat × List Nat} (h : laneFloat y = some (f, m))
    (he : exec i s = issueVC i d (fun s => eachLane y (laneOp y int flt) (vs s)) s) (hvs : vs (s.advance i) = vs s)
    (hop : ∀ k, flt f m ((vs s).map fun v => lane f.bits v k) = g k) (hlt : ∀ k, (g k).1 < 2 ^ f.bits) :
    WritesLanes s i d.toNat f.bits g :=
  writesLanes_eachLane he hvs (laneFloat_parts h).2.1 (fun k => by rw [laneOp_float h, hop]) hlt

end

section
variable {f : FloatFmt} (hf : f.fits = true) {p q : Nat} (hp : p < 2 ^ f.bits) (hq : q < 2 ^ f.bits)
include hf hp hq

theorem fMin_lt : fMin f p q < 2 ^ f.bits :=
  lt_two_pow_of_ite (fits_parts hf).2.2.2 (lt_two_pow_of_ite hp (lt_two_pow_of_ite hq (lt_two_pow_of_ite hp hq)))

theorem fMax_lt : fMax f p q < 2 ^ f.bits :=
  lt_two_pow_of_ite (fits_parts hf).2.2.2 (lt_two_pow_of_ite hq (lt_two_pow_of_ite hp (lt_two_pow_of_ite hq hp)))

end

theorem isNan_neg (v : Val) : v.neg.isNan = v.isNan := by cases v <;> rfl

/-- Settles O20: every form by its operation on one lane. -/
theorem floatLanes : Obligations.FloatLanes := by
  intro s d a b t u y n f m A B D v hy hA hB hD hv
  obtain ⟨hf, hbits, -⟩ := laneFloat_parts hy
  obtain ⟨hpos, -, -, hnan⟩ := fits_parts hf
  have hAlt (k : Nat) : A k < 2 ^ f.bits := hA ▸ lane_lt f.bits _ k
  have hBlt (k : Nat) : B k < 2 ^ f.bits := hB ▸ lane_lt f.bits _ k
  have hDlt (k : Nat) : D k < 2 ^ f.bits := hD ▸ lane_lt f.bits _ k
  have hmask (c : Bool) : mask y c = if c then 2 ^ f.bits - 1 else 0 := by rw [mask, hbits]
  have hzero : 0 < 2 ^ f.bits := Nat.two_pow_pos f.bits
  have hhalf : 2 ^ (f.bits - 1) ≤ 2 ^ f.bits := Nat.pow_le_pow_right (by decide) (Nat.sub_le ..)
  subst hA hB hD hv
  refine ⟨?_, ?_, ?_, ?_, ?_, ?_, ?_, ?_, ?_, ?_, ?_, ?_, ?_, ?_, ?_⟩
  · exact writesLanes_float hy (exec_vadd d a t b u y s) (by simp only [advance_V]) (fun k => rfl) fun k => roundOp_lt hf ..
  · exact writesLanes_float hy (exec_vsub d a t b u y s) (by simp only [advance_V]) (fun k => rfl) fun k => roundOp_lt hf ..
  · exact writesLanes_float hy (exec_vmul d a t b u y s) (by simp only [advance_V]) (fun k => rfl) fun k => roundOp_lt hf ..
  · exact writesLanes_float hy (exec_vfma d a t b u y s) (by simp only [advance_V]) (fun k => rfl) fun k => roundOp_lt hf ..
  · refine writesLanes_float hy (exec_vfms d a t b u y s) (by simp only [advance_V]) (fun k => ?_) fun k => roundOp_lt hf ..
    simp only [op3, fFma, if_true, isNan_neg]; rfl
  · exact writesLanes_float hy (exec_vmin d a t b u y s) (by simp only [advance_V]) (fun k => rfl)
      fun k => fMin_lt hf (hAlt k) (hBlt k)
  · exact writesLanes_float hy (exec_vmax d a t b u y s) (by simp only [advance_V]) (fun k => rfl)
      fun k => fMax_lt hf (hAlt k) (hBlt k)
  · exact writesLanes_float hy (exec_vclamp d a t b u y s) (by simp only [advance_V]) (fun k => rfl)
      fun k => fMin_lt hf (fMax_lt hf (hDlt k) (hAlt k)) (hBlt k)
  · exact writesLanes_float hy (exec_vabs d a t y s) (by simp only [advance_V]) (fun k => rfl)
      fun k => lt_two_pow_of_ite hnan (Nat.lt_of_lt_of_le (Nat.mod_lt _ (Nat.two_pow_pos _)) hhalf)
  · exact writesLanes_float hy (exec_vneg d a t y s) (by simp only [advance_V]) (fun k => rfl)
      fun k => lt_two_pow_of_ite hnan (Nat.mod_lt _ hzero)
  · exact writesLanes_float hy (exec_vceq d a t b u y s) (by simp only [advance_V])
      (fun k => congrArg quiet (hmask _)) fun k => lt_two_pow_of_ite (mask_lt _) hzero
  · refine writesLanes_float hy (exec_vcne d a t b u y s) (by simp only [advance_V])
      (fun k => congrArg quiet ((hmask _).trans ?_)) fun k => lt_two_pow_of_ite hzero (mask_lt _)
    simp only [Bool.not_eq_eq_eq_not, Bool.not_true, ← Bool.not_eq_true, ite_not]; rfl
  · exact writesLanes_float hy (exec_vclt d a t b u y s) (by simp only [advance_V])
      (fun k => congrArg quiet (hmask _)) fun k => lt_two_pow_of_ite (mask_lt _) hzero
  · exact writesLanes_float hy (exec_vcle d a t b u y s) (by simp only [advance_V])
      (fun k => congrArg quiet (hmask _)) fun k => lt_two_pow_of_ite (mask_lt _) hzero
  · exact writesLanes_float hy (exec_vscale d a t y n s) (by simp only [advance_V]) (fun k => rfl) fun k => roundIeee_lt hf ..

/-! ### Special functions (07 R237, R238) -/

theorem special_spec {s : State} {i : Instr} {g : Val → Val × List Nat} {d a y : BitVec 6} {f : FloatFmt} {m : Nat}
    (hy : laneFloat y = some (f, m)) (he : exec i s = special i g d a y s) :
    ∃ x, (∀ k < 128 / f.bits, lane f.bits x k = (sfResult f (g (valFloat f (lane f.bits (s.V a.toNat) k)))).1) ∧
      DoesV s i fun q => (q.addProd (.v d.toNat) 1 0 false).send none (.loadResult {
        th := s.cur, seq := (s.ctx s.cur).nextSeq, dst := .v d.toNat, lane := none, size := 16, value := x
        conds := (List.range (128 / f.bits)).flatMap fun k =>
          (sfResult f (g (valFloat f (lane f.bits (s.V a.toNat) k)))).2
        ends := some { start := q.now, addr := 0, pa := 0, kind := 3, lid := q.lidOf s.cur } }) := by
  obtain ⟨hf, hbits, -⟩ := laneFloat_parts hy
  have hop : laneOp y noInt (fun fm _ l => sfResult fm (g (valFloat fm (l.getD 0 0)))) =
    fun l => sfResult f (g (valFloat f (l.getD 0 0))) := laneOp_float hy ..
  refine ⟨(eachLane y (fun l => sfResult f (g (valFloat f (l.getD 0 0)))) [s.V a.toNat]).1, fun k hk => ?_,
    doesV_spec he ?_ ?_⟩
  · rw [hbits] at hk ⊢
    rw [eachLane_lane y _ _ hk, Nat.mod_eq_of_lt]
    · rfl
    · rw [← hbits]; exact roundIeee_lt hf ..
  · rw [hop, hbits]
    simp only [advance_V, advance_cur, advance_seqNow, eachLane_conds]; rfl
  · rw [hop, hbits]
    simp only [eachLane_conds]; rfl

/-- Settles O24: each of the six by its function. -/
theorem specialFunctions : Obligations.SpecialFunctions := by
  intro s d a t y f m i g hy h
  simp only [List.mem_cons, List.not_mem_nil, or_false] at h
  rcases h with h | h | h | h | h | h <;> cases h
  · exact special_spec hy (exec_rcp d a t y s)
  · exact special_spec hy (exec_rsqrt d a t y s)
  · exact special_spec hy (exec_sqrt d a t y s)
  · exact special_spec hy (exec_exp2 d a t y s)
  · exact special_spec hy (exec_log2 d a t y s)
  · exact special_spec hy (exec_tanh d a t y s)

/-! ### Float reductions (07 R227, 04 R139) -/

theorem lanes32_eq (x : VWord) : lanes 32 x = [lane 32 x 0, lane 32 x 1, lane 32 x 2, lane 32 x 3] := rfl

theorem lanes16_eq (x : VWord) : lanes 16 x = [lane 16 x 0, lane 16 x 1, lane 16 x 2, lane 16 x 3, lane 16 x 4, lane 16 x 5,
    lane 16 x 6, lane 16 x 7] := rfl

/-- The tree over four lanes. -/
theorem tree_four (g : Nat → Nat → Nat × List Nat) (a b c d : Nat) : tree (op2 g) 4 [a, b, c, d] =
    ((g (g a b).1 (g c d).1).1, (g a b).2 ++ (g c d).2 ++ (g (g a b).1 (g c d).1).2) := by
  simp [tree, pairUp, op2]

/-- The tree over eight lanes. -/
theorem tree_eight (g : Nat → Nat → Nat × List Nat) (l : Nat → Nat) (p q : Nat → Nat × List Nat)
    (hp : ∀ j, p j = g (l (2 * j)) (l (2 * j + 1))) (hq : ∀ j, q j = g (p (2 * j)).1 (p (2 * j + 1)).1) :
    tree (op2 g) 4 [l 0, l 1, l 2, l 3, l 4, l 5, l 6, l 7] = ((g (q 0).1 (q 1).1).1,
      (p 0).2 ++ (p 1).2 ++ (p 2).2 ++ (p 3).2 ++ (q 0).2 ++ (q 1).2 ++ (g (q 0).1 (q 1).1).2) := by
  have hp0 : g (l 0) (l 1) = p 0 := (hp 0).symm
  have hp1 : g (l 2) (l 3) = p 1 := (hp 1).symm
  have hp2 : g (l 4) (l 5) = p 2 := (hp 2).symm
  have hp3 : g (l 6) (l 7) = p 3 := (hp 3).symm
  have hq0 : g (p 0).1 (p 1).1 = q 0 := (hq 0).symm
  have hq1 : g (p 2).1 (p 3).1 = q 1 := (hq 1).symm
  simp [tree, pairUp, op2, hp0, hp1, hp2, hp3, hq0, hq1]

section
variable {s : State} {i : Instr} {d a y : BitVec 6} {f : FloatFmt} {m : Nat} {int : IntFmt → List Nat → Nat}
  {g : FloatFmt → Nat → Nat → Nat → Nat × List Nat}

/-- A reduction writes the result of its tree. -/
theorem writesV_reduce_float (hy : laneFloat y = some (f, m))
    (he : exec i s = issueVC i d (fun s => reduce y (laneOp y int fun f m => op2 (g f m)) (s.V a.toNat)) s)
    {r : Nat × List Nat} (hr : tree (op2 (g f m)) 4 (lanes f.bits (s.V a.toNat)) = r) :
    WritesV s i d.toNat (ofLanes f.bits [r.1]) r.2 := by
  obtain ⟨-, hbits, -⟩ := laneFloat_parts hy
  have hop : laneOp y int (fun f m => op2 (g f m)) = op2 (g f m) := laneOp_float hy ..
  have hreduce : reduce y (laneOp y int fun f m => op2 (g f m)) (s.V a.toNat) = (ofLanes f.bits [r.1], r.2) := by
    rw [reduce, hop, ← hbits, hr]
  exact issueVC_spec he (by rw [advance_V, hreduce]) hreduce

end

/-- The least and the greatest raise no condition. -/
theorem writesLanes_reduce_quiet {s : State} {i : Instr} {d a y : BitVec 6} {f : FloatFmt} {m z : Nat}
    {int : IntFmt → List Nat → Nat} {h : FloatFmt → Nat → Nat → Nat} (hy : laneFloat y = some (f, m))
    (he : exec i s = issueVC i d (fun s => reduce y (laneOp y int fun f _ => op2 fun x z => quiet (h f x z)) (s.V a.toNat)) s)
    (hr : tree (op2 fun x z => quiet (h f x z)) 4 (lanes f.bits (s.V a.toNat)) = quiet z) (hz : z < 2 ^ f.bits) :
    WritesLanes s i d.toNat f.bits fun k => (if k = 0 then z else 0, []) :=
  writesLanes_quiet (writesV_reduce_float (g := fun f _ x z => quiet (h f x z)) hy he hr) fun _ hk => lane_single hz hk

/-- The tree of a form without conditions, over four lanes and over eight. -/
theorem tree_quiet_four (h : Nat → Nat → Nat) (a b c d : Nat) :
    tree (op2 fun x z => quiet (h x z)) 4 [a, b, c, d] = quiet (h (h a b) (h c d)) :=
  tree_four _ a b c d

theorem tree_quiet_eight (h : Nat → Nat → Nat) (l : Nat → Nat) :
    tree (op2 fun x z => quiet (h x z)) 4 [l 0, l 1, l 2, l 3, l 4, l 5, l 6, l 7] =
      quiet (h (h (h (l 0) (l 1)) (h (l 2) (l 3))) (h (h (l 4) (l 5)) (h (l 6) (l 7)))) :=
  tree_eight _ l (fun j => quiet (h (l (2 * j)) (l (2 * j + 1))))
    (fun j => quiet (h (h (l (2 * (2 * j))) (l (2 * (2 * j) + 1))) (h (l (2 * (2 * j + 1))) (l (2 * (2 * j + 1) + 1)))))
    (fun _ => rfl) fun _ => rfl

/-- Settles O23: the tree over four lanes and over eight. -/
theorem floatReductions : Obligations.FloatReductions := by
  intro s d a t y f m A hy hA
  obtain ⟨hf, -, -⟩ := laneFloat_parts hy
  have hAlt (k : Nat) : A k < 2 ^ f.bits := hA ▸ lane_lt f.bits _ k
  have hmin {p q : Nat} : p < 2 ^ f.bits → q < 2 ^ f.bits → fMin f p q < 2 ^ f.bits := fMin_lt hf
  have hmax {p q : Nat} : p < 2 ^ f.bits → q < 2 ^ f.bits → fMax f p q < 2 ^ f.bits := fMax_lt hf
  refine ⟨fun h32 p q e hp hq he => ?_, fun h16 p q e hp hq he => ?_, fun h32 => ⟨?_, ?_⟩, fun h16 => ⟨?_, ?_⟩⟩
  · have hlanes : lanes f.bits (s.V a.toNat) = [A 0, A 1, A 2, A 3] := by rw [hA, h32]; rfl
    have htree : tree (op2 (fAdd f m)) 4 (lanes f.bits (s.V a.toNat)) = (e.1, p.2 ++ q.2 ++ e.2) := by
      rw [hlanes, tree_four, he, hp, hq]
    have hlt : e.1 < 2 ^ 32 := by rw [← h32, he]; exact roundOp_lt hf ..
    have hw := writesV_reduce_float (g := fAdd) hy (exec_vredadd d a t y s) htree
    rw [h32] at hw
    exact ⟨_, hw, lane_single hlt (by decide), lane_single hlt (by decide), lane_single hlt (by decide),
      lane_single hlt (by decide)⟩
  · have hlanes : lanes f.bits (s.V a.toNat) = [A 0, A 1, A 2, A 3, A 4, A 5, A 6, A 7] := by rw [hA, h16]; rfl
    have htree := hlanes ▸ tree_eight (fAdd f m) A p q hp hq
    rw [← he] at htree
    have hlt : e.1 < 2 ^ 16 := by rw [← h16, he]; exact roundOp_lt hf ..
    have hw := writesV_reduce_float (g := fAdd) hy (exec_vredadd d a t y s) htree
    rw [h16] at hw
    exact ⟨_, hw, fun j hj => lane_single hlt hj⟩
  · have hlanes : lanes f.bits (s.V a.toNat) = [A 0, A 1, A 2, A 3] := by rw [hA, h32]; rfl
    have h := writesLanes_reduce_quiet (h := fMin) hy (exec_vredmin d a t y s) (by rw [hlanes]; exact tree_quiet_four ..)
      (hmin (hmin (hAlt 0) (hAlt 1)) (hmin (hAlt 2) (hAlt 3)))
    rwa [h32] at h
  · have hlanes : lanes f.bits (s.V a.toNat) = [A 0, A 1, A 2, A 3] := by rw [hA, h32]; rfl
    have h := writesLanes_reduce_quiet (h := fMax) hy (exec_vredmax d a t y s) (by rw [hlanes]; exact tree_quiet_four ..)
      (hmax (hmax (hAlt 0) (hAlt 1)) (hmax (hAlt 2) (hAlt 3)))
    rwa [h32] at h
  · have hlanes : lanes f.bits (s.V a.toNat) = [A 0, A 1, A 2, A 3, A 4, A 5, A 6, A 7] := by rw [hA, h16]; rfl
    have h := writesLanes_reduce_quiet (h := fMin) hy (exec_vredmin d a t y s) (by rw [hlanes]; exact tree_quiet_eight ..)
      (hmin (hmin (hmin (hAlt 0) (hAlt 1)) (hmin (hAlt 2) (hAlt 3)))
        (hmin (hmin (hAlt 4) (hAlt 5)) (hmin (hAlt 6) (hAlt 7))))
    rwa [h16] at h
  · have hlanes : lanes f.bits (s.V a.toNat) = [A 0, A 1, A 2, A 3, A 4, A 5, A 6, A 7] := by rw [hA, h16]; rfl
    have h := writesLanes_reduce_quiet (h := fMax) hy (exec_vredmax d a t y s) (by rw [hlanes]; exact tree_quiet_eight ..)
      (hmax (hmax (hmax (hAlt 0) (hAlt 1)) (hmax (hAlt 2) (hAlt 3)))
        (hmax (hmax (hAlt 4) (hAlt 5)) (hmax (hAlt 6) (hAlt 7))))
    rwa [h16] at h

end Sys2Proof.Machine

/-! SUPPORT. Dot products, conversions, packing and unpacking (07 R225, R226, R233-R236). -/

namespace Sys2Proof.Machine

/-! ### Results put together from a list -/

section
variable {s : State} {i : Instr} {d : BitVec 6} {w n : Nat} {f : Nat → Nat × List Nat}

/-- A list of results, from lane 0 upward, with zero and no condition beyond its end. -/
theorem writesLanes_list {g : State → List (Nat × List Nat)}
    (he : exec i s = issueVC i d (fun s => (ofLanes w ((g s).map Prod.fst), (g s).flatMap Prod.snd)) s)
    (hadvance : g (s.advance i) = g s) (hg : g s = (List.range n).map f) (hn : n ≤ 128 / w)
    (hout : ∀ k, n ≤ k → k < 128 / w → f k = (0, [])) (hlt : ∀ k < n, (f k).1 < 2 ^ w) : WritesLanes s i d.toNat w f := by
  refine ⟨ofLanes w ((g s).map Prod.fst), ?_, fun k hk => ?_⟩
  · have hconds : (g s).flatMap Prod.snd = (List.range (128 / w)).flatMap fun k => (f k).2 := by
      obtain ⟨r, hr⟩ := Nat.exists_eq_add_of_le hn
      rw [hg, List.flatMap_map, hr, List.range_add, List.flatMap_append, List.flatMap_map]
      refine (List.append_nil _).symm.trans (congrArg _ (List.flatMap_eq_nil_iff.2 fun k hk => ?_).symm)
      rw [hout _ (Nat.le_add_right n k) (by have := List.mem_range.1 hk; omega)]
    rw [← hconds]
    exact issueVC_spec he (by rw [hadvance]) rfl
  · rw [lane_ofLanes _ hk, hg, List.map_map]
    by_cases hkn : k < n
    · rw [getD_map_range _ _ hkn]
      exact Nat.mod_eq_of_lt (hlt k hkn)
    · rw [List.getD_eq_getElem?_getD, List.getElem?_eq_none (by simpa using hkn), Option.getD_none, hout k (Nat.not_lt.1 hkn) hk, Nat.zero_mod]

/-- A result for every lane. -/
theorem writesLanes_all {g : State → List (Nat × List Nat)}
    (he : exec i s = issueVC i d (fun s => (ofLanes w ((g s).map Prod.fst), (g s).flatMap Prod.snd)) s)
    (hadvance : g (s.advance i) = g s) (hg : g s = (List.range (128 / w)).map f) (hlt : ∀ k, (f k).1 < 2 ^ w) :
    WritesLanes s i d.toNat w f :=
  writesLanes_list he hadvance hg (Nat.le_refl _) (fun _ hle h => absurd h (Nat.not_lt.2 hle)) fun k _ => hlt k

end

/-! ### Dot products (07 R225, R226) -/

theorem dot2_lt (m a0 b0 a1 b1 c : Nat) : (dot2 m a0 b0 a1 b1 c).1 < 2 ^ 32 := roundOp_lt (f := f32) rfl ..

/-- One lane of `vdot4.s8`. -/
def dot4 (x y z : VWord) (j : Nat) : Int :=
  (List.range 4).foldl (fun acc q => acc + valInt s8 (lane 8 x (4 * j + q)) * valInt s8 (lane 8 y (4 * j + q)))
    (valInt s32 (lane 32 z j))

theorem dot4_eq (x y z : VWord) (j : Nat) : dot4 x y z j = (BitVec.ofNat 32 (lane 32 z j)).toInt +
    ((List.range 4).map fun q => (BitVec.ofNat 8 (lane 8 x (4 * j + q))).toInt *
      (BitVec.ofNat 8 (lane 8 y (4 * j + q))).toInt).sum := by
  have h4 : List.range 4 = [0, 1, 2, 3] := rfl
  have h8 (c : Nat) : valInt s8 c = (BitVec.ofNat 8 c).toInt := valInt_signed (by decide) c
  have h32 : valInt s32 (lane 32 z j) = (BitVec.ofNat 32 (lane 32 z j)).toInt := valInt_signed (by decide) _
  simp only [dot4, h4, h8, h32, List.foldl_cons, List.foldl_nil, List.map_cons, List.map_nil, List.sum_cons, List.sum_nil]
  omega

/-- An exact sum saturated to 32 bits; one that saturates counts an overflow. -/
theorem saturate_s32 (x : Int) : (wrapInt 32 (satInt s32 x), if satInt s32 x = x then [] else [kOVF]) =
    if x < -2 ^ 31 then (2 ^ 31, [kOVF]) else if 2 ^ 31 ≤ x then (2 ^ 31 - 1, [kOVF]) else ((BitVec.ofInt 32 x).toNat, []) := by
  have hlo : s32.lo = -2 ^ 31 := rfl
  have hhi : s32.hi = 2 ^ 31 - 1 := rfl
  rw [satInt, hlo, hhi]
  by_cases h1 : x < -2 ^ 31
  · rw [if_pos h1, if_pos h1, if_neg (by omega)]; rfl
  · by_cases h2 : 2 ^ 31 ≤ x
    · rw [if_neg h1, if_neg h1, if_pos (by omega : 2 ^ 31 - 1 < x), if_pos h2, if_neg (by omega)]; rfl
    · rw [if_neg h1, if_neg h1, if_neg (by omega), if_neg h2, if_pos rfl, wrapInt, BitVec.toNat_ofInt]; rfl

theorem does_vdot4 (s : State) (d a b : BitVec 6) (t u : BitVec 1) (sum : Nat → Int)
    (hsum : ∀ j, sum j = (BitVec.ofNat 32 (lane 32 (s.V d.toNat) j)).toInt +
      ((List.range 4).map fun q => (BitVec.ofNat 8 (lane 8 (s.V a.toNat) (4 * j + q))).toInt *
        (BitVec.ofNat 8 (lane 8 (s.V b.toNat) (4 * j + q))).toInt).sum) :
    WritesLanes s (.vdot4S8 d a t b u) d.toNat 32 fun j =>
      if sum j < -2 ^ 31 then (2 ^ 31, [kOVF]) else if 2 ^ 31 ≤ sum j then (2 ^ 31 - 1, [kOVF])
      else ((BitVec.ofInt 32 (sum j)).toNat, []) := by
  have hdot (j : Nat) : sum j = dot4 (s.V a.toNat) (s.V b.toNat) (s.V d.toNat) j := (hsum j).trans (dot4_eq ..).symm
  simp only [hdot, ← saturate_s32]
  exact writesLanes_all (g := fun s => (List.range 4).map fun j =>
      (wrapInt 32 (satInt s32 (dot4 (s.V a.toNat) (s.V b.toNat) (s.V d.toNat) j)),
        if satInt s32 (dot4 (s.V a.toNat) (s.V b.toNat) (s.V d.toNat) j) = dot4 (s.V a.toNat) (s.V b.toNat) (s.V d.toNat) j
        then [] else [kOVF]))
    (exec_vdot4S8 d a t b u s) (by simp only [advance_V]) rfl fun k => wrapInt_lt 32 _

/-! ### Conversions (07 R233, R234) -/

theorem convert_lt {y : BitVec 6} (h : fmtCode y = true) (mode : Nat) (ovf : Bool) (v : Val) :
    (convert y mode ovf v).1 < 2 ^ fmtWidth y := by
  have hfits := floatFmt_fits y
  have hint : floatFmt y = none → (intFmt y).all (fun f => f.bits = fmtWidth y) = true := by
    revert y; decide
  rw [convert]
  cases hfloat : floatFmt y with
  | some f =>
    simp only [hfloat, Option.all_some, Bool.and_eq_true, decide_eq_true_eq] at hfits
    rw [← hfits.2]
    exact convertFloat_lt hfits.1 ..
  | none =>
    cases hf : intFmt y with
    | none => exact Nat.two_pow_pos _
    | some f =>
      have hbits : f.bits = fmtWidth y := by simpa [hf] using hint hfloat
      have hwrap (z : Int) : wrapInt f.bits z < 2 ^ fmtWidth y := hbits ▸ wrapInt_lt f.bits z
      cases v with
      | nan => exact Nat.two_pow_pos _
      | inf n => exact hwrap _
      | fin n m e b =>
        simp only [convertInt]
        split
        · exact hwrap _
        · exact hwrap _

theorem scale_zero (v : Val) : v.scale 0 = v := by cases v <;> simp [Val.scale]

/-- As many elements as the wider format has are converted. -/
theorem writesLanes_convert {s : State} {i : Instr} {d a g f : BitVec 6} {mode : Nat} {ovf : Bool} {k : Int}
    {conv : Nat → Nat × List Nat} (hg : fmtCode g = true)
    (he : exec i s = issueVC i d (fun s => convertVec g f mode ovf k (s.V a.toNat)) s)
    (hconv : ∀ j, conv j = if j < 128 / max (fmtWidth g) (fmtWidth f) then
      convert g mode ovf ((valOf f (lane (fmtWidth f) (s.V a.toNat) j)).scale k) else (0, [])) :
    WritesLanes s i d.toNat (fmtWidth g) conv := by
  have hn : 128 / max (fmtWidth g) (fmtWidth f) ≤ 128 / fmtWidth g := Nat.div_le_div_left (Nat.le_max_left ..) (fmtWidth_pos g)
  refine writesLanes_list (n := 128 / max (fmtWidth g) (fmtWidth f)) he (by simp only [advance_V])
    (List.map_congr_left fun j hj => ?_) hn (fun j hle _ => ?_) fun j hj => ?_
  · rw [hconv j, if_pos (List.mem_range.1 hj)]; rfl
  · rw [hconv j, if_neg (Nat.not_lt.2 hle)]
  · rw [hconv j, if_pos hj]
    exact convert_lt hg ..

/-! ### Packing and unpacking (07 R235, R236) -/

/-- The wide type of a narrow code has lanes twice as wide. -/
theorem packCode_wide (y : BitVec 6) (h : packCode y = true) : wideOf y = (if y = 0 then 1 else if y = 8 then 9 else 17) ∧
    fmtCode y = true ∧ fmtCode (wideOf y) = true ∧ 128 / fmtWidth y = 2 * (128 / fmtWidth (wideOf y)) := by
  revert y; decide

theorem lanes_append (w : Nat) (x z : VWord) : lanes w x ++ lanes w z = (List.range (2 * (128 / w))).map fun j =>
    if j < 128 / w then lane w x j else lane w z (j - 128 / w) := by
  have hright : lanes w z = (List.range (128 / w)).map
      ((fun j => if j < 128 / w then lane w x j else lane w z (j - 128 / w)) ∘ (128 / w + ·)) :=
    List.map_congr_left fun j _ => by rw [Function.comp, if_neg (by omega), Nat.add_sub_cancel_left]
  rw [Nat.two_mul, List.range_add, List.map_append, List.map_map, ← hright]
  congr 1
  exact List.map_congr_left fun j hj => (if_pos (List.mem_range.1 hj)).symm

theorem does_vpack (s : State) (d a : BitVec 6) (t : BitVec 1) {y : BitVec 6} (h : packCode y = true) :
    WritesLanes s (.vpack d a t y) d.toNat (fmtWidth y) fun j => convert y 0 false (valOf (wideOf y)
      (if j < 128 / fmtWidth (wideOf y) then lane (fmtWidth (wideOf y)) (s.V d.toNat) j
       else lane (fmtWidth (wideOf y)) (s.V a.toNat) (j - 128 / fmtWidth (wideOf y)))) := by
  obtain ⟨-, hcode, -, hwidth⟩ := packCode_wide y h
  refine writesLanes_all (exec_vpack d a t y s) (by simp only [advance_V]) ?_ fun j => convert_lt hcode ..
  rw [lanes_append, List.map_map, ← hwidth]
  exact List.map_congr_left fun j _ => congrArg _ (scale_zero _)

theorem does_vunpack (s : State) (d a : BitVec 6) (t hi : BitVec 1) {y : BitVec 6} (h : packCode y = true) :
    WritesLanes s (.vunpack d a t hi y) d.toNat (fmtWidth (wideOf y)) fun j => ((convert (wideOf y) 0 false (valOf y
      (lane (fmtWidth y) (s.V a.toNat) (hi.toNat * (128 / fmtWidth (wideOf y)) + j)))).1, []) := by
  obtain ⟨-, -, hcode, -⟩ := packCode_wide y h
  refine writesLanes_quiet (issueV_spec (exec_vunpack d a t hi y s) (by simp only [advance_V]) rfl) fun k hk => ?_
  rw [lane_ofLanes_map _ hk, convertElem, scale_zero, Nat.mod_eq_of_lt (convert_lt hcode ..)]

/-- Settles O22: each form by its elements. -/
theorem dotsAndConversions : Obligations.DotsAndConversions := by
  rintro s d a b t u h o r y g f k _ _ _ rfl rfl rfl
  refine ⟨writesLanes_all (exec_vdot2F16 d a t b u r s) (by simp only [advance_V]) rfl fun j => dot2_lt ..,
    does_vdot4 s d a b t u, fun hg hf => ⟨fun conv hconv => ?_, fun conv hconv => ?_⟩, fun hy wide n hwide hn => ?_⟩
  · exact writesLanes_convert hg (exec_vcvt r d a t g f o s) fun j => by rw [hconv j, scale_zero]
  · exact writesLanes_convert hg (exec_vcvtScaled k r d a t g f o s) hconv
  · obtain rfl : wide = wideOf y := hwide.trans (packCode_wide y hy).1.symm
    subst hn
    exact ⟨does_vpack s d a t hy, does_vunpack s d a t h hy⟩

end Sys2Proof.Machine

/-! SUPPORT. Words written out, the state right after reset, and the instructions of a filter (21 R504, 22 R539-R541). -/

namespace Sys2Proof.Machine

/-- Settles O57: each word decodes by evaluation. -/
theorem wordsDecode : Obligations.WordsDecode := by
  unfold Obligations.WordsDecode
  exact ⟨by decide, by decide, by decide, by decide, by decide, by decide, by decide, rfl, by decide, by decide, by decide, by decide,
    by decide⟩

/-! ### Right after reset -/

theorem reset_ctx_monitor : State.reset.ctx 48 = monitorCtx := rfl

theorem reset_ctx_other {th : Nat} (h : th ≠ 48) : State.reset.ctx th = {} := by
  have hget : get ({} : Ctx) (put {} [] 48 monitorCtx) th = get {} [] th := get_put_other _ _ _ _ _ h
  exact hget

/-- A fact about every context right after reset is one about the monitor's and one about a Free one. -/
theorem reset_ctx_cases {p : Ctx → Prop} (hm : p monitorCtx) (hf : p {}) (th : Nat) : p (State.reset.ctx th) := by
  by_cases h : th = 48
  · subst h; exact hm
  · rw [reset_ctx_other h]; exact hf

theorem reset_canonical : Canonical State.reset := ⟨rfl, rfl, rfl, rfl, rfl⟩

theorem reset_core (core : Nat) : State.reset.core core = {} := rfl

/-- The control registers that a context holds of its own, right after reset. -/
theorem reset_ctlRead_limits (th : Nat) :
    State.reset.ctlRead th 0x010 = 0x100000 ∧ State.reset.ctlRead th 0x011 = 0x10000 := by
  constructor
  · exact reset_ctx_cases (p := fun c => c.qstall = 0x100000) rfl rfl th
  · exact reset_ctx_cases (p := fun c => c.fewait = 0x10000) rfl rfl th

theorem reset_ctlRead_zero (th : Nat) :
    ∀ i ∈ [0x012, 0x018, 0x019, 0x01A, 0x01B, 0x01C, 0x01D, 0x020, 0x021, 0x022, 0x023, 0x024, 0x025],
      State.reset.ctlRead th i = 0 := by
  have hctx : stcntOf (State.reset.ctx th) = 0 ∧ (State.reset.ctx th).cause = 0 ∧ (State.reset.ctx th).epc = 0 ∧
      (State.reset.ctx th).tval = 0 ∧ (State.reset.ctx th).tstate = 0 ∧ (State.reset.ctx th).hbase = 0 ∧
      (State.reset.ctx th).hmask = 0 :=
    reset_ctx_cases (p := fun c => stcntOf c = 0 ∧ c.cause = 0 ∧ c.epc = 0 ∧ c.tval = 0 ∧ c.tstate = 0 ∧
      c.hbase = 0 ∧ c.hmask = 0) (by decide) (by decide) th
  obtain ⟨hst, hcause, hepc, htval, htstate, hhbase, hhmask⟩ := hctx
  simp only [List.forall_mem_cons]
  exact ⟨hst, hcause, hepc, htval, htstate, hhbase, hhmask, rfl, rfl, rfl, rfl, rfl, rfl, by simp⟩

theorem freeCtx_regs (n : Nat) : ({} : Ctx).sreg n = 0 ∧ ({} : Ctx).vreg n = 0 := ⟨ite_self _, rfl⟩

theorem monitorCtx_regs (n : Nat) : monitorCtx.sreg n = 0 ∧ monitorCtx.vreg n = 0 := ⟨ite_self _, rfl⟩

/-- Settles O60: the monitor's context is the one entry of the state right after reset. -/
theorem resetState : Obligations.ResetState := by
  unfold Obligations.ResetState
  refine ⟨reset_canonical, fun th h => by rw [reset_ctx_other h], rfl, rfl, rfl, rfl, fun th n => ?_, fun _ => rfl,
    fun _ _ => rfl, reset_ctlRead_limits, reset_ctlRead_zero, rfl, rfl, rfl, rfl, rfl, rfl, rfl⟩
  exact reset_ctx_cases (p := fun c => c.sreg n = 0 ∧ c.vreg n = 0) (monitorCtx_regs n) (freeCtx_regs n) th

/-! ### Filter instructions on working registers (22 R539) -/

/-- An instruction whose meaning is a write of a working register writes the value that its function has there. -/
theorem filtersW_of_quinudW {s : State} {r : FilterRun} {fl : Filter} (h : FilterPoint s r fl) {i : Instr} {d : BitVec 3}
    {f : Nat → State → BitVec 32} {x : BitVec 32} (hi : exec i s = quinudW d f s) (hx : f s.curDie s = x) :
    FiltersW s i r d x := by
  subst hx
  rw [FiltersW, Filters, hi, quinudW_point h]

/-- An instruction of two working registers writes what its function makes of them. -/
theorem filtersW_of_quinudR {s : State} {r : FilterRun} {fl : Filter} (h : FilterPoint s r fl) {i : Instr}
    {d a b : BitVec 3} {f : BitVec 32 → BitVec 32 → BitVec 32} {x : BitVec 32} (hi : exec i s = quinudR d a b f s)
    (hx : f (get 0 r.w a.toNat) (get 0 r.w b.toNat) = x) : FiltersW s i r d x :=
  filtersW_of_quinudW h hi (by rw [h.qw, h.qw, hx])

theorem signExtend32_eq_ofInt (i : BitVec 20) : i.signExtend 32 = BitVec.ofInt 32 i.toInt := by
  rw [← BitVec.toInt_signExtend_of_le (w := 20) (v := 32) (by decide), BitVec.ofInt_toInt]

theorem add32_signExtend_eq_ofInt (x : BitVec 32) (i : BitVec 20) :
    x + i.signExtend 32 = BitVec.ofInt 32 (x.toNat + i.toInt) := by
  rw [signExtend32_eq_ofInt, BitVec.ofInt_add, BitVec.ofInt_natCast, BitVec.ofNat_toNat, BitVec.setWidth_eq]

theorem add32_eq_ofNat (x y : BitVec 32) : x + y = BitVec.ofNat 32 (x.toNat + y.toNat) := by
  rw [BitVec.ofNat_add, BitVec.ofNat_toNat, BitVec.ofNat_toNat, BitVec.setWidth_eq, BitVec.setWidth_eq]

theorem sub32_eq_ofInt (x y : BitVec 32) : x - y = BitVec.ofInt 32 (x.toNat - y.toNat) := by
  rw [Int.sub_eq_add_neg, BitVec.ofInt_add, BitVec.ofInt_neg, BitVec.ofInt_natCast, BitVec.ofInt_natCast,
    BitVec.ofNat_toNat, BitVec.ofNat_toNat, BitVec.setWidth_eq, BitVec.setWidth_eq, BitVec.sub_eq_add_neg]

theorem mul32_eq_ofNat (x y : BitVec 32) : x * y = BitVec.ofNat 32 (x.toNat * y.toNat) := by
  rw [BitVec.ofNat_mul, BitVec.ofNat_toNat, BitVec.ofNat_toNat, BitVec.setWidth_eq, BitVec.setWidth_eq]

theorem shiftLeft32_eq_ofNat (x : BitVec 32) (n : Nat) : x <<< n = BitVec.ofNat 32 (x.toNat * 2 ^ n) := by
  apply BitVec.eq_of_toNat_eq
  rw [BitVec.toNat_shiftLeft, BitVec.toNat_ofNat, Nat.shiftLeft_eq]

theorem shiftRight32_eq_ofNat (x : BitVec 32) (n : Nat) : x >>> n = BitVec.ofNat 32 (x.toNat / 2 ^ n) := by
  apply BitVec.eq_of_toNat_eq
  rw [BitVec.toNat_ushiftRight, BitVec.toNat_ofNat, Nat.shiftRight_eq_div_pow,
    Nat.mod_eq_of_lt (Nat.lt_of_le_of_lt (Nat.div_le_self _ _) x.isLt)]

theorem minN_eq (x y : BitVec 32) : minN x y = BitVec.ofNat 32 (min x.toNat y.toNat) := by
  rw [minN, Nat.min_def, apply_ite (BitVec.ofNat 32), BitVec.ofNat_toNat, BitVec.ofNat_toNat, BitVec.setWidth_eq,
    BitVec.setWidth_eq]

theorem maxN_eq (x y : BitVec 32) : maxN x y = BitVec.ofNat 32 (max x.toNat y.toNat) := by
  rw [maxN, Nat.max_def, apply_ite (BitVec.ofNat 32), BitVec.ofNat_toNat, BitVec.ofNat_toNat, BitVec.setWidth_eq,
    BitVec.setWidth_eq]

/-- `cmp` holds exactly where the relation that its code names does. -/
theorem cmpHolds_iff {c : BitVec 3} {x y : BitVec 32} {p : Prop}
    (h : (c = 0 ∧ (p ↔ x = y)) ∨ (c = 1 ∧ (p ↔ x ≠ y)) ∨ (c = 2 ∧ (p ↔ x.toNat < y.toNat)) ∨
      (c = 3 ∧ (p ↔ y.toNat ≤ x.toNat)) ∨ (c = 4 ∧ (p ↔ x.toInt < y.toInt)) ∨ (c = 5 ∧ (p ↔ y.toInt ≤ x.toInt))) :
    cmpHolds c x y = true ↔ p := by
  rcases h with ⟨rfl, h⟩ | ⟨rfl, h⟩ | ⟨rfl, h⟩ | ⟨rfl, h⟩ | ⟨rfl, h⟩ | ⟨rfl, h⟩ <;> rw [h, cmpHolds] <;> simp

/-- Settles O32: each instruction is a write of a working register, of the value that its function has. -/
theorem filterRegisters : Obligations.FilterRegisters := by
  unfold Obligations.FilterRegisters
  intro s r fl d e a b c l n i k x y h hx hy
  subst hx hy
  refine ⟨filtersW_of_quinudW h (exec_quinudFx d e l n s) (by rw [h.qe]),
    filtersW_of_quinudW h (exec_quinudLi d i s) (signExtend32_eq_ofInt i),
    filtersW_of_quinudW h (exec_quinudAddi d a i s) (by rw [h.qw, add32_signExtend_eq_ofInt]),
    filtersW_of_quinudR h (exec_quinudAdd d a b s) (add32_eq_ofNat _ _),
    filtersW_of_quinudR h (exec_quinudSub d a b s) (sub32_eq_ofInt _ _),
    filtersW_of_quinudR h (exec_quinudAnd d a b s) rfl, filtersW_of_quinudR h (exec_quinudOr d a b s) rfl,
    filtersW_of_quinudR h (exec_quinudXor d a b s) rfl,
    filtersW_of_quinudR h (exec_quinudShl d a b s) (shiftLeft32_eq_ofNat _ _),
    filtersW_of_quinudR h (exec_quinudShr d a b s) (shiftRight32_eq_ofNat _ _),
    filtersW_of_quinudR h (exec_quinudMul d a b s) (mul32_eq_ofNat _ _),
    filtersW_of_quinudR h (exec_quinudMin d a b s) (minN_eq _ _),
    filtersW_of_quinudR h (exec_quinudMax d a b s) (maxN_eq _ _), fun p hp => ⟨fun hold => ?_, fun hnot => ?_⟩,
    filtersW_of_quinudW h (exec_quinudSel d a b c s) (by rw [h.qw, h.qw, h.qw, ite_not]),
    filtersW_of_quinudW h (exec_quinudLd d k s) (by rw [h.qk])⟩
  · exact filtersW_of_quinudR h (exec_quinudCmp d a b c s) (if_pos ((cmpHolds_iff hp).2 hold))
  · exact filtersW_of_quinudR h (exec_quinudCmp d a b c s) (if_neg fun hc => hnot ((cmpHolds_iff hp).1 hc))

/-! ### Filter instructions on state words (22 R539, R540) -/

/-- An instruction whose effect is a change of the coprocessor that steps. -/
theorem filters_of_quinud {s : State} {r : FilterRun} {fl : Filter} (h : FilterPoint s r fl) {i : Instr}
    {eff : Nat → State → State} {g : Tel → Tel} (hi : exec i s = quinud eff s)
    (heff : eff s.curDie s = s.modTel s.curDie g) : Filters s i g := by
  rw [Filters, hi, quinud_point h, heff]

/-- An instruction that combines a working register into a state word. -/
theorem filtersK_of_quinudK {s : State} {r : FilterRun} {fl : Filter} (h : FilterPoint s r fl) {i : Instr}
    {a : BitVec 3} {k : BitVec 10} {f : BitVec 32 → BitVec 32 → BitVec 32} {x : BitVec 32}
    (hi : exec i s = quinudK a k f s) (hx : f (get 0 fl.k k.toNat) (get 0 r.w a.toNat) = x) :
    FiltersK s i r k.toNat x :=
  filters_of_quinud h hi (by rw [h.qk, h.qw, hx, setQk_point h])

theorem sat32_eq_min (n : Nat) : sat32 n = BitVec.ofNat 32 (min n 0xFFFFFFFF) := by
  by_cases h : n < 2 ^ 32
  · rw [sat32, if_pos h, Nat.min_eq_left (by omega)]
  · rw [sat32, if_neg h, Nat.min_eq_right (by omega)]; rfl

theorem bumpQk_point {s : State} {r : FilterRun} {fl : Filter} (h : FilterPoint s r fl) (n : Nat) :
    s.bumpQk s.curDie n = s.modTel s.curDie fun t => t.modFilter r.slot fun f => { f with
      k := put 0 f.k n (BitVec.ofNat 32 (min ((get 0 fl.k n).toNat + 1) 0xFFFFFFFF)) } := by
  rw [State.bumpQk, setQk_point h, h.qk, satAdd, sat32_eq_min]; rfl

theorem sshiftRight32_eq_ofInt (x : BitVec 32) (n : Nat) : x.sshiftRight n = BitVec.ofInt 32 (x.toInt / 2 ^ n) := by
  rw [BitVec.sshiftRight, Int.shiftRight_eq_div_pow]; norm_cast

/-- The bucket of the hash of a value, as arithmetic on naturals. -/
theorem sketchWord_eq (k m j : Nat) (x : BitVec 32) : sketchWord k m j x = k + (if j = 0 then 0 else 2 ^ m) +
    x.toNat * (if j = 0 then 0x9E3779B1 else 0x85EBCA77) % 2 ^ 32 / 2 ^ (32 - m) := by
  rw [sketchWord, hashUnit, BitVec.toNat_mul, apply_ite BitVec.toNat]; rfl

/-- A second write of the same key takes the place of the first. -/
theorem put_put {α : Type} [DecidableEq α] (d : α) (m : FMap α) (i : Nat) {x : α} (hx : x ≠ d) (y : α) :
    put d (put d m i x) i y = put d m i y := by
  induction m with
  | nil => simp [put, hx]
  | cons p m ih =>
    obtain ⟨k, z⟩ := p
    by_cases hlt : i < k
    · simp [put, hlt, hx]
    · by_cases heq : i = k
      · simp [put, heq, hx]
      · simp only [put, if_neg hlt, if_neg heq, ih]

/-- The die of a coprocessor that runs an event is not an empty one. -/
theorem die_ne_of_run {k : Die} {r : FilterRun} (h : k.tel.run = some r) : k ≠ {} := fun he => by
  rw [he] at h; cases h

theorem modTel_tel_of_run {s : State} {d : Nat} {g : Tel → Tel} {r : FilterRun} (h : (g (s.tel d)).run = some r) :
    (s.modTel d g).tel d = g (s.tel d) := by
  have hne : ({ s.die d with tel := g (s.tel d) } : Die) ≠ {} := die_ne_of_run h
  exact congrArg Die.tel (modDie_die_ne s d (fun k => { k with tel := g k.tel }) hne)

/-- Two changes of a coprocessor that runs an event are one. -/
theorem modTel_modTel_of_run {s : State} {d : Nat} {g : Tel → Tel} {r : FilterRun} (h : (g (s.tel d)).run = some r)
    (g' : Tel → Tel) : (s.modTel d g).modTel d g' = s.modTel d fun t => g' (g t) := by
  have hne : ({ s.die d with tel := g (s.tel d) } : Die) ≠ {} := die_ne_of_run h
  have hdie : (s.modTel d g).die d = { s.die d with tel := g (s.tel d) } :=
    modDie_die_ne s d (fun k => { k with tel := g k.tel }) hne
  have hdies := put_put {} s.dies d hne { s.die d with tel := g' (g (s.tel d)) }
  rw [State.modTel, State.modDie, hdie]
  exact congrArg (fun m => { s with dies := m }) hdies

/-- One more in a state word of the filter that runs, whatever the filter holds. -/
theorem bumpQk_run {s : State} {d : Nat} {r : FilterRun} (h : (s.tel d).run = some r) (n : Nat) :
    s.bumpQk d n = s.modTel d fun t => t.modFilter r.slot fun f => { f with
      k := put 0 f.k n (BitVec.ofNat 32 (min ((get 0 f.k n).toNat + 1) 0xFFFFFFFF)) } := by
  simp only [State.bumpQk, State.setQk, State.qk, State.modFilter, h, Option.elim_some]
  refine modTel_congr ?_
  cases hf : (s.tel d).filter r.slot with
  | none => simp only [Tel.modFilter, hf, Option.map_none]
  | some f => simp only [Tel.modFilter, hf, Option.map_some, Option.elim_some, satAdd, sat32_eq_min]; rfl

theorem modFilter_run (t : Tel) (slot : Nat) (f : Filter → Filter) : (t.modFilter slot f).run = t.run := rfl

/-- Two state words that go up one after the other. -/
theorem bumpQk_run_twice {s : State} {d : Nat} {r : FilterRun} (h : (s.tel d).run = some r) (n m : Nat) :
    (s.bumpQk d n).bumpQk d m = s.modTel d fun t =>
      (t.modFilter r.slot fun f => { f with
        k := put 0 f.k n (BitVec.ofNat 32 (min ((get 0 f.k n).toNat + 1) 0xFFFFFFFF)) }).modFilter r.slot fun f =>
          { f with k := put 0 f.k m (BitVec.ofNat 32 (min ((get 0 f.k m).toNat + 1) 0xFFFFFFFF)) } := by
  have hrun : ∀ f, ((s.tel d).modFilter r.slot f).run = some r := fun f => (modFilter_run _ _ f).trans h
  rw [bumpQk_run h, bumpQk_run (r := r) ((congrArg Tel.run (modTel_tel_of_run (hrun _))).trans (hrun _)),
    modTel_modTel_of_run (hrun _)]

/-- Settles O33: each instruction is a write of the state words that it names. -/
theorem filterState : Obligations.FilterState := by
  unfold Obligations.FilterState
  intro s r fl d a n k m6 m4 x K lo word h hx hK hlo hword
  subst hx hK hlo
  have hsketch : ∀ j, sketchWord k.toNat m4.toNat j (get 0 r.w a.toNat) = word j := fun j => by
    rw [hword, sketchWord_eq]
  refine ⟨filtersK_of_quinudK h (exec_quinudSt a k s) rfl,
    filtersK_of_quinudK h (exec_quinudKadd a k s) (sat32_eq_min _),
    filtersK_of_quinudK h (exec_quinudKmin a k s) (minN_eq _ _),
    filtersK_of_quinudK h (exec_quinudKmax a k s) (maxN_eq _ _),
    filtersK_of_quinudK h (exec_quinudEwma a k n s) (congrArg _ (sshiftRight32_eq_ofInt _ _)),
    fun i hi => ?_, fun i hi => ?_, ?_, filtersW_of_quinudW h (exec_quinudCmq d a k m4 s) ?_⟩
  · subst hi
    exact filters_of_quinud h (exec_quinudHlin d a k m6 m4 s) (by rw [bumpQk_point h, h.qw, h.qw])
  · subst hi
    exact filters_of_quinud h (exec_quinudHlog a k m6 s) (by rw [bumpQk_point h, h.qw])
  · refine filters_of_quinud h (exec_quinudCms a k m4 s) ?_
    dsimp only
    rw [h.qw, hsketch, hsketch]
    exact bumpQk_run_twice h.run _ _
  · dsimp only
    rw [h.qw, h.qk, h.qk, hsketch, hsketch, minN_eq]

/-! ### Filter branches, the end of an event, triggers (22 R541-R543) -/

/-- The meaning of every filter instruction is an effect at its point of the event. -/
theorem exec_isFilter {i : Instr} (h : isFilter i = true) (s : State) : ∃ eff, exec i s = quinud eff s := by
  cases i <;> cases h
  all_goals simp only [exec_quinudEnd, execQuinudEnd, exec_quinudFx, execQuinudFx, exec_quinudLi, execQuinudLi, exec_quinudAddi,
    execQuinudAddi, exec_quinudAdd, execQuinudAdd, exec_quinudSub, execQuinudSub, exec_quinudAnd,
    execQuinudAnd, exec_quinudOr, execQuinudOr, exec_quinudXor, execQuinudXor, exec_quinudShl, execQuinudShl,
    exec_quinudShr, execQuinudShr, exec_quinudMul, execQuinudMul, exec_quinudMin, execQuinudMin,
    exec_quinudMax, execQuinudMax, exec_quinudCmp, execQuinudCmp, exec_quinudSel, execQuinudSel,
    exec_quinudLd, execQuinudLd, exec_quinudSt, execQuinudSt, exec_quinudKadd, execQuinudKadd,
    exec_quinudKmin, execQuinudKmin, exec_quinudKmax, execQuinudKmax, exec_quinudEwma, execQuinudEwma,
    exec_quinudHlin, execQuinudHlin, exec_quinudHlog, execQuinudHlog, exec_quinudCms, execQuinudCms,
    exec_quinudCmq, execQuinudCmq, exec_quinudBz, execQuinudBz, exec_quinudBnz, execQuinudBnz,
    exec_quinudTrig, execQuinudTrig, quinudR, quinudK, quinudW]
  all_goals exact ⟨_, rfl⟩

/-- Outside its effect, an instruction of a filter waits for none, ends with the event, or is skipped. -/
theorem exec_filter_quiet (s : State) {i : Instr} (hi : isFilter i = true) :
    ((s.tel s.curDie).run = none → exec i s = .next s) ∧
    ∀ r, (s.tel s.curDie).run = some r →
      (r.ended = true → exec i s = .next (s.closeFilter s.curDie)) ∧
      (r.ended = false → 0 < r.skip → Filters s i fun t => { t with run := some { r with skip := r.skip - 1 } }) := by
  obtain ⟨eff, hexec⟩ := exec_isFilter hi s
  refine ⟨fun hrun => by rw [hexec, quinud, hrun], fun r hrun => ⟨fun hend => ?_, fun hend hskip => ?_⟩⟩
  · simp only [hexec, quinud, hrun, hend, if_true, State.closeFilter]
  · have hmod : (s.modTel s.curDie fun t => { t with run := t.run.map fun r => { r with skip := r.skip - 1 } }) =
        s.modTel s.curDie fun t => { t with run := some { r with skip := r.skip - 1 } } :=
      modTel_congr (by rw [hrun, Option.map_some])
    simp only [Filters, hexec, quinud, hrun, hend, hskip, if_true, State.closeFilter, hmod, Bool.false_eq_true, if_false]

theorem exportsDue_of_run {s : State} {d : Nat} (h : (s.tel d).run ≠ none) : s.exportsDue d = s := by
  rw [State.exportsDue, if_pos (Option.isSome_iff_ne_none.2 h)]

theorem exportsDue_one {s : State} {d k : Nat} {f : Filter} (hrun : (s.tel d).run = none)
    (hfilters : (s.tel d).filters = [(k, some f)]) :
    s.exportsDue d = if f.exportDue = true then s.exportSlot d k else s := by
  rw [State.exportsDue, hrun, hfilters]
  cases hdue : f.exportDue <;> simp [hdue]

/-- After an instruction: the next one, or the end of the event. -/
theorem nextIp_cases (t : Tel) (r : FilterRun) (f : Filter) (hrun : t.run = some r) (hf : t.filter r.slot = some f) :
    (r.ip + 1 < f.prog.length → t.nextIp = { t with run := some { r with ip := r.ip + 1 } }) ∧
    (f.prog.length ≤ r.ip + 1 → f.leaving = true →
      t.nextIp = { t with run := none, filters := put none t.filters r.slot none }) ∧
    (f.prog.length ≤ r.ip + 1 → f.leaving = false →
      t.nextIp = { t.modFilter r.slot fun f => { f with words := put 0 f.words 1 (get 0 f.words 1 + 1) } with run := none }) := by
  simp only [Tel.nextIp, Tel.endEvent, hrun, hf, Option.elim_some]
  refine ⟨fun hlt => if_neg (by omega), fun hle hleave => ?_, fun hle hleave => ?_⟩
  · rw [if_pos hle, if_pos hleave]
  · rw [if_pos hle, if_neg (by rw [hleave]; decide)]; rfl

/-- What a trigger that is performed leaves: the action's state `u`, counted in the filter's slot. -/
def State.trigPerformed (s u : State) (r : FilterRun) : State :=
  u.modTel s.curDie fun k => k.modFilter r.slot fun f => { f with
    words := put 0 f.words 5 (get 0 f.words 5 + 1), lastTrig := some u.cycles }

/-- A trigger that comes too early after the last one of its slot. -/
def Filter.early (f : Filter) (w : Word) (now : Nat) : Bool :=
  f.lastTrig.any fun k => now - k < 1024 * bits w.toNat 59 40

theorem Filter.early_iff (f : Filter) (w : Word) (now : Nat) :
    f.early w now = true ↔ ∃ k, f.lastTrig = some k ∧ now - k < 1024 * bits w.toNat 59 40 := by
  rw [Filter.early, Option.any_eq_true]
  simp only [decide_eq_true_eq]

section Trigger
variable {s : State} {r : FilterRun} {fl : Filter} (h : FilterPoint s r fl) (a t : BitVec 3)
include h

/-- A trigger in its three parts: suppressed, an insert, or another action. -/
theorem trigger_point (x : BitVec 32) : s.trigger s.curDie t.toNat x =
    if fl.early (fl.trigs.getD t.toNat 0) s.cycles = true then s.modFilter s.curDie r.slot (Filter.count 4)
    else if trigAction (fl.trigs.getD t.toNat 0) = 3 then
      match s.trigInsert s.curDie r.slot (fl.trigs.getD t.toNat 0) x r.e with
      | some u => s.trigPerformed u r
      | none => s.modFilter s.curDie r.slot (Filter.count 4)
    else s.trigPerformed (s.trigAct s.curDie r.slot fl (fl.trigs.getD t.toNat 0) x r.e) r := by
  simp only [State.trigger, h.run, h.filter]; rfl

theorem exec_trig (u : State) (hu : s.trigger s.curDie t.toNat (get 0 r.w a.toNat) = u) :
    exec (.quinudTrig a t) s = .next (u.closeFilter s.curDie) := by
  rw [exec_quinudTrig, execQuinudTrig, quinud_point h, h.qw, hu]

theorem trig_early (he : fl.early (fl.trigs.getD t.toNat 0) s.cycles = true) :
    Filters s (.quinudTrig a t) fun k => k.modFilter r.slot (Filter.count 4) :=
  exec_trig h a t _ (by rw [trigger_point h, if_pos he, State.modFilter])

theorem trig_refused (he : fl.early (fl.trigs.getD t.toNat 0) s.cycles ≠ true)
    (hact : trigAction (fl.trigs.getD t.toNat 0) = 3)
    (hins : s.trigInsert s.curDie r.slot (fl.trigs.getD t.toNat 0) (get 0 r.w a.toNat) r.e = none) :
    Filters s (.quinudTrig a t) fun k => k.modFilter r.slot (Filter.count 4) :=
  exec_trig h a t _ (by rw [trigger_point h, if_neg he, if_pos hact, hins, State.modFilter])

theorem trig_inserted (he : fl.early (fl.trigs.getD t.toNat 0) s.cycles ≠ true)
    (hact : trigAction (fl.trigs.getD t.toNat 0) = 3) {u : State}
    (hins : s.trigInsert s.curDie r.slot (fl.trigs.getD t.toNat 0) (get 0 r.w a.toNat) r.e = some u) :
    exec (.quinudTrig a t) s = .next ((s.trigPerformed u r).closeFilter s.curDie) :=
  exec_trig h a t _ (by rw [trigger_point h, if_neg he, if_pos hact, hins])

theorem trig_acts (he : fl.early (fl.trigs.getD t.toNat 0) s.cycles ≠ true) {n : Nat}
    (hact : trigAction (fl.trigs.getD t.toNat 0) = n) (hn : n ≠ 3) {u : State}
    (hu : s.trigAct s.curDie r.slot fl (fl.trigs.getD t.toNat 0) (get 0 r.w a.toNat) r.e = u) :
    exec (.quinudTrig a t) s = .next ((s.trigPerformed u r).closeFilter s.curDie) :=
  exec_trig h a t _ (by rw [trigger_point h, if_neg he, if_neg (by rwa [hact]), hu])

/-- `bz` skips where its register is zero. -/
theorem bz_point (o : BitVec 5) : exec (.quinudBz a o) s = .next
    ((if get 0 r.w a.toNat = 0 then s.skipNext s.curDie o else s).closeFilter s.curDie) := by
  rw [exec_quinudBz, execQuinudBz, quinud_point h, h.qw]

/-- `bnz` skips where its register is not zero. -/
theorem bnz_point (o : BitVec 5) : exec (.quinudBnz a o) s = .next
    ((if get 0 r.w a.toNat ≠ 0 then s.skipNext s.curDie o else s).closeFilter s.curDie) := by
  rw [exec_quinudBnz, execQuinudBnz, quinud_point h, h.qw]

theorem skipNext_point (o : BitVec 5) :
    s.skipNext s.curDie o = s.modTel s.curDie fun t => { t with run := some { r with skip := o.toNat - 1 } } := by
  rw [State.skipNext, State.modRunF]
  exact modTel_congr (by rw [h.run, Option.map_some])

theorem end_point : Filters s .quinudEnd fun t => { t with run := some { r with ended := true } } :=
  filters_of_quinud h (exec_quinudEnd s) (modTel_congr (by rw [h.run, Option.map_some]))

end Trigger

/-- Settles O34: the branches and `end` at their point of an event, what comes of the others, and the actions of a
trigger one by one. -/
theorem filterFlow : Obligations.FilterFlow := by
  unfold Obligations.FilterFlow
  refine ⟨⟨fun s r fl a o x h hx => ?_, fun s i hi => exec_filter_quiet s hi,
    fun s d => ⟨exportsDue_of_run, fun k f => exportsDue_one⟩, nextIp_cases⟩, fun s r fl a t x w h hx hw => ?_⟩
  · subst hx
    refine ⟨end_point h, fun hz => ⟨?_, ?_⟩, fun hnz => ⟨?_, ?_⟩⟩
    · rw [Filters, bz_point h, if_pos hz, skipNext_point h]
    · rw [bnz_point h, if_neg (not_not_intro hz)]
    · rw [bz_point h, if_neg hnz]
    · rw [Filters, bnz_point h, if_pos hnz, skipNext_point h]
  · subst hx hw
    simp only [← Filter.early_iff]
    refine ⟨trig_early h a t, trig_refused h a t, fun he hact u => trig_inserted h a t he hact,
      fun he hact => ?_, fun he hact => ?_, fun he hact => ?_, fun he hact => ?_⟩
    all_goals refine trig_acts h a t he hact (by decide) ?_
    all_goals rw [State.trigAct, show trigAction _ = _ from hact]; rfl

end Sys2Proof.Machine

/-! SUPPORT. The commands of the matrix engine (10 R342-R350). -/

namespace Sys2Proof.Machine

/-- The reads and the writes of elements may be written in other terms that agree where the states are those of the run. -/
theorem Elements.congr {c : Cmd} {p : Nat} {f : Nat → State → Except Stop State} {ok ok' : State → Prop}
    {rd rd' : Nat → Nat → State → Except Stop (State × Nat)} {put put' : Nat → List Nat → State → Except Stop State}
    (h : Elements c p f ok rd put) (hok : ∀ r, ok' r → ok r) (hrd : ∀ r, ok' r → ∀ e j, rd' e j r = rd e j r)
    (hput : ∀ r, ok' r → ∀ e l, put' e l r = put e l r) : Elements c p f ok' rd' put' := fun e r hr =>
  ⟨fun j hj => by rw [hrd r hr, (h e r (hok r hr)).1 j hj], by rw [hput r hr, (h e r (hok r hr)).2]⟩

theorem modMx_congr {s : State} {c : Cmd} {f g : Mx → Mx} (h : f (s.mx c) = g (s.mx c)) : s.modMx c f = s.modMx c g := by
  have h' : f (get {} (s.quad c.place).mx c.unit) = g (get {} (s.quad c.place).mx c.unit) := h
  simp only [State.modMx, State.modQuad, h']

theorem runs_mxCfg (s : State) (c : Cmd) :
    Runs s (.mxCfg c) c (mxCfgCheck c) id 0 (fun _ r => .ok r) (fun r => (r.modMx c fun m => { m with
      afmt := some (BitVec.ofNat 6 (bits c.spec 5 0)), sfmt := some (BitVec.ofNat 6 (bits c.spec 11 6)) }).doneCmd c) :=
  runs_of_runCmd (check := fun _ => mxCfgCheck c) (fun _ => rfl) rfl

theorem runs_mxSwap (s : State) (c : Cmd) :
    Runs s (.mxSwap c) c 0 id 0 (fun _ r => .ok r)
      (fun r => (r.modMx c fun m => { m with active := 1 - m.active }).doneCmd c) :=
  runs_of_runCmd (check := fun _ => 0) (fun _ => rfl) rfl

/-- Steps of a command whose elements take `p` reads each. -/
theorem cmdTotal_eq {c : Cmd} {p : Nat} (h : cmdReads c = p) (n : Nat) : cmdTotal c n = n * (p + 1) := by
  rw [cmdTotal, h]

/-- The elements of an `mx.ldst`. -/
theorem elements_mxLdst (c : Cmd) (t : Tensor) (c0 n : Nat) :
    Elements c 1 (fun k s => s.elemStep c 1 (fun e _ => s.ldstRead c e) (fun e l => .ok (s.ldstElem c e (l.headD 0))) k)
      (fun r => r.mxCols c.lid = (c0, n) ∧ r.tdOf c (bits c.spec 5 0) = t)
      (fun e _ r => if (decide (e % n < t.extent 0) && decide (e / n < t.extent 1)) then
        r.rdElem c (nearOrGlobal c.place) (BitVec.ofNat 64 (c.word 1)) (e / n * t.stride 1 + e % n * t.width) t.width
        else .ok (r, 0))
      (fun e l r => .ok (r.wr (planePlace c.place (1 - (r.mx c).active) (e / n) (c0 + e % n)) 2
        (if (decide (e % n < t.extent 0) && decide (e / n < t.extent 1)) then
          (convert ((r.mx c).sfmt.getD 0) 0 false (valOf t.fmt (l.headD 0))).1 else 0))) := by
  refine (elements_of_elemStep c 1 (fun e _ s => s.ldstRead c e) (fun e l s => .ok (s.ldstElem c e (l.headD 0)))
    fun _ => True).congr (fun _ _ => trivial) ?_ ?_
  · rintro r ⟨hcols, ht⟩ e _
    simp only [State.ldstRead, State.ldstInside, colsOf, hcols, ht]
  · rintro r ⟨hcols, ht⟩ e l
    simp only [State.ldstElem, State.ldstInside, colsOf, hcols, ht]

theorem runs_mxLdst (s : State) (c : Cmd) {c0 n : Nat} (hcols : s.mxCols c.lid = (c0, n)) (hop : c.op = 0x02) :
    Runs s (.mxLdst c) c (if (s.mx c).sfmt = none then eCONFIG else 0) id (64 * n * 2)
      (fun k s => s.elemStep c 1 (fun e _ => s.ldstRead c e) (fun e l => .ok (s.ldstElem c e (l.headD 0))) k)
      (fun r => (r.modMx c fun m => { m with
        kstat := put 0 m.kstat (1 - m.active) ((r.tdOf c (bits c.spec 5 0)).base + sbits c.spec 13 6) }).doneCmd c) := by
  have hreads : cmdReads c = 1 := by rw [cmdReads, hop]; rfl
  have hcheck : (if (s.mx c).sfmt = none then eCONFIG else 0) = if (s.mx c).sfmt.isNone = true then eCONFIG else 0 := by
    simp only [Option.isNone_iff_eq_none]
  have htotal : 64 * n * 2 = cmdTotal c (64 * (colsOf s c).2) := by rw [cmdTotal_eq hreads, colsOf, hcols]
  rw [hcheck, htotal]
  exact runs_of_runCmd (check := fun s => if (s.mx c).sfmt.isNone then eCONFIG else 0) (fun _ => rfl) rfl

/-- The step of an `mx.zero` for one element of one of its tiles. -/
theorem zeroElem_eq (c : Cmd) {c0 n i row col : Nat} {r : State} (hcols : r.mxCols c.lid = (c0, n)) (hrow : row < 64)
    (hcol : col < n) : r.zeroElem c (i * (64 * n) + row * n + col) =
      r.wr (accPlace c.place ((zeroTiles c).getD i 0) row (c0 + col)) 4 0 := by
  have hlt : row * n + col < 64 * n := calc
    row * n + col < row * n + n := Nat.add_lt_add_left hcol _
    _ = (row + 1) * n := (Nat.succ_mul row n).symm
    _ ≤ 64 * n := Nat.mul_le_mul_right n hrow
  have htile : (i * (64 * n) + row * n + col) / (64 * n) = i := by
    rw [Nat.add_assoc, Nat.mul_comm i, Nat.mul_add_div (by omega), Nat.div_eq_of_lt hlt, Nat.add_zero]
  have hlin : i * (64 * n) + row * n + col = n * (i * 64 + row) + col := by
    rw [Nat.mul_add, Nat.mul_comm n (i * 64), Nat.mul_assoc, Nat.mul_comm n row]
  have hline : (i * (64 * n) + row * n + col) / n = i * 64 + row := by
    rw [hlin, Nat.mul_add_div (by omega), Nat.div_eq_of_lt hcol, Nat.add_zero]
  have hcolumn : (i * (64 * n) + row * n + col) % n = col := by
    rw [hlin, Nat.mul_add_mod, Nat.mod_eq_of_lt hcol]
  have hmod : (i * 64 + row) % 64 = row := by omega
  simp only [State.zeroElem, colsOf, hcols, htile, hline, hcolumn, hmod]

/-- Settles O25: the run of each command, and what its steps do within the columns owned. -/
theorem matrixCommands : Obligations.MatrixCommands := by
  unfold Obligations.MatrixCommands
  intro s c t a b c0 n inside hcols ht ha hb hinside
  obtain rfl : inside = fun e => (decide (e % n < t.extent 0) && decide (e / n < t.extent 1)) := funext hinside
  subst ha hb
  refine ⟨runs_mxCfg s c, fun hop => ⟨_, runs_mxLdst s c hcols hop, elements_mxLdst c t c0 n⟩, runs_mxSwap s c,
    fun tiles htiles => ?_⟩
  subst htiles
  refine ⟨fun k s => .ok (s.zeroElem c k), ?_, fun i row col r hr _ hrow hcol => congrArg _ (zeroElem_eq c hr hrow hcol)⟩
  have htotal : n = (colsOf s c).2 := by rw [colsOf, hcols]
  rw [htotal]
  exact runs_of_runCmd (check := fun _ => 0) (fun _ => rfl) rfl

/-! ### The stream (10 R346, 04 R136, R137) -/

theorem runs_mxStream (s : State) (c : Cmd) :
    Runs s (.mxStream c) c (s.streamCheck c) (fun r => if bits c.spec 12 12 = 1 then r.swapPlanes c else r)
      ((bits c.spec 8 0 + 1) * (64 + (colsOf s c).2)) (fun k s => s.streamStep c k)
      (fun s => (if intCode ((s.mx c).afmt.getD 0) && bits c.spec 11 11 = 0 then s.modMx c fun m => { m with
          scales := (streamTiles c).foldl (fun z t => put 0 z t (s.streamScale c m.active)) m.scales } else s).doneCmd c) :=
  runs_of_runCmd (check := fun s => s.streamCheck c) (fun t => by split <;> rfl) rfl

theorem streamCheck_eq (s : State) (c : Cmd) : s.streamCheck c =
    if (s.mx c).afmt = none then eCONFIG else if (s.tdOf c (bits c.spec 18 13)).fmt ≠ (s.mx c).afmt.getD 0 then eMISMATCH
    else if intCode ((s.mx c).afmt.getD 0) = true ∧ bits c.spec 11 11 = 1 ∧ (∃ k ∈ streamTiles c, get 0 (s.mx c).scales k ≠
      s.streamScale c (if bits c.spec 12 12 = 1 then 1 - (s.mx c).active else (s.mx c).active)) then eSCALE else 0 := by
  rw [State.streamCheck]
  cases hfmt : (s.mx c).afmt with
  | none => rfl
  | some a =>
    simp only [reduceCtorEq, if_false, Option.getD_some, Bool.and_eq_true, List.any_eq_true, decide_eq_true_eq, and_assoc]

/-- The steps of a row of a stream: the reads of its 64 operands, then a step for each column. -/
theorem streamStep_read (c : Cmd) {c0 n : Nat} {r : State} (hcols : r.mxCols c.lid = (c0, n)) (i : Nat) {j : Nat}
    (hj : j < 64) : r.streamStep c (i * (64 + n) + j) = (r.streamRead c i j).map fun x => x.1.hold c j x.2 := by
  have hdiv : (i * (64 + n) + j) / (64 + n) = i := by
    rw [Nat.mul_comm i, Nat.mul_add_div (by omega), Nat.div_eq_of_lt (by omega), Nat.add_zero]
  have hmod : (i * (64 + n) + j) % (64 + n) = j := by
    rw [Nat.mul_comm i, Nat.mul_add_mod, Nat.mod_eq_of_lt (by omega)]
  simp only [State.streamStep, colsOf, hcols, hdiv, hmod, if_pos hj]

theorem streamStep_acc (c : Cmd) {c0 n : Nat} {r : State} (hcols : r.mxCols c.lid = (c0, n)) (i : Nat) {j : Nat}
    (hj : j < n) : r.streamStep c (i * (64 + n) + (64 + j)) = .ok (r.streamAcc c i j (r.heldOf c)) := by
  have hdiv : (i * (64 + n) + (64 + j)) / (64 + n) = i := by
    rw [Nat.mul_comm i, Nat.mul_add_div (by omega), Nat.div_eq_of_lt (by omega), Nat.add_zero]
  have hmod : (i * (64 + n) + (64 + j)) % (64 + n) = 64 + j := by
    rw [Nat.mul_comm i, Nat.mul_add_mod, Nat.mod_eq_of_lt (by omega)]
  simp only [State.streamStep, colsOf, hcols, hdiv, hmod]
  rw [if_neg (by omega), Nat.add_sub_cancel_left]

/-- The sum of integer products, and its accumulation (04 R137). -/
theorem macInt_eq {a b : BitVec 6} {g h : IntFmt} (acts stats : List Nat) (hg : intFmt a = some g) (hh : intFmt b = some h)
    {sum : Int} (hsum : sum = ((acts.zip stats).map fun p => valInt g p.1 * valInt h p.2).foldl (· + ·) 0)
    (old : Option Nat) : macInt a b acts stats old = old.elim (wrapInt 32 sum, []) fun x =>
      (wrapInt 32 (satInt s32 (valInt s32 x + sum)),
        if satInt s32 (valInt s32 x + sum) = valInt s32 x + sum then [] else [kOVF]) := by
  subst hsum
  rw [List.foldl_map]
  cases old with
  | none => simp only [macInt, hg, hh, Option.elim_some, Option.elim_none]
  | some x =>
    simp only [macInt, hg, hh, Option.elim_some]
    rfl

theorem satInt_s32 (x : Int) : satInt s32 x = max (-2 ^ 31) (min (2 ^ 31 - 1) x) := by
  have hlo : s32.lo = -2 ^ 31 := rfl
  have hhi : s32.hi = 2 ^ 31 - 1 := rfl
  rw [satInt, hlo, hhi]
  split
  · omega
  · split <;> omega

/-- A value within 32 signed bits reads as its code. -/
theorem valInt_wrapInt_s32 {x : Int} (hlo : -2 ^ 31 ≤ x) (hhi : x < 2 ^ 31) : valInt s32 (wrapInt 32 x) = x := by
  have hcode : wrapInt 32 x = (BitVec.ofInt 32 x).toNat := by rw [wrapInt, BitVec.toNat_ofInt]; rfl
  rw [s32, valInt_signed (by decide), hcode, BitVec.ofNat_toNat, BitVec.setWidth_eq, BitVec.toInt_ofInt]
  exact Int.bmod_eq_of_le (by omega) (by omega)

/-- An exact integer sum, and its saturated accumulation (04 R137). -/
theorem macInt_sums {a b : BitVec 6} {g h : IntFmt} (acts stats : List Nat) (x : Nat) (hg : intFmt a = some g)
    (hh : intFmt b = some h) {sum : Int}
    (hsum : sum = ((acts.zip stats).map fun p => valInt g p.1 * valInt h p.2).foldl (· + ·) 0) :
    (macInt a b acts stats none).1 = (sum % 2 ^ 32).toNat ∧ (macInt a b acts stats none).2 = [] ∧
      valInt s32 (macInt a b acts stats (some x)).1 = max (-2 ^ 31) (min (2 ^ 31 - 1) (valInt s32 x + sum)) ∧
      (macInt a b acts stats (some x)).2 =
        if -2 ^ 31 ≤ valInt s32 x + sum ∧ valInt s32 x + sum < 2 ^ 31 then [] else [kOVF] := by
  simp only [macInt_eq acts stats hg hh hsum, Option.elim_some, Option.elim_none]
  generalize valInt s32 x + sum = top
  have hiff : (satInt s32 top = top) = (-2 ^ 31 ≤ top ∧ top < 2 ^ 31) := by
    rw [satInt_s32, eq_iff_iff]; omega
  refine ⟨rfl, trivial, ?_, ?_⟩
  · rw [← satInt_s32]
    refine valInt_wrapInt_s32 ?_ ?_ <;> rw [satInt_s32] <;> omega
  · simp only [hiff]

/-- The scales that a stream records are those of the plane that is active at its end. -/
theorem streamEnd_eq (s : State) (c : Cmd) :
    (s.modMx c fun m => { m with
      scales := (streamTiles c).foldl (fun z t => put 0 z t (s.streamScale c m.active)) m.scales }) =
    s.modMx c fun m => { m with
      scales := (streamTiles c).foldl (fun z t => put 0 z t (s.streamScale c (s.mx c).active)) m.scales } :=
  modMx_congr rfl

/-- Settles O26: the start of a stream, its steps row by row, its end, and the sums of its integer elements. -/
theorem matrixStream : Obligations.MatrixStream := by
  unfold Obligations.MatrixStream
  refine ⟨fun s c t c0 n a e hcols ht ha he => ?_, fun a b g h acts stats x hg hh => macInt_sums acts stats x hg hh rfl⟩
  have hcheck : e = s.streamCheck c := by
    rw [he, streamCheck_eq, ha, ← ht]; rfl
  subst hcheck
  have hn : n = (colsOf s c).2 := by rw [colsOf, hcols]
  refine ⟨_, _, hn ▸ runs_mxStream s c, fun r hr hrt => ⟨?_, fun i j hj => ?_, fun i j hj => ?_⟩⟩
  · simp only [streamEnd_eq]
    simp only [State.streamScale, hrt, Bool.and_eq_true, decide_eq_true_eq]
  · rw [streamStep_read c hr i hj, State.streamRead, hrt]
  · rw [streamStep_acc c hr i hj, State.streamAcc, State.streamScale, hrt, colsOf, hr]

/-! ### The drain (10 R348-R350) -/

theorem runs_mxDrain (s : State) (c : Cmd) {c0 n : Nat} (hcols : s.mxCols c.lid = (c0, n)) (hop : c.op = 0x06) :
    Runs s (.mxDrain c) c (if (s.mx c).afmt = none then eCONFIG else 0) id
      ((bits c.spec 7 2 + 1) * n * (1 + bits c.spec 27 27 + 1))
      (fun k s => s.elemStep c (1 + bits c.spec 27 27) (fun e j => s.drainRead c e j) (fun e l => s.drainElem c e l) k)
      (fun r => r.drainClosure c ((bits c.spec 7 2 + 1) * n)) := by
  have hreads : cmdReads c = 1 + bits c.spec 27 27 := by rw [cmdReads, hop]; rfl
  have hcheck : (if (s.mx c).afmt = none then eCONFIG else 0) = if (s.mx c).afmt.isNone = true then eCONFIG else 0 := by
    simp only [Option.isNone_iff_eq_none]
  have hn : (bits c.spec 7 2 + 1) * n = s.drainCount c := by rw [State.drainCount, colsOf, hcols]
  rw [hcheck, hn, ← cmdTotal_eq hreads, ← hreads]
  exact runs_of_runCmd (check := fun s => if (s.mx c).afmt.isNone then eCONFIG else 0) (fun _ => rfl) rfl

theorem elements_mxDrain (c : Cmd) (p c0 n : Nat) :
    Elements c p (fun k s => s.elemStep c p (fun e j => s.drainRead c e j) (fun e l => s.drainElem c e l) k)
      (fun r => r.mxCols c.lid = (c0, n))
      (fun e j r => if j = 0 then
          .ok (r, r.rd (accPlace c.place (bits c.spec 1 0) (bits c.spec 13 8 + e / n) (c0 + e % n)) 4)
        else r.rdElem c (nearQuad c.place) (BitVec.ofNat 64 (c.word 3)) (32 * (c0 + e % n)) 32)
      (fun e l r =>
        let w := fmtWidth (BitVec.ofNat 6 (bits c.spec 19 14))
        let y := epilogue (intCode ((r.mx c).afmt.getD 0)) (get 0 (r.mx c).scales (bits c.spec 1 0)) c (l.getD 0 0) (l.getD 1 0)
        (r.wrElem c inScratch (BitVec.ofNat 64 (c.word 1) + BitVec.ofNat 64 (e / n * bits (c.word 2) 15 0)) (e % n * w) w
          y.1).map fun u => u.countCmd c y.2) := by
  refine (elements_of_elemStep c p (fun e j s => s.drainRead c e j) (fun e l s => s.drainElem c e l)
    fun _ => True).congr (fun _ _ => trivial) ?_ ?_
  · intro r hr e j
    simp only [State.drainRead, colsOf, hr]
  · intro r hr e l
    simp only [State.drainElem, colsOf, hr]

/-- The closure of a drain of `total` elements (10 R350). -/
theorem drainClosure_cases (c : Cmd) (total : Nat) (r : State) :
    (bits c.spec 26 25 = 0 → r.drainClosure c total = r.doneCmd c) ∧
    (bits c.spec 26 25 = 1 →
      (r.wakeTarget c.lid c.level (BitVec.ofNat 64 (c.word 1)) = none → r.drainClosure c total = r.endCmd c ⟨2, eACCESS, total⟩) ∧
      ∀ core, r.wakeTarget c.lid c.level (BitVec.ofNat 64 (c.word 1)) = some core →
        r.drainClosure c total = ((r.modRun c fun x => x.goes (cmdTotal c total)).unlockCmd c.th c.seq).send
          (some (endEngine c.unit c.place, core)) (.wakeMessage {
            core := core, entry := BitVec.ofNat 64 (c.word (3 + bits c.spec 27 27))
            args := [BitVec.ofNat 64 (c.word (3 + bits c.spec 27 27 + 1)), BitVec.ofNat 64 (c.word (3 + bits c.spec 27 27 + 2)),
              BitVec.ofNat 64 (c.word (3 + bits c.spec 27 27 + 3)), BitVec.ofNat 64 (c.word (3 + bits c.spec 27 27 + 4))]
            level := c.level, h := false, lid := c.lid, sender := .engine c.th c.unit c.seq, since := r.hub.cycle })) ∧
    (2 ≤ bits c.spec 26 25 → ∀ x : Rec,
      x = ⟨BitVec.ofNat 64 (c.word (3 + bits c.spec 27 27)), BitVec.ofNat 64 (c.word (3 + bits c.spec 27 27 + 1))⟩ →
        (∀ lid, c.lid = some lid → r.recordFault c.lid x = none → r.drainClosure c total =
          (r.insertRecord (endEngine c.unit c.place) (dieOfTh c.th) c.th (whoCmd c) lid x none).doneCmd c) ∧
        (c.lid = none ∨ r.recordFault c.lid x ≠ none → r.drainClosure c total = r.endCmd c ⟨2, eACCESS, total⟩)) := by
  refine ⟨fun h => ?_, fun h => ⟨fun hw => ?_, fun core hw => ?_⟩, fun h x hx => ⟨fun lid hlid hrec => ?_, fun hbad => ?_⟩⟩
  · rw [State.drainClosure, if_pos h]
  · simp only [State.drainClosure, h, Nat.one_ne_zero, if_false, if_true, hw]
  · simp only [State.drainClosure, h, Nat.one_ne_zero, if_false, if_true, hw]
  · subst hx
    simp only [State.drainClosure, if_neg (show bits c.spec 26 25 ≠ 0 by omega),
      if_neg (show bits c.spec 26 25 ≠ 1 by omega)]
    rw [hrec, hlid]
  · subst hx
    simp only [State.drainClosure, if_neg (show bits c.spec 26 25 ≠ 0 by omega),
      if_neg (show bits c.spec 26 25 ≠ 1 by omega)]
    rcases hbad with hlid | hrec
    · rw [hlid]
      cases r.recordFault none _ <;> rfl
    · obtain ⟨e, he⟩ := Option.ne_none_iff_exists'.1 hrec
      rw [he]

/-- Settles O27: the run of a drain, its elements, and its closure. -/
theorem matrixDrain : Obligations.MatrixDrain := by
  unfold Obligations.MatrixDrain
  intro s c c0 n p total hcols hop hp htotal
  subst hp htotal
  refine ⟨_, _, runs_mxDrain s c hcols hop, elements_mxDrain c _ c0 n, fun r k _ hk => ?_⟩
  subst hk
  have hreads : cmdReads c = 1 + bits c.spec 27 27 := by rw [cmdReads, hop]; rfl
  have h := drainClosure_cases c ((bits c.spec 7 2 + 1) * n) r
  rw [cmdTotal_eq hreads] at h
  exact h

end Sys2Proof.Machine

/-! SUPPORT. Collectives (10 R359-R361, 19 R469). -/

namespace Sys2Proof.Machine

/-! ### A counterexample: two entries for one die

The table of dies lists die 0 twice. The message leaves the first entry empty, which the table then drops, so that the second
one is read, whose group has passed the number of the message. -/

/-- A message of group 0, from another package, on its way to die 0. -/
def wayMsg : CollMsg := { lid := none, op := none, cls := 0, group := 0, number := 0, step := 0, src := 5, body := [] }

/-- A `coll.reduce` in progress. -/
def wayCmd : Cmd :=
  { unit := 0, place := 0, th := 0, lid := none, level := 0, xctx := 0, words := [0x20 <<< 58], seq := 0 }

/-- A launch whose group 0 has the sender as a member. -/
def wayLaunch : Launch :=
  { queue := 0, handle := 0, state := .running, part := 0, xctx := 0, prio := 0, rsv := false, order := 0, groups := [[5]] }

/-- Die 0 twice: where the message is on its way, and where the group's next number is 1. -/
def twoDies : State :=
  { dies := [(0, { collWay := [wayMsg] }), (0, { collSeq := [(0, 1)] })]
    quads := [(0, { eng := [(0, { running := [{ cmd := wayCmd, progress := 0 }] })] })]
    launches := [(0, some wayLaunch)] }

theorem twoDies_started : twoDies.started wayCmd = some { cmd := wayCmd, progress := 0 } := by decide

theorem twoDies_over : twoDies.collOver 0 wayMsg = false := by decide

/-- The engine of the second entry answers that the message is over, and keeps nothing of it. -/
theorem twoDies_deliver : ((twoDies.collDeliver 0 0).die 0).collIn = [] := by decide

/-- What the statement says arrives: the message. -/
theorem twoDies_arrives : ((((twoDies.modDie 0 fun x => { x with collWay := x.collWay.erase wayMsg }).modDie 0
    fun x => { x with collIn := x.collIn ++ [wayMsg] }).collAdvance 0).die 0).collIn = [wayMsg] := by decide

/-- Refutes O31: the statement speaks of every state, one whose table of dies lists die 0 twice among them. There the message
that `collOver` lets pass before it leaves its way is over in the entry that is read afterwards, and does not join the
messages that have arrived. -/
theorem not_collectives : ¬ Obligations.Collectives := by
  unfold Obligations.Collectives
  intro h
  obtain ⟨hruns, _⟩ := h
  obtain ⟨_, _, hstarted⟩ := hruns twoDies wayCmd (.collReduce wayCmd) (by decide)
  obtain ⟨_, _, _, _, _, _, harrive⟩ := hstarted _ twoDies_started
  have heq := congrArg (fun t : State => (t.die 0).collIn) (harrive 0 0 wayMsg (by decide) twoDies_over)
  exact absurd (twoDies_deliver.symm.trans (heq.trans twoDies_arrives)) (by decide)

end Sys2Proof.Machine

/-! SUPPORT. The commands of the copy engine and of the reconstruction unit (10 R351-R358, 11 R388). -/

namespace Sys2Proof.Machine

/-! ### `cp.crc` and `cp.send` (10 R357, R358) -/

theorem runs_cpCrc (s : State) (c : Cmd) :
    Runs s (.cpCrc c) c 0 (fun r => r.modRun c fun x => { x with acc := bits (c.word 2) 31 0 }) (bits (c.word 2) 63 32)
      (fun k r => (r.rdElem c inCopy (BitVec.ofNat 64 (c.word 1)) (8 * k) 8).map fun b =>
        b.1.modRun c fun x => { x with acc := crcStep x.acc b.2 })
      (fun r => r.endCmd c ⟨0, 0, (r.started c).elim 0 (·.acc)⟩) := by
  have hstep : (fun (k : Nat) (s : State) => (do
      let b ← s.rdElem c inCopy (BitVec.ofNat 64 (c.word 1)) (8 * k) 8
      return b.1.modRun c fun r => { r with acc := crcStep r.acc b.2 } : Except Stop State)) =
      fun k r => (r.rdElem c inCopy (BitVec.ofNat 64 (c.word 1)) (8 * k) 8).map fun b =>
        b.1.modRun c fun x => { x with acc := crcStep x.acc b.2 } := by
    funext k r
    cases r.rdElem c inCopy (BitVec.ofNat 64 (c.word 1)) (8 * k) 8 <;> rfl
  rw [← hstep]
  exact runs_of_runCmd (check := fun _ => 0) (fun t => by simp) rfl

/-- A frame for a port joins an egress queue. -/
def Egress.join (q : Egress) (port : Nat) (b : List Nat) : Egress :=
  { q with frames := q.frames ++ [(port, b.map (BitVec.ofNat 8))] }

/-- The end of a `cp.send`: its frame joins the egress queue, or it fails. -/
def State.sendEnd (s : State) (c : Cmd) : State :=
  if !s.egressOk c ((s.started c).elim [] (·.data)).head? || (s.started c).any (fun r => r.acc ≠ (s.sendPort c).losses) then
    s.endCmd c ⟨2, ePORT, 0⟩
  else (s.modHub fun h => { h with
    egress := put {} h.egress (bits (c.word 2) 22 17)
            ((get {} s.hub.egress (bits (c.word 2) 22 17)).join (bits (c.word 2) 16 15)
              ((s.started c).elim [] (·.data))) }).doneCmd c

theorem runs_cpSend (s : State) (c : Cmd) :
    Runs s (.cpSend c) c (if s.egressOk c none then 0 else ePORT)
      (fun r => r.modRun c fun x => { x with acc := (get {} r.hub.ports (bits (c.word 2) 16 15)).losses })
      (bits (c.word 2) 14 0)
      (fun k r => (r.rdElem c inCopy (BitVec.ofNat 64 (c.word 1)) (8 * k) 8).map fun b =>
        b.1.modRun c fun x => { x with data := x.data ++ [b.2] }) (fun r => r.sendEnd c) :=
  runs_of_runCmd (check := fun s => if s.egressOk c none then 0 else ePORT) (fun t => by simp) rfl

theorem sendEnd_cases {r : State} {c : Cmd} {x : Running} (hx : r.started c = some x) :
    (r.egressOk c x.data.head? = false ∨ x.acc ≠ (r.sendPort c).losses → r.sendEnd c = r.endCmd c ⟨2, ePORT, 0⟩) ∧
    (r.egressOk c x.data.head? = true → x.acc = (r.sendPort c).losses →
      r.sendEnd c = (r.modHub fun h => { h with
    egress := put {} h.egress (bits (c.word 2) 22 17)
            ((get {} r.hub.egress (bits (c.word 2) 22 17)).join (bits (c.word 2) 16 15) x.data) }).doneCmd c) := by
  simp only [State.sendEnd, hx, Option.elim_some, Option.any_some, Bool.or_eq_true, Bool.not_eq_true', decide_eq_true_eq]
  refine ⟨fun h => if_pos h, fun hok hacc => if_neg ?_⟩
  rintro (h | h)
  · rw [hok] at h; cases h
  · exact h hacc

/-- Settles O29: the runs of the two commands, and the end of a `cp.send` by cases. -/
theorem crcAndSend : Obligations.CrcAndSend := by
  unfold Obligations.CrcAndSend
  refine fun s c => ⟨runs_cpCrc s c, _, runs_cpSend s c, fun r x q hx hq => ?_⟩
  subst hq
  exact sendEnd_cases hx

/-! ### The copies (10 R351, R352, R355, R356) -/

theorem runs_cpCopy (s : State) (c : Cmd) (hop : c.op = 0x10) :
    Runs s (.cpCopy c) c 0 id ((s.tdOf c (bits c.spec 5 0)).count * 2)
      (fun k s => s.elemStep c 1 (fun e _ => s.srcAt c e) (fun e l => s.dstAt c (BitVec.ofNat 64 (c.word 2)) e (l.headD 0)) k)
      (fun r => r.doneCmd c) := by
  have hreads : cmdReads c = 1 := by rw [cmdReads, hop]; rfl
  rw [← cmdTotal_eq (p := 1) hreads]
  exact runs_of_runCmd (check := fun _ => 0) (fun _ => rfl) rfl

theorem elements_cpCopy (c : Cmd) (a b : Tensor) :
    Elements c 1
      (fun k s => s.elemStep c 1 (fun e _ => s.srcAt c e) (fun e l => s.dstAt c (BitVec.ofNat 64 (c.word 2)) e (l.headD 0)) k)
      (fun r => r.tdOf c (bits c.spec 5 0) = a ∧ r.tdOf c (bits c.spec 11 6) = b)
      (fun e _ r => r.rdElem c inCopy (BitVec.ofNat 64 (c.word 1)) (a.bitOff e) a.width)
      (fun e l r =>
        let scale : Int := a.base + sbits (c.word 3) 7 0 + sbits c.spec 25 16 - (b.base + sbits (c.word 3) 15 8)
        let out := convert b.fmt (bits c.spec 13 12) (bits c.spec 14 14 = 1) ((valOf a.fmt (l.headD 0)).scale scale)
        (r.wrElem c inCopy (BitVec.ofNat 64 (c.word 2)) (b.bitOff e) b.width out.1).map fun u => u.countCmd c out.2) := by
  refine (elements_of_elemStep c 1 (fun e _ s => s.srcAt c e)
    (fun e l s => s.dstAt c (BitVec.ofNat 64 (c.word 2)) e (l.headD 0)) fun _ => True).congr (fun _ _ => trivial) ?_ ?_
  · rintro r ⟨ha, hb⟩ e _
    simp only [State.srcAt, State.copyRead, ha]
  · rintro r ⟨ha, hb⟩ e l
    simp only [State.dstAt, State.copyWrite, State.copyConv, ha, hb]

/-- The steps of a gather. -/
def gatherStep (c : Cmd) (k : Nat) (s : State) : Except Stop State := s.elemStep c 2
  (fun p j => if j = 0 then s.indexAt c p else s.copyRead c
    (indexed (BitVec.ofNat 64 (c.word 1)) (s.tdOf c (bits c.spec 5 0)).width ((s.heldOf c).headD 0)) 0)
  (fun p l => s.copyWrite c (BitVec.ofNat 64 (c.word 2)) (p * (s.tdOf c (bits c.spec 11 6)).width) (l.getD 1 0)) k

/-- The steps of a scatter. -/
def scatterStep (c : Cmd) (k : Nat) (s : State) : Except Stop State := s.elemStep c 2
  (fun p j => if j = 0 then s.indexAt c p else
    s.copyRead c (BitVec.ofNat 64 (c.word 1)) (p * (s.tdOf c (bits c.spec 5 0)).width))
  (fun _ l => s.copyWrite c (indexed (BitVec.ofNat 64 (c.word 2)) (s.tdOf c (bits c.spec 11 6)).width (l.headD 0)) 0
    (l.getD 1 0)) k

theorem runs_cpGather (s : State) (c : Cmd) (hop : c.op = 0x12) :
    Runs s (.cpGather c) c 0 id ((bits (c.word 5) 15 0 + 1) * 3) (gatherStep c) (fun r => r.doneCmd c) := by
  have hreads : cmdReads c = 2 := by rw [cmdReads, hop]; rfl
  rw [← cmdTotal_eq (p := 2) hreads]
  exact runs_of_runCmd (check := fun _ => 0) (fun _ => rfl) rfl

theorem runs_cpScatter (s : State) (c : Cmd) (hop : c.op = 0x13) :
    Runs s (.cpScatter c) c 0 id ((bits (c.word 5) 15 0 + 1) * 3) (scatterStep c) (fun r => r.doneCmd c) := by
  have hreads : cmdReads c = 2 := by rw [cmdReads, hop]; rfl
  rw [← cmdTotal_eq (p := 2) hreads]
  exact runs_of_runCmd (check := fun _ => 0) (fun _ => rfl) rfl

theorem elements_gatherStep (c : Cmd) (a b : Tensor) :
    Elements c 2 (gatherStep c) (fun r => r.tdOf c (bits c.spec 5 0) = a ∧ r.tdOf c (bits c.spec 11 6) = b)
      (fun p j r => if j = 0 then r.indexAt c p else r.rdElem c inCopy
        (indexed (BitVec.ofNat 64 (c.word 1)) a.width ((r.heldOf c).headD 0)) 0 a.width)
      (fun p l r => (r.wrElem c inCopy (BitVec.ofNat 64 (c.word 2)) (p * b.width) b.width
        (r.copyConv c (l.getD 1 0)).1).map fun u => u.countCmd c (r.copyConv c (l.getD 1 0)).2) := by
  refine (elements_of_elemStep c 2 (fun p j s => if j = 0 then s.indexAt c p else s.copyRead c
      (indexed (BitVec.ofNat 64 (c.word 1)) (s.tdOf c (bits c.spec 5 0)).width ((s.heldOf c).headD 0)) 0)
    (fun p l s => s.copyWrite c (BitVec.ofNat 64 (c.word 2)) (p * (s.tdOf c (bits c.spec 11 6)).width) (l.getD 1 0))
    fun _ => True).congr (fun _ _ => trivial) ?_ ?_
  · rintro r ⟨ha, hb⟩ p j
    simp only [State.copyRead, ha]
  · rintro r ⟨ha, hb⟩ p l
    simp only [State.copyWrite, hb]

theorem elements_scatterStep (c : Cmd) (a b : Tensor) :
    Elements c 2 (scatterStep c) (fun r => r.tdOf c (bits c.spec 5 0) = a ∧ r.tdOf c (bits c.spec 11 6) = b)
      (fun p j r => if j = 0 then r.indexAt c p else
        r.rdElem c inCopy (BitVec.ofNat 64 (c.word 1)) (p * a.width) a.width)
      (fun _ l r => (r.wrElem c inCopy (indexed (BitVec.ofNat 64 (c.word 2)) b.width (l.headD 0)) 0 b.width
        (r.copyConv c (l.getD 1 0)).1).map fun u => u.countCmd c (r.copyConv c (l.getD 1 0)).2) := by
  refine (elements_of_elemStep c 2 (fun p j s => if j = 0 then s.indexAt c p else
      s.copyRead c (BitVec.ofNat 64 (c.word 1)) (p * (s.tdOf c (bits c.spec 5 0)).width))
    (fun _ l s => s.copyWrite c (indexed (BitVec.ofNat 64 (c.word 2)) (s.tdOf c (bits c.spec 11 6)).width (l.headD 0)) 0
      (l.getD 1 0)) fun _ => True).congr (fun _ _ => trivial) ?_ ?_
  · rintro r ⟨ha, hb⟩ p j
    simp only [State.copyRead, ha]
  · rintro r ⟨ha, hb⟩ p l
    simp only [State.copyWrite, hb]

theorem runs_cpFill (s : State) (c : Cmd) :
    Runs s (.cpFill c) c 0 id (s.tdOf c (bits c.spec 11 6)).count
      (fun k r => r.wrElem c inCopy (BitVec.ofNat 64 (c.word 1)) ((s.tdOf c (bits c.spec 11 6)).bitOff k)
        (s.tdOf c (bits c.spec 11 6)).width (c.word 2 % 2 ^ (s.tdOf c (bits c.spec 11 6)).width)) (fun r => r.doneCmd c) :=
  runs_of_runCmd (check := fun _ => 0) (fun _ => rfl) rfl

/-! ### `rc.kern` and `rc.cmp` (11 R388) -/

/-- The kernel that an `rc.kern` runs on a tile. -/
def kernSpecOf (c : Cmd) (t : Tensor) : KernSpec :=
  { fmt := t.fmt, mask := false, base := t.base, kernel := if (kernTiles c).isEmpty then 0 else bits c.spec 15 12
    kq := sbits (c.word 6) 7 0 }

/-- Element `e` of an `rc.kern` is made of what was read and written. -/
def State.kernElem (s : State) (c : Cmd) (t : Tensor) (e : Nat) (l : List Nat) : Except Stop State :=
  (s.wrElem c inCopy (BitVec.ofNat 64 (c.word 5)) (t.bitOff e) t.width (madeAt t (kernSpecOf c t) (kernTiles c) e l).code).map
    fun u => u.countCmd c (madeAt t (kernSpecOf c t) (kernTiles c) e l).conds

/-- The steps of an `rc.kern` on the tile `t`. -/
def kernStep (c : Cmd) (t : Tensor) (n : Nat) (s : State) : Except Stop State :=
  s.elemStep c (kernTiles c).length (fun e j => s.nbRead c t (kernSpecOf c t).kernel (kernTiles c) e j)
    (fun e l => s.kernElem c t e l) n

theorem runs_rcKern (s : State) (c : Cmd) (hop : c.op = 0x30) :
    Runs s (.rcKern c) c (if kernelLegal (bits c.spec 15 12) (s.tdOf c (bits c.spec 11 6)) false then 0 else eMISMATCH) id
      ((s.tdOf c (bits c.spec 11 6)).count * ((kernTiles c).length + 1)) (kernStep c (s.tdOf c (bits c.spec 11 6)))
      (fun r => r.doneCmd c) := by
  have hreads : cmdReads c = (kernTiles c).length := by rw [cmdReads, hop, kernTiles, List.length_map]; rfl
  rw [← cmdTotal_eq hreads]
  exact runs_of_runCmd
    (check := fun _ => if kernelLegal (bits c.spec 15 12) (s.tdOf c (bits c.spec 11 6)) false then 0 else eMISMATCH)
    (fun _ => rfl) rfl

theorem elements_kernStep (c : Cmd) (t : Tensor) (ok : State → Prop) :
    Elements c (kernTiles c).length (kernStep c t) ok
      (fun e j r => r.nbRead c t (kernSpecOf c t).kernel (kernTiles c) e j) (fun e l r => r.kernElem c t e l) :=
  elements_of_elemStep c (kernTiles c).length (fun e j s => s.nbRead c t (kernSpecOf c t).kernel (kernTiles c) e j)
    (fun e l s => s.kernElem c t e l) ok

/-- Element `e` of the tile at word `w` of an `rc.cmp`. -/
def State.cmpRead (s : State) (c : Cmd) (t : Tensor) (w e : Nat) : Except Stop (State × Nat) :=
  s.rdElem c inCopy (BitVec.ofNat 64 (c.word w)) (t.bitOff e) t.width

/-- The comparison of two elements: the error, the greatest so far kept, and the conditions. -/
def State.cmpElem (s : State) (c : Cmd) (t : Tensor) (a b : Nat) : State :=
  let x := f32Of t a (sbits (c.word 3) 7 0)
  let y := f32Of t b (sbits (c.word 3) 15 8)
  let q := auditError t.fmt x.1 y.1
  (s.modRun c fun r => { r with acc := max r.acc q.1 }).countCmd c (x.2 ++ y.2 ++ q.2)

/-- The step after the first read of an `rc.cmp`: the second read, and the comparison. -/
def State.cmpStepOf (s : State) (c : Cmd) (t : Tensor) (e : Nat) (l : List Nat) : Except Stop State :=
  (s.cmpRead c t 2 e).map fun b => b.1.cmpElem c t (l.headD 0) b.2

/-- The steps of an `rc.cmp` of tiles like `t`. -/
def cmpStep (c : Cmd) (t : Tensor) (n : Nat) (s : State) : Except Stop State :=
  s.elemStep c 1 (fun e _ => s.cmpRead c t 1 e) (fun e l => s.cmpStepOf c t e l) n

theorem runs_rcCmp (s : State) (c : Cmd) (hop : c.op = 0x31) :
    Runs s (.rcCmp c) c 0 id ((s.tdOf c (bits c.spec 5 0)).count * 2) (cmpStep c (s.tdOf c (bits c.spec 5 0)))
      (fun r => r.endCmd c ⟨0, 0, (r.started c).elim 0 (·.acc)⟩) := by
  have hreads : cmdReads c = 1 := by rw [cmdReads, hop]; rfl
  rw [← cmdTotal_eq (p := 1) hreads]
  exact runs_of_runCmd (check := fun _ => 0) (fun _ => rfl) rfl

theorem elements_cmpStep (c : Cmd) (t : Tensor) (ok : State → Prop) :
    Elements c 1 (cmpStep c t) ok (fun e _ r => r.cmpRead c t 1 e) (fun e l r => r.cmpStepOf c t e l) :=
  elements_of_elemStep c 1 (fun e _ s => s.cmpRead c t 1 e) (fun e l s => s.cmpStepOf c t e l) ok

/-- Settles O30: the runs of the two commands and what their elements are made of. -/
theorem reconCommands : Obligations.ReconCommands := by
  unfold Obligations.ReconCommands
  intro s c t u tiles k ht hu htiles hk
  subst ht hu
  obtain rfl : tiles = kernTiles c := htiles
  obtain rfl : k = kernSpecOf c (s.tdOf c (bits c.spec 11 6)) := hk
  exact ⟨fun hop => ⟨_, runs_rcKern s c hop, elements_kernStep c _ _⟩,
    fun hop => ⟨_, runs_rcCmp s c hop, elements_cmpStep c _ _⟩⟩

end Sys2Proof.Machine

/-! SUPPORT. The multicast of the copy engine (10 R353, R354). -/

namespace Sys2Proof.Machine

theorem modEngine_launches (s : State) (unit place : Nat) (f : Engine → Engine) :
    (s.modEngine unit place f).launches = s.launches := by
  unfold State.modEngine; split <;> rfl

theorem setRun_td (s : State) (r : Running) (lid : Option Nat) (k : Nat) : (s.setRun r).td lid k = s.td lid k := by
  have hlaunch : (s.setRun r).launch = s.launch := funext fun l => congrArg (get none · l) (modEngine_launches ..)
  rw [State.td, hlaunch, State.td]

theorem waySteps_setRun (s : State) (r : Running) (c : Cmd) : (s.setRun r).waySteps c = s.waySteps c := by
  simp only [State.waySteps, State.tdOf, setRun_td]

theorem mcastDests_length (c : Cmd) : (mcastDests c).length = (c.words.drop 4).length + 1 := rfl

theorem waySteps_eq (s : State) {c : Cmd} (hop : c.op = 0x11) :
    s.waySteps c = 2 * (s.tdOf c (bits c.spec 5 0)).count := by
  have hreads : cmdReads c = 1 := by rw [cmdReads, hop]; rfl
  rw [State.waySteps, cmdTotal_eq hreads, Nat.mul_comm]

theorem granted_eq_stepsOf (s : State) (left : Nat) : s.granted left = s.stepsOf left := by
  unfold State.granted State.stepsOf
  cases s.grant <;> simp [Nat.min_comm]

/-- The turn of a multicast that starts, and of one that goes on. -/
theorem exec_cpMcast_start {s : State} {c : Cmd} (h : s.started c = none) :
    exec (.cpMcast c) s = .next (((s.setRun { cmd := c, progress := 0, ways := List.replicate (mcastDests c).length {} }).wayTurn
      c (s.stepsOf ((s.waySteps c + 1) * (mcastDests c).length))).mcastRest c) := by
  rw [exec_cpMcast, execCpMcast, State.runCpMcast, h]
  simp only [Option.isNone_none, if_true, waySteps_setRun, granted_eq_stepsOf]
  simp only [State.stepsOf, setRun_grant]

theorem exec_cpMcast_goes {s : State} {c : Cmd} {r : Running} (h : s.started c = some r) :
    exec (.cpMcast c) s = .next ((s.wayTurn c (s.stepsOf ((s.waySteps c + 1) * (mcastDests c).length))).mcastRest c) := by
  rw [exec_cpMcast, execCpMcast, State.runCpMcast, h]
  simp only [Option.isNone_some, Bool.false_eq_true, if_false, granted_eq_stepsOf]

/-! ### The destination whose turn it is -/

theorem wayOpen_iff (r : Running) (n d : Nat) : r.wayOpen n d = true ↔
    ∃ w, r.ways[d]? = some w ∧ w.next < n ∧ w.waits = false ∧ ∀ x ∈ r.fails, x.1 ≠ d := by
  simp only [Running.wayOpen, Running.wayLeft, Bool.and_eq_true, Option.any_eq_true, Bool.not_eq_true', List.any_eq_false,
    decide_eq_true_eq]
  constructor
  · rintro ⟨⟨⟨w, hw, hnext⟩, hfails⟩, w', hw', hwaits⟩
    obtain rfl : w = w' := Option.some.inj (hw.symm.trans hw')
    exact ⟨w, hw, hnext, hwaits, hfails⟩
  · rintro ⟨w, hw, hnext, hwaits, hfails⟩
    exact ⟨⟨⟨w, hw, hnext⟩, hfails⟩, w, hw, hwaits⟩

theorem foldl_min_le_init (l : List Nat) (n : Nat) : l.foldl min n ≤ n := by
  induction l generalizing n with
  | nil => exact Nat.le_refl n
  | cons y l ih => exact Nat.le_trans (ih _) (Nat.min_le_left n y)

theorem foldl_min_le {l : List Nat} {n x : Nat} (h : x ∈ l) : l.foldl min n ≤ x := by
  induction l generalizing n with
  | nil => cases h
  | cons y l ih =>
    rcases List.mem_cons.1 h with rfl | h
    · exact Nat.le_trans (foldl_min_le_init l _) (Nat.min_le_right n x)
    · exact ih h

theorem wayNext_open {r : Running} {aim : Option Nat} {n d : Nat} (h : r.wayNext aim n = some d) : r.wayOpen n d = true := by
  unfold Running.wayNext at h
  cases aim with
  | none => exact (List.mem_filter.1 (List.mem_of_find?_eq_some h)).2
  | some a =>
    simp only [Option.ite_none_right_eq_some, Option.some.injEq] at h
    obtain ⟨hmem, rfl⟩ := h
    exact (List.mem_filter.1 (List.contains_iff_mem.1 hmem)).2

theorem wayNext_least {r : Running} {n d d' : Nat} {w w' : Way} (h : r.wayNext none n = some d) (hw : r.ways[d]? = some w)
    (hw' : r.ways[d']? = some w') (hopen : r.wayOpen n d' = true) : w.next ≤ w'.next := by
  have hleast := List.find?_some h
  have hmem : d' ∈ (List.range r.ways.length).filter (r.wayOpen n) :=
    List.mem_filter.2 ⟨List.mem_range.2 (List.getElem?_eq_some_iff.1 hw').1, hopen⟩
  rw [decide_eq_true_eq, hw, Option.elim_some] at hleast
  rw [hleast]
  refine foldl_min_le ?_
  exact List.mem_map.2 ⟨d', hmem, by rw [hw', Option.elim_some]⟩

/-- Where a multicast stands at the destination whose turn it is. -/
theorem wayNext_spec {r : Running} {aim : Option Nat} {n d : Nat} (h : r.wayNext aim n = some d) :
    ∃ w, r.ways[d]? = some w ∧ w.next < n ∧ w.waits = false ∧ (∀ x ∈ r.fails, x.1 ≠ d) ∧
      (aim = none → ∀ d' w', r.ways[d']? = some w' → w'.next < n → w'.waits = false → (∀ x ∈ r.fails, x.1 ≠ d') →
        w.next ≤ w'.next) := by
  obtain ⟨w, hw, hnext, hwaits, hfails⟩ := (wayOpen_iff r n d).1 (wayNext_open h)
  refine ⟨w, hw, hnext, hwaits, hfails, fun haim d' w' hw' hnext' hwaits' hfails' => ?_⟩
  subst haim
  exact wayNext_least h hw hw' ((wayOpen_iff r n d').2 ⟨w', hw', hnext', hwaits', hfails'⟩)

/-! ### The steps of a turn -/

theorem wayTurn_zero (s : State) (c : Cmd) : s.wayTurn c 0 = s := rfl

theorem wayTurn_none {s : State} {c : Cmd} {r : Running} (h : s.started c = some r)
    (hnext : r.wayNext s.aim (s.waySteps c) = none) (k : Nat) : s.wayTurn c (k + 1) = s := by
  simp only [State.wayTurn, h, Option.bind_some, hnext, Option.map_none]

theorem wayTurn_some {s : State} {c : Cmd} {r : Running} (h : s.started c = some r) {d : Nat}
    (hnext : r.wayNext s.aim (s.waySteps c) = some d) (k : Nat) (u : State) :
    (s.wayStep c d (r.ways.getD d {}) = (u, true) → s.wayTurn c (k + 1) = u.wayTurn c k) ∧
    (s.wayStep c d (r.ways.getD d {}) = (u, false) → s.wayTurn c (k + 1) = u) := by
  constructor <;> intro hstep <;>
    simp only [State.wayTurn, h, Option.bind_some, hnext, Option.map_some, hstep]

/-- A multicast that has no destination left ends. -/
theorem mcastRest_done {s : State} {c : Cmd} {r : Running} (h : s.started c = some r)
    (hlen : r.ways.length = (mcastDests c).length) (hdone : ∀ d < (mcastDests c).length, ∀ w, r.ways[d]? = some w →
      s.waySteps c ≤ w.next ∨ ∃ x ∈ r.fails, x.1 = d) :
    s.mcastRest c = s.endCmd c (mcastResult (mcastDests c).length r.fails) := by
  have hall : ((List.range (mcastDests c).length).all fun d => !r.wayLeft (s.waySteps c) d) = true := by
    refine List.all_eq_true.2 fun d hd => ?_
    have hd : d < r.ways.length := by rw [hlen]; exact List.mem_range.1 hd
    simp only [Running.wayLeft, List.getElem?_eq_getElem hd, Option.any_some]
    rcases hdone d (hlen ▸ hd) _ (List.getElem?_eq_getElem hd) with hle | ⟨x, hx, rfl⟩
    · simp [Nat.not_lt.2 hle]
    · have hany : (r.fails.any fun f => decide (f.1 = x.1)) = true :=
        List.any_eq_true.2 ⟨x, hx, decide_eq_true rfl⟩
      rw [hany, Bool.not_true, Bool.and_false, Bool.not_false]
  simp only [State.mcastRest, h]
  rw [if_pos hall]

/-! ### One step towards a destination -/

/-- What a step towards destination `d` that is done leaves. -/
def State.wayWent (u : State) (c : Cmd) (d : Nat) (w : Way) (l : List Nat) : State :=
  (u.modWay c d fun x => { x with next := w.next + 1, hold := l }).modRun c fun r => r.goes (r.progress + 1)

/-- The access of a step towards destination `d`, and what is left where it is made. -/
def State.wayAccess (s : State) (c : Cmd) (d : Nat) (w : Way) : Except Stop State :=
  if w.next % 2 = 0 then (s.srcAt (s.destCmd c d) (w.next / 2)).map fun x => x.1.wayWent c d w [x.2]
  else (s.dstAt (s.destCmd c d) ((mcastDests c).getD d 0) (w.next / 2) (w.hold.headD 0)).map fun u => u.wayWent c d w []

theorem wayStep_ok {s u : State} {c : Cmd} {d : Nat} {w : Way} (h : s.wayAccess c d w = .ok u) :
    s.wayStep c d w = (u, true) := by
  unfold State.wayAccess at h
  simp only [State.wayWent] at h
  simp only [State.wayStep, h]

theorem wayStep_error {s : State} {c : Cmd} {d : Nat} {w : Way} {x : Stop} (h : s.wayAccess c d w = .error x) :
    (∀ e, x = .err e → s.wayStep c d w =
      (s.modRun c fun r => { r with fails := r.fails ++ [(d, e, w.next / 2)] }, true)) ∧
    (∀ pa, x = .denied pa → s.wayStep c d w =
      ((s.security (dieOfTh (s.destCmd c d).th) (BitVec.ofNat 64 pa) (s.destCmd c d).lid).modRun c fun r =>
        { r with fails := r.fails ++ [(d, eACCESS, w.next / 2)] }, true)) ∧
    (∀ va wr, x = .page va wr → s.wayStep c d w = ((s.modWay c d fun y => { y with waits := true }).modDie (dieOfTh c.th)
      fun k => { k with walks := k.walks ++ [.engine c (d * s.waySteps c + w.next) va wr] }, true)) ∧
    (x = .busy → s.wayStep c d w = (s, false)) := by
  unfold State.wayAccess at h
  simp only [State.wayWent] at h
  refine ⟨fun e hx => ?_, fun pa hx => ?_, fun va wr hx => ?_, fun hx => ?_⟩ <;> subst hx <;>
    simp only [State.wayStep, h] <;> rfl

theorem wayAccess_read {s : State} {c : Cmd} {d : Nat} {w : Way} (h : w.next % 2 = 0) :
    s.wayAccess c d w = (s.srcAt (s.destCmd c d) (w.next / 2)).map fun x => x.1.wayWent c d w [x.2] := if_pos h

theorem wayAccess_write {s : State} {c : Cmd} {d : Nat} {w : Way} (h : w.next % 2 = 1) :
    s.wayAccess c d w = (s.dstAt (s.destCmd c d) ((mcastDests c).getD d 0) (w.next / 2) (w.hold.headD 0)).map
      fun u => u.wayWent c d w [] := if_neg (by omega)

/-! ### The outcome -/

/-- The sum of the powers of 2 at the places below `n` that `p` holds at. -/
def maskOf (p : Nat → Bool) (n : Nat) : Nat := ((List.range n).filter p).foldl (fun a d => a + 2 ^ d) 0

theorem maskOf_succ (p : Nat → Bool) (n : Nat) : maskOf p (n + 1) = maskOf p n + if p n then 2 ^ n else 0 := by
  simp only [maskOf, List.range_succ, List.filter_append, List.foldl_append]
  cases h : p n <;> simp [h]

theorem maskOf_lt (p : Nat → Bool) (n : Nat) : maskOf p n < 2 ^ n := by
  induction n with
  | zero => exact Nat.one_pos
  | succ n ih => rw [maskOf_succ, Nat.pow_succ]; split <;> omega

theorem maskOf_testBit (p : Nat → Bool) {n d : Nat} (hd : d < n) : (maskOf p n).testBit d = p d := by
  induction n with
  | zero => omega
  | succ n ih =>
    rw [maskOf_succ]
    rcases Nat.lt_succ_iff_lt_or_eq.1 hd with hlt | rfl
    · rw [← ih hlt]
      split
      · rw [Nat.add_comm, Nat.testBit_two_pow_add_gt hlt]
      · rfl
    · have hbit : (maskOf p d).testBit d = false := Nat.testBit_lt_two_pow (maskOf_lt p d)
      cases p d
      · simp [hbit]
      · simp [Nat.add_comm _ (2 ^ d), Nat.testBit_two_pow_add_eq, hbit]

/-- The outcome of a multicast that failed at some destinations names those written in full (10 R354). -/
theorem mcastResult_partial {m : Nat} {fails : List (Nat × Nat × Nat)} (hne : fails ≠ []) (hlen : fails.length < m) :
    ∃ b, mcastResult m fails = ⟨1, eDEST_FAULT, b⟩ ∧ ∀ d < m, b.testBit d = true ↔ ∀ x ∈ fails, x.1 ≠ d := by
  refine ⟨maskOf (fun d => !fails.any fun f => f.1 = d) m, ?_, fun d hd => ?_⟩
  · rw [mcastResult, if_neg (by simpa using hne), if_pos hlen]; rfl
  · rw [maskOf_testBit _ hd, Bool.not_eq_true', List.any_eq_false]
    simp only [decide_eq_true_eq]

/-- Settles O28: the runs of the copies with their elements; the turn of a multicast step by step, and its outcome. -/
theorem copyCommands : Obligations.CopyCommands := by
  unfold Obligations.CopyCommands
  refine ⟨fun s c => ⟨fun hop => ⟨_, runs_cpCopy s c hop, elements_cpCopy c⟩, fun a b n hn => ?_, fun t ht => ?_⟩,
    fun s c m n hop hm hn => ?_⟩
  · subst hn
    refine ⟨fun hop => ⟨_, runs_cpGather s c hop, ?_⟩, fun hop => ⟨_, runs_cpScatter s c hop, ?_⟩⟩
    · refine (elements_gatherStep c a b).congr (fun _ h => h) (fun _ _ _ _ => rfl) ?_
      rintro r ⟨ha, hb⟩ p l
      simp only [State.copyConv, ha, hb]
    · refine (elements_scatterStep c a b).congr (fun _ h => h) (fun _ _ _ _ => rfl) ?_
      rintro r ⟨ha, hb⟩ p l
      simp only [State.copyConv, ha, hb]; rfl
  · subst ht
    exact ⟨_, runs_cpFill s c, fun _ _ _ => rfl⟩
  · have hsteps : n = s.waySteps c := hn.trans (waySteps_eq s hop).symm
    have hdests : m = (mcastDests c).length := hm
    subst hsteps hdests
    refine ⟨exec_cpMcast_start, fun r hr => ⟨exec_cpMcast_goes hr, wayTurn_zero s c, fun k h => wayTurn_none hr h k,
      fun k d u h => wayTurn_some hr h k u, fun d h => wayNext_spec h, mcastRest_done hr⟩, fun d w q hq => ?_,
      fun fails => ⟨fun h => by rw [h]; rfl, mcastResult_partial⟩⟩
    subst hq
    refine ⟨fun hpar u x hx => ?_, fun hpar u hu => ?_, fun x hx => ?_⟩
    · exact wayStep_ok (by rw [wayAccess_read hpar, hx]; rfl)
    · exact wayStep_ok (by rw [wayAccess_write hpar, mcastDests, hu]; rfl)
    · have herr : s.wayAccess c d w = .error x := by
        rcases hx with ⟨hpar, hx⟩ | ⟨hpar, hx⟩
        · rw [wayAccess_read hpar, hx]; rfl
        · rw [wayAccess_write hpar, mcastDests, hx]; rfl
      exact wayStep_error herr

end Sys2Proof.Machine

/-! SUPPORT. What reaches the homes of addresses, and what comes back (03 R97, 08 R248-R269, 09 R302-R321). -/

namespace Sys2Proof.Machine

/-! ### Stores and acknowledgements (08 R252, R253) -/

theorem goes_storeBufferWrite (s : State) (core : Nat) :
    ((s.core core).stbuf = [] → Goes s (.storeBufferWrite core) s) ∧
    ∀ e rest, (s.core core).stbuf = e :: rest → Goes s (.storeBufferWrite core)
      ((s.modCore core fun k => { k with stbuf := rest }).wr (.scratch core e.off) e.size e.data.toNat) := by
  refine ⟨fun h => ?_, fun e rest h => ?_⟩ <;>
    simp only [Goes, exec_storeBufferWrite, execStoreBufferWrite, State.storeBufferWrite, h]

theorem post_ctx (s : State) (die cls : Nat) (lid : Option Nat) (core ctx : Nat) (e5 e6 e7 : BitVec 32) (u : Nat) :
    (s.post die cls lid core ctx e5 e6 e7).ctx u = s.ctx u := send_ctx ..

theorem post_mem (s : State) (die cls : Nat) (lid : Option Nat) (core ctx : Nat) (e5 e6 e7 : BitVec 32) :
    (s.post die cls lid core ctx e5 e6 e7).mem = s.mem := send_mem ..

/-- What an access tells telemetry at its end leaves contexts and memory. -/
theorem memlat_ctx (s : State) (th : Nat) (a : Ended) (u : Nat) : (s.memlat th a).ctx u = s.ctx u := by
  unfold State.memlat
  split
  · dsimp only
    split
    · rw [post_ctx, modQuad_ctx]
    · rw [modQuad_ctx]
  · rfl

theorem memlat_mem (s : State) (th : Nat) (a : Ended) : (s.memlat th a).mem = s.mem := by
  unfold State.memlat
  split
  · dsimp only
    split <;> rfl
  · rfl

theorem overrun_ctx (s : State) (lid : Option Nat) (th row n bound u : Nat) :
    (s.overrun lid th row n bound).ctx u = s.ctx u := by
  unfold State.overrun; split
  · rw [post_ctx]
  · rfl

theorem overrun_mem (s : State) (lid : Option Nat) (th row n bound : Nat) : (s.overrun lid th row n bound).mem = s.mem := by
  unfold State.overrun; split
  · rw [post_mem]
  · rfl

theorem accessEnds_ctx (s : State) (th : Nat) (ends : Option Ended) (u : Nat) : (s.accessEnds th ends).ctx u = s.ctx u := by
  cases ends with
  | none => rfl
  | some a =>
    simp only [State.accessEnds, overrun_ctx]
    split
    · rfl
    · rw [memlat_ctx]

theorem accessEnds_mem (s : State) (th : Nat) (ends : Option Ended) : (s.accessEnds th ends).mem = s.mem := by
  cases ends with
  | none => rfl
  | some a =>
    simp only [State.accessEnds, overrun_mem]
    split
    · rfl
    · rw [memlat_mem]

theorem setCounter_status (c : Ctx) (k n : Nat) : (c.setCounter k n).status = c.status := by
  rcases k with _ | _ | _ | k <;> rfl

theorem counter_setCounter_same (c : Ctx) (k n : Nat) : (c.setCounter k n).counter k = n := by
  rcases k with _ | _ | _ | k <;> rfl

theorem counter_setCounter_other (c : Ctx) {j k : Nat} (n : Nat) (hj : j < 4) (hk : k < 4) (h : j ≠ k) :
    (c.setCounter k n).counter j = c.counter j := by
  have hj : j = 0 ∨ j = 1 ∨ j = 2 ∨ j = 3 := by omega
  have hk : k = 0 ∨ k = 1 ∨ k = 2 ∨ k = 3 := by omega
  rcases hj with rfl | rfl | rfl | rfl <;> rcases hk with rfl | rfl | rfl | rfl <;>
    simp [Ctx.setCounter, Ctx.counter] at h ⊢

/-- A context that is not Free reads as it was changed, when the change leaves its status. -/
theorem uncount_ctx {s : State} {th : Nat} (h : (s.ctx th).status ≠ .free) (k : Nat) :
    (s.uncount th k).ctx th = (s.ctx th).setCounter k ((s.ctx th).counter k - 1) := by
  refine modCtx_ctx_ne _ _ _ fun he => h ?_
  rw [← setCounter_status (s.ctx th) k ((s.ctx th).counter k - 1), he]

theorem goes_storeAck {s : State} {th : Nat} (k : Nat) (ends : Option Ended) (h : (s.ctx th).status ≠ .free) :
    ∃ t, Goes s (.storeAck th ⟨k, ends⟩) t ∧ (t.ctx th).counter k = (s.ctx th).counter k - 1 ∧
      (∀ j, j < 4 → k < 4 → j ≠ k → (t.ctx th).counter j = (s.ctx th).counter j) ∧ t.mem = s.mem := by
  have hctx := accessEnds_ctx s th ends th
  have hfree : ((s.accessEnds th ends).ctx th).status ≠ .free := by rwa [hctx]
  refine ⟨(s.accessEnds th ends).uncount th k, exec_storeAck .., ?_, fun j hj hk hne => ?_, ?_⟩
  · rw [uncount_ctx hfree, counter_setCounter_same, hctx]
  · rw [uncount_ctx hfree, counter_setCounter_other _ _ hj hk hne, hctx]
  · rw [State.uncount, modCtx_mem, accessEnds_mem]

/-! ### Results (03 R97) -/

theorem goes_loadResult_none {s : State} {l : Load} (h : ∀ p ∈ (s.ctx l.th).prods, p.seq ≠ l.seq) :
    Goes s (.loadResult l) s := by
  have hnone : (s.ctx l.th).prods.find? (fun p => p.seq = l.seq) = none :=
    List.find?_eq_none.2 fun p hp => by simpa using h p hp
  simp only [Goes, exec_loadResult, execLoadResult, State.loadResult, hnone]

/-- The value of a register after a result: that of the result, or what a gather has gathered so far. -/
def loadFilled (l : Load) (acc : VWord) : VWord := match l.lane with
  | some k => acc ||| (l.value <<< (8 * l.size * k))
  | none => l.value

theorem exec_loadResult_some {s : State} {l : Load} {p : Prod}
    (h : (s.ctx l.th).prods.find? (fun p => p.seq = l.seq) = some p) {u : State}
    (hu : u = (s.accessEnds l.th l.ends).addConds (coreOf l.th) l.conds) :
    exec (.loadResult l) s = .next (if 1 < p.left then u.modCtx l.th fun c => { c with
        prods := c.prods.map fun q => if q.seq = l.seq then { q with left := q.left - 1, acc := loadFilled l p.acc } else q }
      else u.fillDest { l with lane := none, value := loadFilled l p.acc, conds := [], ends := none } (loadFilled l p.acc)) := by
  subst hu
  simp only [exec_loadResult, execLoadResult, State.loadResult, h]; rfl

theorem goes_loadResult_some {s : State} {l : Load} {p : Prod}
    (h : (s.ctx l.th).prods.find? (fun p => p.seq = l.seq) = some p) {u : State}
    (hu : u = (s.accessEnds l.th l.ends).addConds (coreOf l.th) l.conds) :
    (1 < p.left → Goes s (.loadResult l) (u.modCtx l.th fun c => { c with
      prods := c.prods.map fun q => if q.seq = l.seq then { q with left := q.left - 1, acc := loadFilled l p.acc } else q })) ∧
    (p.left ≤ 1 → ∀ n, l.dst = .v n → Goes s (.loadResult l)
      (((u.endProd l.th l.seq).modCtx l.th fun c => c.setV n (loadFilled l p.acc)).serveRegWrites (coreOf l.th))) ∧
    (p.left ≤ 1 → ∀ n, l.dst = .s n → (u.ctx l.th).sEmpty.getLsbD n = true → Goes s (.loadResult l)
      (((u.endProd l.th l.seq).modCtx l.th fun c => c.setS n ((loadFilled l p.acc).setWidth 64)).serveRegWrites (coreOf l.th))) := by
  refine ⟨fun hleft => ?_, fun hleft n hdst => ?_, fun hleft n hdst hempty => ?_⟩ <;> rw [Goes, exec_loadResult_some h hu]
  · rw [if_pos hleft]
  · rw [if_neg (Nat.not_lt.2 hleft), State.fillDest, hdst]
  · rw [if_neg (Nat.not_lt.2 hleft), State.fillDest, hdst]
    dsimp only
    rw [if_pos hempty]

/-! ### Accesses at their homes (08 R248, R249, 09 R302-R305) -/

/-- An access that its home turns away, or performs. -/
theorem atHome_cases (s : State) (r : Req) (f : State → State) :
    (s.mayNotPass r = true → s.atHome r f = s.dropMessage r) ∧
    (s.mayNotPass r = false → s.homeLocked r = true → s.atHome r f = s.failReq r cRANGELOCK) ∧
    (s.mayNotPass r = false → s.homeLocked r = false → s.atHome r f = f s) := by
  refine ⟨fun hpass => ?_, fun hpass hlock => ?_, fun hpass hlock => ?_⟩ <;> simp [State.atHome, *]

theorem exec_remoteAccess_home {r : Req} (h : ∀ off, decodeAddr r.addr ≠ .hub off) (s : State) :
    exec (.remoteAccess r) s = .next (s.accessHome r) := by
  rw [exec_remoteAccess, execRemoteAccess]
  split
  next off hoff => exact absurd hoff (h off)
  next => rfl

theorem exec_remoteAccess_hub {r : Req} {off : Nat} (h : decodeAddr r.addr = .hub off) (s : State) :
    exec (.remoteAccess r) s = .next (s.hubAccess r off) := by
  rw [exec_remoteAccess, execRemoteAccess, h]

/-- A home other than the hub: who is turned away, and what is performed there. -/
theorem goes_remoteAccess_home {s : State} {r : Req} (h : ∀ off, decodeAddr r.addr ≠ .hub off) :
    (s.mayNotPass r = true → Goes s (.remoteAccess r) (s.dropMessage r)) ∧
    (s.mayNotPass r = false → s.homeLocked r = true → Goes s (.remoteAccess r) (s.failReq r 0x06)) ∧
    (s.mayNotPass r = false → s.homeLocked r = false →
      (∀ sx, r.op = .load sx → Goes s (.remoteAccess r)
        (s.answerLoad r (extend r.size sx (s.readAt r.addr r.pa r.size)) [])) ∧
      (r.op = .store → s.regPending r.addr = false →
        Goes s (.remoteAccess r) ((s.writeAt r.addr r.pa r.size r.data.toNat).ack r)) ∧
      (r.op = .store → s.regPending r.addr = true → Goes s (.remoteAccess r)
        (s.modCore (r.addr.toNat / 2 ^ 23 % 8192) fun k => { k with waits := k.waits ++ [r] })) ∧
      ∀ op, r.op = .amo op → Goes s (.remoteAccess r) (s.amoAt r op)) := by
  obtain ⟨hdrop, hlock, hdone⟩ := atHome_cases s r fun s => match r.op with
    | .load sx => s.answerLoad r (extend r.size sx (s.readAt r.addr r.pa r.size)) []
    | .store =>
      if s.regPending r.addr then
        s.modCore (r.addr.toNat / 2 ^ 23 % 8192) fun k => { k with waits := k.waits ++ [r] }
      else (s.writeAt r.addr r.pa r.size r.data.toNat).ack r
    | .amo op => s.amoAt r op
    | _ => s
  have hgoes (t : State) (ht : s.accessHome r = t) : Goes s (.remoteAccess r) t :=
    (exec_remoteAccess_home h s).trans (congrArg _ ht)
  refine ⟨fun hp => hgoes _ (hdrop hp), fun hp hl => hgoes _ (hlock hp hl), fun hp hl => ⟨fun sx hop => ?_,
    fun hop hreg => ?_, fun hop hreg => ?_, fun op hop => ?_⟩⟩ <;> refine hgoes _ ((hdone hp hl).trans ?_) <;> simp only [hop]
  · rw [if_neg (by rw [hreg]; decide)]
  · rw [if_pos hreg]

/-- The hub reads and writes its registers. -/
theorem goes_remoteAccess_hub {s : State} {r : Req} {off : Nat} (h : decodeAddr r.addr = .hub off) :
    (∀ sx, r.op = .load sx → Goes s (.remoteAccess r)
      ((s.hubRead off r.level).1.answerLoad r ((s.hubRead off r.level).2.setWidth 128) [])) ∧
    (r.op = .store → Goes s (.remoteAccess r) ((s.hubWrite off r.level (r.data.setWidth 64)).ack r)) := by
  refine ⟨fun sx hop => ?_, fun hop => ?_⟩ <;> rw [Goes, exec_remoteAccess_hub h, State.hubAccess, hop]

/-- The lesser and the greater of two codes, as integers (09 R302). -/
theorem valInt_min (f : IntFmt) (x y : Nat) :
    valInt f (if valInt f y < valInt f x then y else x) = min (valInt f x) (valInt f y) := by
  split <;> omega

theorem valInt_max (f : IntFmt) (x y : Nat) :
    valInt f (if valInt f x < valInt f y then y else x) = max (valInt f x) (valInt f y) := by
  split <;> omega

/-- Settles O35: what each event does, by its cases, and the operations of the atomics. -/
theorem accessesAtHome : Obligations.AccessesAtHome := by
  unfold Obligations.AccessesAtHome
  refine ⟨goes_storeBufferWrite, fun s th k ends h => goes_storeAck k ends h, fun s l => ⟨goes_loadResult_none,
    fun p hp u acc hu hacc => ?_⟩, fun s r h => ?_, fun s r off h => goes_remoteAccess_hub h,
    fun n x y z _ _ _ => ⟨rfl, rfl, rfl, rfl, ⟨_, rfl, valInt_min _ x y⟩, ⟨_, rfl, valInt_max _ x y⟩, rfl, rfl, rfl, rfl, rfl, rfl⟩⟩
  · obtain rfl : acc = loadFilled l p.acc := hacc
    exact goes_loadResult_some hp hu
  · obtain ⟨hdrop, hlock, hdone⟩ := goes_remoteAccess_home (s := s) h
    refine ⟨hdrop, hlock, fun hp hl => ?_⟩
    obtain ⟨hload, hstore, hwait, hamo⟩ := hdone hp hl
    refine ⟨hload, hstore, hwait, fun op hop x y hx hy => ?_⟩
    subst hx hy
    exact hamo op hop

/-! ### Presence (08 R266-R269) -/

/-- A presence request, by what its word lets it do. -/
theorem goes_presenceRequest {s : State} {r : Req} (hpass : s.mayNotPass r = false) (hlock : s.homeLocked r = false)
    {core : Nat} (hcore : core = r.addr.toNat / 2 ^ 23 % 8192) :
    (presReady (s.full core (wordOf r)) r.op = true → Goes s (.presenceRequest r) ((s.presPerform core r).servePres core)) ∧
    (presReady (s.full core (wordOf r)) r.op = false →
      (((s.core core).waits.filter fun q => isPresence q.op).length < 32 → Goes s (.presenceRequest r)
        (s.modCore core fun k => { k with waits := k.waits ++ [r] })) ∧
      (32 ≤ ((s.core core).waits.filter fun q => isPresence q.op).length → Goes s (.presenceRequest r)
        (s.modHeld r.th r.seq fun h => { h with refused := true }))) := by
  subst hcore
  have hgoes (t : State) (ht : s.presenceRequest r = t) : Goes s (.presenceRequest r) t := congrArg _ ht
  obtain ⟨-, -, hdone⟩ := atHome_cases s r _
  refine ⟨fun hready => hgoes _ ((hdone hpass hlock).trans (if_pos hready)), fun hready => ⟨fun hroom => ?_, fun hfull => ?_⟩⟩ <;>
    refine hgoes _ ((hdone hpass hlock).trans ((if_neg (by rw [hready]; decide)).trans ?_))
  · exact if_pos hroom
  · exact if_neg (Nat.not_lt.2 hfull)

theorem goes_presenceAnswer (s : State) (th seq : Nat) (x : Word) :
    ((∀ h ∈ (s.ctx th).held, h.req.seq = seq → h.answer ≠ none ∨ h.dropped = true) → Goes s (.presenceAnswer th seq x) s) ∧
    ∀ h, (s.ctx th).held.find? (fun h => h.req.seq = seq && h.answer.isNone && !h.dropped) = some h →
      Goes s (.presenceAnswer th seq x)
        (((s.postPwait th h 0).overrun (s.lidOf th) th 8 (s.hub.cycle - h.done) (s.loadBound th h.req.addr)).modHeld th seq
          fun h => { h with answer := some x, refused := false }) := by
  refine ⟨fun hnone => ?_, fun h hh => ?_⟩
  · have hfind : (s.ctx th).held.find? (fun h => h.req.seq = seq && h.answer.isNone && !h.dropped) = none := by
      refine List.find?_eq_none.2 fun h hh => ?_
      simp only [Bool.and_eq_true, decide_eq_true_eq, Option.isNone_iff_eq_none, Bool.not_eq_true', not_and, Bool.not_eq_false]
      intro hseq
      rcases hnone h hh hseq.1 with hans | hdrop
      · exact absurd hseq.2 hans
      · exact hdrop
    simp only [Goes, exec_presenceAnswer, execPresenceAnswer, State.presenceAnswer, hfind]
  · simp only [Goes, exec_presenceAnswer, execPresenceAnswer, State.presenceAnswer, hh]

theorem goes_withdrawal (s : State) (r : Req) :
    (s.takeBack r = none → Goes s (.withdrawal r) s) ∧
    ∀ t h, s.takeBack r = some t → (s.ctx r.th).held.find? (fun h => h.req.seq = r.seq) = some h →
      Goes s (.withdrawal r)
        ((t.postPwait r.th h 1).modHeld r.th r.seq fun h => { h with dropped := true, refused := false }) := by
  refine ⟨fun ht => ?_, fun t h ht hh => ?_⟩
  · simp only [Goes, exec_withdrawal, execWithdrawal, State.withdraw, ht]
  · simp only [Goes, exec_withdrawal, execWithdrawal, State.withdraw, ht, hh]

theorem goes_fewaitExpiry (s : State) (th : Nat) :
    ((s.ctx th).fewait = 0 → Goes s (.fewaitExpiry th) s) ∧
    ∀ h, (s.ctx th).held.find? ((s.ctx th).overdue (s.core (coreOf th)).cycle) = some h → Goes s (.fewaitExpiry th)
      ((s.modHeld th h.req.seq fun h => { h with withdrawn := true }).send (routeOf h.req) (.withdrawal h.req)) := by
  refine ⟨fun hzero => ?_, fun h hh => ?_⟩
  · have hfind : (s.ctx th).held.find? ((s.ctx th).overdue (s.core (coreOf th)).cycle) = none :=
      List.find?_eq_none.2 fun h _ => by simp [Ctx.overdue, hzero]
    simp only [Goes, exec_fewaitExpiry, execFewaitExpiry, State.fewaitExpiry, hfind]
  · simp only [Goes, exec_fewaitExpiry, execFewaitExpiry, State.fewaitExpiry, hh]

theorem goes_presenceResend (s : State) (th : Nat) :
    ((∀ h ∈ (s.ctx th).held, h.refused = false) → Goes s (.presenceResend th) s) ∧
    ∀ h, (s.ctx th).held.filter (·.refused) = [h] → Goes s (.presenceResend th)
      ((s.modHeld th h.req.seq fun h => { h with refused := false }).sendWait h.req) := by
  refine ⟨fun hnone => ?_, fun h hh => ?_⟩
  · have hfilter : (s.ctx th).held.filter (·.refused) = [] :=
      List.filter_eq_nil_iff.2 fun h hh => by rw [hnone h hh]; decide
    simp only [Goes, exec_presenceResend, execPresenceResend, State.presenceResend, hfilter, List.foldl_nil]
  · simp only [Goes, exec_presenceResend, execPresenceResend, State.presenceResend, hh, List.foldl_cons, List.foldl_nil]

/-- Settles O36: each event of a presence request, by its cases. -/
theorem presenceAtHome : Obligations.PresenceAtHome := by
  unfold Obligations.PresenceAtHome
  refine ⟨fun s r core w hpass hlock hcore hw => ?_, goes_presenceAnswer, goes_withdrawal, fun s th => ?_⟩
  · obtain rfl : w = wordOf r := hw
    obtain ⟨hready, hwait⟩ := goes_presenceRequest hpass hlock hcore
    refine ⟨fun x hx hfull => ⟨fun hop => ?_, fun hop => ?_⟩, fun hfull hop => ?_, fun h => hwait ?_⟩
    · have hgo := hready (by rw [hop]; exact hfull)
      rw [State.presPerform, hop] at hgo
      exact hx ▸ hgo
    · have hgo := hready (by rw [hop]; exact hfull)
      rw [State.presPerform, hop] at hgo
      exact hx ▸ hgo
    · have hgo := hready (by rw [hop, hfull]; rfl)
      rw [State.presPerform, hop] at hgo
      exact hgo
    · rcases h with ⟨hfull, hop | hop⟩ | ⟨hfull, hop⟩ <;> rw [hop, hfull] <;> rfl
  · obtain ⟨hzero, hover⟩ := goes_fewaitExpiry s th
    obtain ⟨hnone, hone⟩ := goes_presenceResend s th
    exact ⟨hzero, hover, hnone, hone⟩

end Sys2Proof.Machine

/-! SUPPORT. Sync words, waiters and barrier phases at their homes (09 R307-R321). -/

namespace Sys2Proof.Machine

/-! ### Sync words (09 R307-R314) -/

section SyncWord
variable {s : State} {r : Req} {d off : Nat} (hpass : s.mayNotPass r = false) (hlock : s.homeLocked r = false)
  (haddr : decodeAddr r.addr = .sync d off)
include hpass hlock haddr

/-- What a posted operation does to its sync word. -/
def State.syncDone (s : State) (d : Nat) (r : Req) : State := match r.op with
  | .joinInit => s.joinInit d r
  | .joinArrive => s.joinArrive d r
  | .ssigAdd => s.syncWrite r.addr 8 ((s.syncRead r.addr 8 + r.data.toNat) % 2 ^ 64)
  | _ => s.syncWrite r.addr 8 r.data.toNat

/-- A posted operation that passes is performed and acknowledged. -/
theorem syncUpdate_passes : s.syncUpdate r = (s.syncDone d r).ack r := by
  obtain ⟨-, -, hdone⟩ := atHome_cases s r fun s => match decodeAddr r.addr with
    | .sync d _ => (s.syncDone d r).ack r
    | _ => s
  exact (hdone hpass hlock).trans (by rw [haddr])

theorem goes_syncWordUpdate {t : State} (h : s.syncDone d r = t) : Goes s (.syncWordUpdate r) (t.ack r) := by
  rw [Goes, exec_syncWordUpdate, execSyncWordUpdate, syncUpdate_passes hpass hlock haddr, h]

theorem goes_joinArrival {t : State} (h : s.syncDone d r = t) : Goes s (.joinArrival r) (t.ack r) := by
  rw [Goes, exec_joinArrival, execJoinArrival, syncUpdate_passes hpass hlock haddr, h]

/-- A `swait` whose relation holds is answered; else it waits, or is refused. -/
theorem swaitRequest_passes : s.swaitRequest r =
    if swaitHolds (s.syncRead r.addr 8) r then s.answerHeld r (BitVec.ofNat 64 (s.syncRead r.addr 8))
    else if (s.die d).waiters.length < 4096 then s.modDie d fun k => { k with waiters := k.waiters ++ [r] }
    else s.modHeld r.th r.seq fun h => { h with refused := true } := by
  obtain ⟨-, -, hdone⟩ := atHome_cases s r fun s => match decodeAddr r.addr with
    | .sync d _ =>
      if swaitHolds (s.syncRead r.addr 8) r then s.answerHeld r (BitVec.ofNat 64 (s.syncRead r.addr 8))
      else if (s.die d).waiters.length < 4096 then s.modDie d fun k => { k with waiters := k.waiters ++ [r] }
      else s.modHeld r.th r.seq fun h => { h with refused := true }
    | _ => s
  exact (hdone hpass hlock).trans (by rw [haddr])

end SyncWord

/-- The relations of `swait` (09 R313). -/
theorem swaitHolds_iff {r : Req} {k x : Nat} (hop : r.op = .swait k) {holds : Prop}
    (h : holds ↔ if k = 0 then x = r.data.toNat % 2 ^ 64 else if k = 1 then x ≠ r.data.toNat % 2 ^ 64
      else if k = 2 then r.data.toNat % 2 ^ 64 ≤ x else x < r.data.toNat % 2 ^ 64) : swaitHolds x r = true ↔ holds := by
  rw [h, swaitHolds, hop]
  unfold relation
  by_cases h0 : k = 0
  · simp only [if_pos h0, decide_eq_true_eq]
  by_cases h1 : k = 1
  · simp only [if_neg h0, if_pos h1, decide_eq_true_eq]
  by_cases h2 : k = 2
  · simp only [if_neg h0, if_neg h1, if_pos h2, decide_eq_true_eq]
  · simp only [if_neg h0, if_neg h1, if_neg h2, decide_eq_true_eq]

theorem goes_swaitRequest {s : State} {r : Req} {d off : Nat} (hpass : s.mayNotPass r = false) (hlock : s.homeLocked r = false)
    (haddr : decodeAddr r.addr = .sync d off) {holds : Prop} (h : swaitHolds (s.syncRead r.addr 8) r = true ↔ holds) :
    (holds → Goes s (.swaitRequest r) ((s.modHeld r.th r.seq fun h => { h with done := s.hub.cycle }).send none
      (.presenceAnswer r.th r.seq (BitVec.ofNat 64 (s.syncRead r.addr 8))))) ∧
    (¬ holds → (s.die d).waiters.length < 4096 →
      Goes s (.swaitRequest r) (s.modDie d fun k => { k with waiters := k.waiters ++ [r] })) ∧
    (¬ holds → 4096 ≤ (s.die d).waiters.length →
      Goes s (.swaitRequest r) (s.modHeld r.th r.seq fun h => { h with refused := true })) := by
  have hgoes (t : State) (ht : s.swaitRequest r = t) : Goes s (.swaitRequest r) t := congrArg _ ht
  have hpasses := swaitRequest_passes hpass hlock haddr
  refine ⟨fun hh => hgoes _ (hpasses.trans (if_pos (h.2 hh))),
    fun hh hroom => hgoes _ (hpasses.trans ((if_neg fun hc => hh (h.1 hc)).trans (if_pos hroom))),
    fun hh hfull => hgoes _ (hpasses.trans ((if_neg fun hc => hh (h.1 hc)).trans (if_neg (Nat.not_lt.2 hfull))))⟩

/-- The arrivals at a join, by their number and the count they find (09 R309). -/
theorem joinArrive_cases (s : State) (d : Nat) (r : Req) {x c n : Nat} (hx : x = s.syncRead r.addr 8) (hc : c = x % 2 ^ 32)
    (hn : n = r.data.toNat % 2 ^ 32) :
    (n = 0 → s.joinArrive d r = s) ∧
    (n ≠ 0 → c = 0 → s.joinArrive d r = s.logErr d errJoinUnderflow r.addr r.lid 0) ∧
    (n ≠ 0 → n < c → s.joinArrive d r = s.syncWrite r.addr 8 (x - n)) ∧
    (n ≠ 0 → n = c → s.joinArrive d r = (s.syncWrite r.addr 8 (x - c)).joinAction d (whoReq r) r.addr) ∧
    (c ≠ 0 → c < n → s.joinArrive d r =
      ((s.syncWrite r.addr 8 (x - c)).joinAction d (whoReq r) r.addr).logErr d errJoinUnderflow r.addr r.lid 0) := by
  subst hx hc hn
  refine ⟨fun h0 => ?_, fun h0 hc => ?_, fun h0 hlt => ?_, fun h0 heq => ?_, fun hc hlt => ?_⟩ <;>
    unfold State.joinArrive <;> dsimp only
  · rw [if_pos h0]
  · rw [if_neg h0, if_pos hc]
  · rw [if_neg h0, if_neg (by omega), if_pos hlt]
  · rw [if_neg h0, if_neg (by omega), if_neg (by omega), if_neg (by omega)]
  · rw [if_neg (by omega), if_neg hc, if_neg (by omega), if_pos hlt]

/-! ### Barriers (09 R318-R321) -/

theorem barrierCores_congr {s t : State} (h : t.hub = s.hub) (l : Launch) (level inst : Nat) :
    t.barrierCores l level inst = s.barrierCores l level inst := by
  have hreads : ∀ n q, t.quadInPart n q = s.quadInPart n q := fun n q => by
    simp only [State.quadInPart, logicalOf, h]
  have hphys : ∀ d, physicalOf t d = physicalOf s d := fun d => by
    funext q; simp only [physicalOf, h]
  simp only [State.barrierCores, State.partQuads, funext (hreads _), hphys]
  congr 2
  funext q
  simp only [State.partCores, State.halfOf, h]

theorem arrival_passes {s : State} {m : BarrierMsg} {lid : Nat} {l : Launch} (hlid : m.lid = some lid)
    (hl : s.launch lid = some l) (hin : m.level ≤ 2 → s.dieInPart l.part (barrierDie m.level m.inst) = true) :
    s.arrivalStrays m = false := by
  simp only [State.arrivalStrays, hlid, Option.bind_some, hl, Option.any_some, Bool.and_eq_false_iff, decide_eq_false_iff_not,
    Bool.not_eq_false']
  by_cases h : m.level ≤ 2
  · exact .inr (hin h)
  · exact .inl h

/-- The arrival counted to its phase, with the counters that it brings. -/
def State.arrivalCounted (u : State) (lid : Nat) (m : BarrierMsg) : State := match m.counts with
  | none => u
  | some x => u.modBarrier lid m.level m.id m.inst fun b => { b with samples := b.samples ++ [(m.phase, coreOf m.th, x)] }

theorem arrivalCounted_eq (u : State) (lid : Nat) (m : BarrierMsg) : u.arrivalCounted lid m = match m.counts with
    | none => u
    | some x => u.modBarrier lid m.level m.id m.inst fun b => { b with
        samples := b.samples ++ [(m.phase, coreOf m.th, x)] } := rfl

theorem arrivalCounted_hub (u : State) (lid : Nat) (m : BarrierMsg) : (u.arrivalCounted lid m).hub = u.hub := by
  unfold State.arrivalCounted; split <;> rfl

theorem barrierArrival_old {s : State} {m : BarrierMsg} {lid per : Nat} {l : Launch} (hlid : m.lid = some lid)
    (hl : s.launch lid = some l) (hper : s.barrierPer (some lid) m.level m.id = some per)
    (hold : m.phase < (s.barrierNode lid m.level m.id m.inst).phases) : s.barrierArrival m = s := by
  simp only [State.barrierArrival, hlid, Option.bind_some, hl, hper, if_pos hold]

/-- An arrival to a phase that is not over, in the two ways it can go on. -/
theorem barrierArrival_counts {s u v : State} {m : BarrierMsg} {lid per : Nat} {l : Launch} (hlid : m.lid = some lid)
    (hl : s.launch lid = some l) (hper : s.barrierPer (some lid) m.level m.id = some per)
    (hu : u = s.modBarrier lid m.level m.id m.inst fun b => { b with arrivals := b.arrivals ++ [m] })
    (hphase : (s.barrierNode lid m.level m.id m.inst).phases ≤ m.phase) (hv : v = u.arrivalCounted lid m) :
    s.barrierArrival m = (if m.level = 4 && (u.barrierNode lid m.level m.id m.inst).ofCore m.phase (coreOf m.th) = per &&
        v.phaseHere l (u.barrierNode lid m.level m.id m.inst) 4 m.inst per m.phase then
      v.announcePhase (some lid) l m.id m.phase (per * (v.barrierCores l 4 m.inst).length) else v).completePhases lid m.level
        m.id m.inst 4 := by
  have hhub : v.hub = s.hub := by rw [hv, arrivalCounted_hub, hu]; rfl
  have hcores := barrierCores_congr hhub l 4 m.inst
  subst hv hu
  rw [hcores]
  cases hcounts : m.counts <;>
    simp only [State.barrierArrival, hlid, Option.bind_some, hl, hper, if_neg (Nat.not_lt.2 hphase), State.arrivalCounted,
      hcounts]

theorem completePhases_succ {s : State} {lid level id inst per n : Nat} {l : Launch} {b : Barrier} {reached : Prop}
    (hl : s.launch lid = some l) (hper : s.barrierPer (some lid) level id = some per) (hb : b = s.barrierNode lid level id inst)
    (hreached : reached ↔ s.phaseHere l b level inst per b.phases = true ∧
      (level = 4 → ∀ p ∈ s.otherPackages (l.groups.getD 0 []), ∃ x ∈ b.remote, x.1 = b.phases ∧ x.2.1 = p)) :
    (¬ reached → s.completePhases lid level id inst (n + 1) = s) ∧
    (reached → s.completePhases lid level id inst (n + 1) =
      (s.phaseComplete lid level id inst).completePhases lid level id inst n) := by
  subst hb
  have hothers : ((if level = 4 then s.otherPackages (l.groups.getD 0 []) else []).all fun p =>
      (s.barrierNode lid level id inst).remote.any fun x =>
        x.1 = (s.barrierNode lid level id inst).phases && x.2.1 = p) = true ↔
      (level = 4 → ∀ p ∈ s.otherPackages (l.groups.getD 0 []), ∃ x ∈ (s.barrierNode lid level id inst).remote,
        x.1 = (s.barrierNode lid level id inst).phases ∧ x.2.1 = p) := by
    by_cases h : level = 4
    · rw [if_pos h]
      simp only [List.all_eq_true, List.any_eq_true, Bool.and_eq_true, decide_eq_true_eq, h, true_imp_iff]
    · rw [if_neg h]
      simp only [List.all_nil, h, false_imp_iff]
  rw [State.completePhases]
  simp only [hl, hper]
  refine ⟨fun hnot => if_neg fun hc => hnot ?_, fun hr => if_pos ?_⟩
  · obtain ⟨hhere, hall⟩ := Bool.and_eq_true_iff.1 hc
    exact hreached.2 ⟨hhere, hothers.1 hall⟩
  · obtain ⟨hhere, hall⟩ := hreached.1 hr
    exact Bool.and_eq_true_iff.2 ⟨hhere, hothers.2 hall⟩

/-- Settles O37: the sync words by their operations, the arrivals and the phases of barriers by their cases. -/
theorem syncAtHome : Obligations.SyncAtHome := by
  unfold Obligations.SyncAtHome
  refine ⟨fun s r d off hpass hlock haddr x c n hx hc hn => ?_, fun s m lid per l u hlid hl hper hin hu => ?_,
    fun s m l hl hlevel hout => ?_, fun s lid level id inst per n l b reached hl hper hb hr => completePhases_succ hl hper hb hr⟩
  · obtain ⟨hzero, hunder, hless, hequal, hmore⟩ := joinArrive_cases s d r hx hc hn
    subst hx hc hn
    refine ⟨fun hop => ?_, fun hop => ?_, fun hop => ⟨fun hn => ?_, fun hn => ?_⟩, fun hop => ?_, fun k y hop hy holds hh => ?_⟩
    · exact goes_syncWordUpdate hpass hlock haddr (by rw [State.syncDone, hop])
    · exact goes_syncWordUpdate hpass hlock haddr (by rw [State.syncDone, hop])
    · exact goes_syncWordUpdate hpass hlock haddr (by
        simp only [State.syncDone, hop, State.joinInit]
        rw [if_neg (by omega)])
    · exact goes_syncWordUpdate hpass hlock haddr (by
        simp only [State.syncDone, hop, State.joinInit]
        rw [if_pos (by omega)])
    · have hdone : s.syncDone d r = s.joinArrive d r := by rw [State.syncDone, hop]
      exact ⟨fun h0 => goes_joinArrival hpass hlock haddr (hdone.trans (hzero h0)),
        fun h0 h1 => goes_joinArrival hpass hlock haddr (hdone.trans (hunder h0 h1)),
        fun h0 h1 => goes_joinArrival hpass hlock haddr (hdone.trans (hless h0 h1)),
        fun h0 h1 => goes_joinArrival hpass hlock haddr (hdone.trans (hequal h0 h1)),
        fun h0 h1 => goes_joinArrival hpass hlock haddr (hdone.trans (hmore h0 h1))⟩
    · subst hy
      exact goes_swaitRequest hpass hlock haddr (swaitHolds_iff hop hh)
  · have hgoes (t : State) (ht : s.barrierArrival m = t) : Goes s (.barrierArrival m) t := by
      rw [Goes, exec_barrierArrival, execBarrierArrival, if_neg (by rw [arrival_passes hlid hl hin]; decide), ht]
    refine ⟨fun hold => hgoes _ (barrierArrival_old hlid hl hper hold), fun hphase v hv allHere hall => ?_⟩
    have hcounts := barrierArrival_counts hlid hl hper hu hphase (hv.trans (arrivalCounted_eq u lid m).symm)
    refine ⟨fun hnot => hgoes _ (hcounts.trans ?_), fun hlevel hhere => hgoes _ (hcounts.trans ?_)⟩
    · rw [if_neg]
      simp only [Bool.and_eq_true, decide_eq_true_eq]
      rintro ⟨⟨hlevel, hlast⟩, hhere⟩
      rcases hnot with hne | hnall
      · exact hne hlevel
      · exact hnall (hall.2 ⟨hlast, by rw [hlevel] at hlast hhere ⊢; exact hhere⟩)
    · obtain ⟨hlast, hphase'⟩ := hall.1 hhere
      rw [if_pos]
      simp only [Bool.and_eq_true, decide_eq_true_eq]
      exact ⟨⟨hlevel, hlast⟩, by rw [hlevel] at hphase' ⊢; exact hphase'⟩
  · have hstrays : s.arrivalStrays m = true := by
      simp only [State.arrivalStrays, hl, Option.any_some, hout, decide_eq_true hlevel]; rfl
    rw [Goes, exec_barrierArrival, execBarrierArrival, if_pos hstrays]

end Sys2Proof.Machine

/-! SUPPORT. Every instruction answers; when an instruction on registers issues (03 R98-R112, 05 R160, R173). -/

namespace Sys2Proof.Machine

/-! ### Every instruction answers a next state -/

theorem exec_next_of_not_syllable {i : Instr} (h : isSyllable i = false) (s : State) : ∃ t, exec i s = .next t := by
  cases i <;> cases h <;> exact ⟨_, rfl⟩

theorem exec_next (i : Instr) (s : State) : ∃ t, exec i s = .next t := by
  cases h : isSyllable i with
  | true => exact next_of_issued (issued_syllable s i h)
  | false => exact exec_next_of_not_syllable h s

/-- An instruction of a thread is issued, with or without a push. -/
theorem exec_verdict {s : State} {i : Instr} (hi : isSyllable i = true) (hl : s.latch = none) :
    (∀ k, s.verdict [i] = .block k → exec i s = .next (s.stallOrForfeit (s.waitWindow i) k)) ∧
    (s.verdict [i] = .hold → exec i s = .next (s.startWait i)) ∧
    (∀ x, s.verdict [i] = .trap x → exec i s = .next (s.takeTrap s.cur x)) := by
  have hissue : s.verdict [i] ≠ .go → ∃ eff, exec i s = issue i eff s := fun hgo => by
    rcases issued_syllable s i hi with ⟨eff, h⟩ | ⟨d, val, eff, h⟩
    · exact ⟨eff, h⟩
    · refine ⟨eff, h.trans ?_⟩
      rw [issueD, if_neg]
      simp [hgo]
  refine ⟨fun k hv => ?_, fun hv => ?_, fun x hv => ?_⟩ <;>
    obtain ⟨eff, h⟩ := hissue (by rw [hv]; exact fun hgo => nomatch hgo)
  · rw [h, issue_block hl hv]
  · rw [h, issue_hold hl hv]
  · rw [h, issue_trap hl hv]

/-! ### Every step answers a next state -/

/-- An outcome that is a next state. -/
def Answers (o : Host.Outcome State Fault Refusal) : Prop := ∃ t, o = .next t

theorem answers_next (t : State) : Answers (.next t) := ⟨t, rfl⟩

theorem answers_exec (i : Instr) (s : State) : Answers (exec i s) := exec_next i s

theorem execV_answers (s : State) (c : Ctx) (j : Instr) : Answers (s.execV c j) := by
  obtain ⟨t, ht⟩ := answers_exec j { s with latch := some c }
  rw [State.execV, ht]
  exact answers_next _

theorem issuePair_answers (s : State) (i j : Instr) : Answers (s.issuePair i j) := by
  unfold State.issuePair
  cases s.verdict [i, j] with
  | go =>
    obtain ⟨t, ht⟩ := answers_exec i s
    rw [ht]
    dsimp only
    split
    · exact answers_next _
    · exact execV_answers ..
  | block k => exact answers_next _
  | hold => exact answers_next _
  | trap x => exact answers_next _

theorem issueBundle_answers (s : State) (b : BitVec 64) : Answers (s.issueBundle b) := by
  unfold State.issueBundle
  split
  · exact answers_next _
  · exact answers_exec _ _
  · exact issuePair_answers ..

theorem fetchIssue_answers (s : State) : Answers s.fetchIssue := by
  unfold State.fetchIssue
  dsimp only
  split
  · exact answers_next _
  · split
    · split
      · exact issueBundle_answers ..
      · exact answers_next _
    · exact answers_next _

theorem slotOf_answers (s : State) (th : Nat) : Answers (s.slotOf th) := by
  unfold State.slotOf
  dsimp only
  split
  · exact answers_next _
  · split
    · split
      · exact answers_next _
      · obtain ⟨t, ht⟩ := fetchIssue_answers ((({ s with cur := th } : State)).sleepEnd th)
        rw [ht]
        exact answers_next _
    · split
      · exact answers_next _
      · obtain ⟨t, ht⟩ := fetchIssue_answers ((({ s with cur := th } : State)).sleepEnd th)
        rw [ht]
        exact answers_next _
    · exact answers_next _
    · exact answers_next _

theorem donateSlot_answers (s : State) (core : Nat) : Answers (s.donateSlot core) := by
  unfold State.donateSlot
  split
  · exact slotOf_answers ..
  · exact answers_next _

theorem ownerSlot_answers (s : State) (core th : Nat) : Answers (s.ownerSlot core th) := by
  unfold State.ownerSlot
  split
  · exact donateSlot_answers ..
  · obtain ⟨t, ht⟩ := slotOf_answers s th
    rw [ht]
    dsimp only
    split
    · exact answers_next _
    · exact donateSlot_answers ..

theorem handlerSlot_answers (s : State) (core : Nat) : Answers (s.handlerSlot core) := by
  unfold State.handlerSlot
  split
  · exact slotOf_answers ..
  · exact donateSlot_answers ..

/-- What a byte of the slot table lets a core do. -/
theorem slotChoice_answers (s : State) (core b : Nat) : Answers (if b / 64 = 1 then s.ownerSlot core (core * 16 + b % 16)
    else if b / 64 = 2 then s.handlerSlot core else .next (s.evc core 1)) := by
  split
  · exact ownerSlot_answers ..
  · split
    · exact handlerSlot_answers ..
    · exact answers_next _

theorem coreCycle_answers (s : State) (core : Nat) : Answers (s.coreCycle core) := by
  unfold State.coreCycle
  dsimp only
  split
  · exact answers_next _
  · split
    · exact answers_next _
    · obtain ⟨t, ht⟩ := slotChoice_answers (((s.coreTick core).slotTableSwitch core).drainHead core) core _
      rw [ht]
      exact answers_next _

theorem deliver_answers (s : State) (k : Nat) : Answers (s.deliver k) := by
  unfold State.deliver
  dsimp only
  split
  · split
    · exact answers_exec _ _
    · exact answers_next _
  · exact answers_next _

theorem filterStep_answers (s : State) (die : Nat) : Answers (s.filterStep die) := by
  unfold State.filterStep
  split
  · exact answers_exec _ _
  · exact answers_next _

theorem serveOldest_answers (s : State) : Answers s.serveOldest := by
  unfold State.serveOldest
  split
  · exact answers_next _
  · split
    · exact deliver_answers ..
    · exact deliver_answers ..

theorem byItself_answers (s : State) : Answers s.byItself := by
  unfold State.byItself
  dsimp only
  split
  · exact serveOldest_answers _
  · split
    · exact filterStep_answers ..
    · exact answers_next _
  · exact answers_next _
  · obtain ⟨t, ht⟩ := coreCycle_answers { s with beat := (s.beat + 1) % 4, taken := [] } s.focus
    rw [ht]
    exact answers_next _

theorem turn_answers (s : State) (t : Turn) : Answers (s.turn t) := by
  cases t with
  | slot core => exact coreCycle_answers ..
  | slotLost core banks => exact coreCycle_answers ..
  | deliver k => exact deliver_answers ..
  | filter die => exact filterStep_answers ..
  | event i =>
    unfold State.turn
    dsimp only
    split
    · exact answers_exec _ _
    · exact answers_next _
  | _ => exact answers_next _

theorem happen_answers (s : State) (x : Timed) : Answers (s.happen x) := by
  cases x <;> exact answers_next _

theorem move_answers (s : State) : Answers s.move := by
  unfold State.move
  split
  · exact answers_exec _ _
  · exact happen_answers ..
  · exact turn_answers ..
  · exact byItself_answers _

theorem step_answers {s : State} (h : s.hub.trip = false) : Answers (step s) := by
  obtain ⟨t, ht⟩ := move_answers s
  rw [step, State.stepOnce, h, ht]
  exact answers_next _

/-- Settles O54: the outcome of each instruction by what checks it, and of each turn. -/
theorem everyInstructionAnswers : Obligations.EveryInstructionAnswers := by
  unfold Obligations.EveryInstructionAnswers
  refine ⟨fun s i => exec_next i s, fun s i hi hl => ?_, fun s h => step_answers h⟩
  obtain ⟨hblock, hhold, htrap⟩ := exec_verdict hi hl
  exact ⟨hblock, hhold, htrap, fun hwf => htrap _ (verdict_illegal (illegal_wf hwf)),
    fun hwf hlevel => htrap _ (verdict_illegal (illegal_level hwf hlevel))⟩

/-! ### When an instruction on registers issues -/

theorem registerOnly_plain {i : Instr} (h : registerOnly i = true) :
    levelOf i = 0 ∧ windowOpOf i = none ∧ waitsForAnswer i = false ∧ waitOf i = 0 ∧ releases i = false ∧ isStore i = false := by
  cases i <;> cases h <;> exact ⟨rfl, rfl, rfl, rfl, rfl, rfl⟩


/-- An instruction on registers makes no access and has no check of its own. -/
theorem registerOnly_checks (s : State) {i : Instr} (h : registerOnly i = true) :
    s.accesses i = [] ∧ s.ownChecks i = .go ∧ isPostedSync i = false := by
  cases i <;> cases h <;> exact ⟨rfl, rfl, rfl⟩

theorem registerOnly_illegal (s : State) {i : Instr} (h : registerOnly i = true) :
    s.illegal i = if !i.wf then some 0 else if (s.ctx s.cur).level < levelOf i then some 1
      else if windowMisuse (s.ctx s.cur) i then some 0 else none := by
  cases i <;> cases h <;> rfl

theorem noWindow_dsts {c : Ctx} {i : Instr} (h : noWindow c i = true) :
    (∀ x ∈ srcsOf i, x.vec = true ∨ x.win = false ∨ c.winOf x.reg = none) ∧
    ∀ x ∈ dstsOf i, x.vec = true ∨ x.win = false ∨ c.winOf x.reg = none := by
  simpa [noWindow, or_assoc] using h

/-- What of a destination makes an instruction an access: a window that sends. -/
theorem registerOnly_isMemAccess (s : State) {i : Instr} (h : registerOnly i = true) :
    s.isMemAccess i = (dstsOf i).any fun x => !x.vec && x.win && (match (s.ctx s.cur).winOf x.reg with
      | some w => w.kind = 2
      | none => false) := by
  cases i <;> cases h <;> rfl

/-- A register that an instruction may use now: one of the core's mode, and full. -/
def State.regReady (s : State) (vec : Bool) (r : Nat) : Bool :=
  if vec then decide (r < vregCount (s.core (coreOf s.cur)).mode) && !(s.ctx s.cur).vEmpty.getLsbD r
  else r = 0 || !(s.ctx s.cur).sEmpty.getLsbD r

section NoWindow
variable {s : State} {i : Instr} (hw : noWindow (s.ctx s.cur) i = true)
include hw

theorem windowUses_nil (hop : windowOpOf i = none) : windowUses (s.ctx s.cur) i = [] := by
  obtain ⟨hsrcs, hdsts⟩ := noWindow_dsts hw
  have hsrc : (srcsOf i).filter (fun x => !x.vec && x.win && ((s.ctx s.cur).winOf x.reg).isSome) = [] :=
    List.filter_eq_nil_iff.2 fun x hx => by rcases hsrcs x hx with h | h | h <;> simp [h]
  have hdst : (dstsOf i).filter (fun x => !x.vec && x.win && ((s.ctx s.cur).winOf x.reg).isSome) = [] :=
    List.filter_eq_nil_iff.2 fun x hx => by rcases hdsts x hx with h | h | h <;> simp [h]
  rw [windowUses, hsrc, hdst, hop]; rfl

theorem windowMisuse_eq_false (hop : windowOpOf i = none) : windowMisuse (s.ctx s.cur) i = false := by
  rw [windowMisuse, windowUses_nil hw hop]; rfl

theorem isMemAccess_eq_false (h : registerOnly i = true) : s.isMemAccess i = false := by
  rw [registerOnly_isMemAccess s h, List.any_eq_false]
  intro x hx
  rcases (noWindow_dsts hw).2 x hx with h | h | h <;> simp [h]

theorem src_isWin_eq_false {x : Src} (hx : x ∈ srcsOf i) : x.isWin (s.ctx s.cur) = false := by
  rcases (noWindow_dsts hw).1 x hx with h | h | h <;> simp [Src.isWin, h]

theorem srcEmpty_eq {x : Src} (hx : x ∈ srcsOf i) : s.srcEmpty x =
    if x.vec then (s.ctx s.cur).vEmpty.getLsbD x.reg else x.reg ≠ 0 && (s.ctx s.cur).sEmpty.getLsbD x.reg := by
  rcases (noWindow_dsts hw).1 x hx with h | h | h <;> simp [State.srcEmpty, h]

theorem windowWait_eq_false (hop : windowOpOf i = none) : s.windowWait i = false := by
  have hsrc : ((srcsOf i).any fun x => x.isWin (s.ctx s.cur) && s.srcEmpty x) = false :=
    List.any_eq_false.2 fun x hx => by simp [src_isWin_eq_false hw hx]
  have hdst : ((dstsOf i).any fun x => !x.vec && x.win && (match (s.ctx s.cur).winOf x.reg with
      | some w => if w.kind = 1 then s.winFull s.cur w 0 else 16 ≤ s.queuedWords s.cur w.sel
      | none => false)) = false :=
    List.any_eq_false.2 fun x hx => by rcases (noWindow_dsts hw).2 x hx with h | h | h <;> simp [h]
  rw [State.windowWait, hsrc, hop]
  exact (Bool.or_false _).trans ((Bool.false_or _).trans hdst)

/-- No register wait, and no register out of the mode: every register is ready. -/
theorem registersReady_iff : (s.vregFault i = none ∧ s.registerWait i = false) ↔
    (∀ x ∈ srcsOf i, s.regReady x.vec x.reg = true) ∧ ∀ x ∈ dstsOf i, s.regReady x.vec x.reg = true := by
  have hsrc : ∀ x ∈ srcsOf i, (s.regReady x.vec x.reg = true ↔
      (x.vec = true → x.reg < vregCount (s.core (coreOf s.cur)).mode) ∧
        (!x.isWin (s.ctx s.cur) && s.srcEmpty x) = false) := fun x hx => by
    rw [src_isWin_eq_false hw hx, srcEmpty_eq hw hx, State.regReady]
    cases x.vec <;> simp [Decidable.or_iff_not_imp_left]
  have hdst : ∀ x ∈ dstsOf i, (s.regReady x.vec x.reg = true ↔
      (x.vec = true → x.reg < vregCount (s.core (coreOf s.cur)).mode) ∧
        (if x.vec then (s.ctx s.cur).vEmpty.getLsbD x.reg
          else !(x.win && ((s.ctx s.cur).winOf x.reg).isSome) && x.reg ≠ 0 && (s.ctx s.cur).sEmpty.getLsbD x.reg) = false) :=
    fun x hx => by
      have hwin : x.vec = true ∨ (x.win && ((s.ctx s.cur).winOf x.reg).isSome) = false := by
        rcases (noWindow_dsts hw).2 x hx with h | h | h <;> simp [h]
      rw [State.regReady]
      rcases hwin with h | h <;> rw [h]
      · simp
      · cases x.vec <;> simp [Decidable.or_iff_not_imp_left]
  have hfault : s.vregFault i = none ↔ (∀ x ∈ dstsOf i, x.vec = true → x.reg < vregCount (s.core (coreOf s.cur)).mode) ∧
      ∀ x ∈ srcsOf i, x.vec = true → x.reg < vregCount (s.core (coreOf s.cur)).mode := by
    simp [State.vregFault, List.find?_eq_none]
  rw [hfault, State.registerWait, Bool.or_eq_false_iff, List.any_eq_false, List.any_eq_false]
  simp only [Bool.not_eq_true]
  constructor
  · rintro ⟨⟨hd, hs⟩, hse, hde⟩
    exact ⟨fun x hx => (hsrc x hx).2 ⟨hs x hx, hse x hx⟩, fun x hx => (hdst x hx).2 ⟨hd x hx, hde x hx⟩⟩
  · rintro ⟨hs, hd⟩
    exact ⟨⟨fun x hx => ((hdst x hx).1 (hd x hx)).1, fun x hx => ((hsrc x hx).1 (hs x hx)).1⟩,
      fun x hx => ((hsrc x hx).1 (hs x hx)).2, fun x hx => ((hdst x hx).1 (hd x hx)).2⟩

end NoWindow

theorem registersFull_iff (s : State) (i : Instr) : registersFull s i = true ↔
    (∀ x ∈ srcsOf i, s.regReady x.vec x.reg = true) ∧ ∀ x ∈ dstsOf i, s.regReady x.vec x.reg = true := by
  simp only [registersFull, Bool.and_eq_true, List.all_eq_true]; rfl

theorem opChecks_registerOnly {s : State} {i : Instr} (h : registerOnly i = true)
    (hw : noWindow (s.ctx s.cur) i = true) : s.opChecks i = .go := by
  obtain ⟨-, -, hanswer, hwait, hrelease, hstore⟩ := registerOnly_plain h
  obtain ⟨haccesses, hown, hposted⟩ := registerOnly_checks s h
  refine (opChecks_eq_go s i hanswer).2 ⟨?_, ?_, ?_, ?_, hown, ?_, ?_⟩
  · rw [isMemAccess_eq_false hw h]; rfl
  · rw [hwait]; rfl
  · rw [hrelease]; rfl
  · rw [haccesses]; rfl
  · rw [State.bufferFull, hstore, State.storesBefore, haccesses]; rfl
  · rw [State.counts, hstore, hposted]; rfl

theorem emptyTrap_of_full {s : State} {i : Instr} (h : ∀ x ∈ srcsOf i, s.srcEmpty x = false) : s.emptyTrap i = none := by
  rw [State.emptyTrap, Option.map_eq_none_iff, List.find?_eq_none]
  intro x hx
  simp [h x hx]

/-- Settles O55: of the checks only the form, the mode and the presence of registers can fail. -/
theorem registerInstructionsIssue : Obligations.RegisterInstructionsIssue := by
  unfold Obligations.RegisterInstructionsIssue
  intro s i h hw _
  obtain ⟨hlevel, hop, -⟩ := registerOnly_plain h
  have hillegal : s.illegal i = none ↔ i.wf = true := by
    rw [registerOnly_illegal s h, hlevel, windowMisuse_eq_false hw hop]
    cases i.wf <;> simp
  rw [verdict_eq_go, hillegal, registersFull_iff, ← registersReady_iff hw]
  constructor
  · rintro ⟨hwf, hfault, -, -, hwait, -⟩
    exact ⟨hwf, hfault, hwait⟩
  · rintro ⟨hwf, hfault, hwait⟩
    have hfull : ∀ x ∈ srcsOf i, s.srcEmpty x = false := fun x hx => by
      have hany := (Bool.or_eq_false_iff.1 hwait).1
      simpa [src_isWin_eq_false hw hx] using List.any_eq_false.1 hany x hx
    exact ⟨hwf, hfault, emptyTrap_of_full hfull, windowWait_eq_false hw hop, hwait, opChecks_registerOnly h hw⟩

end Sys2Proof.Machine

/-! SUPPORT. What register instructions and stores leave as it was (00 R11, 03 R97, 08 R248). -/

namespace Sys2Proof.Machine

/-! ### What `advance` leaves -/

theorem still_of_stillEx {k l : Core} (h : k.still = l.still) : k.stillEx = l.stillEx :=
  congrArg (fun x : Core => { x with ex := [] }) h

theorem advance_onlyCtx (s : State) (i : Instr) : OnlyCtx Core.still s (s.advance i) := by
  obtain ⟨l, hl, h⟩ := advance_eq s i
  exact {
    cur := advance_cur s i
    ctx := fun th hth => advance_ctx_other s i th hth
    core := advance_core_still s i
    quads := advance_quads s i
    dies := advance_dies s i
    hub := advance_hub s i
    launches := advance_launches s i
    pres := advance_pres s i
    byte := fun k => by rw [advance_mem]
    inbox := by rw [h]; rfl
    turns := by rw [h]; rfl
    net := ⟨l, by rw [h]; rfl, hl⟩
    latch := advance_latch s i
    out := by rw [h]; rfl }

/-- What a frame sets aside in cores may be more. -/
theorem OnlyCtx.weaken {g g' : Core → Core} {s t : State} (h : OnlyCtx g s t) (hg : ∀ k l, g k = g l → g' k = g' l) :
    OnlyCtx g' s t :=
  { h with core := fun c => hg _ _ (h.core c) }

/-- A change of the context in focus stays within the frame. -/
theorem OnlyCtx.modCtx {g : Core → Core} {s t : State} (h : OnlyCtx g s t) (f : Ctx → Ctx) :
    OnlyCtx g s (t.modCtx s.cur f) :=
  { h with ctx := fun th hth => (modCtx_ctx_other t s.cur f th hth).trans (h.ctx th hth) }

/-- The core of the context in focus has counted an issue. -/
theorem advance_ivIssued (s : State) (i : Instr) : ((s.advance i).core (coreOf s.cur)).ivIssued ≠ 0 := by
  obtain ⟨l, -, h⟩ := advance_eq s i
  rw [h, evc_core, modCore_core_ne _ _ _ (by intro he; have := congrArg Core.ivIssued he; simp at this)]
  exact Nat.succ_ne_zero _

/-- Conditions count in the exception counters of the core alone. -/
theorem OnlyCtx.addConds {s t : State} (h : OnlyCtx Core.stillEx s t) {c : Nat} (hiv : (t.core c).ivIssued ≠ 0)
    (l : List Nat) : OnlyCtx Core.stillEx s (t.addConds c l) := by
  cases l with
  | nil => exact h
  | cons k l =>
    refine { h with core := fun u => ?_ }
    by_cases hu : u = c
    · subst hu
      have hcore : (t.addConds u (k :: l)).core u = { t.core u with ex := (k :: l).foldl (fun m k => countOne k m) (t.core u).ex } :=
        modCore_core_ne _ _ _ fun he => hiv (congrArg Core.ivIssued he)
      rw [hcore]
      exact h.core u
    · exact (congrArg Core.stillEx (modCore_core_other t c _ u hu)).trans (h.core u)

theorem addConds_ctx (s : State) (c : Nat) (l : List Nat) (th : Nat) : (s.addConds c l).ctx th = s.ctx th := by
  cases l <;> rfl

/-! ### The forms of an instruction on registers -/

/-- The vector instructions whose result counts no conditions. -/
def quietVec : Instr → Bool
  | .vand .. | .vor .. | .vxor .. | .vandn .. | .vsel .. | .vmov .. | .vshuf .. | .vcrc .. | .vsplat .. | .vins .. | .vunpack .. =>
    true
  | _ => false

/-- A scalar result of a vector instruction, and the instruction that does nothing. -/
def oddVec : Instr → Bool
  | .vext .. | .vnop => true
  | _ => false

theorem exec_scalar {i : Instr} (h : (plainRegister i && !isVSyl i) = true) (s : State) :
    ∃ d val, exec i s = issueS i d val s ∧ dstsOf i = [{ reg := d.toNat }] := by
  cases i <;> cases h
  all_goals simp only [exec_add, execAdd, exec_sub, execSub, exec_and, execAnd, exec_or, execOr, exec_xor, execXor, exec_andn,
    execAndn, exec_sll, execSll, exec_srl, execSrl, exec_sra, execSra, exec_slt, execSlt, exec_sltn, execSltn,
    exec_min, execMin, exec_max, execMax, exec_minn, execMinn, exec_maxn, execMaxn, exec_lea, execLea, exec_mul,
    execMul, exec_mulh, execMulh, exec_mulhn, execMulhn, exec_mulhsn, execMulhsn, exec_div, execDiv, exec_divn,
    execDivn, exec_rem, execRem, exec_remn, execRemn, exec_clz, execClz, exec_ctz, execCtz, exec_popc, execPopc,
    exec_sel, execSel, exec_bext, execBext, exec_bexts, execBexts, exec_bins, execBins, exec_addi, execAddi,
    exec_andi, execAndi, exec_ori, execOri, exec_xori, execXori, exec_slti, execSlti, exec_sltni, execSltni,
    exec_slli, execSlli, exec_srli, execSrli, exec_srai, execSrai, exec_cadr, execCadr, exec_lim, execLim]
  all_goals exact ⟨_, _, rfl, rfl⟩

theorem exec_quietVec {i : Instr} (h : quietVec i = true) (s : State) :
    ∃ (d : BitVec 6) (val : State → VWord), exec i s = issueV i d.toNat val s ∧ dstsOf i = [{ reg := d.toNat, vec := true }] := by
  cases i <;> cases h
  all_goals simp only [exec_vand, execVand, exec_vor, execVor, exec_vxor, execVxor, exec_vandn, execVandn, exec_vsel, execVsel,
    exec_vmov, execVmov, exec_vshuf, execVshuf, exec_vcrc, execVcrc, exec_vsplat, execVsplat, exec_vins,
    execVins, exec_vunpack, execVunpack]
  all_goals exact ⟨_, _, rfl, rfl⟩

theorem exec_countedVec {i : Instr} (h : (plainRegister i && isVSyl i && !quietVec i && !oddVec i) = true) (s : State) :
    ∃ d val, exec i s = issueVC i d val s ∧ dstsOf i = [{ reg := d.toNat, vec := true }] := by
  cases i <;> cases h
  all_goals simp only [exec_vadd, execVadd, exec_vsub, execVsub, exec_vmul, execVmul, exec_vmin, execVmin, exec_vmax, execVmax,
    exec_vfma, execVfma, exec_vfms, execVfms, exec_vabs, execVabs, exec_vneg, execVneg, exec_vclamp, execVclamp,
    exec_vceq, execVceq, exec_vcne, execVcne, exec_vclt, execVclt, exec_vcle, execVcle, exec_vdot2F16,
    execVdot2F16, exec_vdot4S8, execVdot4S8, exec_vredadd, execVredadd, exec_vredmin, execVredmin, exec_vredmax,
    execVredmax, exec_vsll, execVsll, exec_vsrl, execVsrl, exec_vsra, execVsra, exec_vscale, execVscale,
    exec_vpack, execVpack, exec_vcvt, execVcvt]
  all_goals exact ⟨_, _, rfl, rfl⟩

theorem exec_oddVec {i : Instr} (h : oddVec i = true) (s : State) :
    (∃ (d : BitVec 5) (val : State → Word), exec i s = issue i (fun t => t.setSV d.toNat (val t)) s ∧
      dstsOf i = [{ reg := d.toNat, win := false }]) ∨ exec i s = issue i (fun t => t) s ∧ dstsOf i = [] := by
  cases i <;> cases h
  · rw [exec_vext, execVext]
    exact .inl ⟨_, _, rfl, rfl⟩
  · exact .inr ⟨exec_vnop s, rfl⟩

/-- What a change of a context may touch for an instruction: its destination registers. -/
structure RegWrite (i : Instr) (c d : Ctx) : Prop where
  rest : { d with s := [], v := [] } = { c with s := [], v := [] }
  sreg : ∀ n, (∀ x ∈ dstsOf i, x.vec = true ∨ x.reg ≠ n) → d.sreg n = c.sreg n
  vreg : ∀ n, (∀ x ∈ dstsOf i, x.vec = false ∨ x.reg ≠ n) → d.vreg n = c.vreg n

theorem RegWrite.rfl {i : Instr} {c : Ctx} : RegWrite i c c := ⟨Eq.refl _, fun _ _ => Eq.refl _, fun _ _ => Eq.refl _⟩

theorem and_not_bit {w : Nat} (x : BitVec w) {r : Nat} (h : x.getLsbD r = false) : x &&& ~~~(1#w <<< r) = x := by
  apply BitVec.eq_of_getLsbD_eq
  intro k hk
  by_cases hkr : k = r
  · subst hkr; simp [h]
  · simp only [BitVec.getLsbD_and, BitVec.getLsbD_not, hk, decide_true, Bool.true_and, BitVec.getLsbD_shiftLeft, BitVec.getLsbD_one]
    by_cases hlt : k < r
    · simp [hlt]
    · have hsub : k - r ≠ 0 := by omega
      simp [hsub]

theorem regWrite_setS {i : Instr} {c : Ctx} {r : Nat} {win : Bool} (hd : dstsOf i = [{ reg := r, win := win }])
    (hfull : r = 0 ∨ c.sEmpty.getLsbD r = false) (x : Word) : RegWrite i c (c.setS r x) := by
  by_cases hr : r = 0
  · rw [hr, setS_zero]; exact .rfl
  · have hempty := and_not_bit _ (hfull.resolve_left hr)
    refine ⟨?_, fun n hn => ?_, fun n _ => ?_⟩ <;> simp only [Ctx.setS, if_neg hr, Ctx.sreg, Ctx.vreg]
    · rw [hempty]
    · have hne : n ≠ r := fun h => by simp [hd, h] at hn
      rw [get_put_other _ _ _ _ _ hne]

theorem regWrite_setV {i : Instr} {c : Ctx} {r : Nat} (hd : dstsOf i = [{ reg := r, vec := true }])
    (hfull : c.vEmpty.getLsbD r = false) (x : VWord) : RegWrite i c (c.setV r x) := by
  have hempty := and_not_bit _ hfull
  refine ⟨?_, fun n _ => ?_, fun n hn => ?_⟩ <;> simp only [Ctx.setV, Ctx.sreg, Ctx.vreg]
  · rw [hempty]
  · have hne : n ≠ r := fun h => by simp [hd, h] at hn
    rw [get_put_other _ _ _ _ _ hne]

/-- The frame of an instruction on registers (00 R11, 03 R97). -/
structure RegFrame (s : State) (i : Instr) (t : State) : Prop where
  only : OnlyCtx Core.stillEx s t
  pc : (t.ctx s.cur).pc = (s.ctx s.cur).pc + 8
  still : { (t.ctx s.cur).still with s := [], v := [] } = { (s.ctx s.cur).still with s := [], v := [] }
  sreg : ∀ n, (∀ d ∈ dstsOf i, d.vec = true ∨ d.reg ≠ n) → (t.ctx s.cur).sreg n = (s.ctx s.cur).sreg n
  vreg : ∀ n, (∀ d ∈ dstsOf i, d.vec = false ∨ d.reg ≠ n) → (t.ctx s.cur).vreg n = (s.ctx s.cur).vreg n

theorem regFrame_of_ctx {s t : State} {i : Instr} (h : OnlyCtx Core.stillEx s t)
    (hf : RegWrite i ((s.advance i).ctx s.cur) (t.ctx s.cur)) : RegFrame s i t := by
  have hctx := advance_ctx s i
  obtain ⟨hrest, hsreg, hvreg⟩ := hf
  refine ⟨h, (congrArg Ctx.pc hrest).trans (congrArg Ctx.pc hctx), ?_, fun n hn => ?_, fun n hn => ?_⟩
  · have hstill : ({ (t.ctx s.cur).still with s := [], v := [] } : Ctx) =
        { ((s.advance i).ctx s.cur).still with s := [], v := [] } := congrArg Ctx.still hrest
    rw [hstill, hctx]; rfl
  · rw [hsreg n hn, hctx]; rfl
  · rw [hvreg n hn, hctx]; rfl

theorem regFrame_of_write (s : State) {i : Instr} {f : Ctx → Ctx}
    (hf : RegWrite i ((s.advance i).ctx s.cur) (f ((s.advance i).ctx s.cur))) (l : List Nat) :
    RegFrame s i (((s.advance i).modCtx s.cur f).addConds (coreOf s.cur) l) := by
  have hstatus : (f ((s.advance i).ctx s.cur)).status = .ready :=
    (congrArg Ctx.status hf.rest).trans (congrArg Ctx.status (advance_ctx s i))
  refine regFrame_of_ctx
    ((((advance_onlyCtx s i).weaken fun _ _ => still_of_stillEx).modCtx f).addConds (advance_ivIssued s i) l) ?_
  rw [addConds_ctx, modCtx_ctx_ne _ _ _ (ctx_ne_of_status (by rw [hstatus]; decide))]
  exact hf

/-- An instruction that issues changes its destinations, and pops nothing where its fields name no window. -/
theorem issue_frame {s : State} {i : Instr} (hi : Issues s i) (hw : noWindow (s.ctx s.cur) i = true)
    (eff : State → State) : issue i eff s = .next (eff (s.advance i)) := by
  rw [issue_go hi, State.after, popSources_none _ _ _ (noWindow_dsts hw).1]

/-- What issues finds its destination registers full. -/
theorem issues_regReady {s : State} {i : Instr} (hi : Issues s i) (hw : noWindow (s.ctx s.cur) i = true) :
    ∀ x ∈ dstsOf i, s.regReady x.vec x.reg = true := by
  obtain ⟨-, hfault, -, -, hwait, -⟩ := (verdict_eq_go s i).1 hi.2
  exact ((registersReady_iff hw).1 ⟨hfault, hwait⟩).2

theorem pushHolds_eq_false {s : State} {d : BitVec 5} (h : (s.ctx s.cur).winOf d.toNat = none) (x : Word) :
    s.pushHolds d x = false := by rw [State.pushHolds, h]

theorem plainRegister_frame {s : State} {i : Instr} (h : plainRegister i = true) (hw : noWindow (s.ctx s.cur) i = true)
    (hi : Issues s i) : ∃ t, exec i s = .next t ∧ RegFrame s i t := by
  have hready := issues_regReady hi hw
  have hsEmpty : ((s.advance i).ctx s.cur).sEmpty = (s.ctx s.cur).sEmpty := by rw [advance_ctx]
  have hvEmpty : ((s.advance i).ctx s.cur).vEmpty = (s.ctx s.cur).vEmpty := by rw [advance_ctx]
  have hs {r : Nat} {win : Bool} (hd : dstsOf i = [{ reg := r, win := win }]) :
      r = 0 ∨ ((s.advance i).ctx s.cur).sEmpty.getLsbD r = false := by
    simpa [hd, State.regReady, hsEmpty] using hready
  have hv {r : Nat} (hd : dstsOf i = [{ reg := r, vec := true }]) : ((s.advance i).ctx s.cur).vEmpty.getLsbD r = false := by
    have h := hready
    simp only [hd, List.mem_singleton, forall_eq, State.regReady, if_true, Bool.and_eq_true, Bool.not_eq_true'] at h
    rw [hvEmpty]; exact h.2
  by_cases hscalar : isVSyl i = true
  · by_cases hquiet : quietVec i = true
    · obtain ⟨d, val, he, hd⟩ := exec_quietVec hquiet s
      refine ⟨_, he.trans (issue_frame hi hw _), ?_⟩
      have hf := regFrame_of_write s (f := fun c => c.setV d.toNat (val (s.advance i))) (regWrite_setV hd (hv hd) _) []
      rw [State.setV, advance_cur]; exact hf
    · by_cases hodd : oddVec i = true
      · rcases exec_oddVec hodd s with ⟨d, val, he, hd⟩ | ⟨he, hd⟩
        · refine ⟨_, he.trans (issue_frame hi hw _), ?_⟩
          have hf := regFrame_of_write s (f := fun c => c.setS d.toNat (val (s.advance i))) (regWrite_setS hd (hs hd) _) []
          rw [State.setSV, advance_cur]; exact hf
        · exact ⟨_, he.trans (issue_frame hi hw _),
            regFrame_of_ctx ((advance_onlyCtx s i).weaken fun _ _ => still_of_stillEx) .rfl⟩
      · obtain ⟨d, val, he, hd⟩ := exec_countedVec (i := i) (by simp [h, hscalar, hquiet, hodd]) s
        refine ⟨_, he.trans (issue_frame hi hw _), ?_⟩
        have hf := regFrame_of_write s (f := fun c => c.setV d.toNat (val (s.advance i)).1) (regWrite_setV hd (hv hd) _)
          (val (s.advance i)).2
        rw [State.setV, advance_cur]; exact hf
  · obtain ⟨d, val, he, hd⟩ := exec_scalar (i := i) (by simp [h, hscalar]) s
    have hwin : (s.ctx s.cur).winOf d.toNat = none := by
      simpa [hd] using (noWindow_dsts hw).2
    have heq : s.after i (fun t => t.setS d (val t)) =
        (s.advance i).modCtx s.cur fun c => c.setS d.toNat (val (s.advance i)) := by
      rw [State.after, popSources_none _ _ _ (noWindow_dsts hw).1, setS_register, advance_cur]
      rw [advance_cur, advance_winOf, hwin]
    exact ⟨_, he.trans ((issueD_go hi (pushHolds_eq_false hwin _) _).trans (congrArg _ heq)),
      regFrame_of_write s (f := fun c => c.setS d.toNat (val (s.advance i))) (regWrite_setS hd (hs hd) _) []⟩

/-! ### Stores -/

/-- A store to the own scratchpad joins the store buffer. -/
theorem store_local_frame {s : State} {i : Instr} {eff : State → State} {n : Nat} {x : VWord} {ad : Bool} {a : Word}
    (he : exec i s = issue i eff s) (hf : eff (s.advance i) = (s.advance i).storeValue a n x ad) (hl : isLocal s.cur a = true)
    (hw : noWindow (s.ctx s.cur) i = true) (hi : Issues s i) :
    ∃ u, exec i s = .next u ∧ (∀ k, Memory.byte u.mem k = Memory.byte s.mem k) ∧ u.pres = s.pres ∧
      (u.ctx s.cur).still = (s.ctx s.cur).still ∧ (∀ th, th ≠ s.cur → u.ctx th = s.ctx th) ∧ u.dies = s.dies ∧
      u.quads = s.quads ∧ u.hub = s.hub ∧ u.launches = s.launches ∧
      ∀ c, { (u.core c).still with stbuf := [] } = { (s.core c).still with stbuf := [] } := by
  have hadv := advance_onlyCtx s i
  refine ⟨_, (he.trans (issue_frame hi hw eff)).trans (congrArg _ hf), ?_⟩
  rw [State.storeValue, advance_cur, if_pos hl]
  refine ⟨hadv.byte, hadv.pres, ?_, hadv.ctx, hadv.dies, hadv.quads, hadv.hub, hadv.launches, fun c => ?_⟩
  · have hctx := advance_ctx s i
    rw [State.evc, modCore_ctx, modCore_ctx, hctx]; rfl
  · have hcore : ({ ((s.advance i).core c).still with stbuf := [] } : Core) = { (s.core c).still with stbuf := [] } :=
      congrArg (fun k : Core => { k with stbuf := [] }) (hadv.core c)
    by_cases hc : c = coreOf s.cur
    · subst hc
      rw [evc_core, modCore_core_ne _ _ _ fun h => advance_ivIssued s i (congrArg Core.ivIssued h)]
      exact hcore
    · rw [evc_core_other _ _ _ _ hc, modCore_core_other _ _ _ _ hc]
      exact hcore

/-- The bytes of the oldest entry of a store buffer. -/
theorem storeBufferWrite_frame {s : State} {core : Nat} {e : StEntry} {rest : List StEntry}
    (h : (s.core core).stbuf = e :: rest) : ∃ t, exec (.storeBufferWrite core) s = .next t ∧ t.ctxs = s.ctxs ∧ t.pres = s.pres ∧
      (∀ k, k < (Place.scratch core e.off).key ∨ (Place.scratch core e.off).key + e.size ≤ k →
        Memory.byte t.mem k = Memory.byte s.mem k) ∧
      (Memory.wf s.mem = true → ∀ n < e.size,
        Memory.byte t.mem ((Place.scratch core e.off).key + n) = BitVec.ofNat 8 (e.data.toNat / 256 ^ n)) :=
  ⟨_, (goes_storeBufferWrite s core).2 e rest h, rfl, rfl, fun _ hk => Memory.byte_write_other _ _ _ _ _ hk,
    fun hm _ hn => Memory.byte_write hm _ _ _ _ hn⟩

theorem noteWrite_mem (s : State) (p : Place) (n : Nat) : (s.noteWrite p n).mem = s.mem := by
  unfold State.noteWrite
  split
  · split <;> rfl
  · rfl

theorem answerHeld_mem (s : State) (r : Req) (x : Word) : (s.answerHeld r x).mem = s.mem := rfl

theorem serveSync_mem (s : State) (d : Nat) (a : Word) : (s.serveSync d a).mem = s.mem := by
  have hfold : ∀ (l : List Req) (x : Word) (t : State), (l.foldl (fun s r => s.answerHeld r x) t).mem = t.mem := fun l x => by
    induction l with
    | nil => exact fun _ => rfl
    | cons r l ih => exact fun t => (ih _).trans (answerHeld_mem t r x)
  rw [State.serveSync, hfold]; rfl

theorem ack_mem (s : State) (r : Req) : (s.ack r).mem = s.mem := by unfold State.ack; split <;> rfl

/-- A write at an address that is in memory is one of its bytes. -/
theorem writeAt_mem {s : State} {a : Word} {pa : Option Nat} {p : Place} (h : s.placeOf a pa = some p) (n x : Nat) :
    (s.writeAt a pa n x).mem = Memory.write s.mem p.key n x := by
  unfold State.writeAt
  cases haddr : decodeAddr a with
  | win core r off =>
    have hregion : r = 0 ∨ r = 4 ∨ r = 5 := by
      refine Decidable.byContradiction fun hno => ?_
      simp only [not_or] at hno
      obtain ⟨h0, h4, h5⟩ := hno
      simp [State.placeOf, haddr, h0, h4, h5] at h
    rcases hregion with rfl | rfl | rfl <;> simp [h]
  | sync d off =>
    have hplace : s.placeOf a none = some p := by
      rw [← h]; simp only [State.placeOf, haddr]
    simp only [State.syncWrite, haddr, hplace, serveSync_mem, wr_mem]
  | _ => simp only [h, State.wrHome, noteWrite_mem, wr_mem]

theorem store_home_frame {s : State} {r : Req} {p : Place} (hop : r.op = .store) (hpass : s.mayNotPass r = false)
    (hlock : s.homeLocked r = false) (hp : s.placeOf r.addr r.pa = some p) :
    ∃ t, exec (.remoteAccess r) s = .next t ∧
      (∀ k, k < p.key ∨ p.key + r.size ≤ k → Memory.byte t.mem k = Memory.byte s.mem k) ∧
      (Memory.wf s.mem = true → ∀ n < r.size, Memory.byte t.mem (p.key + n) = BitVec.ofNat 8 (r.data.toNat / 256 ^ n)) := by
  have hhub : ∀ off, decodeAddr r.addr ≠ .hub off := fun off h => by simp [State.placeOf, h] at hp
  have hreg : s.regPending r.addr = false := by
    unfold State.regPending
    split
    · next core off h => simp [State.placeOf, h] at hp
    · rfl
  obtain ⟨-, -, hdone⟩ := goes_remoteAccess_home (s := s) hhub
  obtain ⟨-, hstore, -, -⟩ := hdone hpass hlock
  refine ⟨_, hstore hop hreg, fun k hk => ?_, fun hm n hn => ?_⟩ <;> rw [ack_mem, writeAt_mem hp]
  · exact Memory.byte_write_other _ _ _ _ _ hk
  · exact Memory.byte_write hm _ _ _ _ hn

/-- Settles O56: the frame of each kind of instruction and event that the statement names. -/
theorem frames : Obligations.Frames := by
  unfold Obligations.Frames
  refine ⟨fun s i h hw hi => ?_, fun s d b t w r x p q i a hmem hl hw hi => ?_,
    fun s core e rest h => storeBufferWrite_frame h, fun s r p => store_home_frame⟩
  · obtain ⟨t, he, hframe⟩ := plainRegister_frame h hw hi
    exact ⟨t, he, hframe.only, hframe.pc, hframe.still, hframe.sreg, hframe.vreg⟩
  · simp only [List.mem_cons, List.not_mem_nil, or_false] at hmem
    rcases hmem with ⟨rfl, rfl⟩ | ⟨rfl, rfl⟩ | ⟨rfl, rfl⟩ | ⟨rfl, rfl⟩ | ⟨rfl, rfl⟩
    · exact store_local_frame (exec_st8 ..) (by rw [advance_ea, State.ea, Int.natCast_one, Int.mul_one]) hl hw hi
    · exact store_local_frame (exec_st16 ..) (by simp only [advance_ea]; rfl) hl hw hi
    · exact store_local_frame (exec_st32 ..) (by simp only [advance_ea]; rfl) hl hw hi
    · exact store_local_frame (exec_st64 ..) (by simp only [advance_ea]; rfl) hl hw hi
    · exact store_local_frame (exec_vst ..) (by simp only [advance_ea]; rfl) hl hw hi

end Sys2Proof.Machine

/-! ## O51: hub registers and apertures (00 R5, 19 R446, R447) -/

namespace Sys2Proof.Machine
open Sys2Proof

theorem hasOffset_of_ne {level : Nat} (h : level ≠ 5) (off : Nat) : hasOffset level off = true := by simp [hasOffset, h]

/-- Two states of which each group of registers but that of the links reads alike. -/
theorem hubRead_congr {s t : State} {off level : Nat} (hlow : t.lowRead off level = s.lowRead off level)
    (hlink : t.linkRead off = s.linkRead off) (hpart : t.partRead off = s.partRead off) (hfw : t.fwRead off = s.fwRead off)
    (htel : ∀ k, t.tel k = s.tel k) (hfleet : t.fleetRead off = s.fleetRead off) :
    (t.hubRead off level).2 = (s.hubRead off level).2 := by
  unfold State.hubRead
  rw [hlow, hlink, hpart, hfw, htel, hfleet]
  simp only [apply_ite Prod.snd]

/-- A register that is one word of the hub: `f` is what its write does, `mask` its writable bits. -/
structure WordRegister (off : Nat) (mask : Word) (f : Word → Hub → Hub) : Prop where
  write : ∀ (s : State) (level : Nat) (x : Word), level ≠ 5 → s.hubWrite off level x = s.modHub (f x)
  read : ∀ (s : State) (level : Nat) (x : Word), level ≠ 5 → ((s.modHub (f x)).hubRead off level).2 = x &&& mask
  other : ∀ (s : State) (level : Nat) (x : Word) (o : Nat), o ≠ off →
    ((s.modHub (f x)).hubRead o level).2 = (s.hubRead o level).2

theorem wordRegister_pkgnum : WordRegister 0x401000 0xFF fun x h => { h with pkgnum := x.toNat % 256 } where
  write s level x h := by rw [State.hubWrite, hasOffset_of_ne h]; rfl
  read s level x h := by
    rw [State.hubRead, hasOffset_of_ne h]
    change BitVec.ofNat 64 (x.toNat % 256 % 256) = _
    refine BitVec.eq_of_toNat_eq ?_
    have hmask : x.toNat &&& 0xFF = x.toNat % 256 := Nat.and_two_pow_sub_one_eq_mod x.toNat 8
    rw [BitVec.toNat_and, BitVec.toNat_ofNat, show BitVec.toNat (0xFF : Word) = 0xFF from rfl, hmask]
    omega
  other s level x o h := hubRead_congr rfl (by simp only [State.linkRead, if_neg h]; rfl) rfl rfl (fun _ => rfl) rfl

theorem wordRegister_clkrate :
    WordRegister 0x401118 0xFFFFFFFFFF fun x h => { h with clkrate := x.extractLsb' 0 40 } where
  write s level x h := by rw [State.hubWrite, hasOffset_of_ne h]; rfl
  read s level x h := by
    rw [State.hubRead, hasOffset_of_ne h]
    change (x.extractLsb' 0 40).setWidth 64 = _
    refine BitVec.eq_of_toNat_eq ?_
    have hmask : x.toNat &&& 0xFFFFFFFFFF = x.toNat % 2 ^ 40 := Nat.and_two_pow_sub_one_eq_mod x.toNat 40
    rw [BitVec.toNat_and, show BitVec.toNat (0xFFFFFFFFFF : Word) = 0xFFFFFFFFFF from rfl, hmask]
    simp only [BitVec.toNat_setWidth, BitVec.extractLsb'_toNat, Nat.shiftRight_zero]
    omega
  other s level x o h := hubRead_congr rfl (by simp only [State.linkRead, if_neg h]; rfl) rfl rfl (fun _ => rfl) rfl

theorem wordRegister_xcw0 :
    WordRegister 0x501008 0xFFFC000000000000 fun x h => { h with xcw0 := x &&& 0xFFFC000000000000 } where
  write s level x h := by rw [State.hubWrite, hasOffset_of_ne h]; rfl
  read s level x h := by rw [State.hubRead, hasOffset_of_ne h]; rfl
  other s level x o h := hubRead_congr rfl rfl (by simp only [State.partRead, if_neg h]; rfl) rfl (fun _ => rfl) rfl

theorem wordRegister_xcw1 : WordRegister 0x501010 0xFFFFFFFFF0000 fun x h => { h with xcw1 := x &&& 0xFFFFFFFFF0000 } where
  write s level x h := by rw [State.hubWrite, hasOffset_of_ne h]; rfl
  read s level x h := by rw [State.hubRead, hasOffset_of_ne h]; rfl
  other s level x o h := hubRead_congr rfl rfl (by simp only [State.partRead, if_neg h]; rfl) rfl (fun _ => rfl) rfl

theorem wordRegister_ownRange :
    WordRegister 0x502000 0xFFFFFFFFFFFF0000 fun x h => { h with ownRange := x &&& 0xFFFFFFFFFFFF0000 } where
  write s level x h := by rw [State.hubWrite, hasOffset_of_ne h]; rfl
  read s level x h := by rw [State.hubRead, hasOffset_of_ne h]; rfl
  other s level x o h := hubRead_congr rfl rfl (by simp only [State.partRead, if_neg h]; rfl) rfl (fun _ => rfl) rfl

theorem wordRegister_ckptList :
    WordRegister 0xC00100 0xFFF001FFFFFFFFE0 fun x h => { h with ckptList := x &&& 0xFFF001FFFFFFFFE0 } where
  write s level x h := by rw [State.hubWrite, hasOffset_of_ne h]; rfl
  read s level x h := by rw [State.hubRead, hasOffset_of_ne h]; rfl
  other s level x o h := hubRead_congr rfl rfl rfl rfl (fun _ => rfl) (by simp only [State.fleetRead, if_neg h]; rfl)

/-- The offsets and the writable bits of the registers above. -/
def wordRegisters : List (Nat × Word) :=
  [(0x401000, 0xFF), (0x401118, 0xFFFFFFFFFF), (0x501008, 0xFFFC000000000000), (0x501010, 0xFFFFFFFFF0000),
    (0x502000, 0xFFFFFFFFFFFF0000), (0xC00100, 0xFFF001FFFFFFFFE0)]

theorem wordRegister_of_mem {off : Nat} {mask : Word}
    (h : (off, mask) ∈ wordRegisters) : ∃ f, WordRegister off mask f := by
  simp only [wordRegisters, List.mem_cons, List.not_mem_nil, or_false] at h
  obtain ⟨rfl, rfl⟩ | ⟨rfl, rfl⟩ | ⟨rfl, rfl⟩ | ⟨rfl, rfl⟩ | ⟨rfl, rfl⟩ | ⟨rfl, rfl⟩ := h
  · exact ⟨_, wordRegister_pkgnum⟩
  · exact ⟨_, wordRegister_clkrate⟩
  · exact ⟨_, wordRegister_xcw0⟩
  · exact ⟨_, wordRegister_xcw1⟩
  · exact ⟨_, wordRegister_ownRange⟩
  · exact ⟨_, wordRegister_ckptList⟩

/-! ### Registers of a table -/

theorem sorted_of_tableSorted {α : Type} {m : FMap α} (h : tableSorted m = true) : FMap.sorted m := by
  induction m with
  | nil => trivial
  | cons p m ih =>
    cases m with
    | nil => exact ⟨fun _ h => absurd h (List.not_mem_nil), trivial⟩
    | cons q m =>
      simp only [tableSorted, Bool.and_eq_true, decide_eq_true_eq] at h
      exact ⟨FMap.above_of_sorted_cons h.1 (ih h.2), ih h.2⟩

/-- A table reads what was put, unless the default was put in a table with two entries of one key. -/
theorem get_put_self {α : Type} [DecidableEq α] {d : α} {m : FMap α} {x : α} (i : Nat) (h : x ≠ d ∨ tableSorted m = true) :
    get d (put d m i x) i = x := by
  rcases h with h | h
  · exact get_put_ne d m i x h
  · exact get_put_same d (sorted_of_tableSorted h) i x

theorem egress_readback (s : State) {level n : Nat} {x : Word} (hl : level ≠ 5) (hn : n < 64)
    (h : x &&& 0xFE00000000000000 ≠ 0 ∨ tableSorted s.hub.egress = true) :
    ((s.hubWrite (0x400000 + 8 * n) level x).hubRead (0x400000 + 8 * n) level).2 = x &&& 0xFE00000000000000 := by
  have hmod : (0x400000 + 8 * n) % 8 = 0 := by omega
  have hlo : ¬ 0x400000 + 8 * n < 0x400000 := by omega
  have hhi : 0x400000 + 8 * n < 0x500000 := by omega
  have hblock : 0x400000 + 8 * n < 0x400200 := by omega
  simp only [State.hubWrite, State.hubRead, hasOffset_of_ne hl, hmod, State.linkWrite, State.linkRead, if_pos hblock, if_pos hhi,
    if_neg hlo]
  simp only [ne_eq, not_true_eq_false, decide_false, Bool.not_true, Bool.or_self, Bool.false_eq_true, if_false, modHub_hub]
  rw [get_put_self _ (h.imp_left fun hx heq => hx (congrArg Egress.conf heq))]

theorem groute_readback (s : State) {level n : Nat} {x : Word} (hl : level ≠ 5) (hn : n < 256)
    (h : x &&& 0x8000000000000003 ≠ 0 ∨ tableSorted s.hub.groute = true) :
    ((s.hubWrite (0x402000 + 8 * n) level x).hubRead (0x402000 + 8 * n) level).2 = x &&& 0x8000000000000003 := by
  have hmod : (0x402000 + 8 * n) % 8 = 0 := by omega
  have hlo : ¬ 0x402000 + 8 * n < 0x400000 := by omega
  have hhi : 0x402000 + 8 * n < 0x500000 := by omega
  have hoff : ∀ k ∈ [0x401000, 0x401100, 0x401108, 0x401110, 0x401118, 0x401120], 0x402000 + 8 * n ≠ k := by simp; omega
  have hblock : 0x402000 ≤ 0x402000 + 8 * n ∧ 0x402000 + 8 * n < 0x402800 := by omega
  have h1 : ¬ 0x402000 + 8 * n < 0x400200 := by omega
  have h2 : ¬ 0x402000 + 8 * n < 0x400280 := by omega
  simp only [List.mem_cons, List.not_mem_nil, or_false, forall_eq_or_imp, forall_eq] at hoff
  simp only [State.hubWrite, State.hubRead, hasOffset_of_ne hl, hmod, State.linkWrite, State.linkRead, hoff, hblock, if_pos hhi,
    if_neg hlo, h1, h2]
  simp only [ne_eq, not_true_eq_false, decide_false, decide_true, Bool.not_true, Bool.or_self, Bool.and_self, Bool.false_eq_true, if_false, if_true,
    modHub_hub]
  exact get_put_self _ h

theorem psave_readback (s : State) {level n : Nat} {x : Word} (hl : level ≠ 5) (hn : n < 32)
    (h : x &&& 0x1FFFFE00000 ≠ 0 ∨ tableSorted s.hub.psave = true) :
    ((s.hubWrite (0x500300 + 8 * n) level x).hubRead (0x500300 + 8 * n) level).2 = x &&& 0x1FFFFE00000 := by
  have hmod : (0x500300 + 8 * n) % 8 = 0 := by omega
  have hlo : ¬ 0x500300 + 8 * n < 0x500000 := by omega
  have hlow : ¬ 0x500300 + 8 * n < 0x400000 := by omega
  have hhi : 0x500300 + 8 * n < 0x600000 := by omega
  have hoff : 0x500300 + 8 * n ≠ 0x500200 ∧ 0x500300 + 8 * n ≠ 0x500208 := by omega
  have hblock : 0x500300 ≤ 0x500300 + 8 * n ∧ 0x500300 + 8 * n < 0x500400 := by omega
  have h1 : ¬ 0x500300 + 8 * n < 0x500100 := by omega
  have h2 : ¬ 0x500300 + 8 * n < 0x500200 := by omega
  simp only [State.hubWrite, State.hubRead, hasOffset_of_ne hl, hmod, State.partsWrite, State.partRead, hoff, hblock, if_pos hhi,
    if_neg hlo, h1, h2, hlow]
  simp only [ne_eq, not_true_eq_false, decide_false, decide_true, Bool.not_true, Bool.or_self, Bool.and_self, Bool.false_eq_true, if_false, if_true,
    modHub_hub]
  exact get_put_self _ h

/-! ### What a physical function has not -/

theorem lowAccess_unseen {level off : Nat} (hqueue : ¬ off < 0x1000)
    (h : (0x100000 ≤ off ∧ off < 0x180000 ∧ queueSeen level ((off - 0x100000) / 32) = false) ∨
      (0x180000 ≤ off ∧ off < 0x1C0000 ∧ queueSeen level ((off - 0x180000) / 16) = false)) (s : State) (x : Word) :
    s.lowWrite off level x = s ∧ s.lowRead off level = 0 := by
  unfold State.lowWrite State.lowRead
  rcases h with ⟨hlo, hhi, hseen⟩ | ⟨hlo, hhi, hseen⟩
  · simp [hqueue, hlo, hhi, hseen]
  · have hnot : ¬ off < 0x180000 := by omega
    simp [hqueue, hlo, hhi, hseen, hnot]

theorem hubAccess_absent {level off : Nat}
    (h : off % 8 ≠ 0 ∨ (level = 5 ∧ 0x1000 ≤ off ∧ (off < 0x140000 ∨ (0x180000 ≤ off ∧ off < 0x1A0000) ∨ 0x1C0000 ≤ off)) ∨
      (level = 4 ∧ ((0x140000 ≤ off ∧ off < 0x180000) ∨ (0x1A0000 ≤ off ∧ off < 0x1C0000)))) (s : State) (x : Word) :
    s.hubWrite off level x = s ∧ s.hubRead off level = (s, 0) := by
  by_cases hoff : off % 8 ≠ 0 ∨ hasOffset level off = false
  · have hcond : (decide (off % 8 ≠ 0) || !hasOffset level off) = true := by
      simpa [Bool.or_eq_true] using hoff
    exact ⟨by rw [State.hubWrite, if_pos hcond], by rw [State.hubRead, if_pos hcond]⟩
  · simp only [not_or, Decidable.not_not, Bool.not_eq_false] at hoff
    obtain ⟨hmod, hhas⟩ := hoff
    have hlow : off < 0x400000 ∧ ¬ off < 0x1000 := by
      simp only [hasOffset, Bool.or_eq_true, Bool.and_eq_true, decide_eq_true_eq] at hhas
      omega
    have hunseen := lowAccess_unseen (level := level) hlow.2 (by
      simp only [hasOffset, Bool.or_eq_true, Bool.and_eq_true, decide_eq_true_eq] at hhas
      rcases h with h | ⟨rfl, h1, h2⟩ | ⟨rfl, h2⟩
      · exact absurd hmod h
      · simp only [queueSeen, decide_eq_false_iff_not, if_neg (show ¬ 5 = 4 by decide), if_true]
        omega
      · simp only [queueSeen, decide_eq_false_iff_not, if_true]
        omega) s x
    have hcond : ¬ (decide (off % 8 ≠ 0) || !hasOffset level off) = true := by simp [hmod, hhas]
    exact ⟨by rw [State.hubWrite, if_neg hcond, if_pos hlow.1, hunseen.1],
      by rw [State.hubRead, if_neg hcond, if_pos hlow.1, hunseen.2]⟩

/-! ### Apertures -/

theorem goes_apertureAccess {s : State} {fn off n : Nat} {w : Bool} {x a : Word}
    (ha : a = (get {} s.hub.fns fn).apbase + BitVec.ofNat 64 (off % 2 ^ 32)) :
    (n = 0 ∨ 8 < n ∨ s.apertureFault fn a n w = true → Goes s (.apertureAccess fn off n w x) (s.hostAbort fn)) ∧
    (1 ≤ n → n ≤ 8 → s.apertureFault fn a n w = false →
      (∀ o, decodeAddr a = .hub o →
        (w = true → Goes s (.apertureAccess fn off n w x) (s.hubWrite o (fnLevel fn) x)) ∧
        (w = false → Goes s (.apertureAccess fn off n w x)
          ((s.hubRead o (fnLevel fn)).1.emit (.apertureData fn (some (s.hubRead o (fnLevel fn)).2))))) ∧
      ((∀ o, decodeAddr a ≠ .hub o) → Goes s (.apertureAccess fn off n w x) (s.hostSend fn a n w x))) := by
  have hexec : exec (.apertureAccess fn off n w x) s = .next (s.apertureAccess fn off n w x) := rfl
  simp only [Goes, hexec, Host.Outcome.next.injEq]
  simp only [State.apertureAccess, State.fnRegs, ← ha]
  refine ⟨fun h => ?_, fun h1 h8 hfault => ⟨fun o ho => ⟨?_, ?_⟩, fun hno => ?_⟩⟩
  · rw [if_pos]
    rcases h with h | h | h <;> simp [h]
  all_goals
    have hgo : ¬ (decide (n = 0) || decide (8 < n) || s.apertureFault fn a n w) = true := by
      simp [hfault]; omega
    rw [if_neg hgo]
  · rintro rfl; simp [ho]
  · rintro rfl; simp [ho]
  · split
    · next o ho => exact absurd ho (hno o)
    · rfl

theorem walkItem_host (s : State) (fn n : Nat) (w : Bool) (x a : Word) :
    (∀ va, decodeAddr a = .global va → s.walkItem 4 (.host fn a.toNat n w x) = s.hostTranslated fn va n w x) ∧
    (∀ d c r o, decodeAddr a = .win c r o ∨ decodeAddr a = .sync d o →
      (s.apertureFault fn a n w = true → s.walkItem 4 (.host fn a.toNat n w x) = s.hostAbort fn) ∧
      (s.apertureFault fn a n w = false → s.walkItem 4 (.host fn a.toNat n w x) = s.hostPerform fn a none n w x)) := by
  simp only [State.walkItem, State.hostItem, BitVec.ofNat_toNat, BitVec.setWidth_eq]
  refine ⟨fun va h => by simp only [h], fun d c r o h => ?_⟩
  rcases h with h | h <;> simp +contextual [h]

/-- Settles O51: register by register, what the physical functions have not, and the checks of an aperture. -/
theorem hubRegisters : Obligations.HubRegisters := by
  unfold Obligations.HubRegisters
  refine ⟨fun s off level x => ⟨fun h => ?_, fun h hl => ?_, fun h hl => ?_⟩,
    fun s level x => ⟨fun hl off mask hmem => ?_, fun hl n hn h => egress_readback s hl hn h,
      fun hl n hn h => groute_readback s hl hn h, fun hl n hn h => psave_readback s hl hn h, fun hl off hmem o ho => ?_,
      fun off h => hubAccess_absent h s x, fun hl => by rw [State.hubWrite, hasOffset_of_ne hl]; rfl⟩,
    fun s fn off n w x a ha => ?_⟩
  · exact congrArg Host.Outcome.next (if_pos h)
  · exact congrArg Host.Outcome.next ((if_neg (by omega)).trans (if_pos hl))
  · exact congrArg Host.Outcome.next ((if_neg (by omega)).trans (if_neg (by omega)))
  · obtain ⟨f, hf⟩ := wordRegister_of_mem hmem
    rw [hf.write s level x hl]
    exact ⟨hf.read s level x hl, rfl, rfl, rfl⟩
  · obtain ⟨⟨off, mask⟩, hin, rfl⟩ := List.mem_map.1 (show off ∈ wordRegisters.map Prod.fst from hmem)
    obtain ⟨f, hf⟩ := wordRegister_of_mem hin
    rw [hf.write s level x hl]
    exact hf.other s level x o ho
  · obtain ⟨hstop, hgo⟩ := goes_apertureAccess (s := s) (fn := fn) (off := off) (n := n) (w := w) (x := x) ha
    obtain ⟨hglobal, hwin⟩ := walkItem_host s fn n w x a
    exact ⟨hstop, hgo, hglobal, hwin⟩

end Sys2Proof.Machine

/-! ## O52: the bundle of a slot (03 R83-R94, 05 R150-R152) -/

namespace Sys2Proof.Machine
open Sys2Proof

/-! ### Steps -/

theorem resetNext_eq_false {s : State} (h : ∀ t, s.turns.head? = some t → t ≠ .event .reset) : s.resetNext = false := by
  unfold State.resetNext
  split
  · next rest heq => exact absurd rfl (h (.event .reset) (by rw [heq]; rfl))
  · rfl

/-- A step closes the move that is next. -/
theorem step_of_move {s : State} (htrip : s.hub.trip = false) : step s = closeStep s s.move := by
  rw [step, State.stepOnce, htrip]
  rfl

/-- With no message of a restore and nothing that the clock has brought about, the next turn is taken. -/
theorem step_of_turn {s : State} (htrip : s.hub.trip = false) (hinbox : s.inbox = []) (hdue : s.hub.due = []) {t : Turn}
    {rest : List Turn} (h : s.turns = t :: rest) : step s = closeStep s (({ s with turns := rest } : State).turn t) := by
  rw [step_of_move htrip, State.move, hinbox, hdue, h, ite_self, ite_self]

/-! ### The slot of a thread -/

theorem sleepEnd_of_runs {s : State} {th : Nat} (h : (s.ctx th).status = .ready ∨ (s.ctx th).status = .blocked) :
    s.sleepEnd th = s := by
  unfold State.sleepEnd
  rcases h with h | h <;> simp [h]

namespace IssuePoint

variable {s u : State} {core th : Nat} (h : IssuePoint s core th u)
include h

theorem cur_eq : u.cur = th := by rw [h.start]

/-- The entry of the slot table is a type-1 entry of the thread. -/
theorem entry : ((u.core core).slots.getD ((u.core core).cycle % 32) 0).toNat / 64 = 1 ∧
    core * 16 + ((u.core core).slots.getD ((u.core core).cycle % 32) 0).toNat % 16 = th := by
  have hown : th / 16 = core := h.own
  rw [h.slot, BitVec.toNat_ofNat, ctxOf]
  omega

/-- The slot of the thread is what the fetch of its bundle makes of it. -/
theorem slotOf {b : State} (hu : { b with cur := th } = u) :
    b.slotOf th = match u.fetchIssue with
      | .next t => .next (if (t.ctx th).issued = (u.ctx th).issued then t else t.endClaim.noteIssue (u.ctx th) u.atomicNext)
      | r => r := by
  have hstatus := h.runs
  rw [State.slotOf, hu]
  simp only [h.due, sleepEnd_of_runs hstatus, List.isEmpty_nil, Bool.not_true, Bool.false_eq_true, if_false]
  rcases hstatus with hstatus | hstatus <;> simp only [hstatus] <;> rfl

/-- The step is the slot of the thread, closed. -/
theorem slotAnswers {o : Host.Outcome State Fault Refusal} (ho : u.fetchIssue = o) : SlotAnswers s u core th o := by
  obtain ⟨rest, hturns⟩ : ∃ rest, s.turns = .slot core :: rest := by
    have hturn := h.turn
    cases hs : s.turns with
    | nil => simp [hs] at hturn
    | cons t rest => exact ⟨rest, by simpa [hs] using hturn⟩
  obtain ⟨hentry, hth⟩ := h.entry
  have hstart := h.start
  rw [hturns, List.tail_cons] at hstart
  unfold SlotAnswers
  rw [step_of_turn h.trip h.inbox h.clock hturns]
  refine congrArg (closeStep s) ?_
  rw [State.turn, State.coreCycle]
  generalize hb : (((({ ({ s with turns := rest } : State) with focus := core, taken := [] } : State).coreTick
    core).slotTableSwitch core).drainHead core) = b
  have hu : { b with cur := th } = u := by rw [hstart, ← hb]
  have hcore : ∀ k, b.core k = u.core k := fun k => by rw [← hu]; rfl
  have hctx : ∀ k, b.ctx k = u.ctx k := fun k => by rw [← hu]; rfl
  have hgate : b.gated ((u.core core).cycle % 32) = false := by rw [← h.power, ← hu]; rfl
  have hfree : (u.ctx th).status ≠ .free := by
    rcases h.runs with hs | hs <;> rw [hs] <;> decide
  simp only [hcore, h.quiet, hgate, hentry, hth, State.ownerSlot, if_neg hfree, if_true, h.slotOf hu, ho, hctx,
    Nat.lt_irrefl, if_false, Bool.false_eq_true]
  cases o with
  | next t => rfl
  | fault => rfl
  | refused => rfl

theorem fetchIssue_eq {b : BitVec 32 × BitVec 32} (hb : u.bundleAt th = some b) : u.fetchIssue = u.issueBundle (b.1 ++ b.2) := by
  rw [State.fetchIssue, h.cur_eq]
  simp only [h.fetch, hb, h.banks]
  rfl

end IssuePoint

/-! ### The bundle of a line -/

theorem foldr_bytes_nil (l : List Nat) : l.foldr (fun k n => (([] : List Byte).getD k 0).toNat + 256 * n) 0 = 0 := by
  induction l with
  | nil => rfl
  | cons k l ih => rw [List.foldr_cons, ih]; rfl

/-- The value of at most n bytes, byte by byte; absent ones are zero. -/
theorem foldr_bytes_take (l : List Byte) (n : Nat) : (l.take n).foldr (fun b n => b.toNat + 256 * n) 0 =
    (List.range n).foldr (fun k n => (l.getD k 0).toNat + 256 * n) 0 := by
  induction n generalizing l with
  | zero => simp
  | succ n ih =>
    cases l with
    | nil => rw [foldr_bytes_nil]; rfl
    | cons b l =>
      rw [List.take_succ_cons, List.foldr_cons, ih, List.range_succ_eq_map, List.foldr_cons, List.foldr_map]
      rfl

/-- Two syllables of four bytes each are their eight bytes, lowest first. -/
theorem append_bytes {b : Nat → Nat} (hlt : ∀ k, b k < 256) :
    BitVec.ofNat 32 (b 4 + 256 * (b 5 + 256 * (b 6 + 256 * b 7))) ++ BitVec.ofNat 32 (b 0 + 256 * (b 1 + 256 * (b 2 + 256 * b 3))) =
      BitVec.ofNat 64 ((List.range 8).foldr (fun k n => b k + 256 * n) 0) := by
  refine BitVec.eq_of_toNat_eq ?_
  rw [BitVec.toNat_append, BitVec.toNat_ofNat, BitVec.toNat_ofNat, BitVec.toNat_ofNat,
    ← Nat.shiftLeft_add_eq_or_of_lt (Nat.mod_lt _ (by decide)), Nat.shiftLeft_eq]
  simp only [List.range, List.range.loop, List.foldr_cons, List.foldr_nil]
  have := hlt 0; have := hlt 1; have := hlt 2; have := hlt 3; have := hlt 4; have := hlt 5; have := hlt 6; have := hlt 7
  omega

theorem bundleAt_line {u : State} {th : Nat} {l : Line} (hstub : (u.ctx th).stub ≠ some (u.ctx th).pc)
    (hl : u.lineOf (quadOf (coreOf th)) (u.xctxOf th) ((u.ctx th).pc.toNat / 128) = some l) :
    ∃ b, u.bundleAt th = some b ∧ b.1 ++ b.2 = bundleOfBytes ((l.bytes.drop ((u.ctx th).pc.toNat % 128)).take 8) := by
  refine ⟨_, by rw [State.bundleAt, if_neg hstub, hl]; rfl, ?_⟩
  rw [bundleOfBytes, foldr_bytes_take]
  have hget : ∀ k, (l.bytes.drop ((u.ctx th).pc.toNat % 128)).getD k 0 = l.bytes.getD ((u.ctx th).pc.toNat % 128 + k) 0 :=
    fun k => by simp only [List.getD_eq_getElem?_getD, List.getElem?_drop]
  simp only [hget]
  exact append_bytes (b := fun k => (l.bytes.getD ((u.ctx th).pc.toNat % 128 + k) 0).toNat) fun k => BitVec.isLt _

/-- Settles O52: the step of an issue point is its fetch, and the fetch the bundle at the pc. -/
theorem stepRunsInstruction : Obligations.StepRunsInstruction := by
  unfold Obligations.StepRunsInstruction
  intro s u core th h
  refine ⟨fun l hstub hl => bundleAt_line hstub (by rw [h.own]; exact hl), fun b hb => ⟨fun i hdec => ?_, fun i j hdec => ?_⟩⟩
  · exact h.slotAnswers (by rw [h.fetchIssue_eq hb, State.issueBundle, hdec])
  · have hpair : u.fetchIssue = u.issuePair i j := by rw [h.fetchIssue_eq hb, State.issueBundle, hdec]
    have hcur := h.cur_eq
    refine ⟨fun hgo t ht => ⟨fun hsame => ?_, fun hissued v hv => ?_⟩, fun k hk => ?_, fun hhold => ?_, fun x hx => ?_⟩ <;>
      refine h.slotAnswers (hpair.trans ?_) <;> rw [State.issuePair]
    · rw [hgo, ht, hcur]; exact if_pos hsame
    · rw [hgo, ht, hcur]
      simp only [if_neg hissued, State.execV, hv]
    · rw [hk]
    · rw [hhold]
    · rw [hx, hcur]

end Sys2Proof.Machine

/-! ## O53: what else a step can be (02 R73, R78, 08 R251, 10 R331, 20 R497, 22 R541) -/

namespace Sys2Proof.Machine
open Sys2Proof

/-! ### Before the turns -/

theorem resetNext_of_turns {s : State} {tail : List Turn} (h : s.turns = .event .reset :: tail) : s.resetNext = true := by
  rw [State.resetNext, h]

theorem step_tripped {s : State} (htrip : s.hub.trip = true) (h : ∀ t, s.turns.head? = some t → t ≠ .event .reset) :
    step s = .fault .clocksStopped := by
  rw [step, State.stepOnce, htrip, resetNext_eq_false h]
  rfl

theorem step_reset {s : State} {tail : List Turn} (h : s.turns = .event .reset :: tail) :
    step s = closeStep s (exec .reset { s with turns := tail }) := by
  rw [step, State.stepOnce, resetNext_of_turns h, Bool.not_true, Bool.and_false, State.move, resetNext_of_turns h, h]
  rfl

theorem step_inbox {s : State} (htrip : s.hub.trip = false) {f : Flight} {rest : List Flight} (hin : s.inbox = f :: rest)
    (h : ∀ t, s.turns.head? = some t → t ≠ .event .reset) : step s = closeStep s (exec f.ev { s with inbox := rest }) := by
  rw [step_of_move htrip, State.move, resetNext_eq_false h, hin]
  rfl

theorem step_due {s : State} (htrip : s.hub.trip = false) (hin : s.inbox = []) {x : Timed} {rest : List Timed}
    (hdue : s.hub.due = x :: rest) (h : ∀ t, s.turns.head? = some t → t ≠ .event .reset) :
    step s = closeStep s ((s.modHub fun h => { h with due := rest }).happen x) := by
  rw [step_of_move htrip, State.move, resetNext_eq_false h, hin, hdue]
  rfl

/-- With nothing before it, what happens by itself. -/
theorem step_byItself {s : State} (htrip : s.hub.trip = false) (hin : s.inbox = []) (hdue : s.hub.due = []) (h : s.turns = []) :
    step s = closeStep s s.byItself := by
  rw [step_of_move htrip, State.move, hin, hdue, h, ite_self, ite_self]

/-! ### Messages -/

/-- The first element with a property is the one before which none has it. -/
theorem findIdx?_eq_of_first {α : Type} {l : List α} {p : α → Bool} {j : Nat} {g : α} (hg : l[j]? = some g) (hp : p g = true)
    (hfirst : ∀ m < j, ∀ h, l[m]? = some h → p h = false) : l.findIdx? p = some j := by
  obtain ⟨hlt, rfl⟩ := List.getElem?_eq_some_iff.1 hg
  refine List.findIdx?_eq_some_iff_getElem.2 ⟨hlt, hp, fun m hm => ?_⟩
  rw [hfirst m hm _ (List.getElem?_eq_getElem (Nat.lt_trans hm hlt))]
  decide

theorem firstOfPair_none {l : List Flight} {k : Nat} {f : Flight} (hf : l[k]? = some f) (hp : f.pair = none) :
    firstOfPair l k = k := by
  rw [firstOfPair, hf]
  exact if_pos (by rw [hp]; rfl)

theorem firstOfPair_some {l : List Flight} {k j : Nat} {f g : Flight} (hf : l[k]? = some f) (hp : f.pair ≠ none)
    (hg : l[j]? = some g) (hpair : g.pair = f.pair) (hfirst : ∀ m < j, ∀ h, l[m]? = some h → h.pair ≠ f.pair) :
    firstOfPair l k = j := by
  have hidx : (l.findIdx? fun g => g.pair = f.pair) = some j :=
    findIdx?_eq_of_first hg (by simpa using hpair) fun m hm h hh => by simpa using hfirst m hm h hh
  have hsome : ¬ f.pair.isNone = true := by simpa [Option.isNone_iff_eq_none] using hp
  rw [firstOfPair, hf]
  simp only [if_neg hsome, hidx, Option.getD_some]

/-- A message that is first of its pair is delivered when it may be. -/
theorem deliver_of_first {s : State} {k j : Nat} {g : Flight} (hj : firstOfPair s.net k = j) (hg : s.net[j]? = some g) :
    (s.mayDeliver g = false → s.deliver k = .next s) ∧
    (s.mayDeliver g = true → s.deliver k = exec g.ev ((s.portsFor g.ev).foldl State.letIn
      { s.crowded g with net := s.net.eraseIdx j })) := by
  subst hj
  constructor <;> intro hmay <;> rw [State.deliver] <;> simp only [hg, hmay] <;> rfl

/-- A home serves in turn the sources whose next message may be delivered (02 R78). -/
theorem serveOldest_of_first {v u : State} {k : Nat} {f : Flight} {p : Nat × Nat} (hk : v.deliverable k = true)
    (hfirst : ∀ m < k, v.deliverable m = false) (hf : v.net[k]? = some f) (hp : f.pair = some p) {src : Nat}
    (hsrc : src = nextSource (get 0 v.served p.2) (v.readySources p.2)) (hu : u = { v with served := put 0 v.served p.2 src })
    {j : Nat} {g : Flight} (hg : v.net[j]? = some g) (hpair : g.pair = some (src, p.2))
    (hold : ∀ m < j, ∀ h, v.net[m]? = some h → h.pair ≠ g.pair) (hmay : u.mayDeliver g = true) :
    v.serveOldest = exec g.ev ((u.portsFor g.ev).foldl State.letIn { u.crowded g with net := v.net.eraseIdx j }) := by
  have hrange : (List.range v.net.length).find? v.deliverable = some k := by
    obtain ⟨hlt, -⟩ := List.getElem?_eq_some_iff.1 hf
    refine List.find?_range_eq_some.2 ⟨hk, List.mem_range.2 hlt, fun m hm => ?_⟩
    rw [hfirst m hm]; rfl
  have hidx : (v.net.findIdx? fun f : Flight => f.pair = some (src, p.2)) = some j :=
    findIdx?_eq_of_first hg (by simpa using hpair) fun m hm h hh => by
      rw [hpair] at hold
      simpa using hold m hm h hh
  have hserve : v.serveOldest = u.deliver j := by
    rw [State.serveOldest, hrange]
    simp only [hf, Option.bind_some, hp, ← hsrc, hidx, Option.getD_some, ← hu]
  have hnet : u.net = v.net := by rw [hu]
  rw [hserve, ← hnet]
  rw [← hnet] at hg hold
  exact (deliver_of_first (firstOfPair_some hg (by rw [hpair]; nofun) hg rfl hold) hg).2 hmay

theorem byItself_zero {s : State} (h : s.beat = 0) : s.byItself = ({ s with beat := 1, taken := [] } : State).serveOldest := by
  unfold State.byItself
  simp only [h]

theorem mem_readySources (s : State) (home src : Nat) : src ∈ s.readySources home ↔
    ∃ f, s.net.find? (fun f => f.pair = some (src, home)) = some f ∧ s.mayDeliver f = true := by
  rw [State.readySources, List.mem_filter, Option.any_eq_true]
  refine ⟨fun h => h.2, fun ⟨f, hf, hmay⟩ => ⟨?_, f, hf, hmay⟩⟩
  have hmem := List.mem_of_find?_eq_some hf
  have hpair : f.pair = some (src, home) := by simpa using List.find?_some hf
  rw [sourcesFor, List.mem_eraseDups, List.mem_filterMap]
  exact ⟨f, hmem, by simp [hpair]⟩

theorem crowded_few (s : State) (f : Flight) : (f.pair = none → s.crowded f = s) ∧
    ∀ p, f.pair = some p → (sourcesFor s.net p.2).length ≤ 8 → s.crowded f = s := by
  refine ⟨fun h => by rw [State.crowded, h], fun p h hlen => ?_⟩
  rw [State.crowded, h]
  exact if_pos hlen

/-! ### Engines -/

/-- An instruction of an engine runs its command by the command's operation number. -/
theorem exec_runAny {i : Instr} {c : Cmd} (hi : isCommand i = true) (hop : commandOp i = c.op) (hc : commandOf i = some c)
    (s : State) : exec i s = .next (s.runAny c) := by
  unfold State.runAny
  rw [← hop]
  cases i <;> cases hi <;> cases hc <;> rfl

theorem engineTurn_none {s : State} {unit place : Nat} (h : s.nextCmd unit place = none) : s.engineTurn unit place = s := by
  rw [State.engineTurn, h]

theorem engineResume_idle {s : State} {unit place k : Nat}
    (h : ∀ x, (s.engine unit place).running[k]? = some x → x.paused = false ∨ s.mayRun x.cmd = false) :
    s.engineResume unit place k = s := by
  unfold State.engineResume
  split
  · next r hr =>
    refine if_neg ?_
    rcases h r hr with h | h <;> simp [h]
  · rfl

theorem engineResume_runs {s : State} {unit place k : Nat} {x : Running} (hx : (s.engine unit place).running[k]? = some x)
    (hpaused : x.paused = true) (hmay : s.mayRun x.cmd = true) : s.engineResume unit place k = s.runAny x.cmd := by
  unfold State.engineResume
  simp only [hx, hpaused, hmay, Bool.and_self, if_true]

/-- The turn of an engine: `w` is what is left of the grant. -/
theorem engineTurn_cases {v : State} (unit place : Nat) (w : State → State) :
    (v.nextCmd unit place = none → w (v.engineTurn unit place) = w v) ∧
    ∀ k c i, v.nextCmd unit place = some (k, c) → isCommand i = true → commandOp i = c.op → commandOf i = some c →
      ∃ t, exec i ((v.clockStart c).modEngine unit place fun e => { e with
          last := k
          queues := if k < 2 ^ 20 then put [] e.queues k ((get [] e.queues k).drop 1) else e.queues
          loose := if k < 2 ^ 20 then e.loose else e.loose.erase c }) = .next t ∧ w (v.engineTurn unit place) = w t := by
  refine ⟨fun h => by rw [engineTurn_none h], fun k c i hcmd hi hop hc => ⟨_, exec_runAny hi hop hc _, ?_⟩⟩
  rw [State.engineTurn, hcmd]

/-- A paused command goes on where it may run, which `r` and `v` tell alike. -/
theorem engineResume_cases {r v : State} (unit place k : Nat) (w : State → State) (hengine : v.engine unit place = r.engine unit place)
    (hmay : ∀ c, v.mayRun c = r.mayRun c) :
    (∀ x i, (r.engine unit place).running[k]? = some x → x.paused = true → r.mayRun x.cmd = true → isCommand i = true →
      commandOp i = x.cmd.op → commandOf i = some x.cmd → ∃ t, exec i v = .next t ∧ w (v.engineResume unit place k) = w t) ∧
    ((∀ x, (r.engine unit place).running[k]? = some x → x.paused = false ∨ r.mayRun x.cmd = false) →
      w (v.engineResume unit place k) = w v) := by
  simp only [← hengine, ← hmay]
  exact ⟨fun x i hx hpaused hgo hi hop hc => ⟨_, exec_runAny hi hop hc v, by rw [engineResume_runs hx hpaused hgo]⟩,
    fun h => by rw [engineResume_idle h]⟩

/-! ### A bundle that loses a bank -/

theorem forfeit_ctx (s : State) (k : Nat) : (s.forfeit k).ctx s.cur =
    { s.ctx s.cur with
      status := .blocked
      forfeits := (s.ctx s.cur).forfeits + 1
      waitKind := k
      winWait := if k = onWindow then some ((s.ctx s.cur).winWait.getD s.now) else (s.ctx s.cur).winWait } := by
  rw [State.forfeit]
  rw [State.evc, modCore_ctx, modCore_ctx]
  rw [modCtx_ctx_ne _ _ _ (ctx_ne_of_status (by nofun))]

theorem loseBanks_forfeits (s : State) : (s.loseBanks.ctx s.cur).forfeits = (s.ctx s.cur).forfeits + 1 := by
  rw [State.loseBanks, modCore_ctx, State.forfeitBank, modCtx_ctx_ne, forfeit_ctx]
  exact ctx_ne_of_status (by rw [forfeit_ctx]; nofun)

theorem fetchIssue_lost {u : State} (hfault : u.fetchFault u.cur = false) (hb : ∃ b, u.bundleAt u.cur = some b)
    (hlost : u.lostBanks ≠ []) : u.fetchIssue = .next u.loseBanks := by
  obtain ⟨b, hb⟩ := hb
  rw [State.fetchIssue]
  simp only [hfault, hb, Bool.false_eq_true, if_false]
  exact if_neg (by simpa [List.isEmpty_iff] using hlost)

theorem loseBanks_claims {u : State} {b : Nat} (hb : b ∈ u.lostBanks) :
    (u.cur, b) ∈ (u.loseBanks.core (coreOf u.cur)).claims := by
  have hclaims : ∀ l : List (Nat × Nat), (u.cur, b) ∈ l ++ (u.lostBanks.map fun b => (u.cur, b)).filter fun p => !l.contains p :=
    fun l => by
      by_cases hin : (u.cur, b) ∈ l
      · exact List.mem_append_left _ hin
      · exact List.mem_append_right _ (List.mem_filter.2 ⟨List.mem_map_of_mem hb, by simpa using hin⟩)
  have hmem := hclaims (u.forfeitBank.core (coreOf u.cur)).claims
  rw [State.loseBanks, modCore_core_ne]
  · exact hmem
  · intro h
    have hnil := congrArg Core.claims h
    exact List.not_mem_nil (hnil.subst (motive := ((u.cur, b) ∈ ·)) hmem)

/-- Settles O53: the turns, one after another. -/
theorem otherTurns : Obligations.OtherTurns := by
  unfold Obligations.OtherTurns
  refine ⟨fun s r tail hr => ⟨step_tripped, fun h => hr ▸ step_reset h, fun htrip f rest hin h => step_inbox htrip hin h,
      fun htrip hin x rest u hdue h hu => ?_, fun htrip hin hdue => ?_⟩,
    crowded_few, mem_readySources, fun u hfault hb hlost => ⟨fetchIssue_lost hfault hb hlost, loseBanks_forfeits u, fun b => loseBanks_claims⟩⟩
  · have hstep := step_due htrip hin hdue h
    rw [← hu] at hstep
    refine ⟨fun d hx => ?_, fun d k y hx => ?_, fun c hx => ?_, fun d k hx => ?_⟩ <;> rw [hstep, hx]
    · rfl
    · rw [hu]; rfl
    · rfl
    · rfl
  · have hturn : ∀ t, s.turns = t :: tail → step s = closeStep s (r.turn t) :=
      fun t h => (step_of_turn htrip hin hdue h).trans (by rw [hr])
    have hnet : r.net = s.net := by rw [hr]
    refine ⟨fun i h => ⟨fun he ht => ?_, fun he => ?_⟩, fun k f j g u h hf hg hcase hu => ?_,
      fun k f p src v u h hbeat hv hk hfirst hf hp hsrc hu j g hg hpair hold hmay => ?_, fun die i h hi => ?_,
      fun n h => hturn _ h, fun core banks h => hturn _ h, fun die k h => hturn _ h, fun lid n h => hturn _ h, fun h => hturn _ h,
      fun bulk h => hturn _ h, fun die h => hturn _ h, fun i n t h he => ?_, fun unit place v w h => ?_,
      fun unit place k n v w h => ?_⟩
    · rw [hturn _ h, State.turn, he, ht]; rfl
    · rw [hturn _ h, State.turn, if_neg]
      rcases he with he | he <;> simp [he]
    · have hj : firstOfPair r.net k = j := by
        rw [hnet]
        rcases hcase with ⟨hp, rfl⟩ | ⟨hp, hpair, hold⟩
        · exact firstOfPair_none hf hp
        · exact firstOfPair_some hf hp hg hpair hold
      rw [hturn _ h, State.turn, hu, ← hnet]
      exact (deliver_of_first hj (by rw [hnet]; exact hg)).imp (fun hd hmay => congrArg _ (hd hmay)) fun hd hmay => congrArg _ (hd hmay)
    · subst hv
      rw [step_byItself htrip hin hdue h, byItself_zero hbeat]
      exact congrArg (closeStep s) (serveOldest_of_first hk hfirst hf hp hsrc hu hg hpair hold hmay)
    · have htel : (r.tel die).nextInstr = some i := by rw [hr]; exact hi
      rw [hturn _ h, State.turn, State.filterStep, htel]
    · rcases h with ⟨quad, h, rfl⟩ | ⟨lid, h, rfl⟩ <;> rw [hturn _ h, State.turn, State.withGrant] <;>
        exact congrArg (closeStep s) (congrArg Host.Outcome.next (congrArg (fun t : State => { t with grant := none })
          (Host.Outcome.next.inj he)))
    · have hnext : step s = closeStep s (.next (w (v.engineTurn unit place))) := by
        rcases h with ⟨h, rfl, rfl⟩ | ⟨n, h, rfl, rfl⟩ <;> exact hturn _ h
      rw [hnext]
      obtain ⟨hnone, hsome⟩ := engineTurn_cases (v := v) unit place w
      refine ⟨fun hcmd => by rw [hnone hcmd], fun k c i hcmd hi hop hc => ?_⟩
      obtain ⟨t, ht, heq⟩ := hsome k c i hcmd hi hop hc
      exact ⟨t, ht, by rw [heq]⟩
    · have hnext : step s = closeStep s (.next (w (v.engineResume unit place k))) := by
        rcases h with ⟨h, rfl, rfl⟩ | ⟨d, rfl, h, rfl, rfl⟩ <;> exact hturn _ h
      have hmay : ∀ c, v.mayRun c = r.mayRun c := by
        rcases h with ⟨-, rfl, -⟩ | ⟨d, -, -, rfl, -⟩ <;> exact fun _ => rfl
      have hengine : v.engine unit place = r.engine unit place := by
        rcases h with ⟨-, rfl, -⟩ | ⟨d, -, -, rfl, -⟩ <;> rfl
      obtain ⟨hrun, hidle⟩ := engineResume_cases unit place k w hengine hmay
      have hold : s.engine unit place = r.engine unit place := by rw [hr]; rfl
      rw [hnext, hold]
      refine ⟨fun x i hx hpaused hgo hi hop hc => ?_, fun h => by rw [hidle h]⟩
      obtain ⟨t, ht, heq⟩ := hrun x i hx hpaused hgo hi hop hc
      exact ⟨t, ht, by rw [heq]⟩

end Sys2Proof.Machine

/-! ## O10: `spawn` and the system instructions (06 R199, R206-R218) -/

namespace Sys2Proof.Machine
open Sys2Proof

/-! ### spawn -/

theorem advance_level (s : State) (i : Instr) : ((s.advance i).ctx s.cur).level = (s.ctx s.cur).level := by rw [advance_ctx]

theorem advance_lid (s : State) (i : Instr) : ((s.advance i).ctx s.cur).lid = (s.ctx s.cur).lid := by rw [advance_ctx]

theorem coreInPart_congr {s t : State} (h : t.hub = s.hub) (part core : Nat) : t.coreInPart part core = s.coreInPart part core := by
  have hhub : t.coreInPart part core = ({ s with hub := t.hub } : State).coreInPart part core := rfl
  rw [hhub, h]

theorem advance_wakeTarget (s : State) (i : Instr) (lid : Option Nat) (level : Nat) (w : Word) :
    (s.advance i).wakeTarget lid level w = s.wakeTarget lid level w := by
  have hpart : ∀ part core, (s.advance i).coreInPart part core = s.coreInPart part core := coreInPart_congr (advance_hub s i)
  have hlaunch : (s.advance i).launch = s.launch := funext (advance_launch s i)
  simp only [State.wakeTarget, hpart, hlaunch]

theorem does_spawn {s : State} {b a : BitVec 5} {t h : BitVec 1} {l : BitVec 2} {o : BitVec 32} {core k : Nat}
    (hcore : s.wakeTarget (s.ctx s.cur).lid (s.ctx s.cur).level (s.S a) = some core)
    (hk : k = if quadOf core = quadOf (coreOf s.cur) then 0 else if core / 1024 = dieOfTh s.cur then 1 else 2) :
    Does s (.spawn b a t h l o) (fun r => (r.count s.cur k).send (some (coreOf s.cur, core)) (.wakeMessage {
      core := core, entry := (s.ctx s.cur).pc + BitVec.ofInt 64 (8 * o.toInt)
      args := [s.S b, s.S (b + 1), s.S (b + 2), s.S (b + 3)], level := l.toNat, h := decide (h = 1)
      lid := (s.ctx s.cur).lid, sender := .thread s.cur k, since := s.hub.cycle })) := by
  have hclass : classOfCore s.cur core = k := hk.symm
  have hargs : (List.range 4).map (fun j => s.S (BitVec.ofNat 5 (b.toNat + j))) =
      [s.S b, s.S (b + 1), s.S (b + 2), s.S (b + 3)] := by
    have hreg : ∀ j, BitVec.ofNat 5 (b.toNat + j) = b + BitVec.ofNat 5 j := fun j => by simp [BitVec.ofNat_add]
    have hlevels : List.range 4 = [0, 1, 2, 3] := rfl
    simp [hlevels, hreg]
  refine issue_spec (exec_spawn b a t h l o s) ?_
  simp only [advance_cur, advance_level, advance_lid, advance_S, advance_wakeTarget, hcore, hclass, advance_target, advance_hub, hargs]

theorem illegal_spawn (s : State) (b a : BitVec 5) (t h : BitVec 1) (l : BitVec 2) (o : BitVec 32) :
    s.illegal (.spawn b a t h l o) = if !(Instr.spawn b a t h l o).wf then some 0
      else if (s.ctx s.cur).level < levelOf (.spawn b a t h l o) then some 1
      else if windowMisuse (s.ctx s.cur) (.spawn b a t h l o) then some 0
      else if (s.ctx s.cur).level < l.toNat then some 1 else none := rfl

theorem issues_spawn {s : State} {b a : BitVec 5} {t h : BitVec 1} {l : BitVec 2} {o : BitVec 32}
    (hi : Issues s (.spawn b a t h l o)) : (b.toNat ≤ 24 ∧ l.toNat ≤ (s.ctx s.cur).level) ∧
      (s.wakeTarget (s.ctx s.cur).lid (s.ctx s.cur).level (s.S a)).isSome = true := by
  have hlegal := ((verdict_eq_go s _).1 hi.2).1
  have hown : s.ownChecks (.spawn b a t h l o) = .go := own_go rfl hi.2
  refine ⟨?_, ?_⟩
  · rw [illegal_spawn] at hlegal
    by_cases hwf : (Instr.spawn b a t h l o).wf = true
    · rw [hwf] at hlegal
      simp only [Bool.not_true, Bool.false_eq_true, if_false] at hlegal
      have hgiven : ¬ (s.ctx s.cur).level < l.toNat := fun hgiven => by
        rw [if_pos hgiven] at hlegal
        split at hlegal
        · cases hlegal
        · split at hlegal <;> cases hlegal
      exact ⟨by simpa [Instr.wf] using hwf, Nat.not_lt.1 hgiven⟩
    · simp [hwf] at hlegal
  · unfold State.ownChecks at hown
    cases hw : s.wakeTarget (s.ctx s.cur).lid (s.ctx s.cur).level (s.S a) with
    | none => simp [hw, trapS] at hown
    | some core => rfl

/-! ### The system instructions -/

theorem exec_slotw_issue (s : State) (a : BitVec 5) (t : BitVec 1) : exec (.slotw a t) s = issue (.slotw a t)
    (fun r => if (s.ctx s.cur).synced = some (s.ctx s.cur).pc then r else r.slotwArrive (r.S a)) s := by
  simp only [exec_slotw, execSlotw, decide_eq_true_eq]

theorem exec_iflush_issue (s : State) : exec .iflush s = issue .iflush
    (fun r => if (s.ctx s.cur).synced = some (s.ctx s.cur).pc then r else r.flushQuad (quadOf (coreOf r.cur))) s := by
  simp only [exec_iflush, execIflush, decide_eq_true_eq]

/-- The quads that an `xlinv` reaches (06 R215). -/
theorem xlReach_eq (s : State) (u : Nat) : s.xlReach u = fun q => if u / 2 ^ 18 % 4 = 0 then decide (q = quadOf (coreOf s.cur))
    else if u / 2 ^ 18 % 4 = 1 then decide (dieOf q = dieOfTh s.cur) else true := rfl

theorem issues_iflush {s : State} (hi : Issues s .iflush) : if (s.ctx s.cur).synced = some (s.ctx s.cur).pc
    then (s.quad (quadOf (coreOf s.cur))).refetching = false else (s.quad (quadOf (coreOf s.cur))).pinned = [] := by
  have hown : s.ownChecks .iflush = .go := own_go rfl hi.2
  obtain ⟨-, hcheck⟩ := and_eq_go.1 hown
  by_cases hsynced : (s.ctx s.cur).synced = some (s.ctx s.cur).pc
  · rw [if_pos hsynced] at hcheck ⊢
    exact blockIf_eq_go.1 hcheck
  · rw [if_neg hsynced] at hcheck ⊢
    split at hcheck
    next hpinned => exact List.isEmpty_iff.1 hpinned
    next => cases hcheck

theorem advance_ctxTarget (s : State) (i : Instr) (a : Word) : (s.advance i).ctxTarget a = s.ctxTarget a := by
  have hmode : ∀ core, ((s.advance i).core core).mode = (s.core core).mode := advance_core_of Core.mode (fun _ => rfl) s i
  simp only [State.ctxTarget, hmode]

theorem does_ctxsv {s : State} {a b : BitVec 5} {t u : BitVec 1} {th : Nat} (hth : s.ctxTarget (s.S a) = some th)
    (howned : (s.advance (.ctxsv a t b u)).recordOwned (s.S b).toNat = true) :
    Does s (.ctxsv a t b u) (fun r => (r.withdrawHeld th).writeRecord th (s.S b).toNat) :=
  issue_spec (exec_ctxsv a t b u s) (by simp only [advance_S, advance_ctxTarget, hth, howned, if_true])

theorem does_ctxld {s : State} {a b : BitVec 5} {t u : BitVec 1} {th : Nat} (hth : s.ctxTarget (s.S a) = some th)
    (howned : (s.advance (.ctxld a t b u)).recordOwned (s.S b).toNat = true) :
    Does s (.ctxld a t b u) (fun r => r.loadRecord th (s.S b).toNat) :=
  issue_spec (exec_ctxld a t b u s) (by simp only [advance_S, advance_ctxTarget, hth, howned, if_true])

/-- A privileged instruction is ILLEGAL below level 2 (06 R206). -/
theorem privileged_traps {s : State} {i : Instr} {eff : State → State} (he : exec i s = issue i eff s) (hl : s.latch = none)
    (hwf : i.wf = true) (hlevel : levelOf i = 2) (hv : vsylOf i = false) (h : (s.ctx s.cur).level < 2) :
    exec i s = .next (s.takeTrap s.cur { cause := 0x01, tval := 1 }) := by
  rw [he, issue_trap hl (verdict_illegal (illegal_level hwf (by rw [hlevel]; exact h))), ill, hv]
  rfl

/-- Settles O10: one instruction after another, by its effect and its own checks. -/
theorem systemInstructions : Obligations.SystemInstructions := by
  unfold Obligations.SystemInstructions
  refine ⟨fun s b a t h l o core k hcore hk => ⟨does_spawn hcore hk, fun hi => (issues_spawn hi).1, fun x hi => (issues_spawn hi).2⟩,
    fun s m a b t u th => ⟨issue_spec (exec_repart m s) (by rw [advance_cur]), issue_spec (exec_slotw_issue s a t) ?_,
      fun hzero => issue_spec (exec_sleep a t s) ?_, fun hne => issue_spec (exec_sleep a t s) ?_,
      fun hne => issue_spec (exec_iflush_issue s) ?_, fun heq => issue_spec (exec_iflush_issue s) ?_, fun hl hhold => ?_, issues_iflush,
      fun hi => blockIf_eq_go.1 (own_go (i := .xlinv a t b u) rfl hi.2), issue_spec (exec_xlinv a t b u s) ?_, does_ctxsv, does_ctxld,
      issue_spec (exec_telEv a t b u s) ?_, issue_spec (exec_vnop s) rfl, fun hl hlevel =>
        ⟨privileged_traps (exec_iflush_issue s) hl rfl rfl rfl hlevel,
          fun hm => privileged_traps (exec_repart m s) hl (by simpa [Instr.wf] using hm) rfl rfl hlevel,
          privileged_traps (exec_xlinv a t b u s) hl rfl rfl rfl hlevel, privileged_traps (exec_ctxsv a t b u s) hl rfl rfl rfl hlevel,
          privileged_traps (exec_ctxld a t b u s) hl rfl rfl rfl hlevel⟩⟩⟩
  · rw [advance_S]
  · simp only [advance_S, hzero, if_true, id]
  · simp only [advance_S, if_neg hne, advance_cur, advance_now]; rfl
  · rw [if_neg hne, advance_cur]
  · rw [if_pos heq, id]
  · rw [exec_iflush_issue, issue_hold hl hhold]; rfl
  · simp only [advance_cur, advance_S, xlReach_eq]
  · simp only [advance_cur, advance_S, advance_lidOf]

end Sys2Proof.Machine

/-! ## O38: channel entries, credits and bind answers (03 R103, R104, 08 R283) -/

namespace Sys2Proof.Machine
open Sys2Proof

theorem goes_channelEntry {s : State} {core buf : Nat} (x : VWord) (h : s.strays (s.writerLid core buf) (quadOf core) = false) :
    Goes s (.channelEntry core buf x) (s.modCore core fun k => { k with
      chans := put {} k.chans buf (if (get {} k.chans buf).conf.getLsbD 63 = true ∧ (get {} k.chans buf).entries.length < 16
        then { get {} k.chans buf with entries := (get {} k.chans buf).entries ++ [x] } else get {} k.chans buf) }) := by
  have hexec : exec (.channelEntry core buf x) s = .next (s.channelEntry core buf x) := by
    rw [exec_channelEntry, execChannelEntry, State.unlessStray, if_neg (by rw [h]; decide)]
  rw [Goes, hexec, State.channelEntry, State.modChan]
  simp only [Bool.and_eq_true, decide_eq_true_eq]

section BindAnswer

variable {s u : State} {th win seq target b : Nat} {word : Word} {c : Chan} {mine : Prop}
  (hseq : seq ∈ (s.ctx th).binds) (htarget : target = word.toNat / 2 ^ 23 % 8192) (hb : b = word.toNat % 16)
  (hc : c = get {} (s.core target).chans b) (hu : u = s.modCtx th (fun k => { k with binds := k.binds.filter (· ≠ seq) }))
  (hmine : mine ↔ ∃ w, (s.ctx th).window win = some w ∧ w.bind = seq ∧ w.answered = false)

include hmine in
theorem any_mine : (((s.ctx th).window win).any fun x => x.bind = seq && !x.answered) = true ↔ mine := by
  rw [hmine, Option.any_eq_true]
  simp

include hseq htarget hb hc hu in
/-- A bind that is outstanding is answered by what its target is. -/
theorem bindAnswer_eq : s.bindAnswer th win seq word =
    if c.conf.getLsbD 63 && c.conf.toNat / 2 ^ 23 % 8192 = coreOf th && c.conf.toNat % 16 = ctxOf th then
      if ((s.ctx th).window win).any fun x => x.bind = seq && !x.answered then
        ({ u with net := u.net.filter fun f => !isCredit th target b f.ev } : State).modCtx th fun k => { k with
          win := put none k.win win (some { word := word, credits := 16 - c.entries.length, bind := seq }) }
      else u
    else (if ((s.ctx th).window win).any fun x => x.bind = seq && !x.answered then
        u.modCtx th fun k => { k with win := put none k.win win none } else u).defer th { cause := 0x04, tval := word, seq := seq } := by
  subst htarget hb hc hu
  exact if_neg (by simpa using hseq)

include hseq htarget hb hc hu hmine

/-- The target's buffer is enabled for the binding thread. -/
theorem goes_bindAnswer_enabled
    (h : c.conf.getLsbD 63 = true ∧ c.conf.toNat / 2 ^ 23 % 8192 = coreOf th ∧ c.conf.toNat % 16 = ctxOf th) :
    (mine → Goes s (.bindAnswer th win seq word)
      (({ u with net := u.net.filter fun f => !isCredit th target b f.ev } : State).modCtx th fun k => { k with
        win := put none k.win win (some { word := word, credits := 16 - c.entries.length, bind := seq }) })) ∧
    (¬ mine → Goes s (.bindAnswer th win seq word) u) := by
  have hcond : (c.conf.getLsbD 63 && c.conf.toNat / 2 ^ 23 % 8192 = coreOf th && c.conf.toNat % 16 = ctxOf th) = true := by
    simpa [and_assoc] using h
  have heq := bindAnswer_eq (win := win) hseq htarget hb hc hu
  rw [if_pos hcond] at heq
  exact ⟨fun hm => congrArg Host.Outcome.next (heq.trans (if_pos ((any_mine hmine).2 hm))),
    fun hm => congrArg Host.Outcome.next (heq.trans (if_neg fun hany => hm ((any_mine hmine).1 hany)))⟩

theorem goes_bindAnswer_refused
    (h : ¬ (c.conf.getLsbD 63 = true ∧ c.conf.toNat / 2 ^ 23 % 8192 = coreOf th ∧ c.conf.toNat % 16 = ctxOf th)) :
    (mine → Goes s (.bindAnswer th win seq word) ((u.modCtx th fun k => { k with win := put none k.win win none }).defer th
      { cause := 0x04, tval := word, seq := seq })) ∧
    (¬ mine → Goes s (.bindAnswer th win seq word) (u.defer th { cause := 0x04, tval := word, seq := seq })) := by
  have hcond : ¬ (c.conf.getLsbD 63 && c.conf.toNat / 2 ^ 23 % 8192 = coreOf th && c.conf.toNat % 16 = ctxOf th) = true := by
    simpa [and_assoc] using h
  have heq := bindAnswer_eq (win := win) hseq htarget hb hc hu
  rw [if_neg hcond] at heq
  exact ⟨fun hm => congrArg Host.Outcome.next (heq.trans (by rw [if_pos ((any_mine hmine).2 hm)])),
    fun hm => congrArg Host.Outcome.next (heq.trans (by rw [if_neg fun hany => hm ((any_mine hmine).1 hany)]))⟩

end BindAnswer

theorem goes_qstall {s u : State} {th : Nat} (hu : u = { s with cur := th }) :
    ((s.ctx th).winWait = none → Goes s (.qstall th) u) ∧
    ∀ i l, u.instrsAt th = some (i :: l) → (s.ctx th).winWait ≠ none → (i :: l).any u.windowWait = true →
      (∀ k, u.verdict (i :: l) = .block k → Goes s (.qstall th) (u.stallOrForfeit (u.waitWindow i) k)) ∧
      ∀ x, u.verdict (i :: l) = .trap x → Goes s (.qstall th) (u.takeTrap th x) := by
  have hctx : u.ctx th = s.ctx th := by rw [hu]; rfl
  have hexec : exec (.qstall th) s = .next (match u.instrsAt th with
      | some (i :: l) => if (u.ctx th).winWait.isSome && (i :: l).any u.windowWait then
          match u.verdict (i :: l) with
          | .block k => u.stallOrForfeit (u.waitWindow i) k
          | .trap t => u.takeTrap th t
          | _ => u
        else u
      | _ => u) := by
    rw [hu]; rfl
  simp only [Goes, hexec, hctx, Host.Outcome.next.injEq]
  refine ⟨fun hnone => ?_, fun i l hinstr hwait hwin => ⟨fun k hk => ?_, fun x hx => ?_⟩⟩
  · rw [hnone]; split <;> rfl
  all_goals
    have hsome : (s.ctx th).winWait.isSome = true := Option.isSome_iff_ne_none.2 hwait
    simp only [hinstr, hsome, hwin, Bool.and_self, if_true]
  · rw [hk]
  · rw [hx]

/-- Settles O38: message by message. -/
theorem channelMessages : Obligations.ChannelMessages := by
  unfold Obligations.ChannelMessages
  intro s core buf x th
  refine ⟨goes_channelEntry x, fun hnone => ?_, fun k w hsome => ?_, fun win seq word hseq => ?_,
    fun win seq word c target b u mine hseq htarget hb hc hu hmine =>
      ⟨goes_bindAnswer_enabled hseq htarget hb hc hu hmine, goes_bindAnswer_refused hseq htarget hb hc hu hmine⟩,
    fun u => goes_qstall⟩
  · exact congrArg Host.Outcome.next (by rw [State.creditReturn, hnone])
  · exact congrArg Host.Outcome.next (by rw [State.creditReturn, hsome])
  · exact congrArg Host.Outcome.next (if_pos (by simpa using hseq))

end Sys2Proof.Machine

/-! ## O39: the end of a command (10 R334-R339) -/

namespace Sys2Proof.Machine
open Sys2Proof

/-! ### What the end of a command leaves as it was -/

/-- The hub and the launches are as they were. -/
structure SameLaunches (s t : State) : Prop where
  hub : t.hub = s.hub
  launches : t.launches = s.launches

theorem SameLaunches.refl (s : State) : SameLaunches s s := ⟨rfl, rfl⟩

theorem SameLaunches.trans {s t u : State} (h : SameLaunches s t) (h' : SameLaunches t u) : SameLaunches s u :=
  ⟨h'.hub.trans h.hub, h'.launches.trans h.launches⟩

theorem sameLaunches_modEngine (s : State) (unit place : Nat) (f : Engine → Engine) : SameLaunches s (s.modEngine unit place f) := by
  unfold State.modEngine
  split <;> exact ⟨rfl, rfl⟩

theorem sameLaunches_overrun (s : State) (lid : Option Nat) (th row n bound : Nat) :
    SameLaunches s (s.overrun lid th row n bound) := by
  unfold State.overrun
  split <;> exact ⟨rfl, rfl⟩

theorem sameLaunches_clockEnds (s : State) (x : CmdClock) (row : Nat) : SameLaunches s (s.clockEnds x row) := by
  unfold State.clockEnds
  cases x.limit with
  | none => exact .refl s
  | some n => exact sameLaunches_overrun ..

theorem sameLaunches_foldl {α : Type} {f : State → α → State} (hf : ∀ s x, SameLaunches s (f s x)) (l : List α) (s : State) :
    SameLaunches s (l.foldl f s) := by
  induction l generalizing s with
  | nil => exact .refl s
  | cons x l ih => exact (hf s x).trans (ih _)

theorem sameLaunches_clockDone (s : State) (c : Cmd) (ok : Bool) : SameLaunches s (s.clockDone c ok) := by
  unfold State.clockDone
  dsimp only
  split
  · exact .refl s
  · exact (sameLaunches_foldl (fun t x => sameLaunches_clockEnds t x 10) _ s).trans (sameLaunches_modEngine ..)

/-- A chain that does not succeed releases nothing. -/
theorem sameLaunches_chainRelease (s : State) (c : Cmd) {r : CmdResult} (h : r.outcome ≠ 0) : SameLaunches s (s.chainRelease c r) := by
  unfold State.chainRelease
  split
  · exact .refl s
  · dsimp only
    split
    · exact absurd ‹r.outcome = 0› h
    · exact absurd ‹r.outcome = 0› h
    · exact (sameLaunches_modEngine ..).trans ⟨rfl, rfl⟩
    · exact sameLaunches_modEngine ..

theorem quadIdentity_congr {s t : State} (h : SameLaunches s t) (lid : Option Nat) (quad : Nat) (lq : Option (BitVec 15)) :
    t.quadIdentity lid quad lq = s.quadIdentity lid quad lq := by
  have hsub : t.quadIdentity lid quad lq = ({ s with hub := t.hub, launches := t.launches } : State).quadIdentity lid quad lq := rfl
  rw [hsub, h.hub, h.launches]

/-! ### The parked slot that a success names -/

theorem chainRelease_kept {s : State} {c : Cmd} {r : CmdResult} (h : c.chain = false ∨ r.outcome = 4) : s.chainRelease c r = s :=
  if_pos (by rcases h with h | h <;> simp [h])

section Chain

variable {s : State} {c : Cmd} {r : CmdResult} {place : Nat} {set : Option Parked → State} (hplace : place = placeOfUnit c.th c.nsel)
  (hset : ∀ p, set p = s.modEngine c.nsel place fun e => e.setSlot c.lid c.nslot p) (hchain : c.chain = true)
include hplace hset hchain

theorem chainRelease_success (h : r.outcome = 0) :
    (∀ d, (s.engine c.nsel place).slot c.lid c.nslot = some (.parked d) → s.chainRelease c r =
      if d.combines then ((set none).noteSuccessor c.th c.seq d).combine d
      else ((set none).noteSuccessor c.th c.seq d).modEngine d.unit d.place fun e => { e with loose := e.loose ++ [d] }) ∧
    ((s.engine c.nsel place).slot c.lid c.nslot = none → s.chainRelease c r = set (some (.released c.th c.seq))) := by
  subst hplace
  refine ⟨fun d hd => ?_, fun hd => ?_⟩ <;> rw [State.chainRelease, if_neg (by simp [hchain, h])]
  · simp only [hd, h, ← hset]; rfl
  · simp only [hd, h, ← hset]

theorem chainRelease_failure (h : r.outcome ≠ 0) (h4 : r.outcome ≠ 4) :
    (∀ d, (s.engine c.nsel place).slot c.lid c.nslot = some (.parked d) →
      s.chainRelease c r = (set none).complete d ⟨3, eCANCELLED, 0⟩) ∧
    ((s.engine c.nsel place).slot c.lid c.nslot = none → s.chainRelease c r = set (some .cancelled)) := by
  subst hplace
  refine ⟨fun d hd => ?_, fun hd => ?_⟩ <;> rw [State.chainRelease, if_neg (by simp [hchain, h4])]
  · simp only [hd, ← hset]
  · simp only [hd, ← hset]

end Chain

/-! ### Its report -/

section Report

variable {s u : State} {c : Cmd} {r : CmdResult} {w : Word} (hw : w = statusWord c r)
  (hu : u = (((s.clockDone c (decide (r.outcome ≤ 1))).settleNotes c w (decide (r.outcome ≤ 1))).unlockCmd c.th c.seq).chainRelease c r)
include hw hu

theorem goes_commandCompletion_pushed (h : ∃ n ∈ (s.ctx c.th).notes, n.th = c.th ∧ n.seq = c.seq ∧ n.own = true) :
    (c.trap = false ∨ r.outcome = 0 → Goes s (.commandCompletion c r) (u.reportResult c r w)) ∧
    (c.trap = true → r.outcome ≠ 0 → Goes s (.commandCompletion c r)
      ((u.reportResult c r w).defer c.th { cause := 0x0A, tval := w, seq := c.seq })) := by
  have hlives : s.pusherLives c = true := by
    obtain ⟨n, hn, hth, hseq, hown⟩ := h
    exact List.any_eq_true.2 ⟨n, hn, by simp [hth, hseq, hown]⟩
  have heq : s.commandDone c r = if c.trap && r.outcome ≠ 0 then
      (u.reportResult c r w).defer c.th { cause := 0x0A, tval := w, seq := c.seq } else u.reportResult c r w := by
    rw [State.commandDone, if_pos hlives, ← hw, ← hu]
    rfl
  refine ⟨fun hno => congrArg Host.Outcome.next (heq.trans (if_neg ?_)), fun htrap hout =>
    congrArg Host.Outcome.next (heq.trans (if_pos ?_))⟩
  · rcases hno with hno | hno <;> simp [hno]
  · simp [htrap, hout]

theorem goes_commandCompletion_orphan (h : ∀ n ∈ (s.ctx c.th).notes, ¬ (n.th = c.th ∧ n.seq = c.seq ∧ n.own = true)) :
    (r.outcome = 0 → Goes s (.commandCompletion c r) u) ∧
    (r.outcome ≠ 0 → Goes s (.commandCompletion c r)
      (u.failOf c.lid 0x34 (u.quadIdentity c.lid (quadOf (coreOf c.th)) none).toNat r.error)) := by
  have hlives : ¬ s.pusherLives c = true := fun hany => by
    obtain ⟨n, hn, hmatch⟩ := List.any_eq_true.1 hany
    exact h n hn (by simpa [and_assoc] using hmatch)
  have heq : s.commandDone c r = if r.outcome ≠ 0 then
      u.failOf c.lid 0x34 (s.quadIdentity c.lid (quadOf (coreOf c.th)) none).toNat r.error else u := by
    rw [State.commandDone, if_neg hlives, ← hw, ← hu]
    rfl
  refine ⟨fun hzero => congrArg Host.Outcome.next (heq.trans (if_neg (by simpa using hzero))), fun hout =>
    congrArg Host.Outcome.next (heq.trans ?_)⟩
  have hsame : SameLaunches s u := by
    rw [hu]
    have hnotes : SameLaunches (s.clockDone c (decide (r.outcome ≤ 1)))
        (((s.clockDone c (decide (r.outcome ≤ 1))).settleNotes c w (decide (r.outcome ≤ 1))).unlockCmd c.th c.seq) := ⟨rfl, rfl⟩
    exact (sameLaunches_clockDone ..).trans (hnotes.trans (sameLaunches_chainRelease _ c hout))
  rw [if_pos hout, quadIdentity_congr hsame]

end Report

/-! ### A combining key -/

theorem goes_combineTimeout (s : State) (quad key : Nat) :
    ((∀ k ∈ (s.quad quad).comb, k.key = key → k.expected = 0 ∨ s.hub.cycle < k.since + (s.quad quad).cmbwait) →
      Goes s (.combineTimeout quad key) s) ∧
    ∀ k, (s.quad quad).comb.find? (fun k =>
        k.key = key && k.expected ≠ 0 && k.since + (s.quad quad).cmbwait ≤ s.hub.cycle) = some k →
      Goes s (.combineTimeout quad key) (s.issueCombined quad k) := by
  refine ⟨fun h => congrArg Host.Outcome.next ?_, fun k hk => congrArg Host.Outcome.next ?_⟩
  · have hnone : (s.quad quad).comb.find? (fun k =>
        k.key = key && k.expected ≠ 0 && k.since + (s.quad quad).cmbwait ≤ s.hub.cycle) = none := by
      refine List.find?_eq_none.2 fun k hk hmatch => ?_
      simp only [ne_eq, decide_not, Bool.and_eq_true, decide_eq_true_eq, Bool.not_eq_true', decide_eq_false_iff_not] at hmatch
      obtain ⟨⟨hkey, hexpected⟩, hsince⟩ := hmatch
      exact (h k hk hkey).elim hexpected fun hlt => Nat.not_lt.2 hsince hlt
    rw [State.combineTimeout]
    simp only [hnone]
  · rw [State.combineTimeout]
    simp only [hk]

/-- Settles O39: by whether the pusher's note is there, by the parked slot, and by the keys of the combining node. -/
theorem commandEvents : Obligations.CommandEvents := by
  unfold Obligations.CommandEvents
  exact ⟨fun s c r w u hw hu => ⟨goes_commandCompletion_pushed hw hu, goes_commandCompletion_orphan hw hu⟩,
    fun s c r place set hplace hset => ⟨chainRelease_kept, fun hchain => chainRelease_success hplace hset hchain,
      fun hchain => chainRelease_failure hplace hset hchain⟩, goes_combineTimeout⟩

end Sys2Proof.Machine

/-! ## O40: tasks at cores (02 R55-R63, R82, 03 R81, R87, R111) -/

namespace Sys2Proof.Machine
open Sys2Proof

/-! ### Starts -/

theorem coreTakes_iff (s : State) (core : Nat) : s.coreTakes core = true ↔
    (s.core core).refusal = [] ∧ (s.core core).round = none ∧ (s.core core).repart = none ∧ s.freeCtx core ≠ none := by
  simp [State.coreTakes, and_assoc, Option.isSome_iff_ne_none]

theorem deliverStart_taken {s : State} {core th : Nat} {m : Start} (hgone : s.startGone m = false) (hstart : s.startable m = true)
    (htakes : s.coreTakes core = true) (hfree : s.freeCtx core = some th) :
    s.deliverStart core m = ((s.startTask th m).stampStart th m).startAccepted m := by
  simp [State.deliverStart, hgone, hstart, htakes, hfree]

theorem deliverStart_refused {s : State} {core : Nat} {m : Start} (hgone : s.startGone m = false)
    (h : s.startable m = false ∨ s.coreTakes core = false) : s.deliverStart core m = s.refuse core m := by
  simp only [State.deliverStart, hgone, Bool.false_eq_true, if_false]
  exact if_neg (by rcases h with h | h <;> simp [h])

/-- A start reaches its core, unless its partition does not hold it. -/
theorem exec_start {s : State} {core : Nat} {m : Start} {i : Instr} (h : (∃ f, m = .firing f ∧ i = .firingDelivery core f) ∨
    (∃ w, m = .wake w ∧ core = w.core ∧ i = .wakeMessage w)) :
    exec i s = .next (s.unlessStray (startLid m) (quadOf core) fun s => s.deliverStart core m) := by
  rcases h with ⟨f, rfl, rfl⟩ | ⟨w, rfl, rfl, rfl⟩ <;> rfl

theorem goes_start {s : State} {core : Nat} {m : Start} {i : Instr} (h : (∃ f, m = .firing f ∧ i = .firingDelivery core f) ∨
    (∃ w, m = .wake w ∧ core = w.core ∧ i = .wakeMessage w)) :
    (s.strays (startLid m) (quadOf core) = true → Goes s i
      (s.dropAt (dieOf (quadOf core)) (windowAddr (4 * quadOf core) 0 0) (startLid m))) ∧
    (s.strays (startLid m) (quadOf core) = false →
    (s.startGone m = true → Goes s i (s.dropStart m)) ∧
    (∀ th, s.startGone m = false → s.startable m = true → (s.core core).refusal = [] → (s.core core).round = none →
      (s.core core).repart = none → s.freeCtx core = some th → Goes s i (((s.startTask th m).stampStart th m).startAccepted m)) ∧
    (s.startGone m = false → (s.startable m = false ∨ (s.core core).refusal ≠ [] ∨ (s.core core).round ≠ none ∨
      (s.core core).repart ≠ none ∨ s.freeCtx core = none) → Goes s i (s.refuse core m))) := by
  have hexec := exec_start (s := s) h
  refine ⟨fun hstray => ?_, fun hstray => ⟨fun hgone => ?_, fun th hgone hstart hrefusal hround hrepart hfree => ?_, fun hgone hno => ?_⟩⟩
  · exact hexec.trans (congrArg _ (if_pos hstray))
  all_goals
    refine hexec.trans (congrArg _ ((if_neg (by rw [hstray]; decide)).trans ?_))
  · exact if_pos hgone
  · exact deliverStart_taken hgone hstart ((coreTakes_iff s core).2 ⟨hrefusal, hround, hrepart, by rw [hfree]; nofun⟩) hfree
  · refine deliverStart_refused hgone ?_
    rw [← Bool.not_eq_true (s.coreTakes core), coreTakes_iff]
    refine hno.imp_right fun hno ⟨hrefusal, hround, hrepart, hfree⟩ => ?_
    rcases hno with h | h | h | h
    · exact h hrefusal
    · exact h hround
    · exact h hrepart
    · exact hfree h

/-! ### Notices and retries -/

theorem goes_refusalRetry (s : State) (core : Nat) (m : Start) :
    (∀ l f, s.reconOf m = some (l, f) → Goes s (.refusalRetry core m) (s.offerRecon l f)) ∧
    (s.reconOf m = none → (∃ p ∈ (s.core core).heldFor, p.2 = (m, false)) → Goes s (.refusalRetry core m)
      ((s.modCore core fun k => { k with heldFor := markArrived m k.heldFor }).serveCore core)) ∧
    (s.reconOf m = none → (∀ p ∈ (s.core core).heldFor, p.2 ≠ (m, false)) →
      Goes s (.refusalRetry core m) (s.deliverStart core m)) := by
  have hany : ((s.core core).heldFor.any fun p => p.2.1 = m && !p.2.2) = true ↔
      ∃ p ∈ (s.core core).heldFor, p.2 = (m, false) := by
    simp [List.any_eq_true, Prod.ext_iff]
  refine ⟨fun l f h => congrArg Host.Outcome.next (by rw [h]), fun h hheld => congrArg Host.Outcome.next ?_,
    fun h hnone => congrArg Host.Outcome.next ?_⟩ <;> rw [h]
  · exact if_pos (hany.2 hheld)
  · exact if_neg fun hmem => by
      obtain ⟨p, hp, heq⟩ := hany.1 hmem
      exact hnone p hp heq

theorem markArrived_cons (m x : Start) (b : Bool) (th : Nat) (l : List (Nat × Start × Bool)) :
    markArrived m ((th, x, b) :: l) = if x = m ∧ b = false then (th, m, true) :: l else (th, x, b) :: markArrived m l := by
  rw [markArrived]
  simp only [Bool.and_eq_true, decide_eq_true_eq, Bool.not_eq_true']

/-! ### Held starts -/

theorem startHeld_busy {s : State} {core : Nat} (n : Nat) (h : (s.core core).round ≠ none ∨ (s.core core).repart ≠ none) :
    s.startHeld core (n + 1) = s := by
  rw [State.startHeld, if_pos]
  simpa [Option.isSome_iff_ne_none] using h

theorem startHeld_idle {s : State} {core : Nat} (n : Nat) (hround : (s.core core).round = none) (hrepart : (s.core core).repart = none) :
    (s.nextHeld core = none → s.startHeld core (n + 1) = s) ∧
    (∀ th m, s.nextHeld core = some (th, m, false) → s.startHeld core (n + 1) = s) ∧
    ∀ th m, s.nextHeld core = some (th, m, true) →
      (s.heldPlace core th = none → s.startHeld core (n + 1) = s) ∧
      ∀ place u, s.heldPlace core th = some place → u = s.modCore core (fun k => { k with
          heldFor := k.heldFor.erase (th, m, true) }) →
        (u.startGone m = true → s.startHeld core (n + 1) = (u.dropStart m).startHeld core n) ∧
        (u.startGone m = false → s.startHeld core (n + 1) = ((u.startTask place m).startAccepted m).startHeld core n) := by
  have hidle : ¬ ((s.core core).round.isSome || (s.core core).repart.isSome) = true := by simp [hround, hrepart]
  refine ⟨fun h => ?_, fun th m h => ?_, fun th m h => ⟨fun hp => ?_, fun place u hp hu => ⟨fun hg => ?_, fun hg => ?_⟩⟩⟩ <;>
    rw [State.startHeld, if_neg hidle, h]
  · simp only [hp]
  · simp only [hp, ← hu, State.startRetried, hg, if_true]
  · simp only [hp, ← hu, State.startRetried, hg, Bool.false_eq_true, if_false]

theorem serveCore_cases {s t : State} {core : Nat} (ht : t = s.startHeld core (s.core core).heldFor.length) :
    ((t.core core).round ≠ none ∨ (t.core core).repart ≠ none → s.serveCore core = t) ∧
    ((t.core core).round = none → (t.core core).repart = none →
      s.serveCore core = t.serveRefused core (t.core core).refusal.length) := by
  refine ⟨fun h => ?_, fun hround hrepart => ?_⟩ <;> rw [State.serveCore, ← ht]
  · exact if_pos (by simpa [Option.isSome_iff_ne_none] using h)
  · exact if_neg (by simp [hround, hrepart])

theorem serveRefusals_cases (s : State) (core : Nat) :
    ((s.core core).refusal = [] ∨ s.freeCtx core = none → s.serveRefusals core = s) ∧
    ∀ m rest th, (s.core core).refusal = m :: rest → s.heldPlaced core = true → s.freeCtx core = some th →
      s.serveRefusals core = (s.modCore core fun k => { k with
        refusal := rest, heldFor := k.heldFor ++ [(th, m, false)] }).send none (.contextFreeNotice core m) := by
  refine ⟨fun h => ?_, fun m rest th hrefusal hplaced hfree => ?_⟩
  · unfold State.serveRefusals
    rcases h with h | h
    · simp [h]
    · simp [h]
  · rw [State.serveRefusals, hrefusal, hplaced, if_pos rfl, hfree]

/-! ### Contexts -/

theorem goes_contextFree (s : State) (th : Nat) :
    (((s.ctx th).status ≠ .retiring ∨ (s.ctx th).counterZero = false ∨ (s.ctx th).prods ≠ []) → Goes s (.contextFree th) s) ∧
    ((s.ctx th).status = .retiring → (s.ctx th).counterZero = true → (s.ctx th).prods = [] →
      ((s.core (coreOf th)).repart = none → Goes s (.contextFree th) ((s.freeNow th).serveCore (coreOf th))) ∧
      ∀ t m, (s.core (coreOf th)).repart = some (t, m) → Goes s (.contextFree th)
        ((if t = th then (s.freeNow th).installMode (coreOf th) m else s.freeNow th).serveCore (coreOf th))) := by
  have hmay : s.mayFree th = true ↔ (s.ctx th).status = .retiring ∧ (s.ctx th).counterZero = true ∧ (s.ctx th).prods = [] := by
    simp [State.mayFree, and_assoc]
  refine ⟨fun h => congrArg Host.Outcome.next ?_, fun hstatus hzero hprods => ⟨fun hr => congrArg Host.Outcome.next ?_,
    fun t m hr => congrArg Host.Outcome.next ?_⟩⟩ <;> rw [State.contextFree]
  · refine if_pos ?_
    rw [Bool.not_eq_true', ← Bool.not_eq_true, hmay]
    rcases h with h | h | h <;> simp [h]
  all_goals rw [if_neg (by rw [hmay.2 ⟨hstatus, hzero, hprods⟩]; decide)]
  · simp only [hr]
  · simp only [hr]

theorem goes_deferredTrap (s : State) (th : Nat) : (firstTrap (s.ctx th).due = none → Goes s (.deferredTrap th) s) ∧
    (∀ t, firstTrap (s.ctx th).due = some t → Goes s (.deferredTrap th)
      ((s.modCtx th fun c => { c with deferred := c.deferred.erase t }).takeTrap th t)) := by
  refine ⟨fun h => congrArg Host.Outcome.next ?_, fun t h => congrArg Host.Outcome.next ?_⟩ <;> rw [State.deferredTrap, h]

theorem goes_sleepEnd (s : State) (th : Nat) :
    ((s.ctx th).status = .sleeping → (s.ctx th).sleepUntil ≤ (s.core (coreOf th)).cycle →
      Goes s (.sleepEnd th) (s.modCtx th fun c => { c with status := .ready })) ∧
    (((s.ctx th).status ≠ .sleeping ∨ (s.core (coreOf th)).cycle < (s.ctx th).sleepUntil) → Goes s (.sleepEnd th) s) := by
  refine ⟨fun hsleep htime => congrArg Host.Outcome.next (if_pos (by simp [hsleep, htime])),
    fun h => congrArg Host.Outcome.next (if_neg ?_)⟩
  rcases h with h | h
  · simp [h]
  · simp [Nat.not_le.2 h]

theorem goes_slotTableSwitch (s : State) (core : Nat) (t : List (BitVec 8)) :
    ((s.core core).nextSlots = none → Goes s (.slotTableSwitch core) s) ∧
    ((s.core core).nextSlots = some t → (s.core core).cycle % 32 ≠ 0 → Goes s (.slotTableSwitch core) s) ∧
    ((s.core core).nextSlots = some t → (s.core core).cycle % 32 = 0 → Goes s (.slotTableSwitch core)
      (s.modCore core fun k => { k with slots := t, nextSlots := none, quiet := 3 })) := by
  refine ⟨fun h => congrArg Host.Outcome.next ?_, fun h hc => congrArg Host.Outcome.next ?_, fun h hc => congrArg Host.Outcome.next ?_⟩ <;>
    simp only [State.slotTableSwitch, h]
  · exact if_neg hc
  · exact if_pos hc

/-- Settles O40: starts, retries, held starts, and contexts. -/
theorem tasksAtCores : Obligations.TasksAtCores := by
  unfold Obligations.TasksAtCores
  refine ⟨fun s core m i h => goes_start h, fun s core m => ⟨rfl, goes_refusalRetry s core m⟩, markArrived_cons,
    fun s core n => ⟨startHeld_busy n, startHeld_idle n⟩, fun s core t ht => ?_, fun s th => ?_, goes_slotTableSwitch⟩
  · obtain ⟨hbusy, hidle⟩ := serveCore_cases ht
    exact ⟨hbusy, hidle, serveRefusals_cases s core⟩
  · obtain ⟨hstays, hfree⟩ := goes_contextFree s th
    obtain ⟨hnone, hsome⟩ := goes_deferredTrap s th
    exact ⟨hstays, hfree, hnone, hsome, goes_sleepEnd s th⟩

end Sys2Proof.Machine

/-! ## O41: records at fretboards (02 R45-R49, R64-R66, 18 R436) -/

namespace Sys2Proof.Machine
open Sys2Proof

/-! ### Arrival -/

section Arrival

variable {s : State} {a : Arrival}

theorem exec_recordArrival_in (h : s.strays (some a.lid) a.quad = false) : exec (.recordArrival a) s = .next (s.arriveRecord a) :=
  congrArg Host.Outcome.next (if_neg (by rw [h]; decide))

theorem goes_recordArrival_stray (h : s.strays (some a.lid) a.quad = true) : Goes s (.recordArrival a)
    (s.dropAt (dieOf a.quad) (windowAddr (4 * a.quad) 0 0) (some a.lid)) :=
  congrArg Host.Outcome.next (if_pos h)

theorem goes_recordArrival_gone (h : s.launch a.lid = none) : Goes s (.recordArrival a) s := by
  have hstray : s.strays (some a.lid) a.quad = false := by simp [State.strays, h]
  refine (exec_recordArrival_in hstray).trans (congrArg _ ?_)
  rw [State.arriveRecord, h]

variable {l : Launch} {r : FRec} {u : State} (hl : s.launch a.lid = some l)
  (hr : r = { record := a.record, lid := a.lid, lq := a.lq, arr := get 0 (s.fret a.quad).arrCount a.lid, entry := none
              processed := false, since := none, pending := true, reserved := false, marks := a.marks, came := s.hub.cycle })
  (hin : s.strays (some a.lid) a.quad = false) (hu : u = s.modLaunch a.lid (fun l => { l with received := l.received + 1 }))
include hl hr hin hu

theorem goes_recordArrival :
    (l.ladder = .saved → Goes s (.recordArrival a) (s.modHub fun h => { h with
      saved := h.saved.map fun x => if x.lid = a.lid && s.partQuadNo l.part a.quad = some x.no then
        { x with inbox := x.inbox ++ [{ pair := none, ev := .recordArrival { a with quad := x.quad } }] } else x })) ∧
    (l.ladder ≠ .saved → l.state = .failed → Goes s (.recordArrival a) u) ∧
    (l.ladder ≠ .saved → l.state ≠ .failed → l.ordered = true →
      (∃ x ∈ (s.fret a.quad).of a.lid a.lq, (x.processed = true ∨ x.reserved = true) ∧ x.record.tag = a.record.tag) →
        Goes s (.recordArrival a) (u.failLaunch a.lid 0x33 a.lq 0)) ∧
    (l.ladder ≠ .saved → l.state ≠ .failed → (l.ordered = false ∨
      ∀ x ∈ (s.fret a.quad).of a.lid a.lq, ¬ ((x.processed = true ∨ x.reserved = true) ∧ x.record.tag = a.record.tag)) →
        Goes s (.recordArrival a) ((((u.modLaunch a.lid fun l => { l with inserts := l.inserts + 1 }).modFret a.quad fun f =>
          { f with arrCount := put 0 f.arrCount a.lid (r.arr + 1) }).takeIn a.quad l r).outputArrived a.quad a.lid l a.record)) := by
  have hexec : exec (.recordArrival a) s = .next (if l.ladder = .saved then s.keepArrival l a
      else if l.state = .failed then u
      else if l.ordered && ((s.fret a.quad).of a.lid a.lq).any (fun r =>
          (r.processed || r.reserved) && r.record.tag = a.record.tag) then u.failLaunch a.lid 0x33 a.lq 0
      else (((u.modLaunch a.lid fun l => { l with inserts := l.inserts + 1 }).modFret a.quad fun f =>
          { f with arrCount := put 0 f.arrCount a.lid (r.arr + 1) }).takeIn a.quad l r).outputArrived a.quad a.lid l a.record) := by
    rw [exec_recordArrival_in hin, State.arriveRecord, hl, hu, hr]
    rfl
  have hdup : (l.ordered && ((s.fret a.quad).of a.lid a.lq).any (fun r =>
      (r.processed || r.reserved) && r.record.tag = a.record.tag)) = true ↔ l.ordered = true ∧
      ∃ x ∈ (s.fret a.quad).of a.lid a.lq, (x.processed = true ∨ x.reserved = true) ∧ x.record.tag = a.record.tag := by
    simp only [Bool.and_eq_true, List.any_eq_true, Bool.or_eq_true, decide_eq_true_eq]
  refine ⟨fun h => ?_, fun h hf => ?_, fun h hf ho hx => ?_, fun h hf hx => ?_⟩ <;> refine hexec.trans (congrArg _ ?_)
  · exact if_pos h
  · rw [if_neg h, if_pos hf]
  · rw [if_neg h, if_neg hf, if_pos (hdup.2 ⟨ho, hx⟩)]
  · rw [if_neg h, if_neg hf, if_neg]
    rw [hdup]
    rintro ⟨ho, x, hmem, hmatch⟩
    rcases hx with hx | hx
    · exact absurd ho (by rw [hx]; decide)
    · exact hx x hmem hmatch

end Arrival

/-! ### Entries -/

theorem takeIn_cases (s : State) (quad : Nat) (l : Launch) (r : FRec) :
    (∀ k, s.freeEntry quad r.lid = some k →
      s.takeIn quad l r = s.modFret quad fun f => { f with recs := f.recs ++ [{ r with entry := some k }] }) ∧
    (s.freeEntry quad r.lid = none → l.spill ≤ s.spilledCount quad r.lid →
      s.takeIn quad l r = s.failLaunch r.lid 0x32 r.lq 0) ∧
    (s.freeEntry quad r.lid = none → s.spilledCount quad r.lid < l.spill →
      (∀ o k, s.spillable quad r.lid = some o → k = s.freeSlot quad o.lid →
        s.takeIn quad l r = ((s.loseBound (some o.lid)).spillOut quad o k).modFret quad fun f => { f with
          recs := (f.recs.map fun x =>
              if x.lid = o.lid && x.arr = o.arr then { x with entry := none, slot := some k } else x) ++
            [{ r with entry := o.entry }] }) ∧
      ∀ k, s.spillable quad r.lid = none → k = s.freeSlot quad r.lid → s.takeIn quad l r =
        ((s.loseBound (some r.lid)).spillOut quad r k).modFret quad fun f => { f with
          recs := f.recs ++ [{ r with entry := none, slot := some k }] }) := by
  refine ⟨fun k h => ?_, fun h hfull => ?_, fun h hroom => ⟨fun o k ho hk => ?_, fun k ho hk => ?_⟩⟩ <;> rw [State.takeIn, h]
  · exact if_pos hfull
  · simp only [if_neg (Nat.not_le.2 hroom), ho, hk]
  · simp only [if_neg (Nat.not_le.2 hroom), ho, hk]

theorem examined_cases (s : State) (quad : Nat) (r : FRec) : (r.slot = none → s.examined quad r = r) ∧
    ∀ k x, r.slot = some k → x = s.rd (s.overflowPlace quad r.lid k) 16 → s.examined quad r =
      { r with record := ⟨BitVec.ofNat 64 x, BitVec.ofNat 64 (x / 2 ^ 64)⟩ } := by
  refine ⟨fun h => ?_, fun k x h hx => ?_⟩ <;> rw [State.examined]
  · simp only [h]
  · simp only [h, hx]

theorem belowMark_iff (s : State) (quad lid n : Nat) (hn : n = (s.entriesOf (some lid)).2) :
    s.belowMark quad lid = true ↔ (s.entriesUsed quad lid).length < n - n / 32 := by
  rw [State.belowMark, ← hn, decide_eq_true_eq]

theorem goes_spillReturn (s : State) (quad : Nat) :
    ((∀ r ∈ (s.fret quad).recs, r.entry = none → s.belowMark quad r.lid = false) → Goes s (.spillReturn quad) s) ∧
    ∀ r, (s.fret quad).recs.find? (fun r => r.entry.isNone && s.belowMark quad r.lid) = some r →
      (s.portAdmits (s.overflowPort quad r.lid) = false → Goes s (.spillReturn quad) s) ∧
      (s.portAdmits (s.overflowPort quad r.lid) = true → Goes s (.spillReturn quad)
        ((s.letIn (s.overflowPort quad r.lid)).modFret quad fun f => { f with recs := f.recs.map fun x =>
          if x.lid = r.lid && x.arr = r.arr then { s.examined quad r with entry := s.freeEntry quad r.lid, slot := none }
          else x })) := by
  refine ⟨fun h => ?_, fun r hr => ⟨fun hp => ?_, fun hp => ?_⟩⟩ <;> refine congrArg Host.Outcome.next ?_
  · have hnone : (s.fret quad).recs.find? (fun r => r.entry.isNone && s.belowMark quad r.lid) = none := by
      refine List.find?_eq_none.2 fun r hr hmatch => ?_
      obtain ⟨hentry, hbelow⟩ := Bool.and_eq_true_iff.1 hmatch
      rw [h r hr (Option.isNone_iff_eq_none.1 hentry)] at hbelow
      exact Bool.noConfusion hbelow
    rw [State.spillReturn, hnone]
  · rw [State.spillReturn, hr]
    exact if_pos (by rw [hp]; rfl)
  · rw [State.spillReturn, hr]
    exact if_neg (by rw [hp]; decide)

/-! ### Triggers -/

theorem goes_processTrigger (s : State) (quad : Nat) :
    ((s.fret quad).recs.find? (s.mayProcess quad) = none → Goes s (.processTrigger quad) s) ∧
    ∀ t l, (s.fret quad).recs.find? (s.mayProcess quad) = some t → s.launch t.lid = some l → s.multiplexed l quad = false →
      Goes s (.processTrigger quad) ((s.process quad t.lid t.arr ((s.fret quad).recs.length + 1)).modFret quad fun k =>
        { k with
          trigCount := put 0 k.trigCount (trigKey t.lid t.lq) (get 0 k.trigCount (trigKey t.lid t.lq) + 1)
          recs := k.recs.map fun r => if r.lid = t.lid && r.arr = t.arr && !r.reserved then
            { r with processed := true, pending := false, since := some (get 0 k.trigCount (trigKey t.lid t.lq)) } else r }) := by
  refine ⟨fun h => congrArg Host.Outcome.next ?_, fun t l h hl hm => congrArg Host.Outcome.next ?_⟩ <;> rw [State.processTrigger, h]
  simp only [hl, hm, Bool.false_eq_true, if_false]

theorem process_cases {s : State} {quad lid arr : Nat} (n : Nat) {l : Launch} {t : FRec} (hl : s.launch lid = some l)
    (ht : ((s.fret quad).recs.find? fun r => r.lid = lid && r.arr = arr && !r.reserved).map (s.examined quad) = some t) :
    (∀ k, s.findGroup quad l t = (none, k) → s.process quad lid arr (n + 1) = s) ∧
    ∀ rule g k, s.findGroup quad l t = (some (rule, g), k) →
      s.process quad lid arr (n + 1) = (s.dispatch quad l t rule g k).process quad lid arr n := by
  refine ⟨fun k h => ?_, fun rule g k h => ?_⟩ <;> rw [State.process, hl, ht] <;> simp only [h]

/-! ### Turns of logical quads -/

theorem turnEnds_stays (s : State) (quad half : Nat) : (get none (s.quad quad).turn half = none → s.turnEnds quad half = s) ∧
    ∀ k l, get none (s.quad quad).turn half = some k → s.launch (k / 32768) = some l →
      (s.quiescent quad (k / 32768) (k % 32768) = false → s.turnEnds quad half = s) ∧
      (s.nextTurn l quad (k / 32768) (k % 32768) = none → s.turnEnds quad half = s) := by
  refine ⟨fun h => ?_, fun k l h hl => ⟨fun hq => ?_, fun hn => ?_⟩⟩ <;> rw [State.turnEnds] <;> simp only [h]
  · simp only [hl, hq]; rfl
  · simp only [hl, hn, ite_self]

/-- Settles O41: arrival, entries, triggers, the way back, and turns. -/
theorem fretboardEvents : Obligations.FretboardEvents := by
  unfold Obligations.FretboardEvents
  refine ⟨fun s a l r u hl hr hin hu => goes_recordArrival hl hr hin hu,
    fun s a => ⟨goes_recordArrival_gone, goes_recordArrival_stray⟩, fun s quad l r => ?_, goes_processTrigger,
    fun s quad lid arr n l t hl ht => process_cases n hl ht, fun s quad => ⟨belowMark_iff s quad, goes_spillReturn s quad⟩,
    fun s quad => ⟨rfl, turnEnds_stays s quad⟩⟩
  obtain ⟨hentry, hfull, hroom⟩ := takeIn_cases s quad l r
  exact ⟨hentry, hfull, hroom, examined_cases s quad r⟩

end Sys2Proof.Machine

/-! ## O42: seeds, walk, reconstruction, waves and the start of a launch (02 R70-R72, 11 R368, R381-R385, 21 R508, R518) -/

namespace Sys2Proof.Machine
open Sys2Proof

theorem launchProgress_gone {s : State} {lid : Nat} (h : s.launch lid = none) :
    Goes s (.walkerEmit lid) s ∧ Goes s (.holeUnresolved lid) s ∧ Goes s (.stabilityWave lid) s ∧ Goes s (.launchStart lid) s := by
  refine ⟨congrArg Host.Outcome.next ?_, congrArg Host.Outcome.next ?_, congrArg Host.Outcome.next ?_, congrArg Host.Outcome.next ?_⟩
  · rw [State.walkerEmit, h]
  · rw [State.holeUnresolved, h]
  · rw [State.stabilityWave, h]
  · rw [State.launchStart, h]

/-! ### Seeds and walk -/

section Walker

variable {s : State} {lid : Nat} {l : Launch} (hl : s.launch lid = some l)
include hl

theorem goes_walkerEmit (hm : l.matching = true) (hfw : s.hub.fw.running = true) :
    (∀ r, l.seedList[l.seedPos]? = some r → Goes s (.walkerEmit lid)
      ((s.modLaunch lid fun l => { l with seedPos := l.seedPos + 1 }.seeded).postSeed lid l r none)) ∧
    (l.seedList[l.seedPos]? = none → l.walkDone = true → Goes s (.walkerEmit lid) (s.modLaunch lid Launch.seeded)) ∧
    ∀ w, l.seedList[l.seedPos]? = none → l.walkDone = false → l.walk = some w →
      Goes s (.walkerEmit lid) ((s.modLaunch lid Launch.seeded).emitPoint lid l.seeded w) := by
  refine ⟨fun r h => congrArg Host.Outcome.next ?_, fun h hdone => congrArg Host.Outcome.next ?_,
    fun w h hdone hw => congrArg Host.Outcome.next ?_⟩ <;>
    simp only [State.walkerEmit, hl, hm, hfw, h, Bool.not_true, Bool.or_self, Bool.false_eq_true, if_false]
  · rw [if_pos hdone]
  · rw [hdone, hw]; rfl

theorem goes_walkerEmit_idle (h : l.matching = false ∨ s.hub.fw.running = false) : Goes s (.walkerEmit lid) s := by
  refine congrArg Host.Outcome.next ?_
  simp only [State.walkerEmit, hl]
  exact if_pos (by rcases h with h | h <;> simp [h])

end Walker

theorem emitPoint_cases (s : State) (lid : Nat) (l : Launch) (w : Walk) :
    (w.window ≤ l.unfinished.length → s.emitPoint lid l w = s) ∧
    (l.unfinished.length < w.window → l.cover = none → ∃ l1, s.emitPoint lid l w =
        (s.modLaunch lid fun _ => l1).postSeed lid l1
          ⟨mkTag w.work l.gen (l.walkPos % w.nx) (l.walkPos / w.nx % w.ny) (l.walkPos / (w.nx * w.ny)),
            w.locator (w.point l.walkPos)⟩ none ∧
      l1.walkPos = l.walkPos + 1 ∧ l1.unfinished = l.unfinished ++ [w.pos (w.point l.walkPos)] ∧
      (l1.walkDone = true ↔ w.nx * w.ny * w.nz ≤ l.walkPos + 1) ∧ l1.ctl.kept = l.ctl.kept + 1) := by
  refine ⟨fun h => if_pos h, fun h hcover => ?_⟩
  have hlatch : l.latchFor (w.point l.walkPos) = l := if_neg (by simp [hcover])
  refine ⟨{ l with
    walkPos := l.walkPos + 1
    walkDone := decide (w.count ≤ l.walkPos + 1)
    unfinished := l.unfinished ++ [w.pos (w.point l.walkPos)]
    ctl := { l.ctl with kept := l.ctl.kept + 1 } }, ?_, rfl, rfl, decide_eq_true_iff, rfl⟩
  simp only [State.emitPoint, if_neg (Nat.not_le.2 h), hlatch, hcover, pointRecords, if_true, List.foldl_cons, List.foldl_nil]
  rfl

/-! ### Waves -/

section Waves

variable {s : State} {lid : Nat} {l : Launch} (hl : s.launch lid = some l)
include hl

theorem goes_stabilityWave_idle (h : l.matching = false ∨ l.state ≠ .running) : Goes s (.stabilityWave lid) s := by
  refine congrArg Host.Outcome.next ?_
  simp only [State.stabilityWave, hl]
  exact if_pos (by rcases h with h | h <;> simp [h])

variable {wave : Nat × Nat × Bool} (hwave : wave = (l.sent, l.received, s.activeLaunch lid l)) (hm : l.matching = true)
  (hrun : l.state = .running)
include hwave hm hrun

/-- A wave of a launch that runs, by whether it is quiet and holes are left. -/
theorem exec_stabilityWave_running {quiet : Prop} [Decidable quiet]
    (hquiet : quiet ↔ l.sent = l.received ∧ s.activeLaunch lid l = false ∧ l.lastWave = some wave) :
    exec (.stabilityWave lid) s = .next (if quiet ∧ s.holesLeft lid l = [] ∧ s.hub.fw.running = true then s.declareStable lid
      else s.modLaunch lid fun l' => { l' with lastWave := some wave, holesDue := decide (quiet ∧ s.holesLeft lid l ≠ []) }) := by
  refine congrArg Host.Outcome.next ?_
  subst hwave
  have hcond : (decide (l.sent = l.received) && !s.activeLaunch lid l &&
      decide (l.lastWave = some (l.sent, l.received, s.activeLaunch lid l))) = decide quiet := by
    rw [Bool.eq_iff_iff, decide_eq_true_iff, hquiet]
    simp [and_assoc]
  simp only [State.stabilityWave, hl, hm, hrun, hcond]
  have hempty : (s.holesLeft lid l).isEmpty = decide (s.holesLeft lid l = []) := by
    cases s.holesLeft lid l <;> simp
  by_cases hq : quiet <;> by_cases hholes : s.holesLeft lid l = [] <;> simp [hq, hholes, hempty]

theorem goes_stabilityWave_quiet (hsent : l.sent = l.received) (hactive : s.activeLaunch lid l = false)
    (hlast : l.lastWave = some wave) :
    (s.holesLeft lid l = [] → s.hub.fw.running = true → Goes s (.stabilityWave lid) (s.declareStable lid)) ∧
    (s.holesLeft lid l ≠ [] → Goes s (.stabilityWave lid) (s.modLaunch lid fun l =>
      { l with lastWave := some wave, holesDue := true })) := by
  have hexec := exec_stabilityWave_running hl hwave hm hrun (quiet := True) (by simp [hsent, hactive, hlast])
  refine ⟨fun hholes hfw => hexec.trans (congrArg _ (if_pos ⟨trivial, hholes, hfw⟩)), fun hholes => hexec.trans (congrArg _ ?_)⟩
  simp only [hholes, false_and, and_false, if_false, ne_eq, not_false_eq_true, and_self, decide_true]

theorem goes_stabilityWave_loud (h : l.sent ≠ l.received ∨ s.activeLaunch lid l = true ∨ l.lastWave ≠ some wave) :
    Goes s (.stabilityWave lid) (s.modLaunch lid fun l => { l with lastWave := some wave, holesDue := false }) := by
  have hexec := exec_stabilityWave_running hl hwave hm hrun (quiet := False) (by
    rw [false_iff]
    rintro ⟨hsent, hactive, hlast⟩
    simp [hsent, hactive, hlast] at h)
  exact hexec.trans (by simp only [false_and, if_false, decide_false])

end Waves

/-! ### Reconstruction and the start of a launch -/

theorem modQuad_quad_ne (s : State) (quad : Nat) (f : Quad → Quad) (h : f (s.quad quad) ≠ {}) :
    (s.modQuad quad f).quad quad = f (s.quad quad) :=
  get_put_ne _ _ _ _ h

theorem reconTurn_cases (s : State) (quad : Nat) : ((s.quad quad).recon.held = [] → Goes s (.reconFiring quad) s) ∧
    (s.firingNext quad = false → Goes s (.reconFiring quad) s) ∧
    ∀ f l, (s.quad quad).recon.held = f :: l → s.firingNext quad = true → Goes s (.reconFiring quad)
      ((s.modEngine 3 quad fun e => { e with last := 2 ^ 21 }).reconFire quad f) := by
  have hidle : s.firingNext quad = false → Goes s (.reconFiring quad) s := fun h =>
    congrArg Host.Outcome.next (if_neg (by rw [h]; decide))
  refine ⟨fun h => hidle (by simp [State.firingNext, h]), hidle, fun f l h hnext => congrArg Host.Outcome.next ?_⟩
  have hheld : (((s.modEngine 3 quad fun e => { e with last := 2 ^ 21 }).quad quad).recon.held) = f :: l := by
    rw [State.modEngine, if_neg (by decide), modQuad_quad_ne]
    · exact h
    · intro heq
      have hnil := congrArg (fun q : Quad => q.recon.held) heq
      exact List.cons_ne_nil f l (h.symm.trans hnil)
  rw [State.reconTurn, if_pos hnext, State.reconFiring]
  simp only [firingQueue, hheld]

theorem goes_holeUnresolved {s : State} {lid : Nat} {l : Launch} (hl : s.launch lid = some l) :
    (l.holesDue = false ∨ l.state = .failed → Goes s (.holeUnresolved lid) s) ∧
    (l.holesDue = true → l.state ≠ .failed → Goes s (.holeUnresolved lid)
      ((s.holesLeft lid l).foldl (fun s p => s.fillHole lid p.1 p.2) s)) := by
  refine ⟨fun h => congrArg Host.Outcome.next ?_, fun hdue hstate => congrArg Host.Outcome.next ?_⟩ <;>
    simp only [State.holeUnresolved, hl]
  · exact if_neg (by rcases h with h | h <;> simp [h])
  · exact if_pos (by simp [hdue, hstate])

theorem goes_launchStart {s : State} {lid : Nat} {l : Launch} (hl : s.launch lid = some l) :
    ((l.state ≠ .pending ∨ s.hub.fw.running = false ∨ s.firstInLine lid l = false ∨ s.codeLoading lid l = true) →
      Goes s (.launchStart lid) s) ∧
    ∀ t b, l.state = .pending → s.hub.fw.running = true → s.firstInLine lid l = true → s.codeLoading lid l = false →
      s.makeRoom lid l = (t, b) → (b = false → Goes s (.launchStart lid) t) ∧ (b = true →
      Goes s (.launchStart lid) (((((t.partQuads l.part).foldl (fun s q => s.startQuad lid l q) t).queueServed l).modLaunch lid
        fun l => { l with state := .seeding, holding := true }.seeded).serveHeld lid)) := by
  refine ⟨fun h => congrArg Host.Outcome.next ?_, fun t b hstate hfw hfirst hcode hroom => ⟨?_, ?_⟩⟩
  · simp only [State.launchStart, hl]
    exact if_neg (by rcases h with h | h | h | h <;> simp [h])
  all_goals
    rintro rfl
    refine congrArg Host.Outcome.next ?_
    simp only [State.launchStart, hl, hstate, hfw, hfirst, hcode, hroom]
    rfl

/-- Settles O42: by whether the launch is there, runs, and luthier runs. -/
theorem launchProgress : Obligations.LaunchProgress := by
  unfold Obligations.LaunchProgress
  refine ⟨fun s lid => launchProgress_gone, fun s lid l hl hm hfw => ?_, emitPoint_cases, fun s lid l hl => ⟨goes_walkerEmit_idle hl,
    fun hm => goes_stabilityWave_idle hl (.inl hm), fun hm hfw hrun hholes => ?_⟩, reconTurn_cases, fun s lid l hl => ?_, fun s l => rfl⟩
  · obtain ⟨hseed, hdone, hwalk⟩ := goes_walkerEmit hl hm hfw
    refine ⟨hseed, hdone, hwalk, fun wave hwave => ⟨fun hsent hactive hlast hholes hrun => ?_,
      fun hsent hactive hlast hholes hrun => ?_, fun hseeding => goes_stabilityWave_idle hl (.inr (by rw [hseeding]; decide)),
      goes_stabilityWave_loud hl hwave hm⟩⟩
    · exact (goes_stabilityWave_quiet hl hwave hm hrun hsent hactive hlast).1 hholes hfw
    · exact (goes_stabilityWave_quiet hl hwave hm hrun hsent hactive hlast).2 hholes
  · have hexec := exec_stabilityWave_running hl rfl hm hrun Iff.rfl
    exact hexec.trans (by simp only [hholes, hfw, Bool.false_eq_true, and_false, if_false, ne_eq, not_true_eq_false, decide_false])
  · obtain ⟨hnodue, hdue⟩ := goes_holeUnresolved hl
    obtain ⟨hstays, hstarts⟩ := goes_launchStart hl
    exact ⟨hnodue, hdue, hstays, hstarts⟩

end Sys2Proof.Machine

/-! ## O43: walks, page faults, cache lines and ownership (17 R414, 20 R483, R487-R492, 23 R550) -/

namespace Sys2Proof.Machine
open Sys2Proof

theorem modDie_congr {s : State} {d : Nat} {f g : Die → Die} (h : f (s.die d) = g (s.die d)) : s.modDie d f = s.modDie d g := by
  rw [State.modDie, State.modDie, h]

/-! ### The walker -/

section Walker

variable {s : State} {die : Nat} {may : Nat → Prop}
  (hmay : ∀ k, may k ↔ ∃ x, (s.die die).walks[k]? = some x ∧ s.walkReady die x = true ∧
    ∀ src, itemSource x = some src → ∀ y ∈ (s.die die).walks.take k, itemSource y ≠ some src)
include hmay

/-- The k-th of the first 64 walks can go on. -/
theorem nextWalk_pred {k : Nat} (hk : k < 64) : (((s.die die).walks.take 64)[k]?.any fun x =>
    s.walkReady die x && !((itemSource x).any fun src => (((s.die die).walks.take 64).take k).any fun y => itemSource y = some src)) =
      true ↔ may k := by
  have hget : ((s.die die).walks.take 64)[k]? = (s.die die).walks[k]? := by rw [List.getElem?_take, if_pos hk]
  have htake : ((s.die die).walks.take 64).take k = (s.die die).walks.take k := by rw [List.take_take, Nat.min_eq_left (Nat.le_of_lt hk)]
  rw [hmay, hget, htake, Option.any_eq_true]
  refine exists_congr fun x => and_congr_right fun _ => ?_
  rw [Bool.and_eq_true, Bool.not_eq_true', Option.any_eq_false]
  simp only [List.any_eq_false, decide_eq_true_eq]

theorem nextWalk_none (h : ∀ k < 64, ¬ may k) : s.nextWalk die = none := by
  refine List.find?_eq_none.2 fun k hk hpred => ?_
  have hlt : k < 64 := by
    have := List.mem_range.1 hk
    rw [List.length_take] at this
    omega
  exact h k hlt ((nextWalk_pred hmay hlt).1 hpred)

theorem nextWalk_some {k : Nat} {x : XItem} (hk : k < 64) (hm : may k) (hfirst : ∀ j < k, ¬ may j)
    (hx : (s.die die).walks[k]? = some x) : s.nextWalk die = some k := by
  have hlen : k < ((s.die die).walks.take 64).length := by
    have := (List.getElem?_eq_some_iff.1 hx).1
    rw [List.length_take]
    omega
  refine List.find?_range_eq_some.2 ⟨(nextWalk_pred hmay hk).2 hm, List.mem_range.2 hlen, fun j hj => ?_⟩
  rw [Bool.not_eq_true', ← Bool.not_eq_true, nextWalk_pred hmay (Nat.lt_trans hj hk)]
  exact hfirst j hj

theorem goes_translationWalk : ((∀ k < 64, ¬ may k) → Goes s (.translationWalk die) s) ∧
    ∀ k x, k < 64 → may k → (∀ j < k, ¬ may j) → (s.die die).walks[k]? = some x →
      Goes s (.translationWalk die) (s.walkOn die k x) := by
  refine ⟨fun h => congrArg Host.Outcome.next ?_, fun k x hk hm hfirst hx => congrArg Host.Outcome.next ?_⟩ <;>
    rw [State.translationWalk]
  · rw [nextWalk_none hmay h]
  · rw [nextWalk_some hmay hk hm hfirst hx]
    simp only [hx]

end Walker

theorem walkReady_iff (s : State) (die : Nat) (x : XItem) : s.walkReady die x = true ↔
    (∀ src, itemSource x = some src → ∀ p ∈ (s.die die).parked, itemSource p.item ≠ some src) ∧
      ((s.die die).parked.length < 256 ∨ s.itemFaults x = false) ∧
      ∀ p, ((s.walkAsks die x).drop ((s.die die).gotOf x)).head? = some p → s.portAdmits p = true := by
  rw [State.walkReady, Bool.and_eq_true, Bool.and_eq_true, Bool.not_eq_true', Option.any_eq_false, State.walkAsked,
    Option.all_eq_true, and_assoc]
  simp only [List.any_eq_false, Bool.or_eq_true, decide_eq_true_eq, Bool.not_eq_true']

theorem walkOn_cases {s : State} {die k : Nat} {x : XItem} {asks : List Nat} {r : State × Nat} (hasks : asks = s.walkAsks die x)
    (hr : r = s.ask (asks.drop ((s.die die).gotOf x)) ((s.die die).gotOf x)) :
    (asks.length ≤ r.2 → s.walkOn die k x = (r.1.modDie die fun d =>
      { d with walks := d.walks.eraseIdx k, got := d.got.filter fun p => p.1 ≠ x }).walkItem die x) ∧
    (r.2 < asks.length → s.walkOn die k x = r.1.modDie die fun d =>
      { d with got := (d.got.filter fun p => p.1 ≠ x) ++ [(x, r.2)] }) := by
  subst hasks hr
  exact ⟨fun h => if_pos h, fun h => if_neg (Nat.not_le.2 h)⟩

theorem ask_cases (s : State) (p n : Nat) (l : List Nat) : s.ask [] n = (s, n) ∧
    (s.portAdmits p = true → s.ask (p :: l) n = (s.letIn p).ask l (n + 1)) ∧ (s.portAdmits p = false → s.ask (p :: l) n = (s, n)) := by
  refine ⟨rfl, fun h => ?_, fun h => ?_⟩ <;> rw [State.ask, h] <;> rfl

/-! ### Page faults -/

theorem parkOrWait_cases {s u : State} {die : Nat} {f : ParkedFault} (hu : u = s.loseBound (itemLid f.item)) :
    ((u.die die).parked.length < 256 → s.parkOrWait die f = u.modDie die fun d => { d with parked := d.parked ++ [f] }) ∧
    (256 ≤ (u.die die).parked.length → s.parkOrWait die f = u.modDie die fun d => { d with walks := d.walks ++ [f.item] }) := by
  subst hu
  exact ⟨fun h => modDie_congr (if_pos h), fun h => modDie_congr (if_neg (Nat.not_lt.2 h))⟩

theorem walkItem_access {s : State} {die : Nat} {r : Req} {va quad : Nat} (hva : va = globalVa r.addr)
    (hquad : quad = quadOf (coreOf r.th)) :
    (∀ v size pa w u, s.lookUp quad r.xctx r.level va (opWrites r.op) = .page v size pa w →
      u = s.cacheFill quad { xctx := r.xctx, va := v, size := size, pa := pa, write := w } →
      ((r.lid.bind s.launch).isSome = false ∨ s.portAllowed quad (pa + (va - v)) = true →
        s.walkItem die (.access r) = u.send (routeOf { r with pa := some (pa + (va - v)) })
          (.remoteAccess { r with pa := some (pa + (va - v)) })) ∧
      ((r.lid.bind s.launch).isSome = true → s.portAllowed quad (pa + (va - v)) = false →
        s.walkItem die (.access r) = u.failReq r 0x04)) ∧
    (∀ k, s.lookUp quad r.xctx r.level va (opWrites r.op) = .fault k → s.walkItem die (.access r) = s.parkOrWait die {
      item := .access r, va := BitVec.ofNat 64 va, xctx := r.xctx, kind := faultKind k, access := accessCode r.op
      requester := coreOf r.th + ctxOf r.th * 2 ^ 16 }) ∧
    (∀ pa, s.lookUp quad r.xctx r.level va (opWrites r.op) = .denied pa →
      s.walkItem die (.access r) = (s.security die (BitVec.ofNat 64 pa) r.lid).failReq r 0x04) := by
  subst hva hquad
  refine ⟨fun v size pa w u h hu => ⟨fun hport => ?_, fun hlaunch hport => ?_⟩, fun k h => ?_, fun pa h => ?_⟩ <;>
    rw [State.walkItem, State.walkAccess] <;> simp only [h]
  · rw [if_neg, hu]
    rcases hport with hport | hport <;> simp [hport]
  · rw [if_pos, hu]
    · rfl
    · rw [hlaunch, hport]; rfl
  · rfl
  · rfl

theorem goes_faultAnswer (s : State) (die n : Nat) (f : ParkedFault) :
    (∀ b, s.hub.fw.running = false ∨ (s.die die).parked[n]? = none → Goes s (.faultAnswer die n b) s) ∧
    (s.hub.fw.running = true → (s.die die).parked[n]? = some f →
      Goes s (.faultAnswer die n true) ((s.modDie die fun d => { d with parked := d.parked.eraseIdx n }).modDie die fun d =>
        { d with walks := f.item :: d.walks }) ∧
      Goes s (.faultAnswer die n false) ((s.modDie die fun d => { d with parked := d.parked.eraseIdx n }).refuseItem f.item)) := by
  refine ⟨fun b h => congrArg Host.Outcome.next ?_, fun hfw hf =>
    ⟨congrArg Host.Outcome.next ?_, congrArg Host.Outcome.next ?_⟩⟩ <;> rw [State.faultAnswer]
  · have hnone : (if s.hub.fw.running = true then (s.die die).parked[n]? else none) = none := by
      rcases h with h | h <;> simp [h]
    rw [hnone]
  · rw [if_pos hfw, hf]; rfl
  · rw [if_pos hfw, hf]; rfl

/-! ### Cache lines -/

theorem goes_instructionCacheFill {s : State} {quad xctx line va : Nat} {pins : List Nat} (hva : va = line * 128 % 2 ^ 52) :
    (s.cached quad xctx va false = none → Goes s (.instructionCacheFill quad xctx line)
      (s.modDie (dieOf quad) fun d => { d with walks := d.walks ++ [.fetch quad xctx line] })) ∧
    (s.cached quad xctx va false ≠ none →
      Goes s (.instructionCacheFill quad xctx line) (s.readLine quad xctx line (s.pinsOf quad xctx line))) ∧
    (∀ v size pa w, s.lookUp quad xctx (fetchLevel xctx) va false = .page v size pa w → s.readLine quad xctx line pins =
      (s.cacheFill quad { xctx := xctx, va := v, size := size, pa := pa, write := w }).modQuad quad (fillLine {
        xctx := xctx, line := line, bytes := Memory.bytes s.mem (Place.tier (pa + (va - v))).key 128, pins := pins })) ∧
    ∀ k, s.lookUp quad xctx (fetchLevel xctx) va false = .fault k →
      s.readLine quad xctx line pins = s.parkOrWait (dieOf quad) {
        item := .fetch quad xctx line, va := BitVec.ofNat 64 (line * 128), xctx := xctx, kind := faultKind k, access := 0
        requester := quad * 4 } := by
  have hline : lineVa line = va := hva.symm
  refine ⟨fun h => congrArg Host.Outcome.next ?_, fun h => congrArg Host.Outcome.next ?_, fun v size pa w h => ?_, fun k h => ?_⟩
  · rw [State.fillCache, hline, h]; rfl
  · rw [State.fillCache, hline]
    exact if_pos (Option.isSome_iff_ne_none.2 h)
  · rw [State.readLine, hline]
    simp only [h, State.lineBytes, hline]
  · rw [State.readLine, hline]
    simp only [h, fetchParked]

/-! ### Contexts, ownership and the fence -/

theorem goes_xcselWrite {s : State} {x : Word} {id : Nat} (hid : id = x.toNat % 65536) :
    Goes s (.xcselWrite x) ((s.modHub fun h => { h with xcsel := id, xctxs := put {} h.xctxs id {
      valid := h.xcw0.getLsbD 63, part := h.xcw0.toNat / 2 ^ 58 % 32, tenant := h.xcw0.toNat / 2 ^ 50 % 256
      root := h.xcw1.toNat / 2 ^ 16 % 2 ^ 36 } }).dropTlb (fun _ => true) (fun _ => true) fun t => t.xctx = id) := by
  have hdrops : xlinvDrops 1 id 0 = fun t => decide (t.xctx = id) := funext fun t => by simp [xlinvDrops]
  have hwords : ∀ a b : Word, xctxOfWords a b = {
      valid := a.getLsbD 63, part := a.toNat / 2 ^ 58 % 32
      tenant := a.toNat / 2 ^ 50 % 256, root := b.toNat / 2 ^ 16 % 2 ^ 36 } := fun a b => by
    simp only [xctxOfWords, BitVec.extractLsb'_toNat, Nat.shiftRight_eq_div_pow]
  subst hid
  refine congrArg Host.Outcome.next ?_
  simp only [State.xcselWrite, hdrops, hwords]

theorem toNat_append_add {n m : Nat} (x : BitVec n) (y : BitVec m) : (x ++ y).toNat = x.toNat * 2 ^ m + y.toNat := by
  rw [BitVec.toNat_append, ← Nat.shiftLeft_add_eq_or_of_lt y.isLt, Nat.shiftLeft_eq]

/-- The owner that `OWNSET` names: encryption, protection and tenant (20 R489). -/
theorem owner_of_toNat {x : Word} {e : BitVec 16}
    (h : e.toNat = x.toNat / 2 ^ 9 % 2 * 2 ^ 15 + x.toNat / 2 ^ 8 % 2 * 2 ^ 14 + x.toNat % 256) :
    x.extractLsb' 9 1 ++ x.extractLsb' 8 1 ++ 0#6 ++ x.extractLsb' 0 8 = e := by
  refine BitVec.eq_of_toNat_eq ?_
  rw [h]
  simp only [toNat_append_add, BitVec.extractLsb'_toNat, Nat.shiftRight_eq_div_pow, BitVec.toNat_ofNat]
  omega

theorem noteWrite_ownRange (s : State) (p : Place) (n : Nat) : (s.noteWrite p n).hub.ownRange = s.hub.ownRange := by
  unfold State.noteWrite
  split
  · split <;> rfl
  · rfl

theorem setOwner_ownRange (s : State) (e : BitVec 16) (g : Nat) : (s.setOwner e g).hub.ownRange = s.hub.ownRange := by
  unfold State.setOwner
  split
  · rfl
  · dsimp only
    split
    · rfl
    · exact noteWrite_ownRange ..

/-- Folds of two steps that agree where an invariant holds. -/
theorem foldl_congr_of_invariant {α β : Type} {P : α → Prop} {f g : α → β → α} (hfg : ∀ a b, P a → f a b = g a b)
    (hP : ∀ a b, P a → P (f a b)) (l : List β) {a : α} (ha : P a) : l.foldl f a = l.foldl g a := by
  induction l generalizing a with
  | nil => rfl
  | cons b l ih => rw [List.foldl_cons, List.foldl_cons, ← hfg a b ha, ih (hP a b ha)]

/-- The range is the same while its granules are set. -/
theorem foldl_setOwner (e : BitVec 16) (l : List Nat) {s : State} {r : Word} (h : s.hub.ownRange = r) :
    l.foldl (fun s k => s.setOwner e (r.toNat / 2 ^ 16 % 2 ^ 25 + k)) s =
      l.foldl (fun s k => s.setOwner e (s.hub.ownRange.toNat / 2 ^ 16 % 2 ^ 25 + k)) s :=
  foldl_congr_of_invariant (P := fun s => s.hub.ownRange = r) (fun t k ht => by rw [ht])
    (fun t k ht => (setOwner_ownRange t e _).trans ht) l h

theorem goes_ownsetGo {s : State} {x : Word} {e : BitVec 16} (h : x.getLsbD 10 = true)
    (he : e.toNat = x.toNat / 2 ^ 9 % 2 * 2 ^ 15 + x.toNat / 2 ^ 8 % 2 * 2 ^ 14 + x.toNat % 256) :
    Goes s (.ownsetGo x) ((List.range (s.hub.ownRange.toNat / 2 ^ 41 % 2 ^ 23 + 1)).foldl
      (fun s k => s.setOwner e (s.hub.ownRange.toNat / 2 ^ 16 % 2 ^ 25 + k))
        (s.modHub fun h => { h with ownSet := x &&& 0x3FF })) := by
  have hfirst : (s.hub.ownRange.extractLsb' 16 25).toNat = s.hub.ownRange.toNat / 2 ^ 16 % 2 ^ 25 := by
    rw [BitVec.extractLsb'_toNat, Nat.shiftRight_eq_div_pow]
  have hcount : (s.hub.ownRange.extractLsb' 41 23).toNat = s.hub.ownRange.toNat / 2 ^ 41 % 2 ^ 23 := by
    rw [BitVec.extractLsb'_toNat, Nat.shiftRight_eq_div_pow]
  have hset : s.ownsetWrite x = (List.range (s.hub.ownRange.toNat / 2 ^ 41 % 2 ^ 23 + 1)).foldl
      (fun t k => t.setOwner e (s.hub.ownRange.toNat / 2 ^ 16 % 2 ^ 25 + k)) (s.modHub fun h => { h with ownSet := x &&& 0x3FF }) := by
    rw [← hfirst, ← hcount, ← owner_of_toNat he]
    exact if_pos h
  exact congrArg Host.Outcome.next (hset.trans (foldl_setOwner e _ rfl))

/-- A granule given to another owner reads zero; one that stays with its own is as it was. -/
theorem setOwner_byte {s : State} {e : BitVec 16} {g k : Nat} (hg : g < 2 ^ 25) (hk : k / 65536 = g) :
    (get 0 s.hub.own g &&& 0x40FF ≠ e &&& 0x40FF → Memory.byte (s.setOwner e g).mem k = 0) ∧
    (get 0 s.hub.own g &&& 0x40FF = e &&& 0x40FF → Memory.byte (s.setOwner e g).mem k = Memory.byte s.mem k) := by
  have hclear : ∀ m : List Host.Cell, Memory.byte (Memory.clear m (g * 65536) ((g + 1) * 65536)) k = 0 := fun m => by
    induction m with
    | nil => rfl
    | cons c m ih =>
      rw [Memory.clear, List.filter_cons]
      split
      · next hkeep =>
        have hne : k ≠ c.1 := fun heq => by
          simp only [Bool.not_eq_true', Bool.and_eq_false_iff, decide_eq_false_iff_not] at hkeep
          omega
        exact (if_neg hne).trans ih
      · exact ih
  refine ⟨fun h => ?_, fun h => ?_⟩ <;> rw [State.setOwner, if_neg (Nat.not_le.2 hg)]
  · simp only [if_neg h, noteWrite_mem, hclear]
  · simp only [if_pos h, modHub_mem]

/-- Settles O43: walks, faults, lines, ownership and the fence. -/
theorem translationEvents : Obligations.TranslationEvents := by
  unfold Obligations.TranslationEvents
  refine ⟨fun s die may hmay => goes_translationWalk hmay, fun s die k x asks r => ⟨walkReady_iff s die x, walkOn_cases⟩, ask_cases,
    fun s u die f => parkOrWait_cases, fun s die r va quad => walkItem_access, fun s die n f => ?_,
    fun s quad xctx line va pins => goes_instructionCacheFill, fun s x id => goes_xcselWrite,
    fun s x h => congrArg Host.Outcome.next (if_neg (by rw [h]; decide)), fun s x e => goes_ownsetGo,
    fun s e g hg k => setOwner_byte hg, fun s x => ⟨fun h => ?_, fun h => ?_⟩⟩
  · obtain ⟨hstays, hgoes⟩ := goes_faultAnswer s die n f
    exact ⟨hstays, hgoes, fun r => rfl⟩
  · exact congrArg Host.Outcome.next (if_neg (by rw [h]; decide))
  · exact congrArg Host.Outcome.next (if_pos h)

end Sys2Proof.Machine

/-! ## O44: doorbells, queue registers and requests (19 R448-R457, 21 R508-R511) -/

namespace Sys2Proof.Machine
open Sys2Proof

/-! ### Doorbells and registers -/

theorem goes_doorbell {s : State} {k : Nat} {p : Word} {q : Queue} {x : BitVec 32} (hq : q = s.queueOf k) (hx : x = p.setWidth 32) :
    (qSize q.cfg < (x - q.cons).toNat → Goes s (.doorbell k p) (s.modQueue k fun q => { q with ovf := true })) ∧
    ((x - q.cons).toNat ≤ qSize q.cfg → (x - q.cons).toNat < (x - q.prod).toNat →
      Goes s (.doorbell k p) (s.modQueue k fun q => { q with dbbad := min 0xFFFF (q.dbbad + 1) })) ∧
    ((x - q.cons).toNat ≤ qSize q.cfg → (x - q.prod).toNat ≤ (x - q.cons).toNat → x ≠ q.prod →
      Goes s (.doorbell k p) ((s.modQueue k fun q => { q with prod := x }).modHub fun h => { h with
        bells := h.bells ++ [(k, x.toNat)] })) := by
  subst hq hx
  refine ⟨fun h => congrArg Host.Outcome.next ?_, fun hsize h => congrArg Host.Outcome.next ?_,
    fun hsize h hne => congrArg Host.Outcome.next ?_⟩ <;> rw [State.doorbell]
  · exact if_pos h
  · exact (if_neg (Nat.not_lt.2 hsize)).trans (if_pos h)
  · exact (if_neg (Nat.not_lt.2 hsize)).trans ((if_neg (Nat.not_lt.2 h)).trans (if_neg hne))

theorem goes_qcfgWrite (s : State) (k reg : Nat) (x : Word) :
    (2 < reg → Goes s (.qcfgWrite k reg x) s) ∧
    (reg ≤ 2 → qEn (s.queueOf k).cfg = true →
      Goes s (.qcfgWrite k reg x) (s.modQueue k fun q => { q with dbbad := min 0xFFFF (q.dbbad + 1) })) ∧
    (qEn (s.queueOf k).cfg = false →
      (x.getLsbD 63 = false → Goes s (.qcfgWrite k 0 x) (s.modQueue k fun q => { q with cfg := x &&& 0xFFFFFFFFFFFC0000 })) ∧
      Goes s (.qcfgWrite k 1 x) (s.modQueue k fun q => { q with base := x &&& 0xFFFFFFFFFFFC0 }) ∧
      Goes s (.qcfgWrite k 2 x) (s.modQueue k fun q => { q with pre := x &&& 0xFFFFFFFF })) := by
  refine ⟨fun h => congrArg Host.Outcome.next (if_pos h), fun h hen =>
    congrArg Host.Outcome.next ((if_neg (Nat.not_lt.2 h)).trans (if_pos hen)), fun hen => ?_⟩
  have hoff : ¬ qEn (s.queueOf k).cfg = true := by rw [hen]; decide
  refine ⟨fun h63 => congrArg Host.Outcome.next ?_, congrArg Host.Outcome.next ?_, congrArg Host.Outcome.next ?_⟩ <;>
    rw [State.qcfgWrite]
  · have hx : ¬ qEn x = true := by rw [qEn, h63]; decide
    exact (if_neg (by decide)).trans ((if_neg hoff).trans ((if_pos rfl).trans (if_neg hx)))
  · exact (if_neg (by decide)).trans ((if_neg hoff).trans ((if_neg (by decide)).trans (if_pos rfl)))
  · exact (if_neg (by decide)).trans ((if_neg hoff).trans ((if_neg (by decide)).trans (if_neg (by decide))))

/-! ### Acceptance -/

theorem goes_requestAccept_idle {s : State} {svc : Nat}
    (h : s.hub.fw.running = false ∨ s.hub.fw.busy = true ∨ s.nextBell svc = none) : Goes s (.requestAccept svc) s := by
  refine congrArg Host.Outcome.next ?_
  unfold State.requestAccept
  rcases h with h | h | h
  · simp [h]
  · simp [h]
  · simp [h]

section Accept

variable {s : State} {svc k : Nat} (hfw : s.hub.fw.running = true) (hbusy : s.hub.fw.busy = false) (hbell : s.nextBell svc = some k)
include hfw hbusy hbell

theorem goes_requestAccept_invalid (h : (get {} s.hub.xctxs (qXctx (s.queueOf k).cfg)).valid = false) :
    Goes s (.requestAccept svc) (s.commit k) := by
  refine congrArg Host.Outcome.next ?_
  simp [State.requestAccept, hfw, hbusy, hbell, h]

theorem goes_requestAccept {q : Queue} {a : Nat} {t : State} {p : Request × Bool} {r : Request} {ports : List Nat} {u : State}
    (hq : q = s.queueOf k) (hvalid : (get {} s.hub.xctxs (qXctx q.cfg)).valid = true)
    (ha : a = q.base.toNat + 64 * (q.cons.toNat % qSize q.cfg)) (ht : t = s.reachBytes (qXctx q.cfg) a 64)
    (hp : p = readRequest k (t.virtRead (qXctx q.cfg) a 64))
    (hr : r = { p.1 with stamp := t.stamp, order := t.hub.accepts, svc := svc, takeOk := t.takesOver p.1 })
    (hports : ports = t.ownPorts (qXctx q.cfg) r.compl.toNat 0x1C true)
    (hu : u = (((t.ask ports 0).1.readOver (qXctx q.cfg) a 64).commit k).writeAccepted k r) :
    (t.reached (qXctx q.cfg) a 64 = false ∨ (t.ask ports 0).2 < ports.length → Goes s (.requestAccept svc) t) ∧
    (t.reached (qXctx q.cfg) a 64 = true → ports.length ≤ (t.ask ports 0).2 →
      (r.kind = 1 → (get {} t.hub.xctxs (qXctx q.cfg)).part ≠ qPart q.cfg →
        Goes s (.requestAccept svc) (u.answerReq r 3 0x31 0)) ∧
      (r.kind ≠ 1 ∨ (get {} t.hub.xctxs (qXctx q.cfg)).part = qPart q.cfg →
        (p.2 = true → r.kind ≠ 3 → Goes s (.requestAccept svc) (u.send (some (endHub, 70000 + svc)) (requestEvent r))) ∧
        (p.2 = true → r.kind = 3 → Goes s (.requestAccept svc) ((u.modLaunch (k * 2 ^ 32 + r.handle) fun l => { l with
          closing := l.closing || l.state ≠ .failed }).send (some (endHub, 70000 + svc)) (.closeSources r))) ∧
        (p.2 = false → Goes s (.requestAccept svc) (u.answerReq r 3 0x3A 0)))) := by
  have hexec : exec (.requestAccept svc) s = .next (if !t.reached (qXctx q.cfg) a 64 then t
      else if (t.ask ports 0).2 < ports.length then t
      else if r.kind = 1 && (get {} t.hub.xctxs (qXctx q.cfg)).part ≠ qPart q.cfg then u.answerReq r 3 0x31 0
      else if p.2 then (u.atAcceptance r).send (some (endHub, 70000 + svc)) (requestEvent r) else u.answerReq r 3 0x3A 0) := by
    subst hq ha ht hp hr hports hu
    refine congrArg Host.Outcome.next ?_
    simp only [State.requestAccept, hfw, hbusy, hbell, hvalid, kACCESS, kBAD_REQUEST, Bool.not_true, Bool.or_self, Bool.false_eq_true, if_false]
  have hqueue : r.queue = k := by rw [hr, hp]; rfl
  refine ⟨fun h => hexec.trans (congrArg _ ?_), fun hreach hroom => ?_⟩
  · rcases h with h | h <;> simp [h]
  have hgo : exec (.requestAccept svc) s = .next (if r.kind = 1 && (get {} t.hub.xctxs (qXctx q.cfg)).part ≠ qPart q.cfg then
        u.answerReq r 3 0x31 0
      else if p.2 then (u.atAcceptance r).send (some (endHub, 70000 + svc)) (requestEvent r) else u.answerReq r 3 0x3A 0) := by
    rw [hexec, hreach, if_neg (by decide), if_neg (Nat.not_lt.2 hroom)]
  refine ⟨fun hkind hpart => hgo.trans (congrArg _ ?_), fun hpart => ?_⟩
  · exact if_pos (by simp [hkind, hpart])
  have hpasses : ¬ (r.kind = 1 && (get {} t.hub.xctxs (qXctx q.cfg)).part ≠ qPart q.cfg) = true := by
    rcases hpart with h | h <;> simp [h]
  rw [if_neg hpasses] at hgo
  refine ⟨fun hok hkind => hgo.trans (congrArg _ ?_), fun hok hkind => hgo.trans (congrArg _ ?_), fun hbad => hgo.trans (congrArg _ ?_)⟩
  · rw [if_pos hok, State.atAcceptance, if_neg hkind]
  · have hevent : requestEvent r = .closeSources r := by simp only [requestEvent, hkind]
    rw [if_pos hok, State.atAcceptance, if_pos hkind, hqueue, hevent]
  · exact if_neg (by rw [hbad]; decide)

end Accept

/-! ### Launches -/

/-- The message is a replay or a release of a launch. -/
def namesLaunch (lid : Nat) : Instr → Bool
  | .replay q | .release q => q.queue * 2 ^ 32 + q.handle = lid
  | _ => false

theorem namesLaunch_iff (lid : Nat) (i : Instr) : namesLaunch lid i = true ↔
    ∃ q, (i = .replay q ∨ i = .release q) ∧ q.queue * 2 ^ 32 + q.handle = lid := by
  cases i <;> simp only [namesLaunch, reduceCtorEq, Instr.replay.injEq, Instr.release.injEq, or_self, or_false, false_or, false_and,
    exists_false, Bool.false_eq_true, decide_eq_true_eq, exists_eq_left']

theorem takesOver_iff (s : State) (r : Request) : s.takesOver r = true ↔
    (∃ l, s.launch (r.queue * 2 ^ 32 + r.takeHandle) = some l ∧ l.state = .complete) ∧
      ∀ f ∈ s.net, ∀ q, f.ev = .replay q ∨ f.ev = .release q →
        q.queue * 2 ^ 32 + q.handle ≠ r.queue * 2 ^ 32 + r.takeHandle := by
  have htakes : s.takesOver r = ((s.launch (r.queue * 2 ^ 32 + r.takeHandle)).any (fun l => l.state = .complete) &&
      !(s.net.any fun f => namesLaunch (r.queue * 2 ^ 32 + r.takeHandle) f.ev)) := by
    unfold State.takesOver
    congr
  rw [htakes, Bool.and_eq_true, Bool.not_eq_true', List.any_eq_false, Option.any_eq_true]
  simp only [decide_eq_true_eq, ne_eq, namesLaunch_iff, not_exists, not_and]

theorem takenFrom_isNone (s : State) (r : Request) : (s.takenFrom r).isNone = true ↔
    r.takeOk = false ∨ ∀ l, s.launch (r.queue * 2 ^ 32 + r.takeHandle) = some l → l.state ≠ .complete := by
  have htaken : s.takenFrom r = (match s.launch (r.queue * 2 ^ 32 + r.takeHandle) with
      | some l => if r.takeOk && l.state = .complete then some (r.queue * 2 ^ 32 + r.takeHandle, l) else none
      | none => none) := rfl
  rw [htaken]
  generalize r.queue * 2 ^ 32 + r.takeHandle = old
  cases s.launch old with
  | none => simp
  | some l => by_cases hok : r.takeOk = true <;> by_cases hc : l.state = .complete <;> simp [hok, hc]

section Launch

variable {s : State} {r : Request} {x lid old : Nat} {parts : List (Nat × Nat)} {fin : State → State}
  (hx : x = qXctx (s.queueOf r.queue).cfg) (hlid : lid = r.queue * 2 ^ 32 + r.handle) (hold : old = r.queue * 2 ^ 32 + r.takeHandle)
  (hparts : parts = [(r.arg.toNat, 0x40), (r.arg.toNat, imageEnd fun o n => s.virtRead x (r.arg.toNat + o) n)] ++
    (if r.coll = 0 then [] else [(r.coll.toNat, groupsEnd (fun o n => s.virtRead x (r.coll.toNat + o) n) 16 0)]))
include hx hparts

theorem goes_launch_reads : ∀ p, parts.find? (fun p => !s.reached x p.1 p.2) = some p → Goes s (.launch r)
    { s.reachBytes x p.1 p.2 with net := { pair := some (endHub, 70000 + r.svc), ev := .launch r } :: s.net } := by
  intro p hp
  have himage : s.imageParts r = parts := by rw [hparts, hx]; rfl
  refine congrArg Host.Outcome.next ?_
  rw [State.launchRead, State.imageNext, himage, ← hx, hp]

variable (hfin : fin = fun u => parts.foldl (fun t p => t.readOver x p.1 p.2) u)
include hlid hold hfin

theorem goes_launch_read (hread : ∀ p ∈ parts, s.reached x p.1 p.2 = true) :
    ((∃ l, s.launch lid = some l) → Goes s (.launch r) (fin (s.answerReq r 3 0x3A 0))) ∧
    (s.launch lid = none → r.take = false → Goes s (.launch r) (fin (s.installLaunch r))) ∧
    (s.launch lid = none → r.take = true →
      (r.takeOk = false ∨ (∀ l, s.launch old = some l → l.state ≠ .complete) →
        Goes s (.launch r) (fin (s.answerReq r 3 0x3A 0))) ∧
      (r.takeOk = true → (∃ l, s.launch old = some l ∧ l.state = .complete) →
        Goes s (.launch r) (fin (s.installLaunch r)))) := by
  have himage : s.imageParts r = parts := by rw [hparts, hx]; rfl
  have hnone : parts.find? (fun p => !s.reached x p.1 p.2) = none := List.find?_eq_none.2 fun p hp => by
    rw [hread p hp]; decide
  have hexec : exec (.launch r) s = .next (fin (s.doLaunch r)) := by
    refine congrArg Host.Outcome.next ?_
    rw [State.launchRead, State.imageNext, himage, ← hx, hnone, hfin]
  have hdo : s.doLaunch r = if (s.launch lid).isSome || (r.take && (s.takenFrom r).isNone) then s.answerReq r 3 0x3A 0
      else s.installLaunch r := by rw [hlid]; rfl
  have htaken := takenFrom_isNone s r
  rw [← hold] at htaken
  rw [hdo] at hexec
  refine ⟨fun ⟨l, hl⟩ => hexec.trans (congrArg _ (congrArg _ (if_pos ?_))), fun hno htake =>
    hexec.trans (congrArg _ (congrArg _ (if_neg ?_))), fun hno htake => ⟨fun h => hexec.trans (congrArg _ (congrArg _ (if_pos ?_))),
      fun hok ⟨l, hl, hc⟩ => hexec.trans (congrArg _ (congrArg _ (if_neg ?_)))⟩⟩
  · simp [hl]
  · simp [hno, htake]
  · rw [htaken.2 h, htake]; simp
  · have hsome : (s.takenFrom r).isNone = false := by
      rw [← Bool.not_eq_true, htaken]
      rintro (h | h)
      · exact absurd hok (by rw [h]; decide)
      · exact h l hl hc
    simp [hno, hsome]

end Launch

/-! ### Requests of a launch -/

theorem reqAccepted_iff (l : Launch) : (reqAccepted l 2 = true ↔ l.state = .complete) ∧ (reqAccepted l 3 = true ↔ l.state ≠ .failed) ∧
    (reqAccepted l 4 = true ↔ l.state = .complete ∨ l.state = .failed) ∧
    (reqAccepted l 5 = true ↔ (l.state = .complete ∧ l.ladder ≠ .saved) ∨ l.state = .failed) ∧
    (reqAccepted l 6 = true ↔ (l.state = .seeding ∨ l.state = .running) ∧ l.isOpen = true ∧ l.closed = false) := by
  simp [reqAccepted, and_assoc]

section Requests

variable {s : State} {r : Request} {i : Instr} {kind lid : Nat} {fin : State → State}
  (hkind : (i, kind) ∈ [(Instr.replay r, 2), (.closeSources r, 3), (.release r, 4), (.dump r, 5), (.attachRing r, 6)])
  (hlid : lid = r.queue * 2 ^ 32 + r.handle) (hfin : fin = if kind = 2 then fun t => t.serveHeld lid else id)
include hkind hlid hfin

theorem exec_request : exec i s = .next (fin (s.applyReq { r with kind := kind })) := by
  subst hfin hlid
  simp only [List.mem_cons, List.not_mem_nil, or_false] at hkind
  obtain ⟨rfl, rfl⟩ | ⟨rfl, rfl⟩ | ⟨rfl, rfl⟩ | ⟨rfl, rfl⟩ | ⟨rfl, rfl⟩ := hkind <;> rfl

theorem goes_request_unknown (h : s.launch lid = none) : Goes s i (fin (s.answerReq { r with kind := kind } 3 0x3B 0)) := by
  refine (exec_request hkind hlid hfin).trans (congrArg _ (congrArg _ ?_))
  rw [hlid] at h
  simp only [State.applyReq, h]
  rfl

theorem goes_request {l : Launch} {now : Prop} (hl : s.launch lid = some l)
    (hnow : now ↔ (kind = 4 ∨ ∀ q ∈ l.requests, q.svc ≠ r.svc) ∧ reqAccepted l kind = true) :
    (¬ now → l.state = .failed → Goes s i (fin (s.answerReq { r with kind := kind } 3 0x3D 0))) ∧
    (¬ now → l.state ≠ .failed →
      Goes s i (fin (s.modLaunch lid fun l => { l with requests := l.requests ++ [{ r with kind := kind }] }))) ∧
    (now → Goes s i (fin (s.doReq lid l { r with kind := kind }))) := by
  have hcond : (l.inTurn { r with kind := kind } && reqAccepted l kind) = true ↔ now := by
    rw [hnow, Bool.and_eq_true, Launch.inTurn, Bool.or_eq_true, decide_eq_true_eq, Bool.not_eq_true', List.any_eq_false]
    simp only [decide_eq_true_eq]
  have hexec : exec i s = .next (fin (if l.inTurn { r with kind := kind } && reqAccepted l kind then
        s.doReq lid l { r with kind := kind }
      else if l.state = .failed then s.answerReq { r with kind := kind } 3 0x3D 0
      else s.modLaunch lid fun l => { l with requests := l.requests ++ [{ r with kind := kind }] })) := by
    refine (exec_request hkind hlid hfin).trans (congrArg _ (congrArg _ ?_))
    subst hlid
    simp only [State.applyReq, hl, kLAUNCH_FAILED]
  refine ⟨fun hn hf => hexec.trans (congrArg _ (congrArg _ ?_)), fun hn hf => hexec.trans (congrArg _ (congrArg _ ?_)),
    fun hy => hexec.trans (congrArg _ (congrArg _ (if_pos (hcond.2 hy))))⟩
  · rw [if_neg (hn ∘ hcond.1), if_pos hf]
  · rw [if_neg (hn ∘ hcond.1), if_neg hf]

end Requests

/-! ### Stealing -/

theorem goes_queueSteal {s : State} {thief q : Nat} {may : Prop} (hmay : may ↔ thief < 16 ∧ s.hub.fw.running = true ∧
    (s.queueOf q).full = true ∧ (∀ k ∈ s.queuesOf thief, (s.queueOf k).full = false) ∧ (s.queueOf q).stolenBy = none ∧
    s.victim thief = some (s.queueOf q).server ∧ s.dieInPart (qPart (s.queueOf q).cfg) (thief / 4) = true) :
    (may → Goes s (.queueSteal thief q) (s.modQueue q fun x => { x with stolenBy := some thief, begun := false })) ∧
    (¬ may → Goes s (.queueSteal thief q) s) := by
  have hcond : (thief < 16 && s.hub.fw.running && (s.queueOf q).full && !((s.queuesOf thief).any fun k => (s.queueOf k).full) &&
      (s.queueOf q).stolenBy.isNone && s.victim thief = some (s.queueOf q).server && s.dieInPart (qPart (s.queueOf q).cfg) (thief / 4)) =
        true ↔ may := by
    rw [hmay]
    simp only [Bool.and_eq_true, decide_eq_true_eq, Bool.not_eq_true', List.any_eq_false, Option.isNone_iff_eq_none, and_assoc,
      Bool.not_eq_true]
  exact ⟨fun h => congrArg Host.Outcome.next (if_pos (hcond.2 h)), fun h => congrArg Host.Outcome.next (if_neg (h ∘ hcond.1))⟩

theorem returnQueues_eq (s : State) : s.returnQueues =
    ((s.hub.queues.filter fun p => p.2.begun && p.2.stolenBy.any fun t => !s.holdsRequest t p.1).map
      Prod.fst).foldl (fun s k => s.modQueue k fun x => { x with stolenBy := none }) s := by
  rw [State.returnQueues]
  refine congrArg (List.foldl _ s) ?_
  rw [← List.filterMap_eq_map, List.filterMap_filter]
  refine congrArg (List.filterMap · s.hub.queues) (funext fun p => ?_)
  cases p.2.stolenBy <;> simp

/-- Settles O44: doorbells, registers, acceptance, the requests one after another, and stealing. -/
theorem queuesAndRequests : Obligations.QueuesAndRequests := by
  unfold Obligations.QueuesAndRequests
  refine ⟨fun s k p q x => goes_doorbell, goes_qcfgWrite, fun s svc => ⟨goes_requestAccept_idle, fun k => goes_requestAccept_invalid,
      fun k q a t p r ports u hfw hbusy hbell => goes_requestAccept hfw hbusy hbell⟩,
    fun s r x lid old parts fin hx hlid hold hparts hfin => ⟨goes_launch_reads hx hparts, goes_launch_read hx hlid hold hparts hfin⟩, takesOver_iff,
    fun s r i kind lid fin hkind hlid hfin => ⟨goes_request_unknown hkind hlid hfin, fun l now hl hnow => ?_⟩, reqAccepted_iff,
    fun s thief q may hmay => ?_⟩
  · obtain ⟨hfailed, hwaits, hgoes⟩ := goes_request hkind hlid hfin hl hnow
    refine ⟨hfailed, hwaits, fun hy => ⟨?_, ?_, ?_, ?_, ?_⟩⟩ <;> rintro rfl
    · exact hgoes hy
    · subst hfin; exact hgoes hy
    · subst hfin; exact hgoes hy
    · subst hfin; exact hgoes hy
    · subst hfin; exact hgoes hy
  · obtain ⟨hsteals, hstays⟩ := goes_queueSteal hmay
    exact ⟨hsteals, hstays, returnQueues_eq s⟩

end Sys2Proof.Machine

/-! ## O45: rings, the classifier, frames in and out (19 R459-R464) -/

namespace Sys2Proof.Machine
open Sys2Proof

theorem goes_ringConfigWrite (s : State) (r : Nat) (x : Word) :
    (ringEn (get {} s.hub.rings r).word = true ∨ s.ringOk x = false → Goes s (.ringConfigWrite r x) s) ∧
    (ringEn (get {} s.hub.rings r).word = false → s.ringOk x = true →
      Goes s (.ringConfigWrite r x) (s.modRing r fun g => { g with word := x &&& 0x87FFFFFFFF8FFFFF })) := by
  refine ⟨fun h => congrArg Host.Outcome.next (if_pos ?_), fun hoff hok => congrArg Host.Outcome.next (if_neg ?_)⟩
  · rcases h with h | h <;> simp only [h, Bool.true_or, Bool.not_false, Bool.or_true]
  · simp only [hoff, hok]; decide

theorem ringOk_iff (s : State) (x : Word) : s.ringOk x = true ↔ 6 ≤ bits x.toNat 39 36 ∧ bits x.toNat 39 36 ≤ 14 ∧
    bits x.toNat 19 0 + (bits x.toNat 53 40 + 1) * 2 ^ bits x.toNat 39 36 ≤ 0x40000 ∧
    s.coreInPart (bits x.toNat 58 54) (bits x.toNat 35 23) = true := by
  simp only [State.ringOk, Bool.and_eq_true, decide_eq_true_eq, and_assoc]
  exact Iff.rfl

/-! ### The classifier -/

theorem goes_classifierWrite_control {s u : State} {e : Nat} {x : Word} {same : Prop}
    (hsame : same ↔ x.getLsbD 63 = true ∧ x.getLsbD 62 = (s.clsEntry e).control.getLsbD 62) (hu : same → u = s)
    (hu' : ¬ same → u = s.modHub fun h => { h with
      groups := h.groups.filter fun g => !(g.first ≤ e && e < g.first + g.entries.length) }) :
    (x.getLsbD 63 = false ∨ x.getLsbD 62 = true → Goes s (.classifierWrite e 0 x) (u.modCls e fun c => { c with control := x })) ∧
    (x.getLsbD 63 = true → x.getLsbD 62 = false →
      Goes s (.classifierWrite e 0 x) ((u.modCls e fun c => { c with control := x }).enableGroup e)) := by
  have hkeeps : (if x.getLsbD 63 && x.getLsbD 62 = (s.clsEntry e).joins then s else s.disableGroup e) = u := by
    have hcond : (x.getLsbD 63 && x.getLsbD 62 = (s.clsEntry e).joins) = true ↔ same := by
      rw [hsame, Bool.and_eq_true, decide_eq_true_eq]; rfl
    by_cases h : same
    · rw [if_pos (hcond.2 h), hu h]
    · rw [if_neg (h ∘ hcond.1), hu' h]; rfl
  have hexec : exec (.classifierWrite e 0 x) s = .next (if x.getLsbD 63 && !x.getLsbD 62 then
      (u.modCls e fun c => { c with control := x }).enableGroup e else u.modCls e fun c => { c with control := x }) := by
    rw [← hkeeps]; rfl
  refine ⟨fun h => hexec.trans (congrArg _ (if_neg ?_)), fun hen hhead => hexec.trans (congrArg _ (if_pos ?_))⟩
  · rcases h with h | h <;> simp only [h, Bool.false_and, Bool.not_true, Bool.and_false, Bool.false_eq_true, not_false_eq_true]
  · simp only [hen, hhead]; decide

theorem enableGroup_cases {s u : State} {e : Nat} {l : List Nat} {g : ClsGroup} (hl : l = s.groupOf e)
    (hu : u = l.foldl State.disableGroup s) (hg : g = { first := l.headD e, entries := l.map s.clsEntry }) :
    (s.groupOk e = true → s.enableGroup e = u.modHub fun h => { h with
      groups := (h.groups.filter fun x => x.first < g.first) ++ [g] ++ h.groups.filter fun x => g.first < x.first }) ∧
    (s.groupOk e = false → s.hub.clsErr = true → s.enableGroup e = u) ∧
    (s.groupOk e = false → s.hub.clsErr = false →
      s.enableGroup e = u.modHub fun h => { h with clsErr := true, clsBad := g.first }) := by
  subst hl hu hg
  refine ⟨fun h => if_pos h, fun h herr => ?_, fun h herr => ?_⟩
  · exact (if_neg (by rw [h]; decide)).trans (if_pos herr)
  · exact (if_neg (by rw [h]; decide)).trans (if_neg (by rw [herr]; decide))

/-! ### Frames -/

theorem groupFor_none {s : State} {port : Nat} {frame : List Byte}
    (h : ∀ g ∈ s.hub.groups, ∃ c ∈ g.entries, c.matches port frame = false) : s.groupFor port frame = none := by
  refine List.find?_eq_none.2 fun g hg hall => ?_
  obtain ⟨c, hc, hno⟩ := h g hg
  have hyes := List.all_eq_true.1 hall c hc
  rw [hno] at hyes
  exact Bool.noConfusion hyes

section Frame

variable {s : State} {port : Nat} {good : Bool} {frame : List Byte}

theorem goes_frameArrival_damaged (h : good = false ∨ ((s.port port).galsol = false ∧ 9216 < frame.length)) :
    Goes s (.frameArrival port good frame) (s.dropFrame port 0) :=
  congrArg Host.Outcome.next (if_pos (by rcases h with h | ⟨h, hlen⟩ <;> simp [*]))

/-- An undamaged frame goes by its group. -/
theorem exec_frameArrival_good (hgood : good = true) (hlen : (s.port port).galsol = true ∨ frame.length ≤ 9216) :
    exec (.frameArrival port good frame) s = .next (match s.groupFor port frame with
      | none => s.dropFrame port 1
      | some g => if g.action.getLsbD 0 then s.dropFrame port 2 else s.deliverFrame port g.first g.action frame) := by
  refine congrArg Host.Outcome.next (if_neg ?_)
  rcases hlen with h | h
  · simp [hgood, h]
  · simp [hgood, h]

theorem goes_frameArrival_unclassified (hgood : good = true) (hlen : (s.port port).galsol = true ∨ frame.length ≤ 9216)
    (h : ∀ g ∈ s.hub.groups, ∃ c ∈ g.entries, c.matches port frame = false) :
    Goes s (.frameArrival port good frame) (s.dropFrame port 1) :=
  (exec_frameArrival_good hgood hlen).trans (by rw [groupFor_none h])

theorem goes_frameArrival_group (hgood : good = true) (hlen : (s.port port).galsol = true ∨ frame.length ≤ 9216) {g : ClsGroup}
    {act : Word} (hg : s.hub.groups.find? (fun g => g.entries.all (ClsEntry.matches port frame)) = some g)
    (hact : act = (g.entries.getLastD {}).action) :
    (act.getLsbD 0 = true → Goes s (.frameArrival port good frame) (s.dropFrame port 2)) ∧
    (act.getLsbD 0 = false → Goes s (.frameArrival port good frame) (s.deliverFrame port g.first act frame)) := by
  have hgroup : s.groupFor port frame = some g := hg
  have hexec := exec_frameArrival_good (s := s) (port := port) (frame := frame) hgood hlen
  rw [hgroup] at hexec
  have haction : g.action = act := hact.symm
  simp only [haction] at hexec
  exact ⟨fun h => hexec.trans (congrArg _ (if_pos h)), fun h => hexec.trans (congrArg _ (if_neg (by rw [h]; decide)))⟩

theorem goes_egressFrame_idle (h : (s.port port).down = true ∨ ((s.port port).galsol = true ∧ (s.port port).up = false) ∨
    s.nextEgress port = none) : Goes s (.egressFrame port) s := by
  refine congrArg Host.Outcome.next ?_
  unfold State.egressFrame
  rcases h with h | ⟨h, hup⟩ | h
  · simp [h]
  · simp [h, hup]
  · simp [h]

theorem goes_egressFrame {q : Nat} {e : Egress} {f : Nat × List Byte} {rest : List (Nat × List Byte)} {u : State}
    (hdown : (s.port port).down = false) (hup : (s.port port).galsol = false ∨ (s.port port).up = true)
    (hq : s.nextEgress port = some q) (he : e = get {} s.hub.egress q) (hf : e.frames = f :: rest)
    (hu : u = (s.modHub fun h => { h with egress := put {} h.egress q { e with frames := rest } }).modPort port
      (fun p => { p with lastEg := q })) :
    Goes s (.egressFrame port) ((if e.conf.getLsbD 57 then u.stampFrame port q else u).leave port f.2) := by
  refine congrArg Host.Outcome.next ?_
  have hgo : ¬ ((s.port port).down || ((s.port port).galsol && !(s.port port).up)) = true := by
    rcases hup with h | h <;> simp [hdown, h]
  rw [State.egressFrame, if_neg hgo, hq]
  simp only [← he, hf, List.drop_succ_cons, List.drop_zero, ← hu]

end Frame

/-- Settles O45: rings, entries, groups, frames in and out. -/
theorem packetEvents : Obligations.PacketEvents := by
  unfold Obligations.PacketEvents
  refine ⟨fun s r x => ?_, fun s e x => ⟨rfl, rfl, rfl, fun same hsame u => goes_classifierWrite_control hsame⟩,
    fun s u e l g => enableGroup_cases, fun s port good frame drop hdrop => ?_,
    fun s port => ⟨goes_egressFrame_idle, fun q e f rest u => goes_egressFrame, rfl⟩⟩
  · obtain ⟨hstays, hgoes⟩ := goes_ringConfigWrite s r x
    exact ⟨hstays, hgoes, ringOk_iff s x⟩
  · have hdrops : ∀ c, drop c = s.dropFrame port c := hdrop
    simp only [hdrops]
    exact ⟨fun h => goes_frameArrival_damaged (.inl h), fun h hlen => goes_frameArrival_damaged (.inr ⟨h, hlen⟩),
      fun hgood hlen => ⟨goes_frameArrival_unclassified hgood hlen, fun g act => goes_frameArrival_group hgood hlen⟩⟩

end Sys2Proof.Machine

/-! ## O46: links (19 R465-R471, 21 R524) -/

namespace Sys2Proof.Machine
open Sys2Proof

section Link

variable {s : State} {port : Nat}

/-! ### Training and sending -/

theorem goes_pcsLock (s : State) (port width : Nat) : Goes s (.pcsLock port width) (s.modPort port fun p => { p with
    up := false, losses := p.losses + (if p.up then 1 else 0), trainSent := 0, trainGood := 0, peer := [], locked := true
    down := false, offered := width % 3, moded := true
    galsol := if p.moded then p.galsol else width < 3 }) := rfl

theorem goes_trainFlit_idle (h : (s.port port).galsol = false ∨ (s.port port).locked = false) : Goes s (.trainFlit port) s :=
  congrArg Host.Outcome.next (if_neg (by rcases h with h | h <;> simp [h]))

theorem goes_trainFlit (hgalsol : (s.port port).galsol = true) (hlocked : (s.port port).locked = true) : Goes s (.trainFlit port)
    (((s.sendPlain port 1 (s.trainPayload port)).modPort port fun p => { p with trainSent := p.trainSent + 1 }).linkUp port) :=
  congrArg Host.Outcome.next (if_pos (by rw [hgalsol, hlocked]; rfl))

theorem port_idle_iff (p : Port) : p.idle = true ↔ p.up = false ∨ 1024 ≤ p.replay.length ∨ p.nextVc = none := by
  simp [Port.idle, or_assoc]

theorem goes_dataFlitSend_idle {idle : Prop}
    (hidle : idle ↔ (s.port port).up = false ∨ 1024 ≤ (s.port port).replay.length ∨ (s.port port).nextVc = none) (vc : Nat) :
    ((s.port port).galsol = true → (s.port port).locked = true → idle → Goes s (.dataFlitSend port vc) (s.sendPlain port 0 [])) ∧
    (¬ ((s.port port).galsol = true ∧ (s.port port).locked = true) → idle → Goes s (.dataFlitSend port vc) s) ∧
    (¬ idle → (s.port port).nextVc ≠ some vc → Goes s (.dataFlitSend port vc) s) := by
  have hnext : idle → ¬ ((s.port port).up && (s.port port).replay.length < 1024 && (s.port port).nextVc = some vc) = true := fun h => by
    rcases hidle.1 h with h | h | h
    · simp [h]
    · simp [Nat.not_lt.2 h]
    · simp [h]
  refine ⟨fun hgalsol hlocked h => congrArg Host.Outcome.next (if_pos ?_), fun hno h =>
    congrArg Host.Outcome.next ((if_neg ?_).trans (if_neg (hnext h))), fun h hvc =>
    congrArg Host.Outcome.next ((if_neg ?_).trans (if_neg ?_))⟩
  · rw [hgalsol, hlocked, (port_idle_iff _).2 (hidle.1 h)]; rfl
  · rw [Bool.and_eq_true, Bool.and_eq_true]
    exact fun hall => hno hall.1
  · rw [Bool.and_eq_true, port_idle_iff, ← hidle]
    exact fun hall => h hall.2
  · simp [hvc]

theorem goes_dataFlitSend {vc h : Nat} {m : TxMsg} {rest : List TxMsg} (hup : (s.port port).up = true)
    (hroom : (s.port port).replay.length < 1024) (hvc : (s.port port).nextVc = some vc) (hq : get [] (s.port port).txq vc = m :: rest)
    (hh : h = 2 * 2 ^ 60 + vc * 2 ^ 58 + (s.port port).txSeq * 2 ^ 46 + (s.port port).common + (m.rest.take 116).length * 2 ^ 15 +
      (if m.rest.length ≤ 116 then 2 ^ 14 else 0)) :
    Goes s (.dataFlitSend port vc) ((s.emit (.flit port (mkFlit h (m.rest.take 116)))).modPort port fun p => { p.returned with
      txSeq := (p.txSeq + 1) % 4096, lastVc := vc, credits := put 0 p.credits vc (get 0 p.credits vc - 1)
      replay := p.replay ++ [{ seq := p.txSeq, times := 1, flit := mkFlit h (m.rest.take 116), head := m.head, lid := m.lid }]
      txq := put [] p.txq vc (if m.rest.length ≤ 116 then rest else { m with rest := m.rest.drop 116 } :: rest) }) := by
  have hidle : (s.port port).idle = false := by
    rw [← Bool.not_eq_true, port_idle_iff]
    simp [hup, hvc, hroom]
  have hlast : (m.rest.drop 116).isEmpty = decide (m.rest.length ≤ 116) := by
    rw [Bool.eq_iff_iff, List.isEmpty_iff, List.drop_eq_nil_iff, decide_eq_true_iff]
  refine congrArg Host.Outcome.next ?_
  subst hh
  simp only [State.dataFlitSend, hidle, hup, hvc, hroom, hq, hlast, Bool.and_false, Bool.false_eq_true, if_false, decide_true, Bool.and_self,
    if_true, decide_eq_true_eq]

/-! ### Receiving -/

/-- What a port makes of a flit that is whole: `s1` has taken its acknowledgements and credits. -/
theorem exec_flitReceive_whole {flit : List Byte} {h : Nat} {x : List Byte} (hh : h = leAt flit 0 8) (hx : x = (flit.drop 8).take 116)
    (hgalsol : (s.port port).galsol = true) (hlocked : (s.port port).locked = true) (hlen : flit.length = 128)
    (hcrc : leAt flit 124 4 = crc32c (flit.take 124)) (htype : bits h 63 60 < 4) {s1 : State}
    (hs1 : s1 = if (s.port port).up then s.acksCredits port h else s) :
    exec (.flitReceive port flit) s = .next (match bits h 63 60 with
      | 1 => if (s.port port).up then s1 else s1.trainReceived port x
      | 2 =>
        if !(s.port port).up then s1
        else if bits h 57 46 = (s.port port).rxSeq then
          (s1.modPort port fun p => { p with rxSeq := (p.rxSeq + 1) % 4096, nakking := false }).dataAccepted port
            (bits h 59 58) (bits h 14 14 = 1) (x.take (bits h 21 15))
        else s1.discard port
      | 3 => if (s.port port).up then s1.nakReceived port (leAt x 0 2) else s1
      | _ => s1) := by
  subst hh hx hs1
  refine congrArg Host.Outcome.next ((if_neg ?_).trans (if_neg ?_))
  · simp [hgalsol, hlocked]
  · simp only [hlen, hcrc, Nat.not_le.2 htype, ne_eq, not_true_eq_false, decide_false, Bool.or_self, Bool.false_eq_true, not_false_eq_true]

section Flit

variable {flit : List Byte} {h : Nat} {x : List Byte} (hh : h = leAt flit 0 8) (hx : x = (flit.drop 8).take 116)
include hh

theorem goes_flitReceive_damaged (hgalsol : (s.port port).galsol = true) (hlocked : (s.port port).locked = true)
    (hbad : flit.length ≠ 128 ∨ leAt flit 124 4 ≠ crc32c (flit.take 124) ∨ 4 ≤ bits h 63 60) :
    Goes s (.flitReceive port flit) (s.discard port) := by
  subst hh
  refine congrArg Host.Outcome.next ((if_neg ?_).trans (if_pos ?_))
  · simp [hgalsol, hlocked]
  · simp only [Bool.or_eq_true, decide_eq_true_eq, or_assoc]
    exact hbad

include hx

theorem goes_flitReceive (hgalsol : (s.port port).galsol = true) (hlocked : (s.port port).locked = true) (hlen : flit.length = 128)
    (hcrc : leAt flit 124 4 = crc32c (flit.take 124)) :
    ((s.port port).up = false → bits h 63 60 = 1 → Goes s (.flitReceive port flit) (s.trainReceived port x)) ∧
    ((s.port port).up = false → (bits h 63 60 = 0 ∨ bits h 63 60 = 2 ∨ bits h 63 60 = 3) → Goes s (.flitReceive port flit) s) ∧
    ((s.port port).up = true → (bits h 63 60 = 0 ∨ bits h 63 60 = 1) → Goes s (.flitReceive port flit) (s.acksCredits port h)) ∧
    ((s.port port).up = true → bits h 63 60 = 2 → bits h 57 46 = (s.port port).rxSeq → Goes s (.flitReceive port flit)
      (((s.acksCredits port h).modPort port fun p => { p with
        rxSeq := (p.rxSeq + 1) % 4096, nakking := false }).dataAccepted port (bits h 59 58) (decide (bits h 14 14 = 1))
          (x.take (bits h 21 15)))) ∧
    ((s.port port).up = true → bits h 63 60 = 2 → bits h 57 46 ≠ (s.port port).rxSeq →
      Goes s (.flitReceive port flit) ((s.acksCredits port h).discard port)) ∧
    ((s.port port).up = true → bits h 63 60 = 3 →
      Goes s (.flitReceive port flit) ((s.acksCredits port h).nakReceived port (leAt x 0 2))) := by
  have hexec (htype : bits h 63 60 < 4) := exec_flitReceive_whole (s := s) (port := port) hh hx hgalsol hlocked hlen hcrc htype rfl
  refine ⟨fun hup ht => ?_, fun hup ht => ?_, fun hup ht => ?_, fun hup ht hseq => ?_, fun hup ht hseq => ?_, fun hup ht => ?_⟩ <;>
    refine (hexec (by omega)).trans (congrArg _ ?_)
  · simp only [ht, hup, Bool.false_eq_true, if_false]
  · rcases ht with ht | ht | ht <;> simp only [ht, hup, Bool.false_eq_true, if_false, Bool.not_false, if_true]
  · rcases ht with ht | ht <;> simp only [ht, hup, if_true]
  · simp only [ht, hup, hseq, if_true, Bool.not_true, Bool.false_eq_true, if_false]
  · simp only [ht, hup, hseq, if_true, Bool.not_true, Bool.false_eq_true, if_false]
  · simp only [ht, hup, if_true]

end Flit

/-! ### Losing a link -/

theorem goes_nakResend : ((s.port port).up = true → (s.port port).nakking = true →
      Goes s (.nakResend port) (s.sendPlain port 3 (leBytes 2 (s.port port).rxSeq))) ∧
    ((s.port port).up = false ∨ (s.port port).nakking = false → Goes s (.nakResend port) s) := by
  refine ⟨fun hup hnak => congrArg Host.Outcome.next (if_pos (by rw [hup, hnak]; rfl)), fun h => congrArg Host.Outcome.next (if_neg ?_)⟩
  rcases h with h | h <;> simp [h]

theorem goes_portDown {u : State} (hu : u = s.modPort port (fun p => { p with down := true, locked := false, losses := p.losses + 1 })) :
    ((s.port port).galsol = false → Goes s (.portDown port) u) ∧
    ((s.port port).galsol = true → Goes s (.portDown port) ((u.postLink 4 port 2 1).linkLost port)) := by
  subst hu
  exact ⟨fun h => congrArg Host.Outcome.next (if_neg (by rw [h]; decide)), fun h => congrArg Host.Outcome.next (if_pos h)⟩

theorem goes_linkWidthChange {width : Nat} {u : State}
    (hu : u = if port < 4 then s.modPort port fun p => { p with offered := width, width := width } else s) :
    (width = 0 → Goes s (.linkWidthChange port width) (u.modHub fun h => { h with
      links := h.links &&& ~~~(1 <<< port : BitVec 6) })) ∧
    (width ≠ 0 → Goes s (.linkWidthChange port width) (((u.logErr 4 errLinkDegraded (portLoc port) none 0).postLink 4 port 3
      1).modHub fun h => { h with links := h.links ||| (1 <<< port) })) := by
  subst hu
  exact ⟨fun h => congrArg Host.Outcome.next (if_pos h), fun h => congrArg Host.Outcome.next (if_neg h)⟩

end Link

/-- Settles O46: training, sending, receiving and losing a link. -/
theorem linkEvents : Obligations.LinkEvents := by
  unfold Obligations.LinkEvents
  rintro s port _ rfl
  obtain ⟨hnak, hnoNak⟩ := goes_nakResend (s := s) (port := port)
  refine ⟨goes_pcsLock s port, goes_trainFlit_idle, goes_trainFlit, fun idle hidle vc => goes_dataFlitSend_idle hidle vc,
    fun vc m rest h => goes_dataFlitSend, fun flit h x hh hx => ⟨fun hoff => ?_, fun hgalsol hlocked =>
      ⟨goes_flitReceive_damaged hh hgalsol hlocked, goes_flitReceive hh hx hgalsol hlocked⟩⟩, hnak, hnoNak, fun u => goes_portDown,
    fun width u => goes_linkWidthChange⟩
  exact congrArg Host.Outcome.next (if_pos (by rcases hoff with h | h <;> simp [h]))

end Sys2Proof.Machine

/-! ## O47: the clock, partitions, connection rows and sync overflow areas (19 R472, 20 R474-R478, 21 R582) -/

namespace Sys2Proof.Machine
open Sys2Proof

section Clock

variable {s : State} {x : Word}

/-- The high 48 bits of a time stamp, as a number. -/
theorem stamp_high (w : BitVec 96) : (w.extractLsb' 48 48).setWidth 64 = BitVec.ofNat 64 (w.toNat / 2 ^ 48) := by
  apply BitVec.eq_of_toNat_eq
  have hw := w.isLt
  simp only [BitVec.toNat_setWidth, BitVec.extractLsb'_toNat, Nat.shiftRight_eq_div_pow, BitVec.toNat_ofNat]
  omega

/-- The low 48 bits of a time stamp, moved up by 16 bits, as a number. -/
theorem stamp_low (w : BitVec 96) : (w.extractLsb' 0 48 ++ 0#16 : BitVec 64) = BitVec.ofNat 64 (w.toNat % 2 ^ 48 * 65536) := by
  apply BitVec.eq_of_toNat_eq
  rw [toNat_append_add]
  simp only [BitVec.extractLsb'_toNat, Nat.shiftRight_eq_div_pow, BitVec.toNat_ofNat]
  omega

theorem goes_clklatchWrite (s : State) (x : Word) : (x.getLsbD 0 = false → Goes s (.clklatchWrite x) s) ∧
    (x.getLsbD 0 = true → Goes s (.clklatchWrite x) (s.modHub fun h => { h with
      clkhi := BitVec.ofNat 64 (s.stamp.toNat / 2 ^ 48), clklo := BitVec.ofNat 64 (s.stamp.toNat % 2 ^ 48 * 65536) })) := by
  refine ⟨fun h => congrArg Host.Outcome.next (if_neg (by rw [h]; decide)), fun h => congrArg Host.Outcome.next ((if_pos h).trans ?_)⟩
  rw [stamp_high, stamp_low]

/-- A step that does not lead before time 0 adds its nanoseconds. -/
theorem steppedTime_eq {t : Nat} {off : Int} (h : 0 ≤ (t : Int) + off * (11 * 2 ^ 40)) :
    (steppedTime t off : Int) = t + off * (11 * 2 ^ 40) := by
  unfold steppedTime
  rw [if_pos h]
  exact Int.toNat_of_nonneg h

theorem goes_clkstepWrite (h : 0 ≤ (s.hub.time : Int) + x.toInt * (11 * 2 ^ 40)) : ∃ t, Goes s (.clkstepWrite x) t ∧
    (t.hub.time : Int) = s.hub.time + x.toInt * (11 * 2 ^ 40) ∧ t.mem = s.mem ∧ t.ctxs = s.ctxs ∧ t.net = s.net ∧
    t.launches = s.launches.map fun p => (p.1, p.2.map fun l =>
      if l.state = .seeding || l.state = .running then { l with stepped := true } else l) :=
  ⟨s.clkStep x, rfl, steppedTime_eq h, rfl, rfl, rfl, rfl⟩

end Clock

section Partition

variable {s : State} {n : Nat} {x : Word}

theorem goes_partWrite (hn : n < 32) :
    (partEn (get 0 s.hub.part n) = true → Goes s (.partWrite n x) (s.partRefuse n 3)) ∧
    (partEn (get 0 s.hub.part n) = false →
      (partEn x = false ∨ s.partCause n x = none → Goes s (.partWrite n x) (s.modHub fun h => { h with
        part := put 0 h.part n (x &&& 0xFE000000FFFFFFFF) })) ∧
      ∀ c, partEn x = true → s.partCause n x = some c → Goes s (.partWrite n x) (s.partRefuse n c)) := by
  have hlow : ¬ 32 ≤ n := by omega
  have hexec : exec (.partWrite n x) s = .next (s.partWrite n x) := rfl
  unfold State.partWrite at hexec
  rw [if_neg hlow] at hexec
  refine ⟨fun h => hexec.trans (congrArg _ (if_pos h)), fun h => ?_⟩
  have hoff : ¬ partEn (get 0 s.hub.part n) = true := by rw [h]; decide
  rw [if_neg hoff] at hexec
  refine ⟨fun hset => hexec.trans (congrArg _ ?_), fun c hx hc => hexec.trans (congrArg _ ?_)⟩
  · by_cases hx : partEn x = true
    · rw [if_pos hx, hset.resolve_left (by rw [hx]; decide)]; rfl
    · exact if_neg hx
  · rw [if_pos hx, hc]

theorem goes_xconnWrite (hn : n < 32) :
    (s.partOfPort n = none → Goes s (.xconnWrite n x) (s.modHub fun h => { h with
      xconn := put 0 h.xconn n (x &&& 0x3FFFFFFFFFF) })) ∧
    (∀ m, s.partOfPort n = some m → Goes s (.xconnWrite n x) (s.partRefuse m 3)) := by
  have hexec : exec (.xconnWrite n x) s = .next (s.xconnWrite n x) := rfl
  unfold State.xconnWrite at hexec
  rw [if_neg (by omega : ¬ 32 ≤ n)] at hexec
  exact ⟨fun h => hexec.trans (by rw [h]), fun m h => hexec.trans (by rw [h])⟩

/-- Something uses the die: a partition that has it holds a launch. -/
theorem any_holds_iff {d : Nat} : ((List.range 32).any fun n => s.dieInPart n d && s.partHolds n) = true ↔
    ∃ n < 32, s.dieInPart n d = true ∧ s.partHolds n = true := by
  simp only [List.any_eq_true, List.mem_range, Bool.and_eq_true]

theorem goes_syncovfWrite {d : Nat} :
    ((4 ≤ d ∨ 128 < x.toNat % 256 ∨ ∃ n < 32, s.dieInPart n d = true ∧ s.partHolds n = true) → Goes s (.syncovfWrite d x) s) ∧
    (d < 4 → x.toNat % 256 ≤ 128 → (∀ n < 32, s.dieInPart n d = true → s.partHolds n = false) →
      Goes s (.syncovfWrite d x) (s.modHub fun h => { h with syncOvf := put 0 h.syncOvf d (x &&& 0x1FFFFFF00FF) })) := by
  have hiff : (4 ≤ d || ((List.range 32).any fun n => s.dieInPart n d && s.partHolds n) || 128 < x.toNat % 256) = true ↔
      (4 ≤ d ∨ 128 < x.toNat % 256 ∨ ∃ n < 32, s.dieInPart n d = true ∧ s.partHolds n = true) := by
    rw [Bool.or_eq_true, Bool.or_eq_true, any_holds_iff, decide_eq_true_iff, decide_eq_true_iff, or_assoc, or_comm (b := 128 < _)]
  refine ⟨fun h => congrArg Host.Outcome.next (if_pos (hiff.mpr h)), fun hd hx hfree =>
    congrArg Host.Outcome.next (if_neg fun h => ?_)⟩
  rcases hiff.mp h with h | h | ⟨n, hn, hdie, hheld⟩
  · omega
  · omega
  · exact absurd hheld (by rw [hfree n hn hdie]; decide)

end Partition

/-- Settles O47: the clock, partitions, the connection matrix and the sync overflow areas. -/
theorem clockAndPartitions : Obligations.ClockAndPartitions := by
  unfold Obligations.ClockAndPartitions
  refine ⟨fun s x => ?_, fun s n x hn => ?_, fun s n c => rfl, fun s d x => goes_syncovfWrite⟩
  · obtain ⟨hoff, hon⟩ := goes_clklatchWrite s x
    exact ⟨hoff, hon, goes_clkstepWrite⟩
  · obtain ⟨hen, hfree⟩ := goes_partWrite (s := s) (x := x) hn
    exact ⟨hen, hfree, goes_xconnWrite hn⟩

end Sys2Proof.Machine

/-! ## O48: the pre-emption ladder, trap records and the watchdog (20 R494-R502, 21 R508-R514) -/

namespace Sys2Proof.Machine
open Sys2Proof

/-! ### The rungs of the ladder -/

section Ladder

variable {s : State} {lid : Nat} {l : Launch}

/-- The instructions of the ladder do nothing for a number without a launch. -/
theorem goes_ladder_none (h : s.launch lid = none) : ∀ i ∈ [Instr.preemptDrain lid, .preemptSave lid, .saveCaptureComplete lid,
    .preemptReset lid, .preemptRestore lid], Goes s i s := by
  have hdrain : s.preemptDrain lid = s := by unfold State.preemptDrain; rw [h]
  have hsave : s.preemptSave lid = s := by unfold State.preemptSave; rw [h]
  have hcapture : s.saveCapture lid = s := by unfold State.saveCapture; rw [h]
  have hreset : s.preemptReset lid = s := by unfold State.preemptReset; rw [h]
  have hrestore : s.preemptRestore lid = s := by unfold State.preemptRestore; rw [h]
  simp only [List.forall_mem_cons, List.not_mem_nil, false_implies, implies_true, and_true]
  exact ⟨congrArg _ hdrain, congrArg _ hsave, congrArg _ hcapture, congrArg _ hreset, congrArg _ hrestore⟩

variable (hl : s.launch lid = some l)
include hl

theorem exec_preemptDrain_of_launch : exec (.preemptDrain lid) s =
    .next (if !s.hub.fw.running || !l.preemptible || l.ladder ≠ .none then s
      else if s.t1Of l = 0 then s.beginSave lid
      else (s.modLaunch lid fun l => { l with ladder := .drain }).reachRung lid 1) := by
  refine congrArg Host.Outcome.next (show s.preemptDrain lid = _ from ?_)
  unfold State.preemptDrain
  rw [hl]

theorem exec_preemptSave_of_launch : exec (.preemptSave lid) s =
    .next (if s.hub.fw.running && l.ladder = .drain && s.rungPast l (s.t1Of l) then s.beginSave lid else s) := by
  refine congrArg Host.Outcome.next (show s.preemptSave lid = _ from ?_)
  unfold State.preemptSave
  rw [hl]

theorem exec_saveCaptureComplete_of_launch : exec (.saveCaptureComplete lid) s =
    .next (if s.hub.fw.running && ((l.ladder = .drain && s.drained lid) || (l.ladder = .save && s.capturable lid)) then
      s.captureLaunch lid l else s) := by
  refine congrArg Host.Outcome.next (show s.saveCapture lid = _ from ?_)
  unfold State.saveCapture
  rw [hl]

theorem exec_preemptReset_of_launch : exec (.preemptReset lid) s =
    .next (if s.hub.fw.running && l.ladder = .save && s.rungPast l (s.t2Of l) then s.resetRung lid else s) := by
  refine congrArg Host.Outcome.next (show s.preemptReset lid = _ from ?_)
  unfold State.preemptReset
  rw [hl]

theorem goes_preemptRestore_idle (h : s.hub.fw.running = false ∨ l.ladder ≠ .saved ∨ l.waiting = false ∨ s.firstInLine lid l = false) :
    Goes s (.preemptRestore lid) s := by
  refine congrArg Host.Outcome.next (show s.preemptRestore lid = s from ?_)
  unfold State.preemptRestore
  rw [hl]
  refine if_neg ?_
  rcases h with h | h | h | h <;> simp [h]

/-- Without luthier no rung is taken. -/
theorem goes_ladder_down (hdown : s.hub.fw.running = false) : ∀ i ∈ [Instr.preemptDrain lid, .preemptSave lid,
    .saveCaptureComplete lid, .preemptReset lid, .preemptRestore lid], Goes s i s := by
  simp only [List.forall_mem_cons, List.not_mem_nil, false_implies, implies_true, and_true]
  refine ⟨(exec_preemptDrain_of_launch hl).trans (congrArg _ (if_pos ?_)),
    (exec_preemptSave_of_launch hl).trans (congrArg _ (if_neg ?_)),
    (exec_saveCaptureComplete_of_launch hl).trans (congrArg _ (if_neg ?_)),
    (exec_preemptReset_of_launch hl).trans (congrArg _ (if_neg ?_)), goes_preemptRestore_idle hl (.inl hdown)⟩ <;>
    simp [hdown]

theorem goes_preemptDrain : (l.preemptible = false ∨ l.ladder ≠ .none → Goes s (.preemptDrain lid) s) ∧
    (s.hub.fw.running = true → l.preemptible = true → l.ladder = .none →
      (s.t1Of l = 0 → Goes s (.preemptDrain lid) (s.beginSave lid)) ∧
      (s.t1Of l ≠ 0 → Goes s (.preemptDrain lid) ((s.modLaunch lid fun l => { l with ladder := .drain }).reachRung lid 1))) := by
  have hexec := exec_preemptDrain_of_launch hl
  refine ⟨fun h => hexec.trans (congrArg _ (if_pos ?_)), fun hrun hpre hnone => ?_⟩
  · rcases h with h | h <;> simp [h]
  · rw [if_neg (by simp [hrun, hpre, hnone])] at hexec
    exact ⟨fun h => hexec.trans (congrArg _ (if_pos h)), fun h => hexec.trans (congrArg _ (if_neg h))⟩

theorem goes_preemptSave : (l.ladder ≠ .drain ∨ s.hub.cycle < l.since + 1100 * s.t1Of l → Goes s (.preemptSave lid) s) ∧
    (s.hub.fw.running = true → l.ladder = .drain → l.since + 1100 * s.t1Of l ≤ s.hub.cycle →
      Goes s (.preemptSave lid) (s.beginSave lid)) := by
  have hexec := exec_preemptSave_of_launch hl
  refine ⟨fun h => hexec.trans (congrArg _ (if_neg ?_)), fun hrun hdrain hpast => hexec.trans (congrArg _ (if_pos ?_))⟩
  · rcases h with h | h <;> simp [State.rungPast, h]
  · simp [State.rungPast, hrun, hdrain, hpast]

theorem goes_preemptReset : (l.ladder ≠ .save ∨ s.hub.cycle < l.since + 1100 * s.t2Of l → Goes s (.preemptReset lid) s) ∧
    (s.hub.fw.running = true → l.ladder = .save → l.since + 1100 * s.t2Of l ≤ s.hub.cycle →
      Goes s (.preemptReset lid) (s.resetRung lid)) := by
  have hexec := exec_preemptReset_of_launch hl
  refine ⟨fun h => hexec.trans (congrArg _ (if_neg ?_)), fun hrun hsave hpast => hexec.trans (congrArg _ (if_pos ?_))⟩
  · rcases h with h | h <;> simp [State.rungPast, h]
  · simp [State.rungPast, hrun, hsave, hpast]

theorem goes_saveCaptureComplete_idle (hdrain : l.ladder = .drain → s.drained lid = false)
    (hsave : l.ladder = .save → s.capturable lid = false) : Goes s (.saveCaptureComplete lid) s := by
  refine (exec_saveCaptureComplete_of_launch hl).trans (congrArg _ (if_neg ?_))
  simp only [Bool.and_eq_true, Bool.or_eq_true, decide_eq_true_iff, not_and, not_or, Bool.not_eq_true]
  exact fun _ => ⟨hdrain, hsave⟩

theorem goes_saveCaptureComplete (hrun : s.hub.fw.running = true)
    (h : (l.ladder = .drain ∧ s.drained lid = true) ∨ (l.ladder = .save ∧ s.capturable lid = true)) :
    (∀ pa, s.badSlot l.part = some pa → Goes s (.saveCaptureComplete lid) (s.saveFailed lid l.part pa)) ∧
    (s.badSlot l.part = none → Goes s (.saveCaptureComplete lid) ((((List.range 5).foldl (fun s d => s.captureDie lid d)
      ((s.partQuads l.part).foldl (fun s q => (s.keepSlot lid l.part q).captureQuad lid l q)
        (s.settleLaunch lid l))).modHub fun h => { h with captures := h.captures + 1 }).modLaunch lid fun l => { l with
          ladder := .saved })) := by
  have hexec := exec_saveCaptureComplete_of_launch hl
  rw [if_pos (by simpa only [Bool.and_eq_true, Bool.or_eq_true, decide_eq_true_iff] using ⟨hrun, h⟩)] at hexec
  unfold State.captureLaunch at hexec
  exact ⟨fun pa hbad => hexec.trans (by rw [hbad]), fun hok => hexec.trans (by rw [hok])⟩

theorem goes_preemptRestore {t : State} {b : Bool} (hrun : s.hub.fw.running = true) (hsaved : l.ladder = .saved)
    (hwait : l.waiting = true) (hfirst : s.firstInLine lid l = true) (hroom : s.makeRoom lid l = (t, b)) :
    (b = false → Goes s (.preemptRestore lid) t) ∧ (b = true →
      (∀ pa, t.badSlot l.part = some pa → Goes s (.preemptRestore lid) (t.saveFailed lid l.part pa)) ∧
      (t.badSlot l.part = none → Goes s (.preemptRestore lid) ((((t.partQuads l.part).foldl (fun u q => u.bringSlot lid l.part q)
        t).modHub fun h => { h with saved := h.saved.map fun x =>
          if x.lid = lid then { x with slot := none, left := slotLines } else x }).modLaunch lid fun l => { l with
            holding := true, reading := true }))) := by
  have hexec : exec (.preemptRestore lid) s = .next (s.preemptRestore lid) := rfl
  unfold State.preemptRestore at hexec
  simp only [hl, hroom] at hexec
  rw [if_pos (by simp [hrun, hsaved, hwait, hfirst])] at hexec
  constructor
  · rintro rfl
    exact hexec
  · rintro rfl
    exact ⟨fun pa hbad => hexec.trans (by simp only [hbad]), fun hok => hexec.trans (by simp only [hok]; rfl)⟩

end Ladder

/-! ### The lines of the slots -/

section Slots

variable {s : State} {lid : Nat} {l : Launch} (hl : s.launch lid = some l)
include hl

theorem slotStep_idle (h : l.ladder ≠ .saved ∨ l.holding = false ∨ s.hub.fw.running = false) : s.slotStep lid = s := by
  unfold State.slotStep
  simp only [hl]
  refine if_pos ?_
  rcases h with h | h | h <;> simp [h]

section Moving

variable (hsaved : l.ladder = .saved) (hhold : l.holding = true) (hrun : s.hub.fw.running = true)
include hsaved hhold hrun

theorem slotStep_failed (h : l.state = .failed) :
    s.slotStep lid = s.modLaunch lid fun l => { l with holding := false, reading := false } := by
  unfold State.slotStep
  simp only [hl]
  rw [if_neg (by simp [hsaved, hhold, hrun]), if_pos h]

theorem slotStep_moved (h : l.state ≠ .failed) (hnone : ∀ x ∈ s.hub.saved, x.lid = lid → x.left = 0) :
    s.slotStep lid = s.slotsMoved lid l := by
  have hfind : (s.hub.saved.find? fun x => x.lid = lid && x.left ≠ 0) = none := by
    rw [List.find?_eq_none]
    intro x hx hleft
    simp only [Bool.and_eq_true, decide_eq_true_iff, ne_eq] at hleft
    exact hleft.2 (hnone x hx hleft.1)
  unfold State.slotStep
  simp only [hl]
  rw [if_neg (by simp [hsaved, hhold, hrun]), if_neg h, hfind]

theorem slotStep_moving {x : Shadow} (h : l.state ≠ .failed)
    (hfind : s.hub.saved.find? (fun x => x.lid = lid && x.left ≠ 0) = some x) : s.slotStep lid = s.moveLine lid l x := by
  unfold State.slotStep
  simp only [hl]
  rw [if_neg (by simp [hsaved, hhold, hrun]), if_neg h, hfind]

end Moving

end Slots

section Lines

variable {s : State} {lid : Nat} {l : Launch}

theorem slotsMoved_cases : (l.reading = false → s.slotsMoved lid l = s.modLaunch lid fun l => { l with holding := false }) ∧
    (l.reading = true → s.placesFree lid l = false → s.slotsMoved lid l = s) ∧
    (l.reading = true → s.placesFree lid l = true → s.slotsMoved lid l =
      ((List.range 4).foldl State.collAdvance (s.restoreLaunch lid l)).serveHeld lid) := by
  unfold State.slotsMoved
  refine ⟨fun hread => if_pos (by rw [hread]; rfl), fun hread hfree => ?_, fun hread hfree => ?_⟩ <;>
    rw [if_neg (by rw [hread]; decide)]
  · exact if_neg (by rw [hfree]; decide)
  · exact if_pos hfree

theorem moveLine_cases {x : Shadow} {quad pa o : Nat} {on : State → State} (hquad : quad = (s.partQuads l.part).getD x.no x.quad)
    (hpa : pa = s.slotPa l.part quad) (ho : o = 64 * (2 ^ 15 - x.left))
    (hon : ∀ t, on t = t.modHub fun h => { h with saved := h.saved.map fun y =>
      if y.lid = lid && y.no = x.no then { y with left := y.left - 1 } else y }) :
    (s.lineHeld l.part quad x o = false → s.moveLine lid l x = on s) ∧
    (s.lineHeld l.part quad x o = true →
      (s.slotOwned pa = false → s.moveLine lid l x = s.saveFailed lid l.part pa) ∧
      (s.slotOwned pa = true → s.portAdmits (memPort (pa + o)) = false → s.moveLine lid l x = s) ∧
      (s.slotOwned pa = true → s.portAdmits (memPort (pa + o)) = true →
        (l.reading = true → s.moveLine lid l x = on (s.letIn (memPort (pa + o)))) ∧
        (l.reading = false → s.moveLine lid l x = on ((s.letIn (memPort (pa + o))).writeLine pa quad x o)))) := by
  have hmove : s.moveLine lid l x = if !s.lineHeld l.part quad x o then on s
      else if !s.slotOwned pa then s.saveFailed lid l.part pa
      else if !s.portAdmits (memPort (pa + o)) then s
      else on (if l.reading then s.letIn (memPort (pa + o)) else (s.letIn (memPort (pa + o))).writeLine pa quad x o) := by
    rw [hon, hon, hpa, ho, hquad]
    rfl
  rw [hmove]
  refine ⟨fun hheld => if_pos (by rw [hheld]; rfl), fun hheld => ?_⟩
  rw [if_neg (by rw [hheld]; decide)]
  refine ⟨fun hown => if_pos (by rw [hown]; rfl), fun hown hport => ?_, fun hown hport => ?_⟩
  · rw [if_neg (by rw [hown]; decide), if_pos (by rw [hport]; rfl)]
  · rw [if_neg (by rw [hown]; decide), if_neg (by rw [hport]; decide)]
    exact ⟨fun hread => by rw [hread]; rfl, fun hread => by rw [hread]; rfl⟩

end Lines

/-! ### Trap records -/

section Traps

variable {s : State} {die : Nat}

theorem goes_trapRecord_idle (h : s.hub.fw.running = false ∨ (∀ r ∈ (s.die die).trapq, r.trap.cause = 0x0C)) :
    Goes s (.trapRecord die) s := by
  refine congrArg Host.Outcome.next (show s.trapRecord die = s from ?_)
  unfold State.trapRecord
  rcases h with h | h
  · exact if_pos (by rw [h]; rfl)
  · have hfind : ((s.die die).trapq.find? fun r => r.trap.cause ≠ cBREAK) = none := by
      rw [List.find?_eq_none]
      exact fun r hr hcause => of_decide_eq_true hcause (h r hr)
    rw [hfind, ite_self]

theorem goes_trapRecord {r : TrapRec} (hrun : s.hub.fw.running = true)
    (hfind : (s.die die).trapq.find? (fun r => r.trap.cause ≠ 0x0C) = some r) :
    (r.trap.cause = 0x0D → Goes s (.trapRecord die) (s.modDie die fun d => { d with trapq := d.trapq.erase r })) ∧
    (r.trap.cause ≠ 0x0D → Goes s (.trapRecord die)
      ((s.modDie die fun d => { d with trapq := d.trapq.erase r }).failOf r.lid 0x37 r.lq r.trap.cause)) := by
  have hserve : s.trapRecord die = (s.modDie die fun d => { d with trapq := d.trapq.erase r }).serveTrap r := by
    unfold State.trapRecord
    rw [if_neg (by rw [hrun]; decide), show ((s.die die).trapq.find? fun r => r.trap.cause ≠ cBREAK) = some r from hfind]
  have hexec : exec (.trapRecord die) s = .next (s.trapRecord die) := rfl
  rw [hserve] at hexec
  exact ⟨fun h => hexec.trans (congrArg _ (if_pos h)), fun h => hexec.trans (congrArg _ (if_neg h))⟩

end Traps

/-! ### The watchdog -/

section Watchdog

variable {s : State} {n cycles idle : Nat}

theorem idleCycles_eq (h : (get none s.hub.moved n = none → idle = cycles) ∧
    ∀ c, get none s.hub.moved n = some c → idle = min cycles (s.hub.cycle - 1 - c)) : s.idleCycles n cycles = idle := by
  obtain ⟨hnone, hsome⟩ := h
  unfold State.idleCycles
  cases hmoved : get none s.hub.moved n with
  | none => exact (hnone hmoved).symm
  | some c => exact (hsome c hmoved).symm

theorem goes_watchdog_none (h : s.runningOf n = none) : Goes s (.watchdog n cycles) s := by
  refine congrArg Host.Outcome.next (show s.wdogTick n cycles = s from ?_)
  unfold State.wdogTick
  rw [h]

variable {lid : Nat} (hlid : s.runningOf n = some lid) (hidle : s.idleCycles n cycles = idle)
include hlid hidle

theorem exec_watchdog_of_launch : exec (.watchdog n cycles) s = .next
    (if s.hub.fw.busy || !s.hub.fw.running || !s.busyLaunch lid || !s.ownsLive lid || s.limited lid || idle = 0 then s
    else if s.wdogLimitOf n = 0 || get 0 s.hub.wdogCount n + idle < 1024 * s.wdogLimitOf n then
      s.modHub fun h => { h with wdogCount := put 0 h.wdogCount n (get 0 s.hub.wdogCount n + idle) }
    else ((s.modHub fun h => { h with wdogCount := put 0 h.wdogCount n 0 }).logErr (s.schedDie n) errWatchdog
      (windowAddr (schedCore (s.schedDie n)) 0 0) (some lid) 0).failLaunch lid kWATCHDOG (anyIndex kWATCHDOG) 0) := by
  refine congrArg Host.Outcome.next (show s.wdogTick n cycles = _ from ?_)
  unfold State.wdogTick
  rw [hlid, hidle]

theorem goes_watchdog_idle (h : s.hub.fw.busy = true ∨ s.hub.fw.running = false ∨ s.busyLaunch lid = false ∨ s.ownsLive lid = false ∨
    s.limited lid = true ∨ idle = 0) : Goes s (.watchdog n cycles) s := by
  refine (exec_watchdog_of_launch hlid hidle).trans (congrArg _ (if_pos ?_))
  rcases h with h | h | h | h | h | h <;> simp [h]

theorem goes_watchdog {k : Nat} (hbusy : s.hub.fw.busy = false) (hrun : s.hub.fw.running = true) (hwork : s.busyLaunch lid = true)
    (hlive : s.ownsLive lid = true) (hlim : s.limited lid = false) (hne : idle ≠ 0) (hk : k = get 0 s.hub.wdogCount n + idle) :
    (s.wdogLimitOf n = 0 ∨ k < 1024 * s.wdogLimitOf n → Goes s (.watchdog n cycles) (s.modHub fun h => { h with
      wdogCount := put 0 h.wdogCount n k })) ∧
    (s.wdogLimitOf n ≠ 0 → 1024 * s.wdogLimitOf n ≤ k →
      ∃ u i, Goes s (.watchdog n cycles) (u.failLaunch lid 0x39 i 0) ∧ u = ((s.modHub fun h => { h with
        wdogCount := put 0 h.wdogCount n 0 }).logErr (s.schedDie n) errWatchdog (windowAddr (schedCore (s.schedDie n)) 0 0)
          (some lid) 0)) := by
  have hexec := exec_watchdog_of_launch hlid hidle
  rw [if_neg (by simp [hbusy, hrun, hwork, hlive, hlim, hne]), ← hk] at hexec
  refine ⟨fun h => hexec.trans (congrArg _ (if_pos (by simpa using h))), fun hset hpast =>
    ⟨_, anyIndex kWATCHDOG, hexec.trans (congrArg _ (if_neg (by simpa using ⟨hset, hpast⟩))), rfl⟩⟩

end Watchdog

/-- Settles O48: the pre-emption ladder, trap records and the hang watchdog. -/
theorem ladderAndTraps : Obligations.LadderAndTraps := by
  unfold Obligations.LadderAndTraps
  refine ⟨fun s lid => goes_ladder_none, fun s lid l hl => ?_, fun s die => ⟨goes_trapRecord_idle, fun r => goes_trapRecord⟩,
    fun s n cycles idle hidle => ⟨goes_watchdog_none, fun lid hlid => ?_⟩⟩
  · obtain ⟨hdrainIdle, hdrain⟩ := goes_preemptDrain hl
    obtain ⟨hsaveIdle, hsave⟩ := goes_preemptSave hl
    obtain ⟨hresetIdle, hreset⟩ := goes_preemptReset hl
    refine ⟨goes_ladder_down hl, hdrainIdle, hdrain, hsaveIdle, hsave, goes_saveCaptureComplete_idle hl,
      goes_saveCaptureComplete hl, hresetIdle, hreset, fun h => goes_preemptRestore_idle hl (.inr h),
      fun t b => goes_preemptRestore hl, slotStep_idle hl, fun hsaved hhold hrun => ⟨slotStep_failed hl hsaved hhold hrun,
        fun hstate hnone => ?_, fun hstate x quad pa o on hfind hquad hpa ho hon => ?_⟩⟩
    · rw [slotStep_moved hl hsaved hhold hrun hstate hnone]
      exact slotsMoved_cases
    · rw [slotStep_moving hl hsaved hhold hrun hstate hfind]
      exact moveLine_cases hquad hpa ho hon
  · have hcycles := idleCycles_eq hidle
    exact ⟨goes_watchdog_idle hlid hcycles, fun k => goes_watchdog hlid hcycles⟩

end Sys2Proof.Machine

/-! ## O49: live update, errors, power and reset (21 R511, R515-R525, 23 R549-R551) -/

namespace Sys2Proof.Machine
open Sys2Proof

/-! ### Mailboxes and the steps of a live update -/

section Firmware

variable {s : State} {x : Word}

theorem goes_mailboxMessage (s : State) (die : Nat) (x : Word) : (4 ≤ die → Goes s (.mailboxMessage die x) s) ∧
    (die < 4 → Goes s (.mailboxMessage die x) (s.modDie die fun d => { d with
      mail := d.mail ++ (d.mailWait ++ [x]).take (16 - d.mail.length)
      mailWait := (d.mailWait ++ [x]).drop (16 - d.mail.length) })) :=
  ⟨fun h => congrArg Host.Outcome.next (if_pos h), fun h => congrArg Host.Outcome.next (if_neg (by omega))⟩

theorem goes_fwctlGo : (x.getLsbD 0 = false ∨ s.hub.fw.busy = true → Goes s (.fwctlGo x) s) ∧
    (x.getLsbD 0 = true → s.hub.fw.busy = false →
      Goes s (.fwctlGo x) (s.modHub fun h => { h with fw := { s.hub.fw with busy := true, state := 1 } })) := by
  refine ⟨fun h => congrArg Host.Outcome.next (if_pos ?_), fun hgo hidle => congrArg Host.Outcome.next (if_neg ?_)⟩
  · rw [Bool.or_eq_true, Bool.not_eq_true']
    exact h
  · rw [hgo, hidle]
    decide

theorem fwStep_idle (h : s.hub.fw.busy = false ∨ s.hub.fw.state ∉ [1, 2, 3]) : s.fwStep = s := by
  unfold State.fwStep
  by_cases hbusy : s.hub.fw.busy = true
  · have hstate := h.resolve_left (by rw [hbusy]; decide)
    simp only [List.mem_cons, List.not_mem_nil, or_false, not_or] at hstate
    obtain ⟨h1, h2, h3⟩ := hstate
    simp only [hbusy, h1, h2, h3, Bool.not_true, Bool.false_eq_true, if_false]
  · exact if_pos (by simp [hbusy])

theorem fwStep_busy {i : ImageSlot} (hi : i = get {} s.hub.fw.slots (1 - s.hub.fw.slot)) (hbusy : s.hub.fw.busy = true) :
    (s.hub.fw.state = 1 → s.fwStep = s.modHub fun h => { h with fw := { s.hub.fw with state := 2 } }) ∧
    (s.hub.fw.state = 2 → i.valid = false ∨ i.secver < s.hub.fw.minSec →
      s.fwStep = s.modHub fun h => { h with fw := { s.hub.fw with busy := false, state := 7 } }) ∧
    (s.hub.fw.state = 2 → i.valid = true → s.hub.fw.minSec ≤ i.secver → s.fwStep = s.modHub fun h => { h with fw := { s.hub.fw with
      state := 3, measured := s.hub.fw.measured ++ [Config.measurement (1 - s.hub.fw.slot) i.version] } }) ∧
    (s.hub.fw.state = 3 → s.fwStep = (s.writeHandOver.modHub fun h => { h with fw := { s.hub.fw with
      state := 4, running := false, since := h.cycle, heard := false, copies := s.hub.fw.copies + 1 } }).restartControl) := by
  have hon : ¬ (!s.hub.fw.busy) = true := by rw [hbusy]; decide
  subst hi
  unfold State.fwStep
  refine ⟨fun h => (if_neg hon).trans (if_pos h), fun h hbad => ?_, fun h hvalid hsec => ?_, fun h => ?_⟩
  · refine (if_neg hon).trans ((if_neg (by omega)).trans ((if_pos h).trans (if_pos ?_)))
    rw [Bool.or_eq_true, decide_eq_true_iff, Bool.not_eq_true']
    exact hbad
  · refine (if_neg hon).trans ((if_neg (by omega)).trans ((if_pos h).trans (if_neg ?_)))
    rw [Bool.or_eq_true, decide_eq_true_iff, Bool.not_eq_true', not_or]
    exact ⟨fun hbad => Bool.false_ne_true (hbad.symm.trans hvalid), Nat.not_lt.mpr hsec⟩
  · exact (if_neg hon).trans ((if_neg (by omega)).trans ((if_neg (by omega)).trans (if_pos h)))

/-! ### Heartbeats -/

theorem fwRollback_idle (h : s.hub.fw.busy = false ∨ s.hub.fw.state ≠ 4 ∨ s.hub.sinceBeat ≤ 50000000) : s.fwRollback = s := by
  refine if_neg ?_
  rw [Bool.and_eq_true, Bool.and_eq_true, decide_eq_true_iff, decide_eq_true_iff]
  rintro ⟨⟨hbusy, hstate⟩, hlate⟩
  rcases h with h | h | h
  · exact absurd hbusy (by rw [h]; decide)
  · exact h hstate
  · omega

theorem fwHang_idle (h : (s.hub.fw.busy = true ∧ 4 ≤ s.hub.fw.state) ∨ s.hub.fw.heard = false ∨ s.hub.sinceBeat ≤ 100000000) :
    s.fwHang = s := by
  refine if_neg ?_
  rw [Bool.and_eq_true, Bool.and_eq_true, Bool.or_eq_true, decide_eq_true_iff, decide_eq_true_iff, Bool.not_eq_true']
  rintro ⟨⟨hearly, hheard⟩, hlate⟩
  rcases h with ⟨hbusy, hstate⟩ | h | h
  · rcases hearly with hearly | hearly
    · exact absurd hbusy (by rw [hearly]; decide)
    · omega
  · exact absurd hheard (by rw [h]; decide)
  · omega

theorem goes_heartbeat {ns : Nat} (hns : ns = (s.hub.cycle - s.hub.fw.since) * 10 / 11) :
    (s.hub.fw.busy = true → s.hub.fw.state = 4 → 50000000 < ns → Goes s .fwRollback (((s.modHub fun h => { h with
      fw := { s.hub.fw with busy := false, state := 5, running := true, since := h.cycle, heard := false } }).restartControl).logErr 4
        errFwRollback (hubAddr 0x600000) none 0)) ∧
    (s.hub.fw.busy = false ∨ s.hub.fw.state ≠ 4 ∨ ns ≤ 50000000 → Goes s .fwRollback s) ∧
    (s.hub.fw.busy = false ∨ s.hub.fw.state < 4 → s.hub.fw.heard = true → 100000000 < ns → Goes s .fwHang (((s.modHub fun h =>
      { h with fw := { s.hub.fw with since := h.cycle, heard := false } }).restartControl).logErr 4 errFwHang (hubAddr 0x600000)
        none 0)) ∧
    ((s.hub.fw.busy = true ∧ 4 ≤ s.hub.fw.state) ∨ s.hub.fw.heard = false ∨ ns ≤ 100000000 → Goes s .fwHang s) ∧
    (s.hub.fw.busy = true → s.hub.fw.state = 4 → ns ≤ 50000000 → Goes s (.fwbeatWrite x) (s.modHub fun h => { h with
      fw := { s.hub.fw with
        busy := false, state := 6, slot := 1 - s.hub.fw.slot, running := true, since := h.cycle, heard := true } })) ∧
    (s.hub.fw.busy = false ∨ s.hub.fw.state ≠ 4 → s.hub.fw.heard = false ∨ ns ≤ 100000000 → Goes s (.fwbeatWrite x)
      (s.modHub fun h => { h with fw := { s.hub.fw with since := h.cycle, heard := true } })) := by
  obtain rfl : ns = s.hub.sinceBeat := hns
  refine ⟨fun hbusy hstate hlate => congrArg Host.Outcome.next (if_pos ?_), fun h => congrArg Host.Outcome.next (fwRollback_idle h),
    fun hearly hheard hlate => congrArg Host.Outcome.next (if_pos ?_), fun h => congrArg Host.Outcome.next (fwHang_idle h),
    fun hbusy hstate hintime => ?_, fun hold hheard => ?_⟩
  · rw [hbusy, hstate, decide_eq_true hlate]; rfl
  · rw [Bool.and_eq_true, Bool.and_eq_true, Bool.or_eq_true, decide_eq_true_iff, decide_eq_true_iff, Bool.not_eq_true']
    exact ⟨⟨hearly, hheard⟩, hlate⟩
  · have hexec : exec (.fwbeatWrite x) s = .next s.fwbeat := rfl
    unfold State.fwbeat at hexec
    rw [fwRollback_idle (.inr (.inr hintime)), fwHang_idle (.inl ⟨hbusy, Nat.le_of_eq hstate.symm⟩)] at hexec
    exact hexec.trans (congrArg _ (if_pos (by rw [hbusy, hstate]; rfl)))
  · have hexec : exec (.fwbeatWrite x) s = .next s.fwbeat := rfl
    unfold State.fwbeat at hexec
    rw [fwRollback_idle (hold.imp_right .inl), fwHang_idle (.inr hheard)] at hexec
    refine hexec.trans (congrArg _ (if_neg ?_))
    rcases hold with h | h <;> simp [h]

/-! ### The hand-over structure -/

/-- Bytes written one after the other leave the bytes outside their range. -/
theorem byte_setBytes_other (m : List Host.Cell) (k j : Nat) (l : List Byte) (h : j < k ∨ k + l.length ≤ j) :
    Memory.byte (Memory.setBytes m k l) j = Memory.byte m j := by
  induction l generalizing m k with
  | nil => rfl
  | cons b l ih =>
    rw [List.length_cons] at h
    rw [Memory.setBytes, ih _ _ (by omega), Memory.byte_setByte_other _ _ _ _ (by omega)]

theorem writeHandOver_none (h : s.handGranule = none) : s.writeHandOver = s := by
  unfold State.writeHandOver
  rw [h]

/-- The granule of the hand-over structure is one of luthier's. -/
theorem handGranule_luthiers {g : Nat} (h : s.handGranule = some g) : s.luthiers (g * 65536) = true := by
  obtain ⟨hlt, hget⟩ := List.getElem?_eq_some_iff.mp h
  have hmem := List.getElem_mem hlt
  rw [hget] at hmem
  exact (List.mem_filter.mp hmem).2

/-- The hand-over structure lies in its granule. -/
theorem writeHandOver_byte {g k : Nat} (h : s.handGranule = some g) (hk : k / 65536 ≠ g) :
    Memory.byte s.writeHandOver.mem k = Memory.byte s.mem k := by
  unfold State.writeHandOver
  rw [h]
  simp only [noteWrite_mem, State.wrHome]
  rw [byte_setBytes_other, State.wr, Memory.byte_write_other]
  · simp only [handPlace, Place.key]; omega
  · simp only [handPlace, Place.key, List.length_map, List.length_range]; omega

end Firmware

/-! ### Errors -/

section Errors

variable {s : State} {e : HwError}

theorem goes_uncorrectableError_fret (hth : e.th = none) (hcmd : e.cmd = none) (htile : e.tile = none) (hcode : e.code = errFretParity)
    (hunit : e.unit = 0) : (s.fretEntry e.loc = none → Goes s (.uncorrectableError e) s) ∧
    ∀ r, s.fretEntry e.loc = some r →
      Goes s (.uncorrectableError e) ((s.logErr e.die e.code e.loc (some r.lid) e.detail).failLaunch r.lid kMACHINE r.lq 0) := by
  have hexec : exec (.uncorrectableError e) s = .next (s.uncorrectable e) := rfl
  unfold State.uncorrectable at hexec
  refine ⟨fun h => hexec.trans (congrArg _ (if_pos (by rw [h, decide_eq_true hcode]; rfl))), fun r h => ?_⟩
  have hlid : s.errorLid e = some r.lid := (if_pos hcode).trans (by rw [h]; rfl)
  rw [if_neg (by rw [h]; simp), hlid] at hexec
  simp only [hth, hcmd, htile, if_pos hcode, if_pos hunit, h] at hexec
  exact hexec

theorem goes_correctedError {u : State}
    (hu : u = s.post e.die 0x14 none (unitOfLoc e.die e.loc) 0 (BitVec.ofNat 32 e.unit) (BitVec.ofNat 32 e.loc.toNat) 0) :
    (e.code ≠ 4 → e.code ≠ 5 → Goes s (.correctedError e) u) ∧
    (e.code = 4 ∨ e.code = 5 → Goes s (.correctedError e) (u.postLink e.die e.unit 1 1)) := by
  have hloc : e.loc.extractLsb' 0 32 = BitVec.ofNat 32 e.loc.toNat := by
    apply BitVec.eq_of_toNat_eq
    rw [BitVec.extractLsb'_toNat, BitVec.toNat_ofNat, Nat.shiftRight_zero]
  have hexec : exec (.correctedError e) s = .next (s.corrected e) := rfl
  unfold State.corrected at hexec
  rw [hloc, ← hu] at hexec
  refine ⟨fun h4 h5 => hexec.trans (congrArg _ (if_neg ?_)), fun h => hexec.trans (congrArg _ (if_pos ?_))⟩
  · simp [errHopFail, errLinkDegraded, h4, h5]
  · rw [Bool.or_eq_true, decide_eq_true_iff, decide_eq_true_iff]
    exact h

/-- An uncorrectable error reaches the thread, the command, the reconstruction or the quad that it concerns. -/
theorem goes_uncorrectableError (hcode : e.code ≠ errFretParity) :
    (e.th = none → e.cmd = none → e.tile = none → e.unit = 0 →
      Goes s (.uncorrectableError e) (s.logErr e.die e.code e.loc e.lid e.detail)) ∧
    (∀ th, e.th = some th → e.cmd = none → e.tile = none → e.unit = 0 →
      Goes s (.uncorrectableError e) ((s.logErr e.die e.code e.loc e.lid e.detail).defer th
        { cause := 0x0E, tval := BitVec.ofNat 64 (s.die e.die).err.head })) ∧
    (∀ c, e.th = none → e.cmd = some c → e.tile = none → e.unit = 0 →
      Goes s (.uncorrectableError e) ((s.logErr e.die e.code e.loc e.lid e.detail).machineCmd c.1 c.2)) ∧
    (∀ quad lid number hole, e.th = none → e.cmd = none → e.tile = some (quad, lid, number, hole) → e.unit = 0 →
      Goes s (.uncorrectableError e) ((s.logErr e.die e.code e.loc e.lid e.detail).breakTile quad
        { lid := lid, number := number, hole := hole, next := 0, err := 0 } 0x0D)) ∧
    (∀ q, e.th = none → e.cmd = none → e.tile = none → e.unit = q + 1 →
      Goes s (.uncorrectableError e) ((s.logErr e.die e.code e.loc e.lid e.detail).quadFails q)) := by
  have hexec : exec (.uncorrectableError e) s = .next (s.uncorrectable e) := rfl
  have hlid : s.errorLid e = e.lid := if_neg hcode
  have hfret : ¬ (decide (e.code = errFretParity) && (s.fretEntry e.loc).isNone) = true := by simp [hcode]
  unfold State.uncorrectable at hexec
  rw [if_neg hfret, hlid] at hexec
  simp only [if_neg hcode] at hexec
  refine ⟨fun hth hcmd htile hunit => ?_, fun th hth hcmd htile hunit => ?_, fun c hth hcmd htile hunit => ?_,
    fun quad lid number hole hth hcmd htile hunit => ?_, fun q hth hcmd htile hunit => ?_⟩ <;>
    simp only [hth, hcmd, htile, hunit, if_true, Nat.add_eq_zero_iff, Nat.one_ne_zero, and_false, if_false,
      Nat.add_sub_cancel] at hexec <;>
    exact hexec

end Errors

/-! ### Hops -/

section Hops

variable {s : State} {die unit msg n a b : Nat} {u : State}

theorem goes_hopCrcError_none (ha : a = msg - s.net.length) (hb : b = a - s.runningAll.length) (hnet : s.net[msg]? = none)
    (hrun : s.runningAll[a]? = none) (hmove : s.transfers[b]? = none) : Goes s (.hopCrcError die unit msg) s := by
  subst ha hb
  refine congrArg Host.Outcome.next (show s.hopError die unit msg = s from ?_)
  unfold State.hopError
  rw [hnet, hrun, hmove]

/-- What a hop fails to carry is tried again, 16 times at most. -/
theorem exec_hopCrcError_of_carried (ha : a = msg - s.net.length) (hb : b = a - s.runningAll.length)
    (h : (∃ f, s.net[msg]? = some f ∧ n = triesAt die unit f.hop ∧
          u = { s with net := s.net.set msg { f with hop := some (die, unit, n + 1) } }) ∨
        (∃ r, s.net[msg]? = none ∧ s.runningAll[a]? = some r ∧ n = triesAt die unit r.hop ∧
          u = s.modRun r.cmd fun r => { r with hop := some (die, unit, n + 1) }) ∨
        (∃ x, s.net[msg]? = none ∧ s.runningAll[a]? = none ∧ s.transfers[b]? = some x ∧ n = s.transferTries die unit x ∧
          u = s.modHub fun h => { h with
            hops := (h.hops.filter fun y => !(y.1 = x && y.2.1 = die && y.2.2.1 = unit)) ++ [(x, die, unit, n + 1)] })) :
    exec (.hopCrcError die unit msg) s = .next (if n < 16 then u.postLink die unit 0 (n + 1) else u.hopFails die unit) := by
  subst ha hb
  refine congrArg Host.Outcome.next (show s.hopError die unit msg = _ from ?_)
  unfold State.hopError
  rcases h with ⟨f, hnet, rfl, rfl⟩ | ⟨r, hnet, hrun, rfl, rfl⟩ | ⟨x, hnet, hrun, hmove, rfl, rfl⟩
  · rw [hnet]
    simp only [modFlight, hnet]
  · rw [hnet, hrun]
  · rw [hnet, hrun, hmove]

end Hops

/-! ### Retired channels -/

section Retired

/-- A put of the entries of a table leaves the keys below them. -/
theorem get_foldl_put_above {α : Type} [DecidableEq α] {d : α} {f : α → α} {m acc : FMap α} {k : Nat} (h : FMap.above k m) :
    get d (m.foldl (fun t p => put d t p.1 (f p.2)) acc) k = get d acc k := by
  induction m generalizing acc with
  | nil => rfl
  | cons p m ih =>
    rw [List.foldl_cons, ih fun q hq => h q (List.mem_cons_of_mem _ hq),
      get_put_other _ _ _ _ _ (Nat.ne_of_lt (h p List.mem_cons_self))]

/-- A table built anew with changed entries reads the changed entries. -/
theorem get_foldl_put_of_sorted {α : Type} [DecidableEq α] {d : α} {f : α → α} (hf : f d = d) {m acc : FMap α} (hm : FMap.sorted m)
    (hacc : FMap.sorted acc) (p : Nat) (hp : get d acc p = d) :
    get d (m.foldl (fun t q => put d t q.1 (f q.2)) acc) p = f (get d m p) := by
  induction m generalizing acc with
  | nil => exact hp.trans hf.symm
  | cons q m ih =>
    obtain ⟨k, y⟩ := q
    obtain ⟨habove, hm⟩ := hm
    rw [List.foldl_cons]
    by_cases hpk : p = k
    · subst hpk
      rw [get_foldl_put_above habove, get_put_same _ hacc]
      simp only [get, if_true]
    · rw [ih hm (put_sorted _ hacc _ _) ((get_put_other _ _ _ _ _ hpk).trans hp)]
      simp only [get, if_neg hpk]

/-- A table built of entries that have a property has it everywhere, as its default has. -/
theorem get_foldl_put_forall {α : Type} [DecidableEq α] {d : α} {f : α → α} {P : α → Prop} (hf : ∀ y, P (f y)) {m acc : FMap α}
    (hacc : FMap.sorted acc) (hP : ∀ p, P (get d acc p)) (p : Nat) :
    P (get d (m.foldl (fun t q => put d t q.1 (f q.2)) acc) p) := by
  induction m generalizing acc with
  | nil => exact hP p
  | cons q m ih =>
    refine ih (put_sorted _ hacc _ _) fun j => ?_
    by_cases hj : j = q.1
    · rw [hj, get_put_same _ hacc]
      exact hf _
    · rw [get_put_other _ _ _ _ _ hj]
      exact hP j

/-- A connection row without a channel group. -/
theorem getLsbD_clear (w : Word) (g k : Nat) (hg : g < 64) :
    (w &&& ~~~(1#64 <<< g)).getLsbD k = (w.getLsbD k && decide (k ≠ g)) := by
  by_cases hk : k < 64
  · simp only [BitVec.getLsbD_and, BitVec.getLsbD_not, BitVec.getLsbD_shiftLeft, BitVec.getLsbD_one, hk, decide_true, Bool.true_and]
    by_cases hkg : k = g
    · subst hkg; simp
    · have : k < g ∨ k - g ≠ 0 := by omega
      rcases this with h | h <;> simp [hkg, h]
  · simp only [BitVec.getLsbD_of_ge _ _ (Nat.not_lt.mp hk), Bool.false_and]

theorem goes_channelRetired (s : State) (g : Nat) : (32 ≤ g → Goes s (.channelRetired g) s) ∧
    (g < 32 → ∃ u : State, Goes s (.channelRetired g) (u.logErr (g / 8) errChannelRetired
        (BitVec.ofNat 64 (g / 4 * 2 ^ 36 + g % 4 * 16000000000)) none 0) ∧ g ∈ u.hub.retired ∧ u.mem = s.mem ∧
      (∀ p, (get 0 u.hub.xconn p).getLsbD g = false) ∧
      (tableSorted s.hub.xconn = true → ∀ p k, k ≠ g → (get 0 u.hub.xconn p).getLsbD k = (get 0 s.hub.xconn p).getLsbD k) ∧
      (∀ x ∈ u.hub.own, x ∈ s.hub.own ∧ granuleIn g x.1 = false) ∧
      ∀ x ∈ s.hub.own, granuleIn g x.1 = false → x ∈ u.hub.own) := by
  refine ⟨fun h => congrArg Host.Outcome.next (if_pos h), fun h => ⟨_, congrArg Host.Outcome.next (if_neg (by omega)), ?_, rfl,
    fun p => ?_, fun hsorted p k hk => ?_, fun x hx => ?_, fun x hx hout => ?_⟩⟩
  · show g ∈ if s.hub.retired.contains g then s.hub.retired else s.hub.retired ++ [g]
    split
    next hin => exact List.contains_iff_mem.mp hin
    next => exact List.mem_append_right _ (List.mem_singleton_self g)
  · refine get_foldl_put_forall (d := (0 : Word)) (f := (· &&& ~~~(1#64 <<< g))) (P := fun w => w.getLsbD g = false)
      (acc := []) (fun y => ?_) trivial (fun p => BitVec.getLsbD_zero) p
    rw [getLsbD_clear _ _ _ (by omega)]
    simp
  · have hget := get_foldl_put_of_sorted (d := (0 : Word)) (f := (· &&& ~~~(1#64 <<< g))) BitVec.zero_and
      (sorted_of_tableSorted hsorted) (acc := []) trivial p rfl
    refine (congrArg (BitVec.getLsbD · k) hget).trans ?_
    rw [getLsbD_clear _ _ _ (by omega), decide_eq_true hk, Bool.and_true]
  · obtain ⟨hx, hout⟩ := List.mem_filter.mp hx
    exact ⟨hx, by simpa using hout⟩
  · exact List.mem_filter.mpr ⟨hx, by rw [hout]; rfl⟩

end Retired

/-! ### Power and reset -/

theorem goes_throttleUpdate (s : State) (watts hottest : Nat) : ∃ t, Goes s (.throttleUpdate watts hottest) t ∧
    t.hub.pwrNow = watts ∧ t = { s with hub := t.hub } ∧
    t.hub.pwrLevel = (if s.hub.pwrCap < watts ∨ s.hub.tThrottle ≤ hottest then min (s.hub.pwrLevel + 1) 15
      else if 100 * watts ≤ 95 * s.hub.pwrCap ∧ hottest + 2 ≤ s.hub.tThrottle then s.hub.pwrLevel - 1
      else s.hub.pwrLevel) := by
  refine ⟨_, rfl, rfl, rfl, (show _ = nextLevel s.hub.pwrLevel watts s.hub.pwrCap hottest s.hub.tThrottle from rfl).trans ?_⟩
  simp only [nextLevel, Bool.or_eq_true, Bool.and_eq_true, decide_eq_true_iff]

/-- Settles O49: live update, errors, power and reset. -/
theorem firmwareAndErrors : Obligations.FirmwareAndErrors := by
  unfold Obligations.FirmwareAndErrors
  refine ⟨goes_mailboxMessage, ?_, fun s e => ?_, fun s die unit msg n a b u ha hb => ⟨goes_hopCrcError_none ha hb, fun h => ?_⟩,
    goes_channelRetired, fun s watts hottest => ⟨rfl, goes_throttleUpdate s watts hottest⟩,
    fun s => ⟨s.deviceReset, rfl, rfl, rfl, rfl, rfl, rfl, rfl, rfl, rfl, rfl⟩⟩
  · rintro s x _ i rfl hi
    obtain ⟨hoff, hgo⟩ := goes_fwctlGo (s := s) (x := x)
    exact ⟨hoff, hgo, fwStep_idle, fwStep_busy hi, fun ns => goes_heartbeat, writeHandOver_none,
      fun g hg => ⟨handGranule_luthiers hg, fun k => writeHandOver_byte hg⟩, fun v secver ok => rfl, fun tenant key => rfl, rfl⟩
  · refine ⟨fun hth hcmd htile hcode hunit => ?_, fun th hth hcmd htile hcode hunit => ?_, fun c hth hcmd htile hcode hunit => ?_,
      fun quad lid number hole hth hcmd htile hcode hunit => ?_, fun q hth hcmd htile hcode hunit => ?_,
      goes_uncorrectableError_fret, fun u => goes_correctedError⟩ <;>
      obtain ⟨hplain, hthread, hcommand, hrecon, hquad⟩ := goes_uncorrectableError (s := s) hcode
    · exact hplain hth hcmd htile hunit
    · exact hthread th hth hcmd htile hunit
    · exact hcommand c hth hcmd htile hunit
    · exact hrecon quad lid number hole hth hcmd htile hunit
    · exact hquad q hth hcmd htile hunit
  · have hexec := exec_hopCrcError_of_carried ha hb h
    exact ⟨fun hn => hexec.trans (congrArg _ (if_pos hn)), fun hn => hexec.trans (congrArg _ (if_neg (by omega)))⟩

end Sys2Proof.Machine

/-! ## O50: telemetry and checkpoints (22 R528-R545, 23 R552-R554) -/

namespace Sys2Proof.Machine
open Sys2Proof

/-! ### Records and events of filters -/

section Offer

variable {t : Tel} {cls tenant slot : Nat} {e : List (BitVec 32)} {f : Filter}

theorem offer_of_filter (hf : t.filter slot = some f) : t.offer cls tenant e slot =
    if f.leaving || f.cls ≠ cls || (f.tenant ≠ 0 && f.tenant ≠ tenant) then t
    else if 64 ≤ f.queue.length then { t.modFilter slot (Filter.count 2) with clsDrops := bump32 t.clsDrops cls }
    else if t.left f.tenant < f.cost then t.modFilter slot (Filter.count 3)
    else { t.modFilter slot fun f => { f with queue := f.queue ++ [e] } with
      spent := put 0 t.spent f.tenant (get 0 t.spent f.tenant + f.cost) } := by
  unfold Tel.offer
  rw [hf]

theorem offer_cases (hf : t.filter slot = some f) :
    (f.leaving = true ∨ f.cls ≠ cls ∨ (f.tenant ≠ 0 ∧ f.tenant ≠ tenant) → t.offer cls tenant e slot = t) ∧
    (f.leaving = false → f.cls = cls → (f.tenant = 0 ∨ f.tenant = tenant) →
      (f.queue.length < 64 → f.cost ≤ t.left f.tenant → t.offer cls tenant e slot =
        { t.modFilter slot fun f => { f with queue := f.queue ++ [e] } with
          spent := put 0 t.spent f.tenant (get 0 t.spent f.tenant + f.cost) }) ∧
      (f.queue.length < 64 → t.left f.tenant < f.cost → t.offer cls tenant e slot = t.modFilter slot (Filter.count 3))) := by
  rw [offer_of_filter hf]
  refine ⟨fun h => if_pos ?_, fun hstay hcls htenant => ?_⟩
  · rcases h with h | h | ⟨h0, h⟩
    · simp [h]
    · simp [h]
    · simp [h0, h]
  · have hseen : ¬ (f.leaving || f.cls ≠ cls || (f.tenant ≠ 0 && f.tenant ≠ tenant)) = true := by
      rcases htenant with h | h <;> simp [hstay, hcls, h]
    rw [if_neg hseen]
    refine ⟨fun hroom hpaid => ?_, fun hroom hpoor => ?_⟩
    · rw [if_neg (by omega), if_neg (by omega)]
    · rw [if_neg (by omega), if_pos hpoor]

end Offer

section FilterEvent

variable {s : State} {die k : Nat} {f : Filter} {e : List (BitVec 32)} {rest : List (List (BitVec 32))}

/-- A coprocessor that runs an event, or has none, stays as it is. -/
theorem goes_filterEvent_idle (h : (s.tel die).run ≠ none ∨ (s.tel die).nextSlot = none) :
    Goes s (.filterEvent die) (s.modTel die id) := by
  refine congrArg Host.Outcome.next (modTel_congr ?_)
  rcases h with h | h
  · obtain ⟨r, hr⟩ := Option.ne_none_iff_exists'.mp h
    simp only [hr, id]
  · simp only [h, id]
    split
    next h' => exact absurd h' (by simp)
    next => rfl

theorem goes_filterEvent (hrest : (s.tel die).run = none) (hslot : (s.tel die).nextSlot = some k)
    (hf : (s.tel die).filter k = some f) (hqueue : f.queue = e :: rest) :
    Goes s (.filterEvent die) (s.modTel die fun t => { t.modFilter k fun f => { f with queue := f.queue.drop 1 } with
      last := (k + 1) % 64, run := some { slot := k, ip := 0, w := [], e := e, skip := 0, ended := false } }) := by
  refine congrArg Host.Outcome.next (modTel_congr ?_)
  simp only [hrest, hslot, hf, Option.bind_some, hqueue, List.head?_cons]

end FilterEvent

/-! ### Attaching and detaching -/

section Attach

variable {s u : State} {fn : Nat} {x : Word}

theorem goes_tattachWrite_unread (hu : u = (s.descriptor fn x).1) (h : (s.descriptor fn x).2 = none) :
    Goes s (.tattachWrite fn x) (u.attachResult fn (.error 5)) := by
  subst hu
  refine congrArg Host.Outcome.next (show s.tattach fn x = _ from ?_)
  unfold State.tattach
  simp only [h]

theorem goes_tattachWrite {b : List Byte} {f : Filter} {d : Nat} (hu : u = (s.descriptor fn x).1)
    (hb : (s.descriptor fn x).2 = some b) (hf : f = filterOf fn (u.fnTenant fn) b) (hd : d = bits (leAt b 0 4) 10 8) :
    (classSeen f.cls d (u.fnTenant fn) = false → Goes s (.tattachWrite fn x) (u.attachResult fn (.error 1))) ∧
    (classSeen f.cls d (u.fnTenant fn) = true → (u.tel d).freeSlot = none →
      Goes s (.tattachWrite fn x) (u.attachResult fn (.error 2))) ∧
    ∀ k, classSeen f.cls d (u.fnTenant fn) = true → (u.tel d).freeSlot = some k →
      (descriptorOk f b = false → Goes s (.tattachWrite fn x) (u.attachResult fn (.error 3))) ∧
      (descriptorOk f b = true → (∃ w ∈ f.trigs, u.trigWordOk fn (u.fnTenant fn) d w = false) →
        Goes s (.tattachWrite fn x) (u.attachResult fn (.error 4))) ∧
      (descriptorOk f b = true → (∀ w ∈ f.trigs, u.trigWordOk fn (u.fnTenant fn) d w = true) →
        Goes s (.tattachWrite fn x)
          ((u.modTel d fun t => { t with filters := put none t.filters k (some { f with
            exportAt := u.hub.cycle + f.period * 1100000 }) }).attachResult fn (.ok k))) := by
  have hexec : exec (.tattachWrite fn x) s = .next (s.tattach fn x) := rfl
  unfold State.tattach at hexec
  simp only [hb, ← hu, ← hd, ← hf] at hexec
  refine ⟨fun hclass => hexec.trans (congrArg _ (if_pos (by rw [hclass]; rfl))), fun hclass hfull => ?_, fun k hclass hfree => ?_⟩ <;>
    rw [if_neg (by rw [hclass]; decide)] at hexec
  · exact hexec.trans (by simp only [hfull])
  · simp only [hfree] at hexec
    refine ⟨fun hok => hexec.trans (congrArg _ (if_pos (by rw [hok]; rfl))), fun hok htrig => ?_, fun hok htrig => ?_⟩ <;>
      rw [if_neg (by rw [hok]; decide)] at hexec
    · refine hexec.trans (congrArg _ (if_pos ?_))
      rw [Bool.not_eq_true', List.all_eq_false]
      obtain ⟨w, hw, hbad⟩ := htrig
      exact ⟨w, hw, by rw [hbad]; decide⟩
    · refine hexec.trans (congrArg _ (if_neg ?_))
      rw [List.all_eq_true.mpr htrig]
      decide

theorem goes_tdetachWrite {d k : Nat} {f : Filter} (hd : d = x.toNat / 64 % 8) (hk : k = x.toNat % 64) :
    ((s.tel d).filter k = none → Goes s (.tdetachWrite fn x) s) ∧
    ((s.tel d).filter k = some f → (4 < d ∨ s.mayUse fn f = false) → Goes s (.tdetachWrite fn x) s) ∧
    ((s.tel d).filter k = some f → d ≤ 4 → s.mayUse fn f = true →
      ((∃ r, (s.tel d).run = some r ∧ r.slot = k) → Goes s (.tdetachWrite fn x)
        (s.modFilter d k fun f => { f with leaving := true, queue := [] })) ∧
      ((∀ r, (s.tel d).run = some r → r.slot ≠ k) → Goes s (.tdetachWrite fn x)
        (s.modTel d fun t => { t with filters := put none t.filters k none }))) := by
  have hexec : exec (.tdetachWrite fn x) s = .next (s.tdetach fn x) := rfl
  unfold State.tdetach at hexec
  simp only [← hd, ← hk] at hexec
  refine ⟨fun hnone => hexec.trans (by simp only [hnone]), fun hf hno => ?_, fun hf hdie huse => ?_⟩ <;> simp only [hf] at hexec
  · refine hexec.trans (congrArg _ (if_pos ?_))
    rcases hno with h | h <;> simp [h]
  · rw [if_neg (by rw [huse, decide_eq_false (Nat.not_lt.mpr hdie)]; decide)] at hexec
    refine ⟨fun hrun => hexec.trans (congrArg _ (if_pos ?_)), fun hrun => hexec.trans (congrArg _ (if_neg ?_))⟩
    · simpa [Option.any_eq_true] using hrun
    · simpa [Option.any_eq_true] using hrun

end Attach

/-! ### Budgets and exports -/

section Export

variable {s : State} {die tenant slot : Nat} {x : Word}

theorem goes_tbudgetWrite {m : FMap Nat} (hm : m = put 0 (s.tel die).limit tenant (x.toNat % 2 ^ 20)) :
    (4 < die ∨ 256 ≤ tenant → Goes s (.tbudgetWrite die tenant x) s) ∧
    (die ≤ 4 → tenant < 256 → (m.map Prod.snd).foldl (· + ·) 0 ≤ 900000 →
      Goes s (.tbudgetWrite die tenant x) (s.modTel die fun t => { t with limit := m })) := by
  refine ⟨fun h => congrArg Host.Outcome.next (if_neg ?_), fun hdie htenant hsum =>
    congrArg Host.Outcome.next ((if_pos ?_).trans (modTel_congr ?_))⟩
  · rw [Bool.and_eq_true, decide_eq_true_iff, decide_eq_true_iff]
    omega
  · rw [Bool.and_eq_true, decide_eq_true_iff, decide_eq_true_iff]
    exact ⟨hdie, htenant⟩
  · subst hm
    exact if_neg (Nat.not_lt.mpr hsum)

theorem goes_exportSnap {f : Filter} (hf : (s.tel die).filter slot = some f) :
    (f.period = 0 ∨ f.leaving = true → Goes s (.exportSnap die slot) s) ∧
    (f.period ≠ 0 → f.leaving = false → (∃ r, (s.tel die).run = some r ∧ r.slot = slot) → Goes s (.exportSnap die slot)
      (s.modFilter die slot fun f => { f with exportDue := true })) ∧
    (f.period ≠ 0 → f.leaving = false → (∀ r, (s.tel die).run = some r → r.slot ≠ slot) →
      Goes s (.exportSnap die slot) ((s.emit (.hostWrite f.fn f.host (s.exportBytes die slot f))).modFilter die slot fun f =>
        { f with words := put 0 f.words 6 (get 0 f.words 6 + 1), k := if f.clear then [] else f.k, exportDue := false })) := by
  have hexec : exec (.exportSnap die slot) s = .next (s.exportSlot die slot) := rfl
  unfold State.exportSlot at hexec
  simp only [hf] at hexec
  refine ⟨fun h => hexec.trans (congrArg _ (if_pos ?_)), fun hperiod hstay hrun => ?_, fun hperiod hstay hrun => ?_⟩
  · rcases h with h | h <;> simp [h]
  all_goals rw [if_neg (by simp [hperiod, hstay])] at hexec
  · exact hexec.trans (congrArg _ (if_pos (by simpa [Option.any_eq_true] using hrun)))
  · exact hexec.trans (congrArg _ (if_neg (by simpa [Option.any_eq_true] using hrun)))

theorem goes_exportSnap_none (h : (s.tel die).filter slot = none) : Goes s (.exportSnap die slot) s := by
  refine congrArg Host.Outcome.next (show s.exportSlot die slot = s from ?_)
  unfold State.exportSlot
  rw [h]

end Export

/-! ### Periodic records -/

section Periodic

variable {s : State}

theorem goes_slots {core : Nat} {k : Core} {u : State} (hk : k = s.core core)
    (hu : u = s.modCore core (fun k => { k with ivIssued := 0, ivForfeit := 0, ivBank := 0 })) :
    ((s.coreCtxs core).filterMap s.lidOf = [] → Goes s (.slots core) u) ∧
    (∀ lid l, (s.coreCtxs core).filterMap s.lidOf = lid :: l → Goes s (.slots core)
      (u.post (dieOf (quadOf core)) 0x06 (some lid) core 0 (sat32 k.ivIssued) (sat32 k.ivForfeit) (sat32 k.ivBank))) := by
  have hexec : exec (.slots core) s = .next (s.slotsRecord core) := rfl
  unfold State.slotsRecord at hexec
  simp only [← hk, ← hu] at hexec
  refine ⟨fun h => ?_, fun lid l h => ?_⟩ <;> simp only [h] at hexec <;> exact hexec

theorem timed_due (s : State) (old : Nat) : (s.timed old).hub.due = s.hub.due ++ s.timedEvents old := by
  unfold State.timed
  by_cases h : (s.timedEvents old).isEmpty = true
  · rw [if_pos h, List.isEmpty_iff.mp h, List.append_nil]
  · rw [if_neg h]
    rfl

/-- A filter's period has ended by a cycle. -/
theorem periodsPast_ne_zero {f : Filter} {now : Nat} : f.periodsPast now ≠ 0 ↔ f.period ≠ 0 ∧ f.exportAt ≤ now := by
  unfold Filter.periodsPast
  simp only [Bool.or_eq_true, decide_eq_true_iff]
  split
  next h => exact ⟨fun hne => absurd rfl hne, fun ⟨hp, ha⟩ => by omega⟩
  next h => exact ⟨fun _ => by omega, fun _ => Nat.succ_ne_zero _⟩

/-- What the passing of cycles brings about: windows and sensors of the dies, counts of the cores, exports of the filters. -/
theorem mem_timedEvents {e : Timed} {old : Nat} : e ∈ s.timedEvents old ↔
    (old / 1100000 < s.hub.cycle / 1100000 ∧ ∃ d < 5, e = .window d ∨
      e = .therm d (Config.sensor d s.hub.cycle).1.toNat (Config.sensor d s.hub.cycle).2) ∨
    (old / 2 ^ 20 < s.hub.cycle / 2 ^ 20 ∧ ∃ c ∈ s.cores.map Prod.fst, e = .slots c) ∨
    ∃ d x k f, (d, x) ∈ s.dies ∧ (k, some f) ∈ x.tel.filters ∧ f.period ≠ 0 ∧ f.exportAt ≤ s.hub.cycle ∧ e = .snap d k := by
  unfold State.timedEvents windowCycles slotsCycles
  rw [List.mem_append, List.mem_append, or_assoc]
  refine or_congr ?_ (or_congr ?_ ?_)
  · simp only [List.mem_flatten, List.mem_replicate, ne_eq]
    exact ⟨fun ⟨_, ⟨hlt, rfl⟩, h⟩ => ⟨by omega, by simpa using h⟩, fun ⟨hlt, h⟩ => ⟨_, ⟨by omega, rfl⟩, by simpa using h⟩⟩
  · simp only [List.mem_flatten, List.mem_replicate, List.mem_map, ne_eq]
    exact ⟨fun ⟨_, ⟨hlt, rfl⟩, h⟩ => ⟨by omega, by simpa [eq_comm] using h⟩,
      fun ⟨hlt, h⟩ => ⟨_, ⟨by omega, rfl⟩, by simpa [eq_comm] using h⟩⟩
  · rw [List.mem_flatMap]
    constructor
    · rintro ⟨⟨d, x⟩, hd, he⟩
      obtain ⟨⟨k, o⟩, hk, he⟩ := List.mem_flatMap.mp he
      cases o with
      | none => exact absurd he List.not_mem_nil
      | some f =>
        obtain ⟨hne, rfl⟩ := List.mem_replicate.mp he
        obtain ⟨hperiod, hat⟩ := periodsPast_ne_zero.mp hne
        exact ⟨d, x, k, f, hd, hk, hperiod, hat, rfl⟩
    · rintro ⟨d, x, k, f, hd, hk, hperiod, hat, rfl⟩
      exact ⟨(d, x), hd, List.mem_flatMap.mpr ⟨(k, some f), hk,
        List.mem_replicate.mpr ⟨periodsPast_ne_zero.mpr ⟨hperiod, hat⟩, rfl⟩⟩⟩

theorem mem_timedEvents_kinds (s : State) (old : Nat) :
    (∀ d, .window d ∈ s.timedEvents old ↔ d < 5 ∧ old / 1100000 < s.hub.cycle / 1100000) ∧
    (∀ c, .slots c ∈ s.timedEvents old ↔ c ∈ s.cores.map Prod.fst ∧ old / 2 ^ 20 < s.hub.cycle / 2 ^ 20) ∧
    (∀ d k, .snap d k ∈ s.timedEvents old ↔ ∃ x f, (d, x) ∈ s.dies ∧ (k, some f) ∈ x.tel.filters ∧ f.period ≠ 0 ∧
      f.exportAt ≤ s.hub.cycle) := by
  refine ⟨fun d => mem_timedEvents.trans ?_, fun c => mem_timedEvents.trans ?_, fun d k => mem_timedEvents.trans ?_⟩
  · simp only [Timed.window.injEq, reduceCtorEq, or_false, and_false, exists_false, exists_eq_right']
    exact and_comm
  · simp only [Timed.slots.injEq, reduceCtorEq, or_false, and_false, exists_false, false_or, exists_eq_right']
    exact and_comm
  · simp only [Timed.snap.injEq, reduceCtorEq, or_false, and_false, exists_false, false_or]
    exact ⟨fun ⟨_, x, _, f, hd, hk, hp, ha, rfl, rfl⟩ => ⟨x, f, hd, hk, hp, ha⟩,
      fun ⟨x, f, hd, hk, hp, ha⟩ => ⟨d, x, k, f, hd, hk, hp, ha, rfl, rfl⟩⟩

end Periodic

/-! ### Checkpoints -/

section Checkpoint

variable {s u : State} {x : Word}

theorem goes_ckptGo (hu : u = s.modHub (fun h => { h with
      ckptDirty := h.ckptDirty && !x.getLsbD 62, ckptErr := h.ckptErr && !x.getLsbD 61 })) :
    (x.getLsbD 0 = false → Goes s (.ckptGo x) u) ∧
    (x.getLsbD 0 = true → s.hub.streams ≠ [] ∨ s.hub.fw.busy = true →
      Goes s (.ckptGo x) (u.modHub fun h => { h with ckptErr := true })) ∧
    (x.getLsbD 0 = true → s.hub.streams = [] → s.hub.fw.busy = false → ∀ base n, base = bits s.hub.ckptList.toNat 40 5 * 32 →
      n = bits s.hub.ckptList.toNat 63 52 + 1 → Goes s (.ckptGo x) (u.modHub fun h => { h with
        streams := [{ bulk := false, list := base, count := n }, { bulk := true, list := base, count := n }] })) := by
  have hexec : exec (.ckptGo x) s = .next (s.ckptWrite x) := rfl
  unfold State.ckptWrite at hexec
  simp only [← hu] at hexec
  refine ⟨fun h => hexec.trans (congrArg _ (if_pos (by rw [h]; rfl))), fun hgo hbusy => ?_, fun hgo hidle hfw base n hbase hn => ?_⟩ <;>
    rw [if_neg (by rw [hgo]; decide)] at hexec
  · refine hexec.trans (congrArg _ (if_pos ?_))
    rcases hbusy with h | h <;> simp [h]
  · subst hbase hn
    exact hexec.trans (congrArg _ (if_neg (by rw [hidle, hfw]; decide)))

variable {y : Stream} (hy : s.hub.streams.find? (fun z => z.bulk = y.bulk) = some y)
include hy

theorem ckptStep_done {d : Nat × Nat} {pa : Nat} (hdone : y.done = some d) (hpa : pa = y.list + 32 * y.next + 24) :
    (s.portAdmits (memPort pa) = false → s.ckptStep y.bulk = s) ∧
    (s.portAdmits (memPort pa) = true → ∀ u z, z = { bulk := y.bulk, list := y.list, count := y.count, next := y.next + 1 } →
      u = ((s.letIn (memPort pa)).setStream z).wrHome (.tier pa) 8 (d.1 + d.2 * 2 ^ 32) →
      (d.2 = 0 → s.ckptStep y.bulk = u) ∧ (d.2 ≠ 0 → s.ckptStep y.bulk = u.ckptFlag)) := by
  have hstep : s.ckptStep y.bulk = s.rangeDone y d.1 d.2 := by
    unfold State.ckptStep
    simp only [hy, hdone]
  rw [hstep]
  unfold State.rangeDone State.atTier
  rw [← hpa]
  refine ⟨fun h => if_neg (by rw [h]; decide), fun h u z hz hu => ?_⟩
  subst hz hu
  rw [if_pos h]
  exact ⟨fun h0 => if_pos h0, fun h0 => if_neg h0⟩

theorem ckptStep_goesOn (hdone : y.done = none) :
    (y.len ≠ 0 → s.ckptStep y.bulk = s.sendLine y) ∧
    (y.len = 0 → y.next < y.count → s.ckptStep y.bulk = s.openRange y) ∧
    (y.len = 0 → y.count ≤ y.next → s.ckptStep y.bulk = s.endStream y.bulk) := by
  unfold State.ckptStep
  simp only [hy, hdone]
  refine ⟨fun h => if_pos h, fun h hnext => ?_, fun h hend => ?_⟩ <;> rw [if_neg (not_not_intro h)]
  · exact if_pos hnext
  · exact if_neg (Nat.not_lt.mpr hend)

end Checkpoint

/-- Settles O50: records, filters, budgets, exports and checkpoints. -/
theorem telemetryEvents : Obligations.TelemetryEvents := by
  unfold Obligations.TelemetryEvents
  refine ⟨fun s die e => ⟨rfl, fun t cls tenant slot f => offer_cases⟩, fun s die k f e rest =>
      ⟨goes_filterEvent_idle, goes_filterEvent⟩,
    fun s u fn x hu => ⟨goes_tattachWrite_unread hu, fun b f d => goes_tattachWrite hu⟩,
    fun s fn d k x f => goes_tdetachWrite, fun s die tenant x m hm => ?_,
    fun s die slot => ⟨goes_exportSnap_none, fun f => goes_exportSnap⟩, fun s core die sensor temp k u hk hu => ?_,
    fun s old => ⟨timed_due s old, mem_timedEvents_kinds s old⟩, fun s x u hu => ?_⟩
  · obtain ⟨hno, hset⟩ := goes_tbudgetWrite hm
    exact ⟨hno, hset, rfl⟩
  · obtain ⟨hnone, hsome⟩ := goes_slots hk hu
    exact ⟨hnone, hsome, rfl⟩
  · obtain ⟨hoff, hbusy, hgo⟩ := goes_ckptGo hu
    exact ⟨hoff, hbusy, hgo, fun y hy => ⟨fun d pa => ckptStep_done hy, ckptStep_goesOn hy⟩⟩

end Sys2Proof.Machine
